-- ==== Sys2Proof/Word.lean ====
section
/-! DEFINITION. The word and byte types, and their plainest arithmetic (spec/00_scope.md, R6 and R7). -/

namespace Sys2Proof

/-- One byte of memory, of a ring entry or of a message. -/
abbrev Byte := BitVec 8

/-- One control-core register or word of memory (R10). -/
abbrev Word := BitVec 32

/-- Bits `lo + n - 1` down to `lo` of a number (R6). -/
def bitsOf (v lo n : Nat) : Nat := (v >>> lo) % 2 ^ n

/-- A number's `n` low bits read as a two's complement value. -/
def signedOf (n v : Nat) : Int :=
  let u := v % 2 ^ n
  if u < 2 ^ (n - 1) then (u : Int) else (u : Int) - (2 ^ n : Nat)

/-- The `n` low bits of an integer, as the unsigned number they spell. -/
def unsignedOf (n : Nat) (i : Int) : Nat := (i % ((2 ^ n : Nat) : Int)).toNat

/-- An integer held between two bounds. -/
def clampInt (lo hi i : Int) : Int := if i < lo then lo else if hi < i then hi else i

/-- A number held between two bounds. -/
def clampNat (lo hi n : Nat) : Nat := if n < lo then lo else if hi < n then hi else n

/-- One more, stopping at the all-ones value of `w` bits (R19). -/
def satInc (w n : Nat) : Nat := if n + 1 < 2 ^ w then n + 1 else 2 ^ w - 1

/-- Rounding to the nearest integer, a half away from zero's side upwards: floor(a / 2^k + 1/2). -/
def roundShift (k : Nat) (a : Int) : Int := if k = 0 then a else (a + (2 ^ (k - 1) : Nat)) / ((2 ^ k : Nat) : Int)

/-- The number that bytes spell, least significant first (R7). -/
def leVal : List Byte → Nat
  | [] => 0
  | b :: bs => b.toNat + 256 * leVal bs

/-- A number as `n` bytes, least significant first (R7). -/
def leBytes : Nat → Nat → List Byte
  | 0, _ => []
  | n + 1, v => BitVec.ofNat 8 v :: leBytes n (v / 256)

/-- The number that bytes spell, most significant first. -/
def beVal (bs : List Byte) : Nat := leVal bs.reverse

/-- A number as `n` bytes, most significant first. -/
def beBytes (n v : Nat) : List Byte := (leBytes n v).reverse

/-- `n` bytes from offset `off`, zeros beyond the end. -/
def sliceB (l : List Byte) (off n : Nat) : List Byte :=
  let m := (l.drop off).take n
  m ++ List.replicate (n - m.length) 0

/-- The little-endian number in `n` bytes at offset `off`. -/
def fieldB (l : List Byte) (off n : Nat) : Nat := leVal (sliceB l off n)

/-- `l` with `d` written at offset `off`, the length kept. -/
def spliceB (l : List Byte) (off : Nat) (d : List Byte) : List Byte :=
  (l.take off ++ d ++ l.drop (off + d.length)).take l.length

/-- `n` zero bytes. -/
def zerosB (n : Nat) : List Byte := List.replicate n 0

/-- Bytewise exclusive or. -/
def xorB (a b : List Byte) : List Byte := List.zipWith (· ^^^ ·) a b

/-- The lowest index below `n` that meets a test. -/
def lowestIdx (n : Nat) (p : Nat → Bool) : Option Nat := (List.range n).find? p

/-- How many indices below `n` meet a test. -/
def countIdx (n : Nat) (p : Nat → Bool) : Nat := ((List.range n).filter p).length

/-- The `n` indices below `n` as a bit mask of those that meet a test. -/
def maskOf (n : Nat) (p : Nat → Bool) : Nat :=
  (List.range n).foldl (fun a i => if p i then a + 2 ^ i else a) 0

/-- A list with its entry `i` replaced by `f` of it. -/
def modifyNth {α : Type} (l : List α) (i : Nat) (f : α → α) : List α := l.modify i f

/-- A Boolean as a bit. -/
def b2n (b : Bool) : Nat := if b then 1 else 0

end Sys2Proof
end

