-- ==== Sys2Proof/Syntax.lean ====
section
/-! DEFINITION. The commands of the block: one constructor per row of spec/opcode_table.json. A command's operands are
what the world outside the part decides: the port, the value written, the sample, temperature or outcome an analogue
circuit gives, the bytes of a message (log entry 1). -/

namespace Sys2Proof

/-- One wedge as it passes under the head (R208): where the SAM starts, in SERVO cycles from its prediction, if anything
was found to start there; the cells from that start on, as the demodulator slices them; and the ADC's samples of the
preamble's cells and of the cells of bursts A to D. -/
structure Wedge where
  start : Option Int
  cells : List Bool
  pre : List (List Int)
  bursts : List (List (List Int))
  deriving DecidableEq, Repr


/-- A feature that SET_FEATURE and CLEAR_FEATURE name to the function (R884). -/
inductive FnFeature
  | endpointHalt (e : Fin 7)
  | remoteWakeup
  | testMode (selector : BitVec 8)
  deriving DecidableEq, Repr

/-- Whom a GET_STATUS request to the function asks (R884). -/
inductive Recipient
  | device | interface
  | endpoint (e : Fin 7)
  deriving DecidableEq, Repr

/-- The speed of a downstream device. -/
inductive UsbSpeed
  | full | low | high
  deriving DecidableEq, Repr

/-- The transports of recovery (R140). -/
inductive Transport
  | usb | hostPort | uart
  deriving DecidableEq, Repr

/-- What a core's access is: a load (with its sign extension), a store of a value, or a fetch. -/
inductive CoreAccess
  | load (rd : Fin 32) (signed : Bool)
  | store (v : Word)
  | fetch
  deriving DecidableEq, Repr

/-- The nine AMO operations of RV32A. -/
inductive AmoOp
  | swap | add | xor | and | or | min | max | minu | maxu
  deriving DecidableEq, Repr

/-- An atomic access: an AMO with its operand, an LR, or an SC with its value and whether 128 CORE cycles have passed
since the LR (R626). -/
inductive Atomic
  | amo (op : AmoOp) (v : Word)
  | lr
  | sc (v : Word) (late : Bool)
  deriving DecidableEq, Repr

/-- How a media routine's formatter request ends: the STATUS values of Table 21.14, in their order from 0. -/
inductive MediaStatus
  | ok | readFail | piFail | writeFail | seekFail | aborted | hw | badRequest
  deriving DecidableEq, Repr

/-- What the media decide of a command's accesses, as (port, unit sector): the sectors that still end FAIL after every
retry, those of them that stripe-joint decoding recovers, those whose writes still end CUT or SKIPPED after 8 attempts,
those whose request ends before the media can decide, and those whose verify read fails after a rewrite in place (R416). -/
structure MediaEnd where
  fail : List (Nat × Nat) := []
  joint : List (Nat × Nat) := []
  cut : List (Nat × Nat) := []
  stop : List ((Nat × Nat) × MediaStatus) := []
  verify : List (Nat × Nat) := []
  deriving DecidableEq, Repr

/-- What discovery finds on a port: three answers of the preamp, the phase-pair resistances in 10 mΩ units, 0xFFFF for open,
and for a spindle that turns its revolution's time in SERVO cycles. -/
structure PortSeen where
  answers : List Byte := []
  uv : Nat := 0xFFFF
  vw : Nat := 0xFFFF
  wu : Nat := 0xFFFF
  turning : Option Nat := none
  deriving DecidableEq, Repr

/-- A message path of chapter 21, the CDB 0xC0 tunnel apart. -/
inductive MsgPath
  | mailbox | vendor | uart
  deriving DecidableEq, Repr

/-- The commands, one per row of the table of operations and events. -/
inductive Instr
  /-- A write to a register that has no row of its own sets its fields by their access codes (R15). The writer (0 Core A, 1 Core B, 2 the debug transport, 3 the host), the address or the host's HP_A, and the word. -/
  | registerWrite (b : Fin 4) (a : Word) (v : Word)
  /-- After 1024 clean XTAL32 cycles the AON domain switches from the RC oscillator to XTAL32 (R45). -/
  | xtal32Select
  /-- XTAL32 shows no edge for 4 RC periods, so AON falls back to RC and CLK_FAULT is raised (R46). -/
  | xtal32Loss
  /-- A PLL lock detector deasserts, its CLK_STATUS bit clears, CLK_FAULT is raised and its domain stops (R48). By its CLK_STATUS bit. -/
  | pllLockLoss (pll : Fin 5)
  /-- The part gates the CORE clock once IDLE_AUTO is set and both cores and all listed engines are idle (R56). -/
  | idleEntry
  /-- A condition of R56 stops holding and the CORE clock returns without Dusk or Dawn (R57). -/
  | idleExit
  /-- A write of 2 to SLEEP_REQ checks the STANDBY conditions and starts the STANDBY Dusk or refuses (R59). -/
  | standbyRequest
  /-- A write of 3 to SLEEP_REQ checks the NADIR conditions and starts the NADIR Dusk or refuses (R60). -/
  | nadirRequest
  /-- The Dusk stop step exceeds its STOP_LIMIT bound and aborts (R72). What is left unstopped. -/
  | duskStopTimeout (d : Fin 16) (left : BitVec 16)
  /-- The Dusk drain step still has outstanding transactions after its bound and aborts (R73). What is left outstanding. -/
  | duskDrainTimeout (d : Fin 16) (left : BitVec 16)
  /-- A domain's outstanding traffic has drained and its Dusk clamps, stops clocks and opens its switches (R71). -/
  | duskComplete (d : Fin 16)
  /-- A domain's power good, PLL lock and restore complete and its consumers restart (R76). -/
  | dawnComplete (d : Fin 16) (healthy : Bool)
  /-- A wake source of Table 2.5 occurs outside ACTIVE, is recorded and starts Dawn if enabled (R64). By its PWR_WAKE_EN bit. -/
  | wakeEvent (src : Fin 6)
  /-- PWR_WAKE_TIMER counts down from 1 to 0 and records the TIMER wake source (R103). -/
  | wakeTimerExpiry
  /-- RAIL_WAIT AON ticks after PMIC_EN[2] the NADIR Dawn continues with its domains (R93). Whether every switched rail is above its threshold. -/
  | pmicRailWaitEnd (good : Bool)
  /-- A change of a PWR_DOMAIN_REQ bit runs Dusk or Dawn of that one domain (R100). -/
  | domainRequest (v : Word)
  /-- Every 10,000 SERVO cycles the Power Governor computes its level and ceilings (R86). Telemetry in degrees, mV and mA. -/
  | govUpdate (tPower : BitVec 8) (vmot : BitVec 16) (iVmot : BitVec 16) (iCore : BitVec 16)
  /-- The logic die reaches 110 °C and a Pin-class thermal shutdown reset is applied (R1071). -/
  | logicThermalShutdown
  /-- VAON crosses or drops below its threshold and a Cold-class reset is applied (R109). -/
  | coldPowerOnReset
  /-- After 16 AON ticks the cold power-on reset releases and the XTAL and OTP shadow load start (R112). -/
  | coldResetRelease
  /-- VDD_CORE or VDD_ANA drops below its threshold and a Pin-class reset is applied (R110). Which rail dropped: VDD_ANA or VDD_CORE. -/
  | railPowerOnReset (ana : Bool)
  /-- A recognised low pulse on RESET_N applies a Pin-class reset (R115). -/
  | resetNAssert
  /-- The self-timed OTP shadow load completes and SYS_CAP becomes valid (R113). -/
  | otpShadowLoadDone
  /-- On the first AON tick where every release condition holds, internal reset is released (R114). HP_MODE and BOOT_SEL as the balls stand, and whether the entropy source passes its health test. -/
  | internalResetRelease (straps : BitVec 4) (healthy : Bool)
  /-- A keyed SYS_RESET write with SYSTEM = 1 applies a System-class reset (R150). -/
  | softwareSystemReset (v : Word)
  /-- A keyed SYS_RESET write with CORE_A or CORE_B restarts the named core at its restart vector (R118). -/
  | softwareCoreReset (v : Word)
  /-- Setting SYS_CORE_RUN.B releases Core B at SYS_RESTART_VEC_B (R117). -/
  | coreBRelease
  /-- Core A's first fetch runs the Boot ROM initialisation, Host Port enable and path selection (R129). A FAULT detail of R141's list, and the failing memory of a self-test. -/
  | bootRomStart (fault : BitVec 8) (test : BitVec 8)
  /-- A NADIR Dawn with zero PWR_WAKE_VECTOR re-enables the Host Port and reruns slot selection (R149). -/
  | bootRomWakePath
  /-- A HELLO message claims recovery for its transport and returns identity and target slot (R140). `good` tells whether the CRC holds. -/
  | recoveryHello (t : Transport) (seq : Byte) (good : Bool) (payload : List Byte)
  /-- A WRITE message writes data at an offset of the target slot, or returns STATUS 3 (R138). -/
  | recoveryWrite (t : Transport) (seq : Byte) (good : Bool) (payload : List Byte)
  /-- A VERIFY message returns the result code of the target slot (R137). `type` is the message's TYPE, 3 for VERIFY; TYPEs without a row of their own come here too. -/
  | recoveryVerify (type : Byte) (t : Transport) (seq : Byte) (good : Bool) (payload : List Byte)
  /-- A BOOT message reruns slot selection from the start (R132). -/
  | recoveryBoot (t : Transport) (seq : Byte) (good : Bool) (payload : List Byte)
  /-- An ALMANAC message returns COUNT Almanac records from INDEX (R137). -/
  | recoveryAlmanac (t : Transport) (seq : Byte) (good : Bool) (payload : List Byte)
  /-- A DFU_DNLOAD block n writes 1024 bytes at offset n × 1024 of the target slot (R135). -/
  | dfuDnload (block : BitVec 16) (d : List Byte)
  /-- A zero-length DFU_DNLOAD runs VERIFY and boots a valid slot or ends in dfuERROR (R135). -/
  | dfuManifest
  /-- A DFU_UPLOAD request is answered with STALL (R135). -/
  | dfuUpload
  /-- A keyed OTP_PROG write starts programming one fuse bit or is refused (R153). -/
  | otpProgram (v : Word)
  /-- The programming of a fuse bit ends and OTP_STATUS.DONE is set (R1073). -/
  | otpProgramDone
  /-- Otivo at firmware start logs power-on, loads records, writes READY and discovers and spins ports (R142). Otivo's own microcode image, what discovery finds by port, the entropy source's health, and a detail of Table 21.16 less 0x7F, or 0. -/
  | otivoStart (img : List Byte) (seen : List PortSeen) (healthy : Bool) (fault : Fin 7)
  /-- After heads load Otivo compares the MRAM and disc record copies and rewrites the losers (R427). -/
  | hdaRecordCheck (p : Fin 8) (m : MediaEnd)
  /-- Once every member has loaded or failed, Otivo assembles a volume from the array metadata (R148). -/
  | volumeAssembly (v : Fin 4)
  /-- SPN_CMD START moves a stopped port to WAIT or a coasting port into flying restart (R174). -/
  | spnStart (p : Fin 8)
  /-- SPN_CMD STOP unloads heads if loaded and sends the port to COAST or BRAKE (R184). -/
  | spnStop (p : Fin 8)
  /-- SPN_CMD MEASURE starts the coil resistance measurement in STOPPED (R195). -/
  | spnMeasure (p : Fin 8)
  /-- The resistance measurement ends and writes SPN_RES_A, SPN_RES_B and VCM_COIL_RES (R196). The four results in 10 mΩ units, 0xFFFF for open. -/
  | measureDone (p : Fin 8) (uv : Nat) (vw : Nat) (wu : Nat) (vcm : Nat)
  /-- SPN_CMD CLEAR_FAULT clears a spindle fault when stopped, else sets CMD_REFUSED (R168). `still`: the stopped condition of R168 holds. -/
  | spnClearFault (p : Fin 8) (still : Bool)
  /-- Both switches of a half-bridge are commanded on and the interlock holds both off (R162). -/
  | shootThroughInterlock (p : Fin 8) (half : Fin 3)
  /-- Phase current beyond the protective trip latches a spindle fault with cause 2 (R167). -/
  | spindleOvercurrent (p : Fin 8)
  /-- Phase current above ILIM turns the high-side switch off for the rest of the PWM period (R160). The sensed phase current. -/
  | currentLimitChop (p : Fin 8) (ma : Nat)
  /-- A waiting port is admitted to spin up once slots and the VMOT budget allow (R175). -/
  | spinupAdmit
  /-- ALIGN.TIME elapses and the port begins its open-loop RAMP (R179). -/
  | alignEnd (p : Fin 8)
  /-- The back-EMF comparator of the floating phase detects a zero crossing, accepted within ±30° (R170). SERVO cycles since the crossing before, and degrees electrical from the prediction. -/
  | zeroCrossing (p : Fin 8) (ticks : Nat) (off : Int)
  /-- Missing crossings or phase error declare loss of lock, drop write gates and enter COAST (R186). -/
  | lossOfLock (p : Fin 8)
  /-- No resynchronisation within 3 × P_last unloads, coasts and follows the spin-up retry rule (R190). -/
  | flyRestartTimeout (p : Fin 8)
  /-- Handover or AT_SPEED is not reached in time, so the spin-up fails and retries or faults (R181). -/
  | spinupFail (p : Fin 8)
  /-- A coasting or braking port meets the stopped condition and enters STOPPED (R185). -/
  | spindleStopped (p : Fin 8)
  /-- VCM current beyond the trip latches FAULT_OC and retracts that port (R193). -/
  | vcmOvercurrent (p : Fin 8)
  /-- VMOT, VDD_CORE, PWRFAIL_N or 125 °C starts the power die's emergency retract (R197). RETRACT_CAUSE minus 1: VMOT, VDD_CORE, PWRFAIL_N or temperature. -/
  | emergencyRetract (cause : Fin 4)
  /-- No valid link frame for 40 PD_OSC periods declares link loss and starts the retract (R198). -/
  | linkLoss
  /-- The 30 ms retract profile ends, the VCM goes high-Z and RETRACTED latches (R201). `own` names a port whose own retract of R193 ends; `vret` tells whether VRET lasted. -/
  | retractProfileEnd (own : Option (Fin 8)) (vret : Bool)
  /-- A PS_RETRACT_CLR write clears RETRACTED when the cause no longer holds (R204). Whether VDD_CORE, PWRFAIL_N or the link still fails. -/
  | retractClear (holds : Bool)
  /-- The servo gate opens LEAD cycles before the predicted SAM and holds the write gate off (R214). -/
  | servoGateOpen (p : Fin 8)
  /-- A servo wedge closes and its fields are decoded into a position and error (R221). -/
  | servoWedge (p : Fin 8) (w : Wedge)
  /-- MISS_LIMIT consecutive bad wedges declare servo loss and enter LOST (R225). -/
  | servoLoss (p : Fin 8)
  /-- No acquisition within RECOVER_REVS sets LOSS_FAIL and unloads the heads (R228). -/
  | servoRecoveryTimeout (p : Fin 8)
  /-- SRV_CMD LOAD drives the heads off the ramp and enters LOADING and ACQUIRE (R240). -/
  | srvLoad (p : Fin 8)
  /-- SRV_CMD UNLOAD ends any seek or load and starts the unload (R254). -/
  | srvUnload (p : Fin 8)
  /-- SRV_CMD SEEK starts a seek in SEEK or SETTLE with its acceleration level fixed (R229). -/
  | srvSeek (p : Fin 8) (head : Fin 16) (accel : Fin 16)
  /-- FOLLOW not reached within SEEK_TIMEOUT wedges sets SEEK_TIMEOUT once (R236). -/
  | seekTimeout (p : Fin 8)
  /-- No servo within LOAD_TIMEOUT ms sets LOAD_FAIL and unloads by the back-EMF profile (R242). -/
  | loadTimeout (p : Fin 8)
  /-- The 30 ms back-EMF profile ends, the VCM goes high-Z and the port is UNLOADED (R243). -/
  | unloadDone (p : Fin 8)
  /-- SHOCK_N falls and every port's write-inhibit latch is held set (R247). -/
  | shockNAssert
  /-- SHOCK_N rises and each port starts counting SHOCK_HOLD wedges (R247). -/
  | shockNRelease
  /-- SHOCK_HOLD wedges have passed and the latch may clear when WRITE_OK returns (R248). -/
  | shockHoldEnd (p : Fin 8)
  /-- The engine runs a driving update of a VCM context and updates the DAC (R262). -/
  | sceDrivingUpdate
  /-- A tracking update selects a set and presets states from the sensed current (R258). The VCM current sensed, in the low 16 bits. -/
  | sceTrackingUpdate (sense : Word)
  /-- The engine runs the spindle context and latches a new PWM duty (R259). -/
  | sceSpindleUpdate
  /-- After PD_SERVO reset release the SCE clears its memories and sets INIT_DONE (R288). -/
  | sceInitDone
  /-- CTX_CMD CLEAR_STATES zeroes every state of a context before its next update (R292). -/
  | clearStates (c : Fin 24)
  /-- A write to an active or blending set's coefficient takes effect next update and sets SCE_LIVE_WRITE (R290). -/
  | coefficientWrite (c : Fin 24) (set : Fin 16) (w : Fin 32) (v : Word)
  /-- A read of CTX_STATE_LO captures the whole selected state for CTX_STATE_HI (R293). -/
  | stateCaptureRead (c : Fin 24)
  /-- CH_ZONE LOAD copies a Zone Settings Memory entry into the active registers (R297). -/
  | zoneLoad (p : Fin 8) (z : Fin 32)
  /-- A zone load held by an open gate takes effect in the cycle after the gate closes (R299). -/
  | zoneLoadDeferred (p : Fin 8)
  /-- A zone load completes and queues its enabled preamp frames (R298). -/
  | zoneLoadDone (p : Fin 8)
  /-- At the end of each AGC window the digital gain and possibly the VGA are updated (R301). -/
  | agcWindowUpdate (p : Fin 8)
  /-- Each CHAN cycle the timing loop updates its frequency term and phase (R313). The cycle's four ADC samples (R294), and the tentative detector's decisions on the symbols equalized in it, in order from bit 0. -/
  | timingLoopUpdate (p : Fin 8) (samples : List (BitVec 7)) (dec : Byte)
  /-- After sync each CHAN cycle the LMS loop adapts the equalizer taps (R317). -/
  | lmsUpdate (p : Fin 8)
  /-- The sync detector accepts the first start in its window matching the pattern (R321). -/
  | syncDetect (p : Fin 8)
  /-- No sync start is accepted within the window, so the gate writes no LLR and reports a miss (R322). -/
  | syncMiss (p : Fin 8)
  /-- N input LLRs have been written and the slot becomes FILLED (R359). -/
  | llrSlotFilled (p : Fin 8)
  /-- An armed read gate opens WG_SETUP symbols after its slot start (R452). -/
  | readGateOpen (p : Fin 8)
  /-- The read gate closes, cutting the slot if fewer than N LLRs were written (R325). -/
  | readGateClose (p : Fin 8)
  /-- Pn_PA_WG is asserted at a write slot start when every condition holds (R330). -/
  | writeGateOpen (p : Fin 8)
  /-- A write condition fails during a write, dropping the gate and reporting WRITE_CUT (R331). -/
  | writeCut (p : Fin 8) (bitsDone : Nat)
  /-- Pn_PA_WG is deasserted at the end of the last pad bit (R333). -/
  | writeGateEnd (p : Fin 8)
  /-- A PA_CMD write queues a firmware preamp frame, or is refused while busy (R338). -/
  | paCommand (p : Fin 8) (frame : BitVec 16)
  /-- The interface starts the next queued frame, hardware frames first (R336). -/
  | paFrameStart (p : Fin 8)
  /-- A preamp frame ends, setting PA_DONE and for a read PA_RDATA.VALID (R338). -/
  | paFrameEnd (p : Fin 8) (data : Byte)
  /-- The filtered Pn_PA_FLT_N falls, blocking writes and setting PA_FAULT (R339). -/
  | preampFault (p : Fin 8)
  /-- A firmware write to EQ_TAP.VALUE replaces the tap and its base at the next CHAN cycle (R341). -/
  | eqTapWrite (p : Fin 8) (n : Fin 12) (v : BitVec 12)
  /-- A read of IDU_SLOT_ALLOC allocates the lowest free slot to firmware (R358). -/
  | slotAllocRead
  /-- The dispatcher takes a job entry and accepts it to QUEUED or completes it BAD_JOB (R360). Ring 192 + n, or 208 for 8. -/
  | iduJobAccept (n : Fin 9)
  /-- A free IDU is given the next job by the dispatch order with its iteration limit (R366). -/
  | iduDispatch (n : Fin 6)
  /-- A job ends OK or FAIL and writes SOFT and DEC (R350). -/
  | iduJobEnd (n : Fin 6)
  /-- A completion retried for 4096 CHAN cycles against a full ring raises COMPL_OVERFLOW (R390). -/
  | complOverflow
  /-- A held completion is written once the completion ring has room (R390). -/
  | completionRetry
  /-- A release frees a DONE, FILLING, HELD or LOST slot, or withdraws its job (R364). -/
  | iduSlotRelease (slot : Fin 64)
  /-- A withdrawn job stops at the end of its iteration, posts RELEASED and frees the slot (R365). The global iteration that it stops at the end of, where an IDU runs it. -/
  | jobWithdrawn (slot : Fin 48) (iters : Fin 16)
  /-- The iteration governor updates its budget from the pool backlog (R367). -/
  | iduGovUpdate
  /-- A job running beyond JOB_TIMEOUT fences its IDU and is re-issued (R372). -/
  | jobTimeout (n : Fin 6)
  /-- An uncorrectable error in an IDU's internal memory fences that IDU (R372). -/
  | iduMemoryError (n : Fin 6) (byte : Fin 65536)
  /-- IDU_CMD FENCE fences an IDU with cause 3 and re-issues its jobs (R375). -/
  | iduFence (n : Fin 6)
  /-- IDU_CMD UNFENCE runs the known-answer test and returns the IDU on a pass (R377). -/
  | iduUnfence (n : Fin 6)
  /-- IDU_CMD run test starts the known-answer test on an IDU now (R373). -/
  | iduRunKat (n : Fin 6)
  /-- Every KAT PERIOD ms the pool schedules the known-answer test on each IDU (R373). -/
  | katPeriod
  /-- An IDU not free within a further period receives no new job until its test runs (R374). -/
  | katWaitTimeout (n : Fin 6)
  /-- The known-answer test ends and fences the IDU on a mismatch (R373). Whether CRC and iteration count match. -/
  | katDone (n : Fin 6) (pass : Bool)
  /-- The SJD unit takes a request from ring 210 and starts its first round (R380). -/
  | sjdRequest
  /-- A member re-decode completes on ring 209 and the round continues or ends (R382). -/
  | sjdMemberCompletion
  /-- A refused SJD enqueue retried for 4096 CORE cycles raises COMPL_OVERFLOW (R593). -/
  | sjdEnqueueTimeout
  /-- An uncorrectable error in a slot's IN area sets it LOST and ends its job SLOT_LOST (R387). -/
  | slotLost (slot : Fin 48) (byte : Fin 65536)
  /-- A write to LLR_WIN_DATA writes a firmware-owned FILLED or HELD slot and advances INDEX (R391). -/
  | llrWindowWrite (v : Word)
  /-- A read of LLR_WIN_DATA returns the value at the address and advances INDEX (R391). -/
  | llrWindowRead
  /-- Otivo moves a unit sector to the next spare and appends a grown-list entry (R417). How many pool slots fail their verify first. -/
  | reallocate (p : Fin 8) (sec : BitVec 40) (bad : Fin 128)
  /-- Otivo writes a record body, both boot blocks and both disc copies in order (R429). -/
  | recordUpdate (p : Fin 8)
  /-- A NEXT microword runs its nanoword actions and continues at PC + 1 (R440). `timeout`: FMT_CTX_WTO has run out, for a WAITING context. -/
  | microNext (p : Fin 8) (timeout : Bool)
  /-- A JUMP continues at an address in the same page (R434). -/
  | microJump (p : Fin 8)
  /-- A JCC jumps within the page when its condition is true (R437). -/
  | microJcc (p : Fin 8)
  /-- A JNC jumps within the page when its condition is false (R437). -/
  | microJnc (p : Fin 8)
  /-- A CALL pushes PC + 1 and jumps within the page (R438). -/
  | microCall (p : Fin 8)
  /-- A CALLV pushes PC + 1 and jumps to an FMT_ENTRY address (R438). -/
  | microCallv (p : Fin 8)
  /-- A RET pops the micro-stack and continues there (R438). -/
  | microRet (p : Fin 8)
  /-- A LOOP decrements LC and jumps while it is not 0 (R437). -/
  | microLoop (p : Fin 8)
  /-- A POLL is a safe point that halts, vectors to the fault or interrupt handler, or continues (R470). -/
  | microPoll (p : Fin 8)
  /-- A DISPATCH pushes PC + 1 and jumps to FMT_ENTRY[16 + OP] (R434). -/
  | microDispatch (p : Fin 8)
  /-- A HALT microword stops the context with the stopping actions (R476). -/
  | microHalt (p : Fin 8)
  /-- A microword with SEQ 0xC to 0xF causes hard fault 1 (R475). -/
  | illegalSeq (p : Fin 8)
  /-- A stalled microword completes once its ring, gate, DMA or queue condition allows (R432). -/
  | stalledWordComplete (p : Fin 8)
  /-- A word stalled 4096 CORE cycles on a full ring sets fault cause 2 and RING_OVF (R449). -/
  | ringStallTimeout (p : Fin 8)
  /-- The context timer counts down to 0 (R445). -/
  | contextTimerExpiry (p : Fin 8)
  /-- At an armed gate's slot start the gate opens or ends SKIPPED or BAD_SLOT (R453). `early`: less than ZSG after the close of a servo gate that began a zone load. -/
  | gateSlotStart (p : Fin 8) (early : Bool)
  /-- The write prefetch of data and PI completes for an armed write gate (R454). -/
  | writePrefetchDone (p : Fin 8)
  /-- An ended gate places its result in the context's result queue (R456). -/
  | gateEnd (p : Fin 8)
  /-- A formatter DMA finishes and records its PI result and WGEN (R464). -/
  | fmtDmaDone (p : Fin 8)
  /-- 1024 microwords since the last safe point cause hard fault 3 (R473). -/
  | safePointLimit (p : Fin 8)
  /-- FMT_CTX_CMD START begins a halted context at FMT_CTX_PC (R477). -/
  | fmtStart (p : Fin 8) (clr : Bool)
  /-- FMT_CTX_CMD HALT requests that the context stop at its next POLL (R470). -/
  | fmtHalt (p : Fin 8)
  /-- FMT_CTX_CMD STOP stops the context at once as hard fault 7 (R476). -/
  | fmtStop (p : Fin 8)
  /-- FMT_CTX_CMD FAULT sets the context's fault flag with cause 1 (R470). -/
  | fmtFault (p : Fin 8)
  /-- A write to a nanoword's +0xC word commits the staged nanoword (R479). -/
  | nanowordCommit (n : Fin 1024) (w3 : Word)
  /-- Otivo takes a port offline, failing its members and notifying the host (R527). The row of Table 12.2, less one, and for spindle faults whether the spindle stands still, for preamp faults whether FLT has stayed 1 for 1 s. -/
  | portOffline (p : Fin 8) (cause : Fin 5) (held : Bool)
  /-- Once REBUILD_DELAY and the other conditions hold Otivo starts a rebuild (R535). Whether REBUILD_DELAY has passed. -/
  | rebuildStart (v : Fin 4) (waited : Bool)
  /-- The rebuild reconstructs the chunks of one row into their spare slots (R537). -/
  | rebuildRow (v : Fin 4) (m : MediaEnd)
  /-- Copy-back writes one row's member chunk to its home slot on the replacement (R544). -/
  | copybackRow (v : Fin 4) (m : MediaEnd)
  /-- A replacement that fails during copy-back returns the member to FAILED (R548). -/
  | replacementFail (v : Fin 4)
  /-- Otivo destages dirty data, data members before parity and copy 0 before copy 1 (R811). -/
  | destage (v : Fin 4) (unit : BitVec 56) (m : MediaEnd)
  /-- After WI_IDLE seconds without writes Otivo clears the region's bit (R550). -/
  | writeIntentClear (v : Fin 4) (j : BitVec 18)
  /-- At assembly Otivo resynchronises each region whose write-intent bit is set (R551). -/
  | resyncRegion (v : Fin 4) (j : BitVec 18) (m : MediaEnd)
  /-- Otivo moves one group of rows to the new layout with backup and checkpoints (R556). -/
  | reshapeGroup (v : Fin 4) (m : MediaEnd)
  /-- A member lost during a reshape pauses it at the next boundary (R567). -/
  | reshapePause (v : Fin 4)
  /-- A GEN command writes P and Q outputs of its sources (R568). -/
  | aeGen
  /-- A SOLVE command computes one or two lost data members from P' and Q' (R569). -/
  | aeSolve
  /-- A COPY command writes source 0 into both destinations (R570). -/
  | aeCopy
  /-- A ZERO command writes zeros into DST0 (R570). -/
  | aeZero
  /-- A CHECK command computes GEN outputs and completes MISMATCH on any non-zero byte (R571). -/
  | aeCheck
  /-- A running command ends and posts one completion on ring 257 (R574). -/
  | aeCommandComplete
  /-- A completion retried 4096 CORE cycles against a full ring 257 raises AE_COMPL_OVERFLOW (R577). -/
  | aeComplOverflow
  /-- A QM_DOORBELL write publishes entries by advancing PI, or is rejected (R586). -/
  | qmDoorbell (v : Word)
  /-- A QM_CONSUME write advances CI, or is rejected with code 2 or 3 (R594). -/
  | qmConsume (v : Word)
  /-- A write to QM_ENQ_RING copies QM_ENQ_DATA into the ring and reports the result (R589). `b` is the requester's bank: Core A, Core B or the debug transport. -/
  | qmStagedEnqueue (b : Fin 3) (v : Word)
  /-- A hardware producer's enqueue writes the entry and PI, or is refused (R591). The entry its producer hands over. -/
  | qmHardwareEnqueue (ring : Fin 1024) (e : List Byte)
  /-- A hardware consumer takes an entry, delivered poisoned if it holds an uncorrectable byte (R604). -/
  | qmHardwareDequeue (ring : Fin 1024)
  /-- A QM_RING_CFG or QM_RING_BASE write configures a ring with its locked-field and enable checks (R581). `b` is the requester's bank; `cfg` tells QM_RING_CFG from QM_RING_BASE. -/
  | qmRingConfigWrite (b : Fin 3) (cfg : Bool) (v : Word)
  /-- QM_RING_CMD RESET zeroes PI and CI and clears the ring's status bits and latch (R618). The requester's bank, whose QM_RING_SEL names the ring. -/
  | qmRingReset (b : Fin 3)
  /-- A non-zero CODE write clears QM_ERR_INFO as a whole (R1079). -/
  | qmErrInfoClear (v : Word)
  /-- An event source input asserts or rises and its pending bit follows (R606). -/
  | eventInput (n : Fin 128)
  /-- A read of EVC_CLAIM returns the highest-priority deliverable source and clears it if an edge (R609). The core whose register is read, and whether the debug transport reads it. -/
  | evcClaim (c : Fin 2) (dbg : Bool)
  /-- A write to EVC_SW_SET asserts software event sources (R615). -/
  | evcSwSet (v : Word)
  /-- A write to EVC_SW_CLR deasserts software event sources (R615). -/
  | evcSwClr (v : Word)
  /-- An EVC_SRC_CFG write that changes MODE re-derives the pending bit (R1070). -/
  | evcSourceConfig (n : Fin 128) (v : Word)
  /-- A core load, store or fetch reaches its target or faults (R622). The core, the access, log2 of its bytes, the address and the instruction's own address. -/
  | coreAccess (c : Fin 2) (k : CoreAccess) (size : Fin 3) (a : Word) (pc : Word)
  /-- A core AMO is performed indivisibly on a supported region (R627). -/
  | coreAmo (c : Fin 2) (op : AmoOp) (rd : Fin 32) (a : Word) (v : Word) (pc : Word)
  /-- A core LR sets a reservation on its 64-byte block (R626). -/
  | coreLr (c : Fin 2) (rd : Fin 32) (a : Word) (pc : Word)
  /-- A core SC succeeds only if its reservation still holds (R626). 128 CORE cycles have passed since the LR. -/
  | coreSc (c : Fin 2) (rd : Fin 32) (a : Word) (v : Word) (pc : Word) (late : Bool)
  /-- MTIME advances by one at 1 MHz and timers count (R638). -/
  | mtimeTick
  /-- A timer reaching 0 raises its event and reloads or disables (R641). -/
  | timerExpiry (n : Fin 4)
  /-- A TIMERn_LOAD write sets LOAD, and COUNT too while EN is 0 (R642). -/
  | timerLoadWrite (n : Fin 4) (v : Word)
  /-- Writing EN to 1 with COUNT 0 loads COUNT from LOAD (R642). -/
  | timerCtrlWrite (n : Fin 4) (v : Word)
  /-- A read of MTIME_LO captures all 64 bits for MTIME_HI (R640). -/
  | mtimeCaptureRead
  /-- The watchdog's first stage expires and raises its event (R643). -/
  | wdtStage1Expiry (c : Fin 2)
  /-- The second stage expires and applies a Core-class reset to its core (R643). -/
  | wdtStage2Expiry (c : Fin 2)
  /-- A keyed WDT_KICK reloads the watchdog, else BAD_KICKS increments (R644). -/
  | wdtKick (c : Fin 2) (v : Word)
  /-- Setting ARM starts the watchdog and locks its configuration (R647). -/
  | wdtArm (c : Fin 2) (v : Word)
  /-- A Debug Module system bus access reads or writes as requester ID 2 with its error rules (R650). -/
  | systemBusAccess (write : Bool) (size : Fin 3) (a : Word) (v : Word)
  /-- A write of dmactive = 1 activates the Debug Module and raises DBG_ATTACH (R648). -/
  | debugActivate
  /-- A received byte enters the RX FIFO or sets OVERRUN or FRAMING (R654). Its stop bit. -/
  | uartRxByte (b : Byte) (stop : Bool)
  /-- A UART_DATA write pushes a byte into the TX FIFO (R653). -/
  | uartTxWrite (v : Word)
  /-- A UART_DATA read pops a byte from the RX FIFO (R654). -/
  | uartRxRead
  /-- An enabled GPIO edge sets GPIO_STAT and may wake the part (R657). -/
  | gpioEdge (pin : Fin 16) (level : Bool)
  /-- A read through the data area looks up its set, hits, allocates or bypasses (R678). Requester, instruction fetch, STREAM hint, address and length inside one line. -/
  | lcRead (req : Fin 17) (instr : Bool) (hint : Bool) (a : Word) (n : Fin 65)
  /-- A write updates a valid cached line and merges into the WCB (R666). -/
  | lcWrite (req : Fin 17) (hint : Bool) (a : Word) (d : List Byte)
  /-- A line fill returns and is written into its way with pending writes applied (R702). The fill's place among those in flight. -/
  | lcFillDone (k : Nat)
  /-- A WCB entry starts to drain on a full mask, timeout, pressure, ordering or clean (R670). The entry's place, oldest first. -/
  | wcbDrain (k : Fin 16)
  /-- The memory path accepts a drained line write and the entry is freed (R672). -/
  | wcbDrainDone (k : Fin 16)
  /-- An alias AMO, LR or SC is performed indivisibly at the memory path (R675). -/
  | lcAliasAmo (c : Fin 2) (k : Atomic) (rd : Fin 32) (a : Word) (pc : Word)
  /-- The streaming detector updates K after 256 outcomes or 2^20 cycles (R681). -/
  | streamDetectorUpdate
  /-- LC_OP CLEAN drains the WCB entries of each line (R689). MODE: set and way. -/
  | lcClean (mode : Bool)
  /-- LC_OP INVALIDATE makes each line invalid, keeping lock bits (R687). -/
  | lcInvalidate (mode : Bool)
  /-- LC_OP CLEAN_INVALIDATE cleans and then invalidates each line (R689). -/
  | lcCleanInvalidate (mode : Bool)
  /-- LC_OP PRELOAD_LOCK fills and locks each line of a range in the given ways (R684). `req` wrote LC_OP. -/
  | lcPreloadLock (req : Fin 3) (mode : Bool) (ways : BitVec 16)
  /-- LC_OP UNLOCK clears the lock bits of a range or a set and way (R686). -/
  | lcUnlock (mode : Bool)
  /-- LC_OP DRAIN_ALL drains every WCB entry (R688). -/
  | lcDrainAll
  /-- LC_OP INVALIDATE_ALL invalidates every line in 512 cycles (R690). -/
  | lcInvalidateAll
  /-- LC_OP UNLOCK_ALL clears every lock bit (R686). -/
  | lcUnlockAll
  /-- A maintenance operation ends, clearing OP_BUSY and setting OP_DONE (R692). -/
  | lcOpDone
  /-- After PD_CORE reset release or Dawn the cache clears itself and sets INIT_DONE (R693). -/
  | lcInitDone
  /-- A write of 0 to LC_CTRL.ENABLE invalidates every line and clears every lock (R694). -/
  | lcDisable (v : Word)
  /-- A line failing its side-record check is read once more and delivered clean or poisoned (R722). The line's first read failed on the read path. -/
  | dramRetryRead (req : Fin 17) (a : Word)
  /-- A keyed INT_INJECT write arms one check-bit error injection (R731). -/
  | errorInjectArm (v : Word)
  /-- After a Dawn hardware finishes zeroing the DTCMs, Ring SRAM or Endpoint Memory (R708). 0 the DTCMs, 1 the Ring SRAM, 2 the Endpoint Memory. -/
  | memoryInitDone (m : Fin 3)
  /-- On DRAM_TAG_FAIL Otivo marks captured dirty sectors lost and sets LOST_DATA (R727). -/
  | lostDataHandling
  /-- Otivo rewrites a captured correctable location from its value or image (R715). The memory, its capture, and the byte in the firmware or microcode image. -/
  | eccRepair (m : Fin 13) (k : Fin 4) (img : Byte)
  /-- After a master key draw the region table is zeroed and INIT_DONE is set (R737). -/
  | regionTableInitDone
  /-- Re-encryption of a region ends, performs the triggering write and raises BC_REKEY (R751). -/
  | reencryptionDone
  /-- A REKEY region command re-encrypts each written region of its range (R752). -/
  | bcRekey
  /-- A DISCARD region command makes each region of its range unwritten (R753). -/
  | bcDiscard
  /-- A change of a WINDOW_EN bit makes every region of that window unwritten (R755). -/
  | windowEnableWrite (v : Word)
  /-- GENERATE creates, wraps and stores a new key for an empty band and loads it (R771). The entropy health test's outcome, where a draw is made. -/
  | keyGenerate (healthy : Bool)
  /-- LOAD unwraps a band key into its slot, or fails AUTH_FAIL and holds (R772). -/
  | keyLoad
  /-- UNLOAD clears a band slot once units in flight have finished (R783). -/
  | keyUnload
  /-- ERASE replaces a band's key with a new one and increments GENERATION (R774). -/
  | keyErase (healthy : Bool)
  /-- DELETE writes both copies EMPTY and clears the slot (R774). -/
  | keyDelete
  /-- REWRAP stores the same key under a new salt and credential (R772). -/
  | keyRewrap (healthy : Bool)
  /-- ROOT_PROGRAM burns 256 entropy bits into ROOT_KEY (R775). -/
  | rootProgram (healthy : Bool)
  /-- STATUS returns a band record's fields and changes nothing (R771). -/
  | keyStatus
  /-- 250 ms after an AUTH_FAIL the Media Cipher takes commands again (R772). -/
  | authHoldEnd
  /-- A tag doorbell is accepted into the HQE or rejected with an error code (R787). -/
  | hqeDoorbell (usb : Bool) (tag : Fin 32)
  /-- A ring 7 descriptor starts a data transfer or completes BAD_DESC (R797). -/
  | transferDescriptor
  /-- A transfer ends and posts its ring 8 entry, stopping on poison or block (R799). -/
  | transferDone (usb : Bool)
  /-- The transport reports the last byte and the HQE posts a FAST completion (R818). -/
  | fastPathDone (usb : Bool)
  /-- A ring 1 completion from firmware is posted to its transport or discarded (R800). -/
  | firmwareCompletion
  /-- A completion waiting for ring space is posted when HEAD moves (R802). -/
  | postingRelease (usb : Bool)
  /-- HQE_MAP_SYNC START sets SYNC_BUSY for in-flight fast transfers (R821). -/
  | mapSync
  /-- SYNC_BUSY clears when every earlier fast transfer has ended (R821). -/
  | mapSyncDone
  /-- A write to HQE_TAG_SPLIT repartitions tags, or fails while any tag is busy (R785). -/
  | tagSplitWrite (v : Word)
  /-- Otivo writes the dirty-count record at the end of a 100 ms interval with changes (R825). -/
  | dirtyCountPersist
  /-- A CONTROL write with RESET and the right KEY applies the Host Port CONTROL reset (R842). -/
  | hpControlReset (v : BitVec 16)
  /-- An interface-scope Host Port reset completes and STATUS returns to normal (R120). -/
  | hpInterfaceResetDone
  /-- An HP_CFG.ENABLE write enables the Host Port or returns it to the disabled condition (R130). -/
  | hostPortEnable (v : Word)
  /-- A DOORBELL register write rings a Host Port tag's doorbell (R847). -/
  | hpDoorbellWrite (v : BitVec 16)
  /-- A WINDOW write stores into a free Host Port slot and advances INDEX, or is refused (R846). -/
  | hpWindowWrite (v : BitVec 16)
  /-- A WINDOW read in space 0 or 1 returns slot or ring bytes and advances INDEX (R845). -/
  | hpWindowRead
  /-- A space-2 WINDOW read peeks Buffer DRAM and advances the peek address (R862). -/
  | hpPeekRead
  /-- A CQ write moves HEAD of the Host Port completion ring (R848). -/
  | hpCqWrite (v : BitVec 16)
  /-- A data cycle or DATA cycle moves one unit of the data stream (R853). -/
  | hpDataTransfer (write : Bool) (v : BitVec 16)
  /-- A cycle held WAIT_LIMIT CORE cycles completes as not ready with code 7 (R854). -/
  | hpWaitLimit
  /-- Both strobes asserted make a cycle with no effect and code 13 (R833). -/
  | hpStrobeConflict
  /-- A BYTE_HI write sets the write latch WHI in 8-bit mode (R837). -/
  | hpByteHiWrite (v : BitVec 16)
  /-- A MBOX_IN write appends one byte to the in-buffer, or overruns (R857). -/
  | hpMboxInWrite (v : BitVec 16)
  /-- MBOX_CTL PUSH enqueues the in-buffer on ring 2 (R858). -/
  | hpMboxPush
  /-- MBOX_CTL END enqueues the in-buffer with FLAGS.END (R858). -/
  | hpMboxEnd
  /-- MBOX_CTL IN_CLEAR discards the in-buffer (R861). -/
  | hpMboxInClear
  /-- MBOX_CTL OUT_FLUSH discards the out-buffer and the rest of its message (R861). -/
  | hpMboxOutFlush
  /-- A waiting in-buffer entry is accepted by ring 2 once it has room (R858). -/
  | hpMboxInEnqueue
  /-- With an empty out-buffer the Host Port takes the head entry of ring 3 (R859). -/
  | hpMboxOutTake
  /-- A MBOX_OUT read returns and removes the next out-buffer byte (R859). -/
  | hpMboxOutRead
  /-- SB_CMD READ builds slot 31 for one sector and rings tag 31 (R865). -/
  | hpSbRead (v : BitVec 16)
  /-- SB_CMD WRITE builds slot 31 for one sector and rings tag 31 (R865). -/
  | hpSbWrite (v : BitVec 16)
  /-- Tag 31's completion writes SB_CMD.RESULT, clears BUSY and sets DONE (R866). -/
  | hpSbComplete
  /-- A read of ERROR returns the first recorded code and clears it (R871). -/
  | hpErrorRead
  /-- The hub answers a USB 2.0 standard request in hardware (R876). -/
  | hubStandardRequest (setup : Vector Byte 8)
  /-- GET_HUB_STATUS returns the hub status (R876). -/
  | hubGetStatus
  /-- GET_PORT_STATUS returns a port's status and changes (R876). Port n + 1. -/
  | getPortStatus (n : Fin 5)
  /-- SET_PORT_FEATURE sets a port feature such as PORT_POWER (R877). -/
  | setPortFeature (n : Fin 5) (f : BitVec 8)
  /-- CLEAR_PORT_FEATURE clears a port feature (R877). -/
  | clearPortFeature (n : Fin 5) (f : BitVec 8)
  /-- CLEAR_TT_BUFFER clears a TT buffer (R876). -/
  | clearTtBuffer (n : Fin 4)
  /-- RESET_TT resets the Transaction Translator (R876). -/
  | resetTt
  /-- GET_TT_STATE, STOP_TT and SET_HUB_DESCRIPTOR are answered with STALL (R876). -/
  | hubUnsupportedRequest
  /-- DSn_OC_N low for 2 ms removes port power and sets over-current (R878). -/
  | downstreamOvercurrent (n : Fin 4)
  /-- An IN token on the hub status-change endpoint returns the bitmap or NAK (R880). -/
  | statusChangePoll
  /-- The USB Block sets the function address (R884). -/
  | fnSetAddress (a : BitVec 7)
  /-- The USB Block answers GET_STATUS to the function (R884). -/
  | fnGetStatus (r : Recipient)
  /-- SET_FEATURE sets ENDPOINT_HALT, remote wakeup or test mode (R893). -/
  | fnSetFeature (f : FnFeature)
  /-- CLEAR_FEATURE clears ENDPOINT_HALT with its toggle, or remote wakeup (R893). -/
  | fnClearFeature (f : FnFeature)
  /-- A function request not handled in hardware is posted on ring 4 (R885). -/
  | controlRequestPost (setup : Vector Byte 8) (out : List Byte)
  /-- USB_EP0_CTL SEND sends the IN data stage from the EP0 buffer (R886). -/
  | ep0Send (v : Word)
  /-- USB_EP0_CTL ACK completes the status stage (R886). -/
  | ep0Ack (v : Word)
  /-- USB_EP0_CTL STALL answers the rest of the transfer with STALL (R886). -/
  | ep0Stall (v : Word)
  /-- The vendor debug read request reads words as requester ID 5 (R890). -/
  | debugReadRequest (setup : Vector Byte 8)
  /-- The vendor debug write request writes words as requester ID 5 (R890). -/
  | debugWriteRequest (setup : Vector Byte 8) (out : List Byte)
  /-- A BOT CBW is received into a command context or rejected (R896). -/
  | cbwReceived (pkt : List Byte)
  /-- A UAS Command IU is accepted into a context or answered as overlapped (R898). -/
  | uasCommandIu (pkt : List Byte)
  /-- A UAS Task Management IU is accepted into a context (R898). -/
  | uasTaskManagementIu (pkt : List Byte)
  /-- USB_MSE_START KIND 0 rings the HQE doorbell of the named tag (R899). -/
  | mseStartHqe (v : Word)
  /-- USB_MSE_START KIND 1 moves data between an endpoint and a Buffer DRAM buffer (R901). -/
  | mseStartBuffer (v : Word)
  /-- USB_MSE_START KIND 2 starts a command with no data (R901). -/
  | mseStartNoData (v : Word)
  /-- USB_MSE_START KIND 3 sends a task management response (R900). -/
  | mseStartTmResponse (v : Word)
  /-- A ready data phase begins on the data endpoints (R904). -/
  | dataPhaseStart
  /-- An IN token is answered with an armed packet, NAK or STALL (R905). Whether the host acknowledges the packet. -/
  | usbInToken (e : Fin 7) (ack : Bool)
  /-- An OUT packet is accepted with ACK or NYET, or answered NAK or STALL (R906). -/
  | usbOutPacket (e : Fin 7) (d : List Byte)
  /-- The MSE reads a USB completion and sends status or holds it for firmware (R907). -/
  | mseCompletion
  /-- USB_MSE_FINISH sends a held context's status from USB_MSE_SENSE (R909). -/
  | mseFinish (v : Word)
  /-- The host acknowledges a context's status and the context becomes free (R911). -/
  | statusAcknowledged (c : Fin 16)
  /-- A Bulk-Only Mass Storage Reset resets the MSE and is posted on ring 4 (R912). -/
  | bulkOnlyReset
  /-- A write that changes USB_MSE_CFG.UAS resets the MSE (R912). -/
  | uasModeWrite (v : Word)
  /-- Bytes received on EP5 are packed into ring 5 entries (R917). -/
  | vendorPipeOut
  /-- Ring 6 entries are sent on EP6 and end with a short packet (R918). -/
  | vendorPipeIn
  /-- 3 ms without bus activity suspends the upstream port and the hub (R920). -/
  | usbSuspend
  /-- Otivo applies SUSPEND_ACTION when the function is suspended and USB tags are free (R923). -/
  | suspendAction
  /-- At the end of resume signalling the hub repeats resume and raises USB_RESUME (R925). -/
  | usbResume
  /-- A write to USB_CTRL.RWAKE requests remote wake, or records code 8 (R926). -/
  | remoteWakeRequest (v : Word)
  /-- Remote wake begins no sooner than 5 ms into suspend and drives resume (R927). -/
  | remoteWakeStart
  /-- A bus reset applies the USB-class reset and retires USB tags (R928). Whether the host completes the high-speed chirp. -/
  | usbBusReset (chirp : Bool)
  /-- VBUS absent removes the pull-up and applies the bus-reset effects (R930). -/
  | vbusLoss
  /-- VBUS_DET sees VBUS above its rising threshold (R929). -/
  | vbusArrival
  /-- A write to FN_ATTACH connects or disconnects port 5 (R881). -/
  | fnAttachWrite (v : Word)
  /-- TEST UNIT READY reports whether the volume is assembled and not failed (R913). -/
  | scsiTestUnitReady
  /-- REQUEST SENSE returns and clears the LUN's last sense (R913). -/
  | scsiRequestSense
  /-- INQUIRY returns standard data or VPD pages (R913). -/
  | scsiInquiry
  /-- MODE SENSE returns the caching page (R913). -/
  | scsiModeSense
  /-- START STOP UNIT spins the volume's ports down or up (R913). -/
  | scsiStartStopUnit
  /-- PREVENT ALLOW MEDIUM REMOVAL completes GOOD with no effect (R913). -/
  | scsiPreventAllow
  /-- READ CAPACITY(10) returns the last LBA and block length (R913). -/
  | scsiReadCapacity10
  /-- READ CAPACITY(16) returns the 8-byte last LBA and block length (R913). -/
  | scsiReadCapacity16
  /-- READ(10) or READ(16) becomes an HQE READ (R914). -/
  | scsiRead
  /-- WRITE(10) or WRITE(16) becomes an HQE WRITE (R914). -/
  | scsiWrite
  /-- SYNCHRONIZE CACHE becomes an HQE FLUSH of the volume (R913). -/
  | scsiSynchronizeCache
  /-- REPORT LUNS returns the LUNs of defined volumes (R913). -/
  | scsiReportLuns
  /-- CDB 0xC0 carries an OCS message out or returns the held reply (R939). Whether a request for a reply has waited 10 s. -/
  | scsiOcsTunnel (timeout : Bool)
  /-- Any other operation code completes CHECK CONDITION 0x5/0x20/0x00 (R913). -/
  | scsiUnsupported
  /-- GET_MAX_LUN is answered with 3 (R913). -/
  | getMaxLun
  /-- A whole OCS message is taken from a message path and dispatched or rejected (R936). On the UART, a frame's message and whether its CRC holds. -/
  | ocsMessage (t : MsgPath) (frame : List Byte) (good : Bool)
  /-- OCS READ is checked and served in ascending LBA order (R946). -/
  | ocsRead (m : MediaEnd)
  /-- OCS WRITE receives data and completes once the map refers to it, or on media for FUA (R805). -/
  | ocsWrite (m : MediaEnd)
  /-- OCS FLUSH completes once earlier acknowledged data of the volume is on media (R808). -/
  | ocsFlush (m : MediaEnd)
  /-- Otivo resolves an ABORT handed to it with one of its outcomes (R952). -/
  | ocsAbort
  /-- IDENTIFY returns the 256-byte identity structure (R953). -/
  | ocsIdentify
  /-- HEALTH returns the 256-byte health structure (R953). -/
  | ocsHealth
  /-- GET_FEATURE returns the value of a feature in force (R954). -/
  | ocsGetFeature
  /-- SET_FEATURE sets a feature, saving it when SAVE is 1 (R955). -/
  | ocsSetFeature
  /-- LOG_READ returns Almanac records, the summary or an unreadable-unit list (R956). -/
  | ocsLogRead
  /-- VOLUME_CREATE initialises every stripe and writes a new volume record (R958). How many rows a step of the create writes, and the entropy source's health. -/
  | ocsVolumeCreate (m : MediaEnd) (rows : BitVec 32) (healthy : Bool)
  /-- VOLUME_DELETE empties a volume's record and deletes its band (R960). -/
  | ocsVolumeDelete
  /-- VOLUME_RESHAPE starts a background reshape (R961). -/
  | ocsVolumeReshape
  /-- VOLUME_STATUS returns the volume record and a progress block (R962). -/
  | ocsVolumeStatus
  /-- PORT_CONTROL OFFLINE takes a port offline unless a volume would fail (R963). -/
  | ocsPortOffline
  /-- PORT_CONTROL ONLINE repeats a port's discovery and spin-up (R964). -/
  | ocsPortOnline (seen : PortSeen)
  /-- HDA_RECORD READ returns a port's MRAM record (R965). -/
  | ocsHdaRecordRead
  /-- HDA_RECORD WRITE stores a new record and repeats discovery (R965). -/
  | ocsHdaRecordWrite (seen : PortSeen)
  /-- REBUILD_CONTROL HOLD sets REBUILD_HOLD (R966). -/
  | ocsRebuildHold
  /-- REBUILD_CONTROL RELEASE clears REBUILD_HOLD (R966). -/
  | ocsRebuildRelease
  /-- REBUILD_CONTROL START_NOW ends the remaining REBUILD_DELAY (R535). -/
  | ocsRebuildStartNow
  /-- REBUILD_CONTROL REPLACE accepts a replacement and starts copy-back (R543). -/
  | ocsReplace
  /-- SECURITY UNLOCK loads the volume's band with the credential (R781). -/
  | ocsUnlock
  /-- SECURITY LOCK unloads the band and locks the volume (R781). -/
  | ocsLock
  /-- SECURITY SET_CREDENTIAL rewraps the band under a new credential (R968). -/
  | ocsSetCredential (healthy : Bool)
  /-- SECURITY CLEAR_CREDENTIAL rewraps the band without a credential (R968). -/
  | ocsClearCredential (healthy : Bool)
  /-- SECURITY CRYPTO_ERASE discards cached data and erases the band (R967). -/
  | ocsCryptoErase (healthy : Bool)
  /-- POWER STANDBY unloads heads and requests STANDBY once tags are free (R969). -/
  | ocsPowerStandby
  /-- POWER STANDBY_LOADED requests STANDBY with heads following (R969). -/
  | ocsPowerStandbyLoaded
  /-- POWER STANDBY_STOPPED stops spindles and requests STANDBY (R969). -/
  | ocsPowerStandbyStopped
  /-- POWER NADIR destages, stops spindles, drains rings and requests NADIR (R970). -/
  | ocsPowerNadir (m : MediaEnd)
  /-- A sleep request refused for 1 s is abandoned and logged (R969). -/
  | powerRequestAbandon
  /-- POWER SPIN_DOWN unloads and stops the ports in the mask (R971). -/
  | ocsSpinDown
  /-- POWER SPIN_UP starts and loads the ports in the mask (R971). -/
  | ocsSpinUp
  /-- FW_DOWNLOAD writes data into the slot that is not running (R972). -/
  | ocsFwDownload
  /-- FW_ACTIVATE verifies the downloaded slot (R973). -/
  | ocsFwActivate
  /-- After a good activation Otivo flushes and performs a software system reset (R974). Whether 10 s have passed since the activation. -/
  | fwActivateReset (m : MediaEnd) (timeout : Bool)
  /-- FW_ACTIVATE with byte 20 = 1 burns ANTI_ROLLBACK bits up to SECURITY_VERSION (R975). -/
  | ocsAntiRollback
  /-- DIAG IDU_TEST runs the known-answer test on one IDU (R976). -/
  | ocsDiagIduTest
  /-- DIAG UNFENCE unfences one IDU (R976). -/
  | ocsDiagUnfence
  /-- DIAG MEASURE measures a stopped port's coil resistances (R976). -/
  | ocsDiagMeasure
  /-- DIAG RAW_READ reads one unit sector in raw layout (R976). -/
  | ocsDiagRawRead (m : MediaEnd)
  /-- DIAG REG_READ returns words read from an address (R976). -/
  | ocsDiagRegRead
  /-- DIAG INJECT writes INT_INJECT (R976). -/
  | ocsDiagInject
  /-- MICROCODE STAGE writes data into the staging buffer (R977). -/
  | ocsMicrocodeStage
  /-- MICROCODE LOAD loads a staged mbasm image and restarts the contexts (R977). -/
  | ocsMicrocodeLoad
  /-- MICROCODE REQUEST sends a formatter request to a free port (R978). -/
  | ocsMicrocodeRequest
  /-- No formatter completion within 10 s halts the context and fails the request (R979). -/
  | microcodeRequestTimeout
  /-- MICROCODE FETCH returns bytes of the passthrough buffer (R978). -/
  | ocsMicrocodeFetch
  /-- An unknown opcode completes INVALID_OPCODE (R945). -/
  | ocsInvalidOpcode
  /-- Otivo delivers an unmasked status-change notification on each transport (R981). -/
  | notification (t : MsgPath)
  /-- Every 28,800 AON cycles the power-on-time counter increments (R989). -/
  | timeTick
  /-- After PD_CORE reset or Dawn the writer reads every slot and sets READY (R997). -/
  | almanacIndexBuild
  /-- The writer takes a ring 448 entry, chooses a slot and writes the record (R999). -/
  | almanacRecord
  /-- ALM_CMD ERASE invalidates every slot and writes LOG_ERASED (R1010). -/
  | almErase
  /-- ALM_CMD CLEAR_DROPPED zeroes every DROPPED count (R1011). -/
  | almClearDropped
  /-- The IDCODE instruction selects the identification register (R649). -/
  | jtagIdcode
  /-- SAMPLE/PRELOAD captures or loads the boundary register (R1042). The balls as they stand, and what is shifted in. -/
  | jtagSamplePreload (balls : BitVec 232) (cells : BitVec 232)
  /-- EXTEST drives the balls from the boundary register and loses the die-to-die link (R1044). -/
  | jtagExtest
  /-- CLAMP holds the boundary outputs and loses the die-to-die link (R1044). -/
  | jtagClamp
  /-- HIGHZ releases the boundary outputs (R1043). -/
  | jtagHighz
  /-- A DMI access reaches the Debug Module, or is blocked when debug is disabled (R649). -/
  | jtagDmiAccess (write : Bool) (a : BitVec 7) (v : Word)
  /-- VIO_GEN rising from below 0.5 V selects 1.8 V or 3.3 V levels (R1024). -/
  | vioGenSense (v33 : Bool)
  /-- A PLL whose lock was lost while its domain stayed on locks again, its CLK_STATUS bit sets and its domain's blocks run again (R48). -/
  | pllLockReturn (pll : Fin 5)
  /-- At the scheduled commutation time the port advances its six-step drive by one 60-degree step, with dead time on every switch transition (R158). -/
  | commutation (p : Fin 8)
  /-- At each PWM period boundary a new duty takes effect and the high-side switch turned off by the current limit may turn on again (R159). -/
  | pwmPeriodBoundary (p : Fin 8)
  /-- The filtered Pn_PA_FLT_N rises, CH_STATUS.FLT clears and the write gate may be asserted again (R339). -/
  | preampFaultClear (p : Fin 8)
  /-- Every 100 µs the logic-die temperature in THERM_STATUS is updated and THERM_N is asserted or released against THERM_CFG.THRESH (R658). Degrees, signed. -/
  | logicTempUpdate (t : BitVec 8)
  /-- The power die falls below 110 °C, PS_STATUS.THERM_SHUTDOWN clears and a thermal retract may then be cleared (R204). -/
  | powerDieCooled
  /-- VMOT rises above its rising threshold, PS_STATUS.VMOT_OK sets and VRET charges again from VMOT (R157). -/
  | vmotReturn
  /-- A read of an RC field returns it and then clears it to its reset value (R15). The reader (0 Core A, 1 Core B, 2 the debug transport) and the address. -/
  | rcRegisterRead (b : Fin 3) (a : Word)
  /-- A Host Port register read returns the register as of one CORE cycle and, in 8-bit mode, loads bits [15:8] into RHI (R837). -/
  | hpRegisterRead (a : Fin 16)
  /-- The UART finishes sending a byte, TX_LEVEL falls and the UART source may be asserted with TX_IE (R655). -/
  | uartTxByteSent
  /-- A device connects to or disconnects from downstream port 1 to 4, the port's change bit sets and USB_EVENT.HUB_PORT is set (R880). -/
  | downstreamPortChange (n : Fin 4) (connect : Bool) (speed : UsbSpeed)
  /-- A device on ports 1 to 4 signals resume and the hub carries it upstream when hub remote wake is enabled (R927). -/
  | downstreamResume (n : Fin 4)
  /-- A control-core write to an AON-resident register finishes its crossing, AON_BUSY clears and a stalled next AON write proceeds (R51). -/
  | aonWriteCrossed
  deriving DecidableEq, Repr

end Sys2Proof
end

