-- ==== Sys2Proof/Decode.lean ====
section
/-! DEFINITION. The command that a word of spec/opcode_table.json spells. No row of the table gives bits, since the block
is driven by register accesses, bus operations and events and has no instruction words: no word spells a command. -/

namespace Sys2Proof

/-- The command that `nbits` bits of the table spell. -/
def decodeTableWord (_nbits _w : Nat) : Option Instr := none

end Sys2Proof
end

