-- ==== Sys2Proof/Machine/Crypto.lean ====
section
/-! DEFINITION. The published algorithms the spec names: AES-256 (FIPS 197), GCM (SP 800-38D), XTS (IEEE 1619), key
wrap (RFC 3394), SHA-256 and SHA-512 (FIPS 180-4), Ed25519 (RFC 8032), and the spec's own CRC-32C (R393), CRC-48
(R720) and kdf (R740). The published algorithms' details are PRESUMED from those standards (log entry 6). -/

namespace Sys2Proof.Machine

/-- The product of two elements of GF(2^8) modulo the polynomial `poly` (with its degree-8 term). -/
def gf8Mul (poly a b : Nat) : Nat :=
  ((List.range 8).foldl
    (fun (st : Nat × Nat) i =>
      let acc := if b.testBit i then st.1 ^^^ st.2 else st.1
      let d := st.2 * 2
      (acc, if d < 256 then d else d ^^^ poly))
    (0, a)).1

/-- `a` to the power `n` in GF(2^8) modulo `poly`. -/
def gf8Pow (poly a : Nat) : Nat → Nat
  | 0 => 1
  | n + 1 => gf8Mul poly a (gf8Pow poly a n)

/-- The polynomial of AES. -/
def aesPoly : Nat := 0x11B

/-- x to the power 254, by squarings: the inverse in the field of AES, and 0 for 0. -/
def aesInv (x : Nat) : Nat :=
  let m := gf8Mul aesPoly
  let x2 := m x x
  let x4 := m x2 x2
  let x8 := m x4 x4
  let x16 := m x8 x8
  let x32 := m x16 x16
  let x64 := m x32 x32
  let x128 := m x64 x64
  m x128 (m x64 (m x32 (m x16 (m x8 (m x4 x2)))))

def rotl8 (x n : Nat) : Nat := ((x <<< n) ||| (x >>> (8 - n))) % 256

/-- The S-box of AES: the field inverse, then the affine map. -/
def aesSub (b : Byte) : Byte :=
  let v := aesInv b.toNat
  BitVec.ofNat 8 (v ^^^ rotl8 v 1 ^^^ rotl8 v 2 ^^^ rotl8 v 3 ^^^ rotl8 v 4 ^^^ 0x63)

/-- The inverse S-box: the inverse affine map, then the field inverse. -/
def aesInvSub (b : Byte) : Byte :=
  let v := b.toNat
  BitVec.ofNat 8 (aesInv (rotl8 v 1 ^^^ rotl8 v 3 ^^^ rotl8 v 6 ^^^ 0x05))

def byteAt (l : List Byte) (i : Nat) : Byte := l.getD i 0#8

/-- Word `i` of the AES-256 key schedule follows from the words before it (held newest first). -/
def aesKeyStep (i : Nat) (ws : List (List Byte)) : List Byte :=
  let prev := ws.getD 0 []
  let back := ws.getD 7 []
  let t :=
    if i % 8 = 0 then
      let r := (prev.drop 1 ++ prev.take 1).map aesSub
      xorB r [BitVec.ofNat 8 (gf8Pow aesPoly 2 (i / 8 - 1)), 0#8, 0#8, 0#8]
    else if i % 8 = 4 then prev.map aesSub
    else prev
  xorB back t

/-- `n` more words of the key schedule, from word `i`; words newest first. -/
def aesExpand : Nat → Nat → List (List Byte) → List (List Byte)
  | 0, _, ws => ws
  | n + 1, i, ws => aesExpand n (i + 1) (aesKeyStep i ws :: ws)

/-- The 15 round keys of a 32-byte key, first round first. -/
def aesRoundKeys (key : List Byte) : List (List Byte) :=
  let k0 := (List.range 8).map (fun i => sliceB key (4 * i) 4)
  let ws := (aesExpand 52 8 k0.reverse).reverse
  (List.range 15).map (fun r => ((ws.drop (4 * r)).take 4).flatten)

def aesShift (s : List Byte) : List Byte :=
  (List.range 16).map (fun i => byteAt s ((i / 4 + i % 4) % 4 * 4 + i % 4))

def aesInvShift (s : List Byte) : List Byte :=
  (List.range 16).map (fun i => byteAt s ((i / 4 + 4 - i % 4) % 4 * 4 + i % 4))

/-- Columns multiplied by the circulant matrix whose first row is `a b c d`. -/
def aesMix (a b c d : Nat) (s : List Byte) : List Byte :=
  (List.range 16).map (fun i =>
    let col := i / 4 * 4
    let x (k : Nat) := (byteAt s (col + (i + k) % 4)).toNat
    let m := gf8Mul aesPoly
    BitVec.ofNat 8 (m a (x 0) ^^^ m b (x 1) ^^^ m c (x 2) ^^^ m d (x 3)))

/-- AES-256 encryption of one 16-byte block under its round keys. -/
def aesEncBlock (rks : List (List Byte)) (b : List Byte) : List Byte :=
  let s := xorB (sliceB b 0 16) (rks.getD 0 [])
  let s := (List.range 13).foldl
    (fun s r => xorB (aesMix 2 3 1 1 (aesShift (s.map aesSub))) (rks.getD (r + 1) [])) s
  xorB (aesShift (s.map aesSub)) (rks.getD 14 [])

/-- AES-256 decryption of one 16-byte block under its round keys. -/
def aesDecBlock (rks : List (List Byte)) (b : List Byte) : List Byte :=
  let s := (aesInvShift (xorB (sliceB b 0 16) (rks.getD 14 []))).map aesInvSub
  let s := (List.range 13).foldl
    (fun s r => ((aesInvShift (aesMix 14 11 13 9 (xorB s (rks.getD (13 - r) [])))).map aesInvSub)) s
  xorB s (rks.getD 0 [])

def aes256 (key block : List Byte) : List Byte := aesEncBlock (aesRoundKeys key) block

/-- ASCII bytes of a label. -/
def asciiB (s : String) : List Byte := s.toList.map (fun c => BitVec.ofNat 8 c.toNat)

/-- The key derivation function of R740. -/
def kdf (key : List Byte) (label : String) (ctx : List Byte) : List Byte :=
  let rks := aesRoundKeys key
  let blk (i : Nat) := aesEncBlock rks (BitVec.ofNat 8 i :: (sliceB (asciiB label) 0 3 ++ sliceB ctx 0 12))
  blk 1 ++ blk 2

/-- The product of two elements of the field of GCM, as 128-bit numbers, first bit of a block highest. -/
def ghashMul (x y : Nat) : Nat :=
  ((List.range 128).foldl
    (fun (st : Nat × Nat) i =>
      let z := if x.testBit (127 - i) then st.1 ^^^ st.2 else st.1
      let v := if st.2.testBit 0 then (st.2 >>> 1) ^^^ (0xE1 <<< 120) else st.2 >>> 1
      (z, v))
    (0, y)).1

/-- The bytes cut into pieces of `n`, the last one possibly short. -/
def chunksB (n : Nat) (l : List Byte) : List (List Byte) :=
  (List.range ((l.length + n - 1) / n)).map (fun i => (l.drop (n * i)).take n)

/-- The keystream of GCM counter mode for a 96-bit IV: `n` blocks from counter 2. -/
def gcmStream (rks : List (List Byte)) (iv : List Byte) (n : Nat) : List Byte :=
  ((List.range n).map (fun i => aesEncBlock rks (sliceB iv 0 12 ++ beBytes 4 (i + 2)))).flatten

/-- The 16-byte tag of GCM over a ciphertext, without additional data. -/
def gcmTag (rks : List (List Byte)) (iv ct : List Byte) : List Byte :=
  let h := beVal (aesEncBlock rks (zerosB 16))
  let y := (chunksB 16 ct).foldl (fun y c => ghashMul (y ^^^ beVal (sliceB c 0 16)) h) 0
  let y := ghashMul (y ^^^ (8 * ct.length)) h
  xorB (beBytes 16 y) (aesEncBlock rks (sliceB iv 0 12 ++ beBytes 4 1))

/-- The tweak of XTS multiplied by the primitive element, as a little-endian number. -/
def xtsDouble (t : Nat) : Nat :=
  let d := t * 2
  if d < 2 ^ 128 then d else (d % 2 ^ 128) ^^^ 0x87

/-- XTS over whole blocks of one data unit: `f` is the block cipher's direction, `t` the tweak. -/
def xtsBlocks (f : List Byte → List Byte) : Nat → List (List Byte) → List Byte
  | _, [] => []
  | t, b :: bs => xorB (f (xorB b (leBytes 16 t))) (leBytes 16 t) ++ xtsBlocks f (xtsDouble t) bs

/-- XTS-AES-256 of one data unit under Key1 ‖ Key2, with the sequence number `n` (R763). -/
def xtsEncrypt (key : List Byte) (n : Nat) (data : List Byte) : List Byte :=
  let t := leVal (aes256 (sliceB key 32 32) (leBytes 16 n))
  xtsBlocks (aesEncBlock (aesRoundKeys (sliceB key 0 32))) t (chunksB 16 data)

def xtsDecrypt (key : List Byte) (n : Nat) (data : List Byte) : List Byte :=
  let t := leVal (aes256 (sliceB key 32 32) (leBytes 16 n))
  xtsBlocks (aesDecBlock (aesRoundKeys (sliceB key 0 32))) t (chunksB 16 data)

/-- One step of RFC 3394's wrapping: round counter `t`, register index `i`. -/
def wrapStep (rks : List (List Byte)) (n : Nat) (st : List Byte × List (List Byte)) (k : Nat) :
    List Byte × List (List Byte) :=
  let i := k % n
  let b := aesEncBlock rks (st.1 ++ st.2.getD i [])
  (xorB (sliceB b 0 8) (beBytes 8 (k + 1)), st.2.set i (sliceB b 8 8))

def unwrapStep (rks : List (List Byte)) (n : Nat) (st : List Byte × List (List Byte)) (k : Nat) :
    List Byte × List (List Byte) :=
  let i := k % n
  let b := aesDecBlock rks (xorB st.1 (beBytes 8 (k + 1)) ++ st.2.getD i [])
  (sliceB b 0 8, st.2.set i (sliceB b 8 8))

/-- The default IV of RFC 3394. -/
def wrapIv : List Byte := List.replicate 8 0xA6#8

/-- RFC 3394 wrapping of whole 64-bit blocks under a 32-byte key. -/
def keyWrap (kek data : List Byte) : List Byte :=
  let rs := chunksB 8 data
  let n := rs.length
  let (a, rs) := (List.range (6 * n)).foldl (wrapStep (aesRoundKeys kek) n) (wrapIv, rs)
  a ++ rs.flatten

/-- RFC 3394 unwrapping; none where the integrity check fails. -/
def keyUnwrap (kek wrapped : List Byte) : Option (List Byte) :=
  let rs := chunksB 8 (wrapped.drop 8)
  let n := rs.length
  let (a, rs) := (List.range (6 * n)).reverse.foldl (unwrapStep (aesRoundKeys kek) n) (sliceB wrapped 0 8, rs)
  if a = wrapIv then some rs.flatten else none

/-- A reflected CRC: `w` bits, polynomial `poly` reflected, least significant bit of each byte first. -/
def crcReflected (poly : Nat) (bs : List Byte) (init : Nat) : Nat :=
  bs.foldl
    (fun c b =>
      (List.range 8).foldl (fun c _ => if c.testBit 0 then (c >>> 1) ^^^ poly else c >>> 1) (c ^^^ b.toNat))
    init

/-- The CRC-32C of R393. -/
def crc32c (bs : List Byte) : Nat := crcReflected 0x82F63B78 bs 0xFFFFFFFF ^^^ 0xFFFFFFFF

/-- The 48-bit CRC of R720, most significant bit first. -/
def crc48 (bs : List Byte) : Nat :=
  (bs.foldl
    (fun c b =>
      (List.range 8).foldl
        (fun c _ => if c.testBit 47 then ((c * 2) % 2 ^ 48) ^^^ 0x8C2F9B5D3A47 else (c * 2) % 2 ^ 48)
        (c ^^^ (b.toNat <<< 40)))
    (2 ^ 48 - 1)) ^^^ (2 ^ 48 - 1)

/-! ## SHA-256 and SHA-512 (FIPS 180-4) -/

/-- The round constants of SHA-256. -/
def sha256K : List Nat :=
  [0x428A2F98, 0x71374491, 0xB5C0FBCF, 0xE9B5DBA5, 0x3956C25B, 0x59F111F1, 0x923F82A4, 0xAB1C5ED5,
   0xD807AA98, 0x12835B01, 0x243185BE, 0x550C7DC3, 0x72BE5D74, 0x80DEB1FE, 0x9BDC06A7, 0xC19BF174]
    ++ [0xE49B69C1, 0xEFBE4786, 0xFC19DC6, 0x240CA1CC, 0x2DE92C6F, 0x4A7484AA, 0x5CB0A9DC, 0x76F988DA,
   0x983E5152, 0xA831C66D, 0xB00327C8, 0xBF597FC7, 0xC6E00BF3, 0xD5A79147, 0x6CA6351, 0x14292967]
    ++ [0x27B70A85, 0x2E1B2138, 0x4D2C6DFC, 0x53380D13, 0x650A7354, 0x766A0ABB, 0x81C2C92E, 0x92722C85,
   0xA2BFE8A1, 0xA81A664B, 0xC24B8B70, 0xC76C51A3, 0xD192E819, 0xD6990624, 0xF40E3585, 0x106AA070]
    ++ [0x19A4C116, 0x1E376C08, 0x2748774C, 0x34B0BCB5, 0x391C0CB3, 0x4ED8AA4A, 0x5B9CCA4F, 0x682E6FF3,
   0x748F82EE, 0x78A5636F, 0x84C87814, 0x8CC70208, 0x90BEFFFA, 0xA4506CEB, 0xBEF9A3F7, 0xC67178F2]

/-- The initial hash of SHA-256. -/
def sha256H : List Nat :=
  [0x6A09E667, 0xBB67AE85, 0x3C6EF372, 0xA54FF53A, 0x510E527F, 0x9B05688C, 0x1F83D9AB, 0x5BE0CD19]

/-- The round constants of SHA-512. -/
def sha512K : List Nat :=
  [0x428A2F98D728AE22, 0x7137449123EF65CD, 0xB5C0FBCFEC4D3B2F, 0xE9B5DBA58189DBBC,
   0x3956C25BF348B538, 0x59F111F1B605D019, 0x923F82A4AF194F9B, 0xAB1C5ED5DA6D8118,
   0xD807AA98A3030242, 0x12835B0145706FBE, 0x243185BE4EE4B28C, 0x550C7DC3D5FFB4E2,
   0x72BE5D74F27B896F, 0x80DEB1FE3B1696B1, 0x9BDC06A725C71235, 0xC19BF174CF692694]
    ++ [0xE49B69C19EF14AD2, 0xEFBE4786384F25E3, 0xFC19DC68B8CD5B5, 0x240CA1CC77AC9C65,
   0x2DE92C6F592B0275, 0x4A7484AA6EA6E483, 0x5CB0A9DCBD41FBD4, 0x76F988DA831153B5,
   0x983E5152EE66DFAB, 0xA831C66D2DB43210, 0xB00327C898FB213F, 0xBF597FC7BEEF0EE4,
   0xC6E00BF33DA88FC2, 0xD5A79147930AA725, 0x6CA6351E003826F, 0x142929670A0E6E70]
    ++ [0x27B70A8546D22FFC, 0x2E1B21385C26C926, 0x4D2C6DFC5AC42AED, 0x53380D139D95B3DF,
   0x650A73548BAF63DE, 0x766A0ABB3C77B2A8, 0x81C2C92E47EDAEE6, 0x92722C851482353B,
   0xA2BFE8A14CF10364, 0xA81A664BBC423001, 0xC24B8B70D0F89791, 0xC76C51A30654BE30,
   0xD192E819D6EF5218, 0xD69906245565A910, 0xF40E35855771202A, 0x106AA07032BBD1B8]
    ++ [0x19A4C116B8D2D0C8, 0x1E376C085141AB53, 0x2748774CDF8EEB99, 0x34B0BCB5E19B48A8,
   0x391C0CB3C5C95A63, 0x4ED8AA4AE3418ACB, 0x5B9CCA4F7763E373, 0x682E6FF3D6B2B8A3,
   0x748F82EE5DEFB2FC, 0x78A5636F43172F60, 0x84C87814A1F0AB72, 0x8CC702081A6439EC,
   0x90BEFFFA23631E28, 0xA4506CEBDE82BDE9, 0xBEF9A3F7B2C67915, 0xC67178F2E372532B]
    ++ [0xCA273ECEEA26619C, 0xD186B8C721C0C207, 0xEADA7DD6CDE0EB1E, 0xF57D4F7FEE6ED178,
   0x6F067AA72176FBA, 0xA637DC5A2C898A6, 0x113F9804BEF90DAE, 0x1B710B35131C471B,
   0x28DB77F523047D84, 0x32CAAB7B40C72493, 0x3C9EBE0A15C9BEBC, 0x431D67C49C100D4C,
   0x4CC5D4BECB3E42B6, 0x597F299CFC657E2A, 0x5FCB6FAB3AD6FAEC, 0x6C44198C4A475817]

/-- The initial hash of SHA-512. -/
def sha512H : List Nat :=
  [0x6A09E667F3BCC908, 0xBB67AE8584CAA73B, 0x3C6EF372FE94F82B, 0xA54FF53A5F1D36F1,
   0x510E527FADE682D1, 0x9B05688C2B3E6C1F, 0x1F83D9ABFB41BD6B, 0x5BE0CD19137E2179]

/-- Rotation of a `w`-bit number to the right. -/
def rotr (w x n : Nat) : Nat := ((x >>> n) ||| (x <<< (w - n))) % 2 ^ w

/-- What tells the two hash functions apart: word width, the rotations of the four mixing functions, the round
constants. -/
structure ShaPar where
  w : Nat
  e0 : Nat × Nat × Nat
  e1 : Nat × Nat × Nat
  o0 : Nat × Nat × Nat
  o1 : Nat × Nat × Nat
  k : List Nat

/-- SHA-256's parameters. -/
def sha256Par : ShaPar := ⟨32, (2, 13, 22), (6, 11, 25), (7, 18, 3), (17, 19, 10), sha256K⟩

/-- SHA-512's parameters. -/
def sha512Par : ShaPar := ⟨64, (28, 34, 39), (14, 18, 41), (1, 8, 7), (19, 61, 6), sha512K⟩

/-- Three rotations combined. -/
def sha3Rot (w x : Nat) (r : Nat × Nat × Nat) : Nat := rotr w x r.1 ^^^ rotr w x r.2.1 ^^^ rotr w x r.2.2

/-- Two rotations and a shift combined. -/
def sha2Rot (w x : Nat) (r : Nat × Nat × Nat) : Nat := rotr w x r.1 ^^^ rotr w x r.2.1 ^^^ (x >>> r.2.2)

/-- The message schedule, newest word first, lengthened by `n` words. -/
def shaSchedule (p : ShaPar) : Nat → List Nat → List Nat
  | 0, ws => ws
  | n + 1, ws =>
    shaSchedule p n (((sha2Rot p.w (ws.getD 1 0) p.o1 + ws.getD 6 0 + sha2Rot p.w (ws.getD 14 0) p.o0 + ws.getD 15 0)
      % 2 ^ p.w) :: ws)

/-- One round on the eight working variables. -/
def shaRound (p : ShaPar) (v : List Nat) (kw : Nat × Nat) : List Nat :=
  match v with
  | [a, b, c, d, e, f, g, h] =>
    let t1 := h + sha3Rot p.w e p.e1 + ((e &&& f) ^^^ ((2 ^ p.w - 1 - e) &&& g)) + kw.1 + kw.2
    let t2 := sha3Rot p.w a p.e0 + ((a &&& b) ^^^ (a &&& c) ^^^ (b &&& c))
    [(t1 + t2) % 2 ^ p.w, a, b, c, (d + t1) % 2 ^ p.w, e, f, g]
  | _ => v

/-- One block taken into the hash. -/
def shaBlock (p : ShaPar) (h : List Nat) (blk : List Byte) : List Nat :=
  let ws := ((chunksB (p.w / 8) blk).map beVal).reverse
  let sched := (shaSchedule p (p.k.length - 16) ws).reverse
  let v := (p.k.zip sched).foldl (shaRound p) h
  List.zipWith (fun a b => (a + b) % 2 ^ p.w) h v

/-- The padding of a message of `n` bytes: a one bit, zeros, and the length in bits. -/
def shaPad (p : ShaPar) (n : Nat) : List Byte :=
  let b := 2 * p.w
  let l := p.w / 4
  0x80#8 :: (zerosB ((2 * b - (n + 1 + l) % b) % b) ++ beBytes l (8 * n))

/-- A hash of a message. -/
def sha (p : ShaPar) (h : List Nat) (m : List Byte) : List Byte :=
  ((chunksB (2 * p.w) (m ++ shaPad p m.length)).foldl (shaBlock p) h).flatMap (beBytes (p.w / 8))

/-- SHA-256. -/
def sha256 (m : List Byte) : List Byte := sha sha256Par sha256H m

/-- SHA-512. -/
def sha512 (m : List Byte) : List Byte := sha sha512Par sha512H m

/-! ## Ed25519 (RFC 8032, R1067) -/

/-- The field's prime. -/
def edP : Nat := 2 ^ 255 - 19

/-- The group's order. -/
def edL : Nat := 2 ^ 252 + 27742317777372353535851937790883648493

/-- A power modulo `m`, over the exponent's bits from the highest. -/
def powMod (m a e : Nat) : Nat :=
  ((List.range 256).reverse.foldl (fun r i => let r := r * r % m; if e.testBit i then r * a % m else r) (1 % m))

/-- The inverse of a field element. -/
def edInv (a : Nat) : Nat := powMod edP a (edP - 2)

/-- The curve's constant d. -/
def edD : Nat := (edP - 121665) * edInv 121666 % edP

/-- A square root of -1. -/
def edI : Nat := powMod edP 2 ((edP - 1) / 4)

/-- A point in extended coordinates. -/
abbrev EdPt := Nat × Nat × Nat × Nat

/-- The neutral point. -/
def edZero : EdPt := (0, 1, 1, 0)

/-- The sum of two points. -/
def edAdd (a b : EdPt) : EdPt :=
  let (x1, y1, z1, t1) := a
  let (x2, y2, z2, t2) := b
  let aa := (y1 + edP - x1) * (y2 + edP - x2) % edP
  let bb := (y1 + x1) * (y2 + x2) % edP
  let cc := 2 * t1 * t2 * edD % edP
  let dd := 2 * z1 * z2 % edP
  let e := (bb + edP - aa) % edP
  let f := (dd + edP - cc) % edP
  let g := (dd + cc) % edP
  let h := (bb + aa) % edP
  (e * f % edP, g * h % edP, f * g % edP, e * h % edP)

/-- A point multiplied by a number below 2^256. -/
def edMul (n : Nat) (a : EdPt) : EdPt :=
  (List.range 256).reverse.foldl (fun r i => let r := edAdd r r; if n.testBit i then edAdd r a else r) edZero

/-- The x of a point with a given y and sign, where there is one (RFC 8032, section 5.1.3). -/
def edX (y sign : Nat) : Option Nat :=
  if edP ≤ y then none
  else
    let x2 := (y * y + edP - 1) % edP * edInv ((edD * y % edP * y + 1) % edP) % edP
    let x := powMod edP x2 ((edP + 3) / 8)
    let x := if x * x % edP = x2 then x else x * edI % edP
    if x * x % edP ≠ x2 then none
    else if x = 0 ∧ sign = 1 then none
    else some (if x % 2 = sign then x else edP - x)

/-- A point decoded from 32 bytes. -/
def edDecode (b : List Byte) : Option EdPt :=
  let v := leVal (sliceB b 0 32)
  let y := v % 2 ^ 255
  (edX y (v / 2 ^ 255)).map (fun x => (x, y, 1, x * y % edP))

/-- The base point. -/
def edBase : EdPt :=
  let y := 4 * edInv 5 % edP
  let x := (edX y 0).getD 0
  (x, y, 1, x * y % edP)

/-- Whether two points are equal. -/
def edEq (a b : EdPt) : Bool := a.1 * b.2.2.1 % edP == b.1 * a.2.2.1 % edP && a.2.1 * b.2.2.1 % edP == b.2.1 * a.2.2.1 % edP

/-- The check of R1067: the cofactored equation of RFC 8032, section 5.1.7. -/
def edVerify (key msg sig : List Byte) : Bool :=
  match edDecode key, edDecode (sliceB sig 0 32) with
  | some a, some r =>
    let sVal := leVal (sliceB sig 32 32)
    let k := leVal (sha512 (sliceB sig 0 32 ++ sliceB key 0 32 ++ msg)) % edL
    decide (sVal < edL) && edEq (edMul 8 (edMul sVal edBase)) (edMul 8 (edAdd r (edMul k a)))
  | _, _ => false

end Sys2Proof.Machine
end

