-- ==== Sys2Proof/Config.lean ====
section
/-! DEFINITION. What an implementation fixes and the free values: constants without a body, so no proof can see
them. Each is named in a row of notes/assumptions. -/

namespace Sys2Proof.Config

/-- A free value: the `k`-th value the part draws where the spec gives a value none of its own (an entropy draw, a
partly programmed fuse, contents that a loss of supply leaves). DESIGN CHOICE, log entry 3. -/
opaque freeNat : Nat → Nat

/-- The Boot ROM's contents, byte by byte: published with the part, not in the spec. DESIGN CHOICE, log entry 8. -/
opaque bootRom : Nat → Byte

/-- Where the Boot ROM places mailbox rings 2 and 3 for recovery (R135), in 64-byte units of the Ring SRAM: the part's own,
not in the spec. DESIGN CHOICE, log entry 26. -/
opaque recoveryRings : Nat

/-- The bytes of the Boot ROM's DFU descriptors and status that the spec does not give (R140). DESIGN CHOICE, log entry 26. -/
opaque dfuByte : Nat → Byte

/-- The scale of the cosines and sines that a burst's DFT multiplies its samples with (R220), which the spec does not give.
DESIGN CHOICE, log entry 23. -/
opaque dftScale : Nat

/-- Whether the weight at `n` steps of pi / `c` that falls between two integers is rounded upwards (R220). DESIGN CHOICE, log
entry 23. -/
opaque dftUp : Nat → Nat → Bool

/-- Whether sample `x` after the digital gain of `d` / 256 dB (R295) is rounded away from zero where it falls between two
integers: the spec does not say. DESIGN CHOICE, log entry 23. -/
opaque gainUp : Int → Int → Bool

/-- How far a measurement or a drive that is timed by an oscillator has come, where no command marks its parts (R195, R200),
in the `k`-th state of free values. DESIGN CHOICE, log entry 9. -/
opaque progress : Nat → Nat

/-- The cubic interpolation of four successive samples at a fraction in 64ths (R311), whose coefficients and rounding the
spec does not give. DESIGN CHOICE, log entry 23. -/
opaque interp : Int → Int → Int → Int → Nat → Int

/-- Whether a fraction that is no multiple of 1/64 is quantised upwards (R311, R328): the spec does not say. DESIGN CHOICE,
log entry 23. -/
opaque quantUp : Nat → Nat → Bool

end Sys2Proof.Config
end

