-- ==== Sys2Proof/Machine/Fields.lean ====
section
/-! DEFINITION. The fields of the registers, under the names of the spec's register tables: each is an address, a
lowest bit and a width. An array of registers takes its index. `<REGISTER>_WORD` is the whole register and
`<REGISTER>_V` its one unnamed field. -/

namespace Sys2Proof.Machine

/-- A field of a register: its register's address, its lowest bit and its width. -/
structure Fld where
  addr : Nat
  lo : Nat
  w : Nat
  deriving DecidableEq, Repr

def SYS_ID_WORD : Fld := ⟨0x30000000, 0, 32⟩
def SYS_REV_WORD : Fld := ⟨0x30000004, 0, 32⟩
def SYS_CAP_WORD : Fld := ⟨0x30000008, 0, 32⟩
def SYS_CAP_TEMP_GRADE : Fld := ⟨0x30000008, 16, 2⟩
def SYS_LOOP_SAT_LC_STREAM : Fld := ⟨0x30000010, 7, 1⟩
def SYS_LOOP_SAT_IDU_ITER : Fld := ⟨0x30000010, 6, 1⟩
def SYS_LOOP_SAT_GOV : Fld := ⟨0x30000010, 5, 1⟩
def SYS_LOOP_SAT_SCE_GAIN : Fld := ⟨0x30000010, 4, 1⟩
def SYS_LOOP_SAT_SPINDLE : Fld := ⟨0x30000010, 3, 1⟩
def SYS_LOOP_SAT_TIMING : Fld := ⟨0x30000010, 2, 1⟩
def SYS_LOOP_SAT_LMS : Fld := ⟨0x30000010, 1, 1⟩
def SYS_LOOP_SAT_AGC : Fld := ⟨0x30000010, 0, 1⟩
def SYS_PROTECT_WORD : Fld := ⟨0x30000014, 0, 32⟩
def SYS_PROTECT_VMOT_LOSS : Fld := ⟨0x30000014, 4, 1⟩
def SYS_PROTECT_SHOOT_THROUGH : Fld := ⟨0x30000014, 3, 1⟩
def SYS_PROTECT_OVERCURRENT : Fld := ⟨0x30000014, 2, 1⟩
def SYS_PROTECT_THERM_LOGIC : Fld := ⟨0x30000014, 1, 1⟩
def SYS_PROTECT_THERM_POWER : Fld := ⟨0x30000014, 0, 1⟩
def CLK_STATUS_WORD : Fld := ⟨0x30000100, 0, 32⟩
def CLK_STATUS_AON_SRC : Fld := ⟨0x30000100, 6, 1⟩
def CLK_STATUS_REF_OK : Fld := ⟨0x30000100, 5, 1⟩
def CLK_STATUS_USB_LOCK : Fld := ⟨0x30000100, 4, 1⟩
def CLK_STATUS_SERVO_LOCK : Fld := ⟨0x30000100, 3, 1⟩
def CLK_STATUS_MEM_LOCK : Fld := ⟨0x30000100, 2, 1⟩
def CLK_STATUS_CORE_LOCK : Fld := ⟨0x30000100, 1, 1⟩
def CLK_STATUS_LINE_LOCK : Fld := ⟨0x30000100, 0, 1⟩
def PWR_STATE_AON_BUSY : Fld := ⟨0x30000104, 8, 1⟩
def PWR_STATE_LAST_SLEEP : Fld := ⟨0x30000104, 0, 2⟩
def PWR_CTRL_WORD : Fld := ⟨0x30000108, 0, 32⟩
def PWR_CTRL_IDLE_AUTO : Fld := ⟨0x30000108, 0, 1⟩
def PWR_DOMAIN_STATUS_ON : Fld := ⟨0x3000010C, 0, 15⟩
def PWR_DOMAIN_REQ_WORD : Fld := ⟨0x30000110, 0, 32⟩
def PWR_WAKE_EN_EN : Fld := ⟨0x30000114, 0, 6⟩
def PWR_WAKE_CAUSE_CAUSE : Fld := ⟨0x30000118, 0, 6⟩
def PWR_WAKE_TIMER_TICKS : Fld := ⟨0x3000011C, 0, 32⟩
def PWR_WAKE_VECTOR_VECTOR : Fld := ⟨0x30000120, 1, 31⟩
def PWR_REFUSE_WORD : Fld := ⟨0x30000124, 0, 32⟩
def PWR_REFUSE_DETAIL : Fld := ⟨0x30000124, 16, 10⟩
def PWR_REFUSE_REASON : Fld := ⟨0x30000124, 0, 4⟩
def PWR_DUSK_FAIL_OUTSTANDING : Fld := ⟨0x30000128, 16, 16⟩
def PWR_DUSK_FAIL_STEP : Fld := ⟨0x30000128, 4, 1⟩
def PWR_DUSK_FAIL_DOMAIN : Fld := ⟨0x30000128, 0, 4⟩
def PWR_PMIC_LEVEL : Fld := ⟨0x3000012C, 16, 3⟩
def PWR_PMIC_USE : Fld := ⟨0x3000012C, 0, 3⟩
def PWR_EVENT_EV : Fld := ⟨0x30000130, 0, 8⟩
def PWR_LOCK_LOCK : Fld := ⟨0x3000013C, 0, 1⟩
def GOV_CTRL_WORD : Fld := ⟨0x30000140, 0, 32⟩
def GOV_CTRL_DWELL : Fld := ⟨0x30000140, 24, 8⟩
def GOV_CTRL_PIN_LEVEL : Fld := ⟨0x30000140, 16, 4⟩
def GOV_CTRL_PIN_EN : Fld := ⟨0x30000140, 12, 1⟩
def GOV_CTRL_LEVEL_MAX : Fld := ⟨0x30000140, 8, 4⟩
def GOV_CTRL_LEVEL_MIN : Fld := ⟨0x30000140, 4, 4⟩
def GOV_CTRL_ENABLE : Fld := ⟨0x30000140, 0, 1⟩
def GOV_THRESH_T_WORD : Fld := ⟨0x30000144, 0, 32⟩
def GOV_THRESH_T_HYST_T : Fld := ⟨0x30000144, 16, 8⟩
def GOV_THRESH_T_T_POWER : Fld := ⟨0x30000144, 8, 8⟩
def GOV_THRESH_T_T_LOGIC : Fld := ⟨0x30000144, 0, 8⟩
def GOV_THRESH_I_WORD : Fld := ⟨0x30000148, 0, 32⟩
def GOV_THRESH_I_I_CORE : Fld := ⟨0x30000148, 8, 8⟩
def GOV_THRESH_I_I_VMOT : Fld := ⟨0x30000148, 0, 8⟩
def GOV_HOLD_WORD : Fld := ⟨0x3000014C, 0, 32⟩
def GOV_HOLD_HOLD : Fld := ⟨0x3000014C, 0, 16⟩
def GOV_STATUS_SATURATED : Fld := ⟨0x30000150, 12, 1⟩
def GOV_STATUS_OVER : Fld := ⟨0x30000150, 8, 4⟩
def GOV_STATUS_EFFECTIVE : Fld := ⟨0x30000150, 4, 4⟩
def GOV_STATUS_COMPUTED : Fld := ⟨0x30000150, 0, 4⟩
def GOV_CLIP_ITER_COUNT : Fld := ⟨0x30000154, 0, 32⟩
def GOV_CLIP_SEEK_COUNT : Fld := ⟨0x30000158, 0, 32⟩
def GOV_CLIP_SPIN_COUNT : Fld := ⟨0x3000015C, 0, 32⟩
def SYS_RESET_WORD : Fld := ⟨0x30000200, 0, 32⟩
def SYS_RESET_CAUSE_WORD : Fld := ⟨0x30000204, 0, 32⟩
def SYS_RESET_CAUSE_THERM_SHUTDOWN : Fld := ⟨0x30000204, 12, 1⟩
def SYS_RESET_CAUSE_NADIR_DAWN : Fld := ⟨0x30000204, 11, 1⟩
def SYS_RESET_CAUSE_USB_BUS : Fld := ⟨0x30000204, 10, 1⟩
def SYS_RESET_CAUSE_HP_INTERFACE : Fld := ⟨0x30000204, 9, 1⟩
def SYS_RESET_CAUSE_SW_CORE_B : Fld := ⟨0x30000204, 8, 1⟩
def SYS_RESET_CAUSE_SW_CORE_A : Fld := ⟨0x30000204, 7, 1⟩
def SYS_RESET_CAUSE_WDT_B : Fld := ⟨0x30000204, 6, 1⟩
def SYS_RESET_CAUSE_WDT_A : Fld := ⟨0x30000204, 5, 1⟩
def SYS_RESET_CAUSE_HP_DEVICE : Fld := ⟨0x30000204, 4, 1⟩
def SYS_RESET_CAUSE_SW_SYSTEM : Fld := ⟨0x30000204, 3, 1⟩
def SYS_RESET_CAUSE_RESET_N : Fld := ⟨0x30000204, 2, 1⟩
def SYS_RESET_CAUSE_POR_RAIL : Fld := ⟨0x30000204, 1, 1⟩
def SYS_RESET_CAUSE_POR_COLD : Fld := ⟨0x30000204, 0, 1⟩
def SYS_STRAP_WORD : Fld := ⟨0x30000208, 0, 32⟩
def SYS_STRAP_OVERRIDDEN : Fld := ⟨0x30000208, 8, 1⟩
def SYS_STRAP_HP_MODE : Fld := ⟨0x30000208, 4, 2⟩
def SYS_STRAP_BOOT_SEL : Fld := ⟨0x30000208, 0, 2⟩
def SYS_RST_CFG_HP_SCOPE : Fld := ⟨0x3000020C, 0, 1⟩
def SYS_BOOT_INFO_WORD : Fld := ⟨0x30000210, 0, 32⟩
def SYS_BOOT_INFO_SELFTEST : Fld := ⟨0x30000210, 16, 8⟩
def SYS_BOOT_INFO_PATH : Fld := ⟨0x30000210, 12, 4⟩
def SYS_BOOT_INFO_SLOT_B : Fld := ⟨0x30000210, 8, 4⟩
def SYS_BOOT_INFO_SLOT_A : Fld := ⟨0x30000210, 4, 4⟩
def SYS_BOOT_INFO_SLOT_RUN : Fld := ⟨0x30000210, 0, 2⟩
def SYS_CORE_RUN_WORD : Fld := ⟨0x30000214, 0, 32⟩
def SYS_CORE_RUN_B : Fld := ⟨0x30000214, 1, 1⟩
def SYS_RESTART_VEC_A_VECTOR : Fld := ⟨0x30000218, 1, 31⟩
def SYS_RESTART_VEC_B_VECTOR : Fld := ⟨0x3000021C, 1, 31⟩
def OTP_PROG_WORD : Fld := ⟨0x30000220, 0, 32⟩
def OTP_STATUS_SHADOW_VALID : Fld := ⟨0x30000224, 3, 1⟩
def OTP_STATUS_REFUSED : Fld := ⟨0x30000224, 2, 1⟩
def OTP_STATUS_DONE : Fld := ⟨0x30000224, 1, 1⟩
def OTP_STATUS_BUSY : Fld := ⟨0x30000224, 0, 1⟩
def OTP_RADDR_ROW : Fld := ⟨0x30000228, 0, 7⟩
def OTP_RDATA_WORD : Fld := ⟨0x3000022C, 0, 32⟩
def SYS_VEC_LOCK_LOCK : Fld := ⟨0x30000230, 0, 1⟩
def SYS_MSIP_B : Fld := ⟨0x30000300, 1, 1⟩
def SYS_MSIP_A : Fld := ⟨0x30000300, 0, 1⟩
def SYS_BUS_ERR_WORD : Fld := ⟨0x30000310, 0, 32⟩
def SYS_BUS_ERR_VALID : Fld := ⟨0x30000310, 31, 1⟩
def SYS_BUS_ERR_TYPE : Fld := ⟨0x30000310, 29, 2⟩
def SYS_BUS_ERR_WRITE : Fld := ⟨0x30000310, 28, 1⟩
def SYS_BUS_ERR_REQ_ID : Fld := ⟨0x30000310, 0, 5⟩
def SYS_BUS_ERR_ADDR_ADDR : Fld := ⟨0x30000314, 0, 32⟩
def EVC_CLAIM_WORD (i : Nat) : Fld := ⟨0x30010010 + 0x4 * i, 0, 32⟩
def EVC_THRESH_THRESH (i : Nat) : Fld := ⟨0x30010018 + 0x4 * i, 0, 3⟩
def EVC_SW_SET_WORD : Fld := ⟨0x30010020, 0, 32⟩
def EVC_SW_CLR_WORD : Fld := ⟨0x30010024, 0, 32⟩
def EVC_PEND_WORD (i : Nat) : Fld := ⟨0x30010040 + 0x4 * i, 0, 32⟩
def EVC_RAW_WORD (i : Nat) : Fld := ⟨0x30010060 + 0x4 * i, 0, 32⟩
def EVC_COALESCED_WORD (i : Nat) : Fld := ⟨0x30010070 + 0x4 * i, 0, 32⟩
def EVC_SRC_CFG_WORD (i : Nat) : Fld := ⟨0x30010100 + 0x4 * i, 0, 32⟩
def EVC_SRC_CFG_WAKE (i : Nat) : Fld := ⟨0x30010100 + 0x4 * i, 8, 1⟩
def EVC_SRC_CFG_TARGET (i : Nat) : Fld := ⟨0x30010100 + 0x4 * i, 6, 2⟩
def EVC_SRC_CFG_PRIO (i : Nat) : Fld := ⟨0x30010100 + 0x4 * i, 3, 3⟩
def EVC_SRC_CFG_MODE (i : Nat) : Fld := ⟨0x30010100 + 0x4 * i, 0, 1⟩
def QM_DOORBELL_WORD : Fld := ⟨0x30020000, 0, 32⟩
def QM_CONSUME_WORD : Fld := ⟨0x30020004, 0, 32⟩
def QM_RING_SEL_WORD : Fld := ⟨0x3002000C, 0, 32⟩
def QM_RING_SEL_RING : Fld := ⟨0x3002000C, 0, 10⟩
def QM_RING_BASE_WORD : Fld := ⟨0x30020010, 0, 32⟩
def QM_RING_CFG_WORD : Fld := ⟨0x30020014, 0, 32⟩
def QM_RING_WM_WORD : Fld := ⟨0x30020018, 0, 32⟩
def QM_RING_IDX_WORD : Fld := ⟨0x3002001C, 0, 32⟩
def QM_RING_STATUS_WORD : Fld := ⟨0x30020020, 0, 32⟩
def QM_RING_CMD_WORD : Fld := ⟨0x30020024, 0, 32⟩
def QM_ENQ_DATA_WORD (i : Nat) : Fld := ⟨0x30020040 + 0x4 * i, 0, 32⟩
def QM_ENQ_DATA_DATA (i : Nat) : Fld := ⟨0x30020040 + 0x4 * i, 0, 32⟩
def QM_ENQ_RING_WORD : Fld := ⟨0x30020060, 0, 32⟩
def QM_ENQ_RESULT_WORD : Fld := ⟨0x30020064, 0, 32⟩
def QM_ENQ_RESULT_RESULT : Fld := ⟨0x30020064, 0, 2⟩
def QM_ERR_INFO_WORD : Fld := ⟨0x30020080, 0, 32⟩
def QM_ERR_INFO_CODE : Fld := ⟨0x30020080, 28, 4⟩
def QM_ERR_INFO_RING : Fld := ⟨0x30020080, 16, 10⟩
def QM_ERR_INFO_VALUE : Fld := ⟨0x30020080, 0, 16⟩
def QM_POISON_INFO_RING : Fld := ⟨0x30020084, 16, 10⟩
def QM_POISON_INFO_INDEX : Fld := ⟨0x30020084, 0, 16⟩
def QM_COUNT_REJECT : Fld := ⟨0x30020088, 16, 16⟩
def QM_COUNT_POISON : Fld := ⟨0x30020088, 0, 16⟩
def QM_GROUP_FIRST_WORD (i : Nat) : Fld := ⟨0x30020100 + 0x4 * i, 0, 32⟩
def QM_GROUP_STATUS_WORD : Fld := ⟨0x30020140, 0, 32⟩
def QM_LATCH_WORD (i : Nat) : Fld := ⟨0x30020200 + 0x4 * i, 0, 32⟩
def LC_CTRL_WORD : Fld := ⟨0x30030000, 0, 32⟩
def LC_CTRL_AGE_PERIOD : Fld := ⟨0x30030000, 8, 8⟩
def LC_CTRL_ENABLE : Fld := ⟨0x30030000, 0, 1⟩
def LC_STATUS_WORD : Fld := ⟨0x30030004, 0, 32⟩
def LC_STATUS_INIT_DONE : Fld := ⟨0x30030004, 31, 1⟩
def LC_STATUS_OP_BUSY : Fld := ⟨0x30030004, 0, 1⟩
def LC_CLASS_MASK_MASK (i : Nat) : Fld := ⟨0x30030010 + 0x4 * i, 0, 16⟩
def LC_OP_WORD : Fld := ⟨0x30030040, 0, 32⟩
def LC_OP_ADDR_ADDR : Fld := ⟨0x30030044, 6, 26⟩
def LC_OP_LINES_LINES : Fld := ⟨0x30030048, 0, 24⟩
def LC_OP_SETWAY_WAY : Fld := ⟨0x3003004C, 16, 4⟩
def LC_OP_SETWAY_SET : Fld := ⟨0x3003004C, 0, 9⟩
def LC_OP_DONE_LINES : Fld := ⟨0x30030050, 0, 24⟩
def LC_OP_FAILED_REFUSE : Fld := ⟨0x30030054, 28, 4⟩
def LC_OP_FAILED_LINES : Fld := ⟨0x30030054, 0, 24⟩
def LC_STREAM_CFG_WORD : Fld := ⟨0x30030060, 0, 32⟩
def LC_STREAM_CFG_DWELL : Fld := ⟨0x30030060, 24, 8⟩
def LC_STREAM_CFG_HI_R : Fld := ⟨0x30030060, 16, 8⟩
def LC_STREAM_CFG_LO_R : Fld := ⟨0x30030060, 8, 8⟩
def LC_STREAM_CFG_CLASS_EN : Fld := ⟨0x30030060, 0, 8⟩
def LC_STREAM_ENV_WORD : Fld := ⟨0x30030064, 0, 32⟩
def LC_STREAM_ENV_PIN_EN : Fld := ⟨0x30030064, 24, 1⟩
def LC_STREAM_ENV_PIN_K : Fld := ⟨0x30030064, 16, 6⟩
def LC_STREAM_ENV_K_MAX : Fld := ⟨0x30030064, 8, 6⟩
def LC_STREAM_ENV_K_MIN : Fld := ⟨0x30030064, 0, 6⟩
def LC_STREAM_STATUS_SATURATED : Fld := ⟨0x30030068, 16, 1⟩
def LC_STREAM_STATUS_EFF_K : Fld := ⟨0x30030068, 8, 6⟩
def LC_STREAM_STATUS_K : Fld := ⟨0x30030068, 0, 6⟩
def LC_EVENT_WORD : Fld := ⟨0x30030070, 0, 32⟩
def LC_EVENT_LOCK_LOST : Fld := ⟨0x30030070, 4, 1⟩
def LC_EVENT_STREAM_SAT : Fld := ⟨0x30030070, 3, 1⟩
def LC_EVENT_PRELOAD_FAIL : Fld := ⟨0x30030070, 2, 1⟩
def LC_EVENT_OP_REFUSED : Fld := ⟨0x30030070, 1, 1⟩
def LC_EVENT_OP_DONE : Fld := ⟨0x30030070, 0, 1⟩
def LC_LOCK_LOST_AT_WAY : Fld := ⟨0x30030074, 16, 4⟩
def LC_LOCK_LOST_AT_SET : Fld := ⟨0x30030074, 0, 9⟩
def LC_COUNT_HIT_COUNT : Fld := ⟨0x30030080, 0, 32⟩
def LC_COUNT_MISS_COUNT : Fld := ⟨0x30030084, 0, 32⟩
def LC_COUNT_BYPASS_COUNT : Fld := ⟨0x30030088, 0, 32⟩
def LC_COUNT_UNCORR_DATA : Fld := ⟨0x3003008C, 16, 16⟩
def LC_COUNT_UNCORR_TAG : Fld := ⟨0x3003008C, 0, 16⟩
def LC_COUNT_WCB_STALL_COUNT : Fld := ⟨0x30030090, 0, 32⟩
def LC_PROBE_WAY : Fld := ⟨0x300300A0, 16, 4⟩
def LC_PROBE_SET : Fld := ⟨0x300300A0, 0, 9⟩
def LC_PROBE_DATA_WORD : Fld := ⟨0x300300A4, 0, 32⟩
def INT_CTRL_DRAM_RETRY : Fld := ⟨0x30040000, 0, 1⟩
def INT_CE_STATUS_MEM : Fld := ⟨0x30040004, 0, 13⟩
def INT_UE_STATUS_MEM : Fld := ⟨0x30040008, 0, 13⟩
def INT_COUNT_UNCORR (i : Nat) : Fld := ⟨0x30040100 + 0x4 * i, 16, 16⟩
def INT_COUNT_CORR (i : Nat) : Fld := ⟨0x30040100 + 0x4 * i, 0, 16⟩
def INT_CAP0_LOC (i j : Nat) : Fld := ⟨0x30040200 + 0x20 * i + 0x8 * j, 0, 32⟩
def INT_CAP1_VALID (i j : Nat) : Fld := ⟨0x30040204 + 0x20 * i + 0x8 * j, 31, 1⟩
def INT_CAP1_UNCORR (i j : Nat) : Fld := ⟨0x30040204 + 0x20 * i + 0x8 * j, 30, 1⟩
def INT_CAP1_SEQ (i j : Nat) : Fld := ⟨0x30040204 + 0x20 * i + 0x8 * j, 16, 8⟩
def INT_CAP1_P (i j : Nat) : Fld := ⟨0x30040204 + 0x20 * i + 0x8 * j, 4, 1⟩
def INT_CAP1_S (i j : Nat) : Fld := ⟨0x30040204 + 0x20 * i + 0x8 * j, 0, 4⟩
def INT_INJECT_WORD : Fld := ⟨0x30040400, 0, 32⟩
def INT_INJECT_FLIP : Fld := ⟨0x30040400, 16, 5⟩
def INT_INJECT_MEM : Fld := ⟨0x30040400, 8, 4⟩
def INT_INJECT_ARM : Fld := ⟨0x30040400, 0, 1⟩
def INT_DRAM_STATUS_CAP_LOST : Fld := ⟨0x30040500, 2, 1⟩
def INT_DRAM_STATUS_TRANSIENT : Fld := ⟨0x30040500, 1, 1⟩
def INT_DRAM_STATUS_FAIL : Fld := ⟨0x30040500, 0, 1⟩
def INT_DRAM_COUNT_FAIL : Fld := ⟨0x30040504, 16, 16⟩
def INT_DRAM_COUNT_TRANSIENT : Fld := ⟨0x30040504, 0, 16⟩
def INT_DRAM_CAP0_ADDR (i : Nat) : Fld := ⟨0x30040510 + 0x8 * i, 6, 26⟩
def INT_DRAM_CAP1_VALID (i : Nat) : Fld := ⟨0x30040514 + 0x8 * i, 31, 1⟩
def INT_DRAM_CAP1_CAUSE (i : Nat) : Fld := ⟨0x30040514 + 0x8 * i, 28, 3⟩
def INT_DRAM_CAP1_SEQ (i : Nat) : Fld := ⟨0x30040514 + 0x8 * i, 16, 8⟩
def INT_DRAM_CAP1_REQ_ID (i : Nat) : Fld := ⟨0x30040514 + 0x8 * i, 0, 5⟩
def BC_CTRL_WORD : Fld := ⟨0x30050000, 0, 32⟩
def BC_CTRL_WINDOW_EN : Fld := ⟨0x30050000, 0, 14⟩
def BC_LOCK_LOCK : Fld := ⟨0x30050004, 0, 1⟩
def BC_STATUS_INIT_DONE : Fld := ⟨0x30050008, 31, 1⟩
def BC_STATUS_KEY_FAIL : Fld := ⟨0x30050008, 30, 1⟩
def BC_STATUS_REKEY_BUSY : Fld := ⟨0x30050008, 29, 1⟩
def BC_STATUS_POISON_SEEN : Fld := ⟨0x30050008, 28, 1⟩
def BC_STATUS_REKEY_REGION : Fld := ⟨0x30050008, 0, 18⟩
def BC_COUNT_REKEY : Fld := ⟨0x3005000C, 16, 16⟩
def BC_COUNT_INIT : Fld := ⟨0x3005000C, 0, 16⟩
def PROT_STATUS_VALID : Fld := ⟨0x30050040, 31, 1⟩
def PROT_STATUS_WRITE : Fld := ⟨0x30050040, 30, 1⟩
def PROT_STATUS_REQ_ID : Fld := ⟨0x30050040, 24, 5⟩
def PROT_STATUS_DEBUG : Fld := ⟨0x30050040, 23, 1⟩
def PROT_STATUS_RANGE : Fld := ⟨0x30050040, 16, 4⟩
def PROT_ADDR_ADDR : Fld := ⟨0x30050044, 0, 32⟩
def PROT_COUNT_COUNT : Fld := ⟨0x30050048, 0, 32⟩
def PROT_BASE_BASE (i : Nat) : Fld := ⟨0x30050100 + 0x10 * i, 12, 20⟩
def PROT_LIMIT_LIMIT (i : Nat) : Fld := ⟨0x30050104 + 0x10 * i, 12, 20⟩
def PROT_ALLOW_ALLOW (i : Nat) : Fld := ⟨0x30050108 + 0x10 * i, 0, 20⟩
def PROT_CTRL_EN (i : Nat) : Fld := ⟨0x3005010C + 0x10 * i, 0, 1⟩
def MC_STATUS_ROOT_SET : Fld := ⟨0x30060000, 31, 1⟩
def MC_STATUS_ENTROPY_OK : Fld := ⟨0x30060000, 30, 1⟩
def MC_STATUS_BUSY : Fld := ⟨0x30060000, 29, 1⟩
def MC_STATUS_LOADED : Fld := ⟨0x30060000, 0, 16⟩
def MC_EVENT_ENTROPY_FAIL : Fld := ⟨0x30060004, 3, 1⟩
def MC_EVENT_AUTH_FAIL : Fld := ⟨0x30060004, 2, 1⟩
def MC_EVENT_KEY_POISON : Fld := ⟨0x30060004, 1, 1⟩
def MC_EVENT_UNLOADED : Fld := ⟨0x30060004, 0, 1⟩
def MC_RNG_WORD : Fld := ⟨0x30060008, 0, 32⟩
def MC_COUNT_AUTH_FAIL : Fld := ⟨0x3006000C, 16, 16⟩
def MC_COUNT_UNLOADED : Fld := ⟨0x3006000C, 0, 16⟩
def MRAM_STATUS_WRITES : Fld := ⟨0x30070000, 16, 16⟩
def FMT_CTRL_STORE_VALID : Fld := ⟨0x30080000, 0, 1⟩
def FMT_ENTRY_ADDR (i : Nat) : Fld := ⟨0x30080100 + 0x4 * i, 0, 13⟩
def FMT_CTX_CFG_ACCEL (i : Nat) : Fld := ⟨0x30081000 + 0x100 * i, 8, 4⟩
def FMT_CTX_CFG_MAX_ITER (i : Nat) : Fld := ⟨0x30081000 + 0x100 * i, 4, 4⟩
def FMT_CTX_CFG_AUTO_ZONE (i : Nat) : Fld := ⟨0x30081000 + 0x100 * i, 0, 1⟩
def FMT_CTX_CMD_WORD (i : Nat) : Fld := ⟨0x30081004 + 0x100 * i, 0, 32⟩
def FMT_CTX_STATUS_HARD_CAUSE (i : Nat) : Fld := ⟨0x30081008 + 0x100 * i, 28, 4⟩
def FMT_CTX_STATUS_LOST_POST (i : Nat) : Fld := ⟨0x30081008 + 0x100 * i, 27, 1⟩
def FMT_CTX_STATUS_DEPTH (i : Nat) : Fld := ⟨0x30081008 + 0x100 * i, 24, 3⟩
def FMT_CTX_STATUS_PC (i : Nat) : Fld := ⟨0x30081008 + 0x100 * i, 8, 13⟩
def FMT_CTX_STATUS_STATE (i : Nat) : Fld := ⟨0x30081008 + 0x100 * i, 0, 2⟩
def FMT_CTX_PC_START_PC (i : Nat) : Fld := ⟨0x3008100C + 0x100 * i, 0, 13⟩
def FMT_CTX_FLAGS_F (i : Nat) : Fld := ⟨0x30081010 + 0x100 * i, 16, 2⟩
def FMT_CTX_FLAGS_INT (i : Nat) : Fld := ⟨0x30081010 + 0x100 * i, 8, 4⟩
def FMT_CTX_FLAGS_ASYNC_CAUSE (i : Nat) : Fld := ⟨0x30081010 + 0x100 * i, 4, 4⟩
def FMT_CTX_FLAGS_HALT_REQ (i : Nat) : Fld := ⟨0x30081010 + 0x100 * i, 1, 1⟩
def FMT_CTX_FLAGS_FAULT (i : Nat) : Fld := ⟨0x30081010 + 0x100 * i, 0, 1⟩
def FMT_CTX_WTO_UNITS (i : Nat) : Fld := ⟨0x30081014 + 0x100 * i, 0, 16⟩
def FMT_CTX_TIMER_LOAD (i : Nat) : Fld := ⟨0x30081018 + 0x100 * i, 0, 16⟩
def FMT_CTX_TIMER_COUNT (i : Nat) : Fld := ⟨0x30081018 + 0x100 * i, 16, 16⟩
def FMT_CTX_ZONE_ZONE (i : Nat) : Fld := ⟨0x3008101C + 0x100 * i, 0, 5⟩
def FMT_CTX_PA0_FRAME (i : Nat) : Fld := ⟨0x30081020 + 0x100 * i, 0, 16⟩
def FMT_CTX_PA1_FRAME (i : Nat) : Fld := ⟨0x30081024 + 0x100 * i, 0, 16⟩
def FMT_CTX_EVENT_WORD (i : Nat) : Fld := ⟨0x30081028 + 0x100 * i, 0, 32⟩
def FMT_CTX_EVENT_CMD_REFUSED (i : Nat) : Fld := ⟨0x30081028 + 0x100 * i, 12, 1⟩
def FMT_CTX_EVENT_RWQ_OVF (i : Nat) : Fld := ⟨0x30081028 + 0x100 * i, 11, 1⟩
def FMT_CTX_EVENT_RING_OVF (i : Nat) : Fld := ⟨0x30081028 + 0x100 * i, 10, 1⟩
def FMT_CTX_EVENT_FAULT (i : Nat) : Fld := ⟨0x30081028 + 0x100 * i, 9, 1⟩
def FMT_CTX_EVENT_HALTED (i : Nat) : Fld := ⟨0x30081028 + 0x100 * i, 8, 1⟩
def FMT_CTX_EVENT_SW (i : Nat) : Fld := ⟨0x30081028 + 0x100 * i, 0, 8⟩
def FMT_CTX_COUNT_SKIPPED (i : Nat) : Fld := ⟨0x3008102C + 0x100 * i, 16, 16⟩
def FMT_CTX_COUNT_POISON (i : Nat) : Fld := ⟨0x3008102C + 0x100 * i, 0, 16⟩
def FMT_CTX_RWQ_OVF (i : Nat) : Fld := ⟨0x30081030 + 0x100 * i, 16, 1⟩
def FMT_CTX_RWQ_LAST_GOOD (i : Nat) : Fld := ⟨0x30081030 + 0x100 * i, 4, 9⟩
def FMT_CTX_RWQ_LEN_ENTRIES (i : Nat) : Fld := ⟨0x30081034 + 0x100 * i, 0, 5⟩
def FMT_CTX_CNT0_LC (i : Nat) : Fld := ⟨0x30081038 + 0x100 * i, 16, 16⟩
def FMT_CTX_CNT0_SC (i : Nat) : Fld := ⟨0x30081038 + 0x100 * i, 0, 16⟩
def FMT_CTX_CNT1_SIDX (i : Nat) : Fld := ⟨0x3008103C + 0x100 * i, 16, 16⟩
def FMT_CTX_CNT1_SLOT (i : Nat) : Fld := ⟨0x3008103C + 0x100 * i, 12, 4⟩
def FMT_CTX_CNT1_FRAME (i : Nat) : Fld := ⟨0x3008103C + 0x100 * i, 0, 9⟩
def FMT_CTX_BUF_ADDR (i : Nat) : Fld := ⟨0x30081040 + 0x100 * i, 6, 26⟩
def FMT_ZFRAME0_K (i j : Nat) : Fld := ⟨0x30082000 + 0x100 * i + 0x8 * j, 24, 4⟩
def FMT_ZFRAME0_START_TRACK (i j : Nat) : Fld := ⟨0x30082000 + 0x100 * i + 0x8 * j, 0, 24⟩
def IDU_ITER_WORD : Fld := ⟨0x30090000, 0, 32⟩
def IDU_ITER_DWELL : Fld := ⟨0x30090000, 24, 8⟩
def IDU_ITER_PIN_EN : Fld := ⟨0x30090000, 16, 1⟩
def IDU_ITER_PIN_ITER : Fld := ⟨0x30090000, 12, 4⟩
def IDU_ITER_ITER_MAX : Fld := ⟨0x30090000, 4, 4⟩
def IDU_ITER_ITER_MIN : Fld := ⟨0x30090000, 0, 4⟩
def IDU_GOV_WORD : Fld := ⟨0x30090004, 0, 32⟩
def IDU_GOV_HI_Q : Fld := ⟨0x30090004, 8, 8⟩
def IDU_GOV_LO_Q : Fld := ⟨0x30090004, 0, 8⟩
def IDU_GOV_STATUS_SATURATED : Fld := ⟨0x30090008, 8, 1⟩
def IDU_GOV_STATUS_EFF_B : Fld := ⟨0x30090008, 4, 4⟩
def IDU_GOV_STATUS_B : Fld := ⟨0x30090008, 0, 4⟩
def IDU_DEC_OFFSET : Fld := ⟨0x3009000C, 0, 3⟩
def IDU_KAT_PERIOD : Fld := ⟨0x30090014, 0, 16⟩
def IDU_FENCE_POOL_DEGRADED : Fld := ⟨0x30090018, 24, 1⟩
def IDU_FENCE_CAUSE : Fld := ⟨0x30090018, 6, 18⟩
def IDU_FENCE_FENCED : Fld := ⟨0x30090018, 0, 6⟩
def IDU_CMD_WORD : Fld := ⟨0x3009001C, 0, 32⟩
def IDU_SLOT_ALLOC_WORD : Fld := ⟨0x30090020, 0, 32⟩
def IDU_SLOT_ALLOC_SLOT : Fld := ⟨0x30090020, 0, 8⟩
def IDU_SLOT_RELEASE_WORD : Fld := ⟨0x30090024, 0, 32⟩
def IDU_SLOT_FREE_RESERVED_SUM : Fld := ⟨0x30090028, 8, 6⟩
def IDU_SLOT_FREE_FREE : Fld := ⟨0x30090028, 0, 6⟩
def IDU_SJD_ALPHA : Fld := ⟨0x3009002C, 8, 4⟩
def IDU_SJD_OFFSET : Fld := ⟨0x3009002C, 4, 4⟩
def IDU_SJD_ROUNDS : Fld := ⟨0x3009002C, 0, 4⟩
def IDU_COUNT_ALLOC_FAIL : Fld := ⟨0x30090030, 16, 16⟩
def IDU_COUNT_POISON : Fld := ⟨0x30090030, 0, 16⟩
def IDU_POISON_RING_RING : Fld := ⟨0x30090034, 0, 10⟩
def IDU_EVENT_EV : Fld := ⟨0x30090038, 0, 8⟩
def IDU_QUOTA_WORD (i : Nat) : Fld := ⟨0x30090040 + 0x4 * i, 0, 32⟩
def IDU_QUOTA_MAX (i : Nat) : Fld := ⟨0x30090040 + 0x4 * i, 8, 6⟩
def IDU_QUOTA_MIN (i : Nat) : Fld := ⟨0x30090040 + 0x4 * i, 0, 6⟩
def IDU_SLOT_JOB_ID (i : Nat) : Fld := ⟨0x30090100 + 0x4 * i, 16, 16⟩
def IDU_SLOT_OWNER (i : Nat) : Fld := ⟨0x30090100 + 0x4 * i, 4, 4⟩
def IDU_SLOT_STATE (i : Nat) : Fld := ⟨0x30090100 + 0x4 * i, 0, 4⟩
def LLR_WIN_ADDR_WORD : Fld := ⟨0x30090200, 0, 32⟩
def LLR_WIN_ADDR_SLOT : Fld := ⟨0x30090200, 24, 6⟩
def LLR_WIN_ADDR_AREA : Fld := ⟨0x30090200, 20, 2⟩
def LLR_WIN_ADDR_INDEX : Fld := ⟨0x30090200, 0, 16⟩
def LLR_WIN_DATA_WORD : Fld := ⟨0x30090204, 0, 32⟩
def LLR_WIN_DATA_VALUE : Fld := ⟨0x30090204, 0, 32⟩
def AE_CTRL_ENABLE : Fld := ⟨0x300A0000, 0, 1⟩
def AE_STATUS_CMD_ID : Fld := ⟨0x300A0004, 16, 16⟩
def AE_STATUS_BUSY : Fld := ⟨0x300A0004, 0, 1⟩
def AE_EVENT_EV : Fld := ⟨0x300A000C, 0, 8⟩
def AE_SWSET_WORD : Fld := ⟨0x300A0010, 0, 32⟩
def AE_COUNT_CMDS : Fld := ⟨0x300A0014, 16, 16⟩
def AE_COUNT_ERRORS : Fld := ⟨0x300A0014, 0, 16⟩
def AE_LAST_ERR_CMD_ID : Fld := ⟨0x300A0018, 16, 16⟩
def AE_LAST_ERR_STATUS : Fld := ⟨0x300A0018, 0, 8⟩
def SCE_COEF_WORD (i j k : Nat) : Fld := ⟨0x300B0000 + 0x800 * i + 0x80 * j + 0x4 * k, 0, 32⟩
def SCE_COEF_COEF (i j k : Nat) : Fld := ⟨0x300B0000 + 0x800 * i + 0x80 * j + 0x4 * k, 0, 24⟩
def SCE_SETCFG_N2_EN (i j : Nat) : Fld := ⟨0x300B001C + 0x800 * i + 0x80 * j, 2, 1⟩
def SCE_SETCFG_N1_EN (i j : Nat) : Fld := ⟨0x300B001C + 0x800 * i + 0x80 * j, 1, 1⟩
def SCE_SETCFG_ORDER3 (i j : Nat) : Fld := ⟨0x300B001C + 0x800 * i + 0x80 * j, 0, 1⟩
def SCE_SELECT_WORD (i j : Nat) : Fld := ⟨0x300BC000 + 0x40 * i + 0x4 * j, 0, 32⟩
def CTX_CFG_WORD (i : Nat) : Fld := ⟨0x300BD000 + 0x40 * i, 0, 32⟩
def CTX_CFG_DWELL (i : Nat) : Fld := ⟨0x300BD000 + 0x40 * i, 24, 8⟩
def CTX_CFG_BLEND_M1 (i : Nat) : Fld := ⟨0x300BD000 + 0x40 * i, 16, 4⟩
def CTX_CFG_IN_SHL (i : Nat) : Fld := ⟨0x300BD000 + 0x40 * i, 8, 4⟩
def CTX_CFG_NEG (i : Nat) : Fld := ⟨0x300BD000 + 0x40 * i, 1, 1⟩
def CTX_CFG_ENABLE (i : Nat) : Fld := ⟨0x300BD000 + 0x40 * i, 0, 1⟩
def CTX_PIN_WORD (i : Nat) : Fld := ⟨0x300BD004 + 0x40 * i, 0, 32⟩
def CTX_PIN_PIN_EN (i : Nat) : Fld := ⟨0x300BD004 + 0x40 * i, 4, 1⟩
def CTX_PIN_PIN_SET (i : Nat) : Fld := ⟨0x300BD004 + 0x40 * i, 0, 4⟩
def CTX_CLAMP_WORD (i : Nat) : Fld := ⟨0x300BD008 + 0x40 * i, 0, 32⟩
def CTX_CLAMP_OUT_MAX (i : Nat) : Fld := ⟨0x300BD008 + 0x40 * i, 16, 16⟩
def CTX_CLAMP_OUT_MIN (i : Nat) : Fld := ⟨0x300BD008 + 0x40 * i, 0, 16⟩
def CTX_BAND0_T2 (i : Nat) : Fld := ⟨0x300BD00C + 0x40 * i, 16, 16⟩
def CTX_BAND0_T1 (i : Nat) : Fld := ⟨0x300BD00C + 0x40 * i, 0, 16⟩
def CTX_BAND1_HYST (i : Nat) : Fld := ⟨0x300BD010 + 0x40 * i, 16, 16⟩
def CTX_BAND1_T3 (i : Nat) : Fld := ⟨0x300BD010 + 0x40 * i, 0, 16⟩
def CTX_STATUS_BLENDING (i : Nat) : Fld := ⟨0x300BD014 + 0x40 * i, 26, 1⟩
def CTX_STATUS_ROLE (i : Nat) : Fld := ⟨0x300BD014 + 0x40 * i, 24, 2⟩
def CTX_STATUS_BLEND_K (i : Nat) : Fld := ⟨0x300BD014 + 0x40 * i, 20, 4⟩
def CTX_STATUS_OLD_SET (i : Nat) : Fld := ⟨0x300BD014 + 0x40 * i, 16, 4⟩
def CTX_STATUS_SET (i : Nat) : Fld := ⟨0x300BD014 + 0x40 * i, 12, 4⟩
def CTX_STATUS_BAND (i : Nat) : Fld := ⟨0x300BD014 + 0x40 * i, 10, 2⟩
def CTX_STATUS_RADIAL (i : Nat) : Fld := ⟨0x300BD014 + 0x40 * i, 7, 3⟩
def CTX_STATUS_MODE (i : Nat) : Fld := ⟨0x300BD014 + 0x40 * i, 5, 2⟩
def CTX_STATUS_SATURATED (i : Nat) : Fld := ⟨0x300BD014 + 0x40 * i, 1, 1⟩
def CTX_STATUS_CLAMPED (i : Nat) : Fld := ⟨0x300BD014 + 0x40 * i, 0, 1⟩
def CTX_IN_X (i : Nat) : Fld := ⟨0x300BD018 + 0x40 * i, 0, 24⟩
def CTX_OUT_Y (i : Nat) : Fld := ⟨0x300BD01C + 0x40 * i, 0, 16⟩
def CTX_CMD_WORD (i : Nat) : Fld := ⟨0x300BD020 + 0x40 * i, 0, 32⟩
def CTX_STATE_IDX_IDX (i : Nat) : Fld := ⟨0x300BD024 + 0x40 * i, 0, 3⟩
def CTX_STATE_LO_WORD (i : Nat) : Fld := ⟨0x300BD028 + 0x40 * i, 0, 32⟩
def CTX_STATE_LO_LO (i : Nat) : Fld := ⟨0x300BD028 + 0x40 * i, 0, 32⟩
def CTX_STATE_HI_WORD (i : Nat) : Fld := ⟨0x300BD02C + 0x40 * i, 0, 32⟩
def SCE_RADIAL_TRACK (i j : Nat) : Fld := ⟨0x300BD600 + 0x20 * i + 0x4 * j, 0, 24⟩
def PS_SPIN_VMOT_BUDGET : Fld := ⟨0x300BE000, 8, 8⟩
def PS_SPIN_SPIN_SLOTS : Fld := ⟨0x300BE000, 0, 4⟩
def PS_STATUS_WORD : Fld := ⟨0x300BE004, 0, 32⟩
def PS_STATUS_RETRACTED_PORTS : Fld := ⟨0x300BE004, 16, 8⟩
def PS_STATUS_SPINUPS : Fld := ⟨0x300BE004, 8, 4⟩
def PS_STATUS_LINK_OK : Fld := ⟨0x300BE004, 6, 1⟩
def PS_STATUS_THERM_SHUTDOWN : Fld := ⟨0x300BE004, 5, 1⟩
def PS_STATUS_RETRACT_CAUSE : Fld := ⟨0x300BE004, 2, 3⟩
def PS_STATUS_RETRACTED : Fld := ⟨0x300BE004, 1, 1⟩
def PS_STATUS_VMOT_OK : Fld := ⟨0x300BE004, 0, 1⟩
def PS_VMOT_VOLTAGE : Fld := ⟨0x300BE008, 16, 16⟩
def PS_VMOT_CURRENT : Fld := ⟨0x300BE008, 0, 16⟩
def PS_TEMP_TEMP : Fld := ⟨0x300BE00C, 0, 8⟩
def PS_RETRACT_CLR_WORD : Fld := ⟨0x300BE010, 0, 32⟩
def SCE_STATUS_INIT_DONE : Fld := ⟨0x300BF000, 31, 1⟩
def SCE_STATUS_QUEUE : Fld := ⟨0x300BF000, 0, 5⟩
def SCE_SAT_SAT : Fld := ⟨0x300BF008, 0, 16⟩
def SCE_OVERRUN_CTX : Fld := ⟨0x300BF00C, 0, 24⟩
def SCE_LIVE_WRITE_CTX : Fld := ⟨0x300BF010, 0, 24⟩
def HQE_CTRL_FP_USB : Fld := ⟨0x300C0000, 2, 1⟩
def HQE_CTRL_FP_HP : Fld := ⟨0x300C0000, 1, 1⟩
def HQE_CTRL_ENABLE : Fld := ⟨0x300C0000, 0, 1⟩
def HQE_TAG_SPLIT_WORD : Fld := ⟨0x300C0004, 0, 32⟩
def HQE_TAG_SPLIT_SPLIT : Fld := ⟨0x300C0004, 0, 6⟩
def HQE_AREA_BASE : Fld := ⟨0x300C0008, 0, 7⟩
def HQE_MAP_BASE_BASE : Fld := ⟨0x300C000C, 16, 16⟩
def HQE_BUF_BASE_BASE : Fld := ⟨0x300C0010, 12, 20⟩
def HQE_VOL_CFG_LSS (i : Nat) : Fld := ⟨0x300C0020 + 0x4 * i, 1, 1⟩
def HQE_VOL_CFG_FAST_EN (i : Nat) : Fld := ⟨0x300C0020 + 0x4 * i, 0, 1⟩
def HQE_VOL_CAP_UNITS (i : Nat) : Fld := ⟨0x300C0030 + 0x4 * i, 0, 32⟩
def HQE_STATUS_SYNC_BUSY : Fld := ⟨0x300C0040, 31, 1⟩
def HQE_STATUS_BARRIER_USB : Fld := ⟨0x300C0040, 30, 1⟩
def HQE_STATUS_BARRIER_HP : Fld := ⟨0x300C0040, 29, 1⟩
def HQE_STATUS_OUTSTANDING : Fld := ⟨0x300C0040, 0, 6⟩
def HQE_MAP_SYNC_WORD : Fld := ⟨0x300C0070, 0, 32⟩
def HQE_CQ_HP_TAIL : Fld := ⟨0x300C0074, 16, 7⟩
def HQE_CQ_HP_HEAD : Fld := ⟨0x300C0074, 0, 7⟩
def HQE_CQ_USB_TAIL : Fld := ⟨0x300C0078, 16, 7⟩
def HQE_CQ_USB_HEAD : Fld := ⟨0x300C0078, 0, 7⟩
def HQE_EVENT_WORD : Fld := ⟨0x300C0080, 0, 32⟩
def HQE_EVENT_EV : Fld := ⟨0x300C0080, 0, 8⟩
def HQE_SWSET_WORD : Fld := ⟨0x300C0084, 0, 32⟩
def HQE_ERR_INFO_WORD : Fld := ⟨0x300C0088, 0, 32⟩
def HQE_ERR_INFO_CODE : Fld := ⟨0x300C0088, 28, 4⟩
def HQE_ERR_INFO_TAG : Fld := ⟨0x300C0088, 0, 5⟩
def HQE_FP_STATUS_LAST_DECLINE : Fld := ⟨0x300C0090, 0, 3⟩
def HQE_COUNT_FAST_COUNT : Fld := ⟨0x300C0094, 0, 32⟩
def HQE_COUNT_DECLINE_COUNT : Fld := ⟨0x300C0098, 0, 32⟩
def HQE_FP_LAT_MAX_CYCLES : Fld := ⟨0x300C009C, 0, 16⟩
def HP_CFG_WORD : Fld := ⟨0x300D0000, 0, 32⟩
def HP_CFG_WAIT_LIMIT : Fld := ⟨0x300D0000, 16, 16⟩
def HP_CFG_SB_EN : Fld := ⟨0x300D0000, 1, 1⟩
def HP_CFG_ENABLE : Fld := ⟨0x300D0000, 0, 1⟩
def HP_STATE_DETAIL : Fld := ⟨0x300D0004, 8, 8⟩
def HP_STATE_STATE : Fld := ⟨0x300D0004, 0, 3⟩
def HP_ATTN_ATTN : Fld := ⟨0x300D0008, 0, 1⟩
def HP_EVENT_EV : Fld := ⟨0x300D000C, 0, 7⟩
def HP_COUNT_ERRORS : Fld := ⟨0x300D0010, 16, 16⟩
def HP_COUNT_WAKES : Fld := ⟨0x300D0010, 0, 16⟩
def HP_ERR_LAST_TAG : Fld := ⟨0x300D0014, 8, 5⟩
def HP_ERR_LAST_CODE : Fld := ⟨0x300D0014, 0, 8⟩
def HP_XFER_WORD : Fld := ⟨0x300D0018, 0, 32⟩
def USB_CTRL_WORD : Fld := ⟨0x300E0000, 0, 32⟩
def USB_CTRL_FS_ONLY : Fld := ⟨0x300E0000, 4, 1⟩
def USB_CTRL_DBG_EN : Fld := ⟨0x300E0000, 3, 1⟩
def USB_CTRL_FN_ATTACH : Fld := ⟨0x300E0000, 1, 1⟩
def USB_CTRL_PULLUP : Fld := ⟨0x300E0000, 0, 1⟩
def USB_STATUS_HUB_ADDR : Fld := ⟨0x300E0004, 16, 7⟩
def USB_STATUS_FN_ADDR : Fld := ⟨0x300E0004, 8, 7⟩
def USB_STATUS_RWE_HUB : Fld := ⟨0x300E0004, 5, 1⟩
def USB_STATUS_RWE_FN : Fld := ⟨0x300E0004, 4, 1⟩
def USB_STATUS_FN_SUSPENDED : Fld := ⟨0x300E0004, 3, 1⟩
def USB_STATUS_SUSPENDED : Fld := ⟨0x300E0004, 2, 1⟩
def USB_STATUS_HS : Fld := ⟨0x300E0004, 1, 1⟩
def USB_STATUS_VBUS : Fld := ⟨0x300E0004, 0, 1⟩
def USB_HUB_ID_PRODUCT : Fld := ⟨0x300E0008, 16, 16⟩
def USB_HUB_ID_VENDOR : Fld := ⟨0x300E0008, 0, 16⟩
def USB_HUB_CFG_BCD_DEVICE : Fld := ⟨0x300E000C, 16, 16⟩
def USB_HUB_CFG_PWRGOOD : Fld := ⟨0x300E000C, 0, 8⟩
def USB_PORT_CHANGE (i : Nat) : Fld := ⟨0x300E0010 + 0x4 * i, 16, 16⟩
def USB_PORT_STATUS (i : Nat) : Fld := ⟨0x300E0010 + 0x4 * i, 0, 16⟩
def USB_EP_CFG_EN (i : Nat) : Fld := ⟨0x300E0040 + 0x4 * i, 31, 1⟩
def USB_EP_CFG_SIZE (i : Nat) : Fld := ⟨0x300E0040 + 0x4 * i, 24, 7⟩
def USB_EP_CFG_BASE (i : Nat) : Fld := ⟨0x300E0040 + 0x4 * i, 16, 8⟩
def USB_EP_CFG_DIR (i : Nat) : Fld := ⟨0x300E0040 + 0x4 * i, 15, 1⟩
def USB_EP_CFG_MAXPKT (i : Nat) : Fld := ⟨0x300E0040 + 0x4 * i, 0, 11⟩
def USB_EP_CTL_HALT (i : Nat) : Fld := ⟨0x300E0060 + 0x4 * i, 1, 1⟩
def USB_EP_CTL_TOGGLE (i : Nat) : Fld := ⟨0x300E0060 + 0x4 * i, 0, 1⟩
def USB_EP0_CTL_WORD : Fld := ⟨0x300E0080, 0, 32⟩
def USB_SETUP_SEQ_SEQ : Fld := ⟨0x300E0084, 0, 8⟩
def USB_MSE_CFG_WORD : Fld := ⟨0x300E00A0, 0, 32⟩
def USB_MSE_CFG_REC_BASE : Fld := ⟨0x300E00A0, 16, 16⟩
def USB_MSE_CFG_UAS : Fld := ⟨0x300E00A0, 0, 1⟩
def USB_MSE_CMD_VALID : Fld := ⟨0x300E00A4, 8, 1⟩
def USB_MSE_CMD_NEXT : Fld := ⟨0x300E00A4, 0, 4⟩
def USB_MSE_DLEN_BYTES : Fld := ⟨0x300E00AC, 0, 32⟩
def USB_MSE_BUF_ADDR : Fld := ⟨0x300E00B0, 6, 26⟩
def USB_MSE_SENSE_WORD : Fld := ⟨0x300E00B4, 0, 32⟩
def USB_MSE_START_WORD : Fld := ⟨0x300E00B8, 0, 32⟩
def USB_MSE_FINISH_WORD : Fld := ⟨0x300E00BC, 0, 32⟩
def USB_MSE_CTX_STATE (i : Nat) : Fld := ⟨0x300E00C0 + 0x4 * i, 28, 4⟩
def USB_MSE_CTX_OCS_STATUS (i : Nat) : Fld := ⟨0x300E00C0 + 0x4 * i, 16, 8⟩
def USB_MSE_CTX_UAS_TAG (i : Nat) : Fld := ⟨0x300E00C0 + 0x4 * i, 0, 16⟩
def USB_EVENT_WORD : Fld := ⟨0x300E0100, 0, 32⟩
def USB_EVENT_EV : Fld := ⟨0x300E0100, 0, 8⟩
def USB_EP_EVENT_WORD : Fld := ⟨0x300E0104, 0, 32⟩
def USB_EP_EVENT_CPL_FW : Fld := ⟨0x300E0104, 1, 1⟩
def USB_EP_EVENT_CMD : Fld := ⟨0x300E0104, 0, 1⟩
def USB_ERR_CODE : Fld := ⟨0x300E0108, 0, 8⟩
def USB_COUNT_ERRORS : Fld := ⟨0x300E010C, 16, 16⟩
def USB_COUNT_RESETS : Fld := ⟨0x300E010C, 0, 16⟩
def ALM_CTRL_IRQ_SEV : Fld := ⟨0x300F0000, 8, 2⟩
def ALM_CTRL_ENABLE : Fld := ⟨0x300F0000, 0, 1⟩
def ALM_STATUS_READY : Fld := ⟨0x300F0004, 31, 1⟩
def ALM_STATUS_STATE_LOST : Fld := ⟨0x300F0004, 30, 1⟩
def ALM_STATUS_CMD_BUSY : Fld := ⟨0x300F0004, 28, 1⟩
def ALM_STATUS_WRITE_INDEX : Fld := ⟨0x300F0004, 0, 12⟩
def ALM_NEWEST_VALID : Fld := ⟨0x300F0008, 12, 1⟩
def ALM_NEWEST_INDEX : Fld := ⟨0x300F0008, 0, 12⟩
def ALM_COUNT_LO_NOTICE : Fld := ⟨0x300F000C, 16, 13⟩
def ALM_COUNT_LO_TRACE : Fld := ⟨0x300F000C, 0, 13⟩
def ALM_COUNT_HI_CRITICAL : Fld := ⟨0x300F0010, 16, 13⟩
def ALM_COUNT_HI_FAULT : Fld := ⟨0x300F0010, 0, 13⟩
def ALM_DROPPED_COUNT (i : Nat) : Fld := ⟨0x300F0020 + 0x4 * i, 0, 32⟩
def ALM_TIME_WORD : Fld := ⟨0x300F0030, 0, 32⟩
def ALM_TIME_TIME : Fld := ⟨0x300F0030, 0, 32⟩
def ALM_CYCLES_CYCLES : Fld := ⟨0x300F0034, 0, 24⟩
def ALM_CMD_WORD : Fld := ⟨0x300F0040, 0, 32⟩
def ALM_EVENT_WRITTEN : Fld := ⟨0x300F0044, 2, 1⟩
def ALM_EVENT_ERROR : Fld := ⟨0x300F0044, 1, 1⟩
def ALM_EVENT_DROP : Fld := ⟨0x300F0044, 0, 1⟩
def ALM_ERR_CODE : Fld := ⟨0x300F0048, 0, 4⟩
def SRV_FMT_WORD (i : Nat) : Fld := ⟨0x30100100 + 0x10000 * i, 0, 32⟩
def SRV_FMT_HEADS (i : Nat) : Fld := ⟨0x30100100 + 0x10000 * i, 28, 4⟩
def SRV_FMT_G_BITS (i : Nat) : Fld := ⟨0x30100100 + 0x10000 * i, 23, 5⟩
def SRV_FMT_W_BITS (i : Nat) : Fld := ⟨0x30100100 + 0x10000 * i, 19, 4⟩
def SRV_FMT_WEDGES (i : Nat) : Fld := ⟨0x30100100 + 0x10000 * i, 9, 10⟩
def SRV_SAM_WORD (i : Nat) : Fld := ⟨0x30100104 + 0x10000 * i, 0, 32⟩
def SRV_SAM_PATTERN (i : Nat) : Fld := ⟨0x30100104 + 0x10000 * i, 16, 16⟩
def SRV_SAM_SAM_LEN (i : Nat) : Fld := ⟨0x30100104 + 0x10000 * i, 8, 8⟩
def SRV_SAM_ERR_TOL (i : Nat) : Fld := ⟨0x30100104 + 0x10000 * i, 0, 8⟩
def SRV_CELLS_WORD (i : Nat) : Fld := ⟨0x30100108 + 0x10000 * i, 0, 32⟩
def SRV_CELLS_CELL (i : Nat) : Fld := ⟨0x30100108 + 0x10000 * i, 26, 6⟩
def SRV_CELLS_PRE (i : Nat) : Fld := ⟨0x30100108 + 0x10000 * i, 16, 10⟩
def SRV_CELLS_BURST (i : Nat) : Fld := ⟨0x30100108 + 0x10000 * i, 8, 8⟩
def SRV_CELLS_SHIFT (i : Nat) : Fld := ⟨0x30100108 + 0x10000 * i, 0, 4⟩
def SRV_GATE_WORD (i : Nat) : Fld := ⟨0x3010010C + 0x10000 * i, 0, 32⟩
def SRV_GATE_SAM_WIN (i : Nat) : Fld := ⟨0x3010010C + 0x10000 * i, 0, 16⟩
def SRV_PERIOD_PREDICTED (i : Nat) : Fld := ⟨0x30100110 + 0x10000 * i, 0, 16⟩
def SRV_MAXTRACK_WORD (i : Nat) : Fld := ⟨0x30100114 + 0x10000 * i, 0, 32⟩
def SRV_MAXTRACK_MAX_TRACK (i : Nat) : Fld := ⟨0x30100114 + 0x10000 * i, 0, 24⟩
def SRV_POS_POS (i : Nat) : Fld := ⟨0x30100118 + 0x10000 * i, 0, 32⟩
def SRV_TARGET_WORD (i : Nat) : Fld := ⟨0x3010011C + 0x10000 * i, 0, 32⟩
def SRV_TARGET_TARGET (i : Nat) : Fld := ⟨0x3010011C + 0x10000 * i, 0, 32⟩
def SRV_ERR_ERR (i : Nat) : Fld := ⟨0x30100120 + 0x10000 * i, 0, 24⟩
def SRV_BURST_AB_A (i : Nat) : Fld := ⟨0x30100124 + 0x10000 * i, 16, 16⟩
def SRV_BURST_AB_B (i : Nat) : Fld := ⟨0x30100124 + 0x10000 * i, 0, 16⟩
def SRV_BURST_CD_C (i : Nat) : Fld := ⟨0x30100128 + 0x10000 * i, 16, 16⟩
def SRV_BURST_CD_D (i : Nat) : Fld := ⟨0x30100128 + 0x10000 * i, 0, 16⟩
def SRV_GRAY_G (i : Nat) : Fld := ⟨0x3010012C + 0x10000 * i, 0, 24⟩
def SRV_WI_WORD (i : Nat) : Fld := ⟨0x30100130 + 0x10000 * i, 0, 32⟩
def SRV_WI_SHOCK_HOLD (i : Nat) : Fld := ⟨0x30100130 + 0x10000 * i, 8, 4⟩
def SRV_WI_LIMIT (i : Nat) : Fld := ⟨0x30100130 + 0x10000 * i, 0, 8⟩
def SRV_ONTRACK_WORD (i : Nat) : Fld := ⟨0x30100134 + 0x10000 * i, 0, 32⟩
def SRV_ONTRACK_WRITE_TOL (i : Nat) : Fld := ⟨0x30100134 + 0x10000 * i, 24, 8⟩
def SRV_ONTRACK_WRITE_N (i : Nat) : Fld := ⟨0x30100134 + 0x10000 * i, 16, 8⟩
def SRV_ONTRACK_READ_TOL (i : Nat) : Fld := ⟨0x30100134 + 0x10000 * i, 8, 8⟩
def SRV_ONTRACK_READ_N (i : Nat) : Fld := ⟨0x30100134 + 0x10000 * i, 0, 8⟩
def SRV_SEEK_WORD (i : Nat) : Fld := ⟨0x30100138 + 0x10000 * i, 0, 32⟩
def SRV_SEEK_VMAX (i : Nat) : Fld := ⟨0x30100138 + 0x10000 * i, 16, 16⟩
def SRV_SEEK_ACC (i : Nat) : Fld := ⟨0x30100138 + 0x10000 * i, 0, 16⟩
def SRV_SEEK2_WORD (i : Nat) : Fld := ⟨0x3010013C + 0x10000 * i, 0, 32⟩
def SRV_SEEK2_SEEK_TIMEOUT (i : Nat) : Fld := ⟨0x3010013C + 0x10000 * i, 20, 12⟩
def SRV_SEEK2_SETTLE_DIST (i : Nat) : Fld := ⟨0x3010013C + 0x10000 * i, 10, 10⟩
def SRV_SEEK2_SHORT_DIST (i : Nat) : Fld := ⟨0x3010013C + 0x10000 * i, 0, 10⟩
def SRV_SEEK_ILIM_WORD (i : Nat) : Fld := ⟨0x30100140 + 0x10000 * i, 0, 32⟩
def SRV_SEEK_ILIM_ILIM (i : Nat) : Fld := ⟨0x30100140 + 0x10000 * i, 0, 10⟩
def SRV_LOSS_WORD (i : Nat) : Fld := ⟨0x30100144 + 0x10000 * i, 0, 32⟩
def SRV_LOSS_BURST_MIN (i : Nat) : Fld := ⟨0x30100144 + 0x10000 * i, 16, 16⟩
def SRV_LOSS_MISS_LIMIT (i : Nat) : Fld := ⟨0x30100144 + 0x10000 * i, 0, 8⟩
def SRV_LOAD_WORD (i : Nat) : Fld := ⟨0x30100148 + 0x10000 * i, 0, 32⟩
def SRV_LOAD_LOAD_VEL (i : Nat) : Fld := ⟨0x30100148 + 0x10000 * i, 24, 8⟩
def SRV_LOAD_ACQ_N (i : Nat) : Fld := ⟨0x30100148 + 0x10000 * i, 0, 8⟩
def SRV_UNLOAD_WORD (i : Nat) : Fld := ⟨0x3010014C + 0x10000 * i, 0, 32⟩
def SRV_UNLOAD_UNLOAD_TRACK (i : Nat) : Fld := ⟨0x3010014C + 0x10000 * i, 0, 24⟩
def SRV_CMD_WORD (i : Nat) : Fld := ⟨0x30100150 + 0x10000 * i, 0, 32⟩
def SRV_STATUS_WI_LATCH (i : Nat) : Fld := ⟨0x30100154 + 0x10000 * i, 9, 1⟩
def SRV_STATUS_WRITE_OK (i : Nat) : Fld := ⟨0x30100154 + 0x10000 * i, 8, 1⟩
def SRV_STATUS_READ_OK (i : Nat) : Fld := ⟨0x30100154 + 0x10000 * i, 7, 1⟩
def SRV_STATUS_HEAD (i : Nat) : Fld := ⟨0x30100154 + 0x10000 * i, 3, 4⟩
def SRV_STATUS_STATE (i : Nat) : Fld := ⟨0x30100154 + 0x10000 * i, 0, 3⟩
def SRV_EVENT_WORD (i : Nat) : Fld := ⟨0x30100158 + 0x10000 * i, 0, 32⟩
def SRV_EVENT_CMD_REFUSED (i : Nat) : Fld := ⟨0x30100158 + 0x10000 * i, 9, 1⟩
def SRV_EVENT_UNLOAD_DONE (i : Nat) : Fld := ⟨0x30100158 + 0x10000 * i, 8, 1⟩
def SRV_EVENT_LOAD_FAIL (i : Nat) : Fld := ⟨0x30100158 + 0x10000 * i, 7, 1⟩
def SRV_EVENT_LOAD_DONE (i : Nat) : Fld := ⟨0x30100158 + 0x10000 * i, 6, 1⟩
def SRV_EVENT_SEEK_TIMEOUT (i : Nat) : Fld := ⟨0x30100158 + 0x10000 * i, 5, 1⟩
def SRV_EVENT_SEEK_DONE (i : Nat) : Fld := ⟨0x30100158 + 0x10000 * i, 4, 1⟩
def SRV_EVENT_LOSS_FAIL (i : Nat) : Fld := ⟨0x30100158 + 0x10000 * i, 3, 1⟩
def SRV_EVENT_REACQ (i : Nat) : Fld := ⟨0x30100158 + 0x10000 * i, 2, 1⟩
def SRV_EVENT_LOST (i : Nat) : Fld := ⟨0x30100158 + 0x10000 * i, 1, 1⟩
def SRV_EVENT_WI (i : Nat) : Fld := ⟨0x30100158 + 0x10000 * i, 0, 1⟩
def SRV_COUNT_BAD_WEDGE (i : Nat) : Fld := ⟨0x3010015C + 0x10000 * i, 16, 16⟩
def SRV_COUNT_WI (i : Nat) : Fld := ⟨0x3010015C + 0x10000 * i, 0, 16⟩
def SRV_HEAD_OFS_WORD (i j : Nat) : Fld := ⟨0x30100180 + 0x10000 * i + 0x4 * j, 0, 32⟩
def SRV_HEAD_OFS_OFS (i j : Nat) : Fld := ⟨0x30100180 + 0x10000 * i + 0x4 * j, 0, 16⟩
def CH_ZONE_WORD (i : Nat) : Fld := ⟨0x30100204 + 0x10000 * i, 0, 32⟩
def CH_ZONE_ZONE (i : Nat) : Fld := ⟨0x30100204 + 0x10000 * i, 0, 5⟩
def CH_STATUS_FLT (i : Nat) : Fld := ⟨0x30100208 + 0x10000 * i, 5, 1⟩
def CH_STATUS_PA_FRAMES_PENDING (i : Nat) : Fld := ⟨0x30100208 + 0x10000 * i, 4, 1⟩
def CH_STATUS_LOAD_PENDING (i : Nat) : Fld := ⟨0x30100208 + 0x10000 * i, 3, 1⟩
def CH_STATUS_SYNC_FOUND (i : Nat) : Fld := ⟨0x30100208 + 0x10000 * i, 2, 1⟩
def CH_STATUS_WG (i : Nat) : Fld := ⟨0x30100208 + 0x10000 * i, 1, 1⟩
def CH_STATUS_RG (i : Nat) : Fld := ⟨0x30100208 + 0x10000 * i, 0, 1⟩
def CH_EVENT_WORD (i : Nat) : Fld := ⟨0x3010020C + 0x10000 * i, 0, 32⟩
def CH_EVENT_PA_REFUSED (i : Nat) : Fld := ⟨0x3010020C + 0x10000 * i, 10, 1⟩
def CH_EVENT_PA_DONE (i : Nat) : Fld := ⟨0x3010020C + 0x10000 * i, 9, 1⟩
def CH_EVENT_PA_FAULT (i : Nat) : Fld := ⟨0x3010020C + 0x10000 * i, 8, 1⟩
def CH_EVENT_LOAD_DEFERRED (i : Nat) : Fld := ⟨0x3010020C + 0x10000 * i, 7, 1⟩
def CH_EVENT_FA_STEP (i : Nat) : Fld := ⟨0x3010020C + 0x10000 * i, 6, 1⟩
def CH_EVENT_WRITE_CUT (i : Nat) : Fld := ⟨0x3010020C + 0x10000 * i, 5, 1⟩
def CH_EVENT_RG_CUT (i : Nat) : Fld := ⟨0x3010020C + 0x10000 * i, 4, 1⟩
def CH_EVENT_SYNC_MISS (i : Nat) : Fld := ⟨0x3010020C + 0x10000 * i, 3, 1⟩
def CH_EVENT_EQ_SAT (i : Nat) : Fld := ⟨0x3010020C + 0x10000 * i, 2, 1⟩
def CH_EVENT_TR_SAT (i : Nat) : Fld := ⟨0x3010020C + 0x10000 * i, 1, 1⟩
def CH_EVENT_AGC_SAT (i : Nat) : Fld := ⟨0x3010020C + 0x10000 * i, 0, 1⟩
def CH_COUNT_SYNC_MISS (i : Nat) : Fld := ⟨0x30100210 + 0x10000 * i, 16, 16⟩
def CH_COUNT_FA_STEP (i : Nat) : Fld := ⟨0x30100210 + 0x10000 * i, 0, 16⟩
def AGC_CFG_WORD (i : Nat) : Fld := ⟨0x30100220 + 0x10000 * i, 0, 32⟩
def AGC_CFG_DWELL (i : Nat) : Fld := ⟨0x30100220 + 0x10000 * i, 24, 8⟩
def AGC_CFG_TARGET (i : Nat) : Fld := ⟨0x30100220 + 0x10000 * i, 16, 8⟩
def AGC_CFG_KG_ACQ (i : Nat) : Fld := ⟨0x30100220 + 0x10000 * i, 12, 4⟩
def AGC_CFG_KG_TRK (i : Nat) : Fld := ⟨0x30100220 + 0x10000 * i, 8, 4⟩
def AGC_CFG_FAST (i : Nat) : Fld := ⟨0x30100220 + 0x10000 * i, 4, 2⟩
def AGC_ENV_WORD (i : Nat) : Fld := ⟨0x30100224 + 0x10000 * i, 0, 32⟩
def AGC_ENV_GAIN_MAX (i : Nat) : Fld := ⟨0x30100224 + 0x10000 * i, 24, 8⟩
def AGC_ENV_GAIN_MIN (i : Nat) : Fld := ⟨0x30100224 + 0x10000 * i, 16, 8⟩
def AGC_ENV_PIN_CODE (i : Nat) : Fld := ⟨0x30100224 + 0x10000 * i, 8, 8⟩
def AGC_ENV_PIN_EN (i : Nat) : Fld := ⟨0x30100224 + 0x10000 * i, 0, 1⟩
def AGC_STATUS_V (i : Nat) : Fld := ⟨0x30100228 + 0x10000 * i, 24, 8⟩
def AGC_CFG_WIN (i : Nat) : Fld := ⟨0x30100220 + 0x10000 * i, 6, 2⟩
def CH_NCO_STEP (i : Nat) : Fld := ⟨0x30100280 + 0x10000 * i, 0, 25⟩
def CH_WRITE_PC (i k : Nat) : Fld := ⟨0x301002B4 + 0x10000 * i, 5 * k, 5⟩
def AGC_STATUS_VS (i : Nat) : Fld := ⟨0x30100228 + 0x10000 * i, 16, 8⟩
def AGC_STATUS_D (i : Nat) : Fld := ⟨0x30100228 + 0x10000 * i, 0, 16⟩
def AGC_SERVO_TARGET_S (i : Nat) : Fld := ⟨0x3010022C + 0x10000 * i, 0, 8⟩
def TR_CFG_WORD (i : Nat) : Fld := ⟨0x30100230 + 0x10000 * i, 0, 32⟩
def TR_CFG_DWELL (i : Nat) : Fld := ⟨0x30100230 + 0x10000 * i, 16, 16⟩
def TR_CFG_FREQ_LIM (i : Nat) : Fld := ⟨0x30100230 + 0x10000 * i, 0, 16⟩
def TR_PIN_WORD (i : Nat) : Fld := ⟨0x30100234 + 0x10000 * i, 0, 32⟩
def TR_PIN_PIN_EN (i : Nat) : Fld := ⟨0x30100234 + 0x10000 * i, 16, 1⟩
def TR_PIN_PIN_FREQ (i : Nat) : Fld := ⟨0x30100234 + 0x10000 * i, 0, 16⟩
def TR_STATUS_FREQ (i : Nat) : Fld := ⟨0x30100238 + 0x10000 * i, 0, 16⟩
def EQ_DWELL_DWELL (i : Nat) : Fld := ⟨0x30100240 + 0x10000 * i, 0, 16⟩
def EQ_TAP_WORD (i j : Nat) : Fld := ⟨0x30100250 + 0x10000 * i + 0x4 * j, 0, 32⟩
def EQ_TAP_BASE (i j : Nat) : Fld := ⟨0x30100250 + 0x10000 * i + 0x4 * j, 16, 12⟩
def EQ_TAP_VALUE (i j : Nat) : Fld := ⟨0x30100250 + 0x10000 * i + 0x4 * j, 0, 12⟩
def CH_AFE_VGA_INIT (i : Nat) : Fld := ⟨0x30100284 + 0x10000 * i, 24, 8⟩
def CH_AFE_CODE (i : Nat) : Fld := ⟨0x30100284 + 0x10000 * i, 0, 1⟩
def TR_GAINS_KP_ACQ (i : Nat) : Fld := ⟨0x30100288 + 0x10000 * i, 12, 4⟩
def TR_GAINS_KI_ACQ (i : Nat) : Fld := ⟨0x30100288 + 0x10000 * i, 8, 4⟩
def TR_GAINS_KP_TRK (i : Nat) : Fld := ⟨0x30100288 + 0x10000 * i, 4, 4⟩
def TR_GAINS_KI_TRK (i : Nat) : Fld := ⟨0x30100288 + 0x10000 * i, 0, 4⟩
def EQ_CFG_WORD (i : Nat) : Fld := ⟨0x3010028C + 0x10000 * i, 0, 32⟩
def EQ_CFG_PIN (i : Nat) : Fld := ⟨0x3010028C + 0x10000 * i, 20, 12⟩
def EQ_CFG_DEV (i : Nat) : Fld := ⟨0x3010028C + 0x10000 * i, 12, 8⟩
def EQ_CFG_MU_SHIFT (i : Nat) : Fld := ⟨0x3010028C + 0x10000 * i, 8, 4⟩
def EQ_CFG_FREEZE (i : Nat) : Fld := ⟨0x3010028C + 0x10000 * i, 0, 1⟩
def CH_TARGET_LLR_SCALE (i : Nat) : Fld := ⟨0x301002A8 + 0x10000 * i, 24, 8⟩
def CH_TARGET_T1 (i : Nat) : Fld := ⟨0x301002A8 + 0x10000 * i, 8, 8⟩
def CH_TARGET_T2 (i : Nat) : Fld := ⟨0x301002A8 + 0x10000 * i, 0, 8⟩
def CH_SYNC_PATTERN (i : Nat) : Fld := ⟨0x301002AC + 0x10000 * i, 0, 32⟩
def CH_FRAME_PRE_LEN (i : Nat) : Fld := ⟨0x301002B0 + 0x10000 * i, 24, 8⟩
def CH_FRAME_SYNC_WIN (i : Nat) : Fld := ⟨0x301002B0 + 0x10000 * i, 16, 8⟩
def CH_FRAME_SYNC_TOL (i : Nat) : Fld := ⟨0x301002B0 + 0x10000 * i, 10, 3⟩
def CH_FRAME_PAD (i : Nat) : Fld := ⟨0x301002B0 + 0x10000 * i, 0, 10⟩
def PA_CFG_WORD (i : Nat) : Fld := ⟨0x30100300 + 0x10000 * i, 0, 32⟩
def PA_HS_WORD (i : Nat) : Fld := ⟨0x30100304 + 0x10000 * i, 0, 32⟩
def PA_HS_ADDR (i : Nat) : Fld := ⟨0x30100304 + 0x10000 * i, 16, 7⟩
def PA_HS_SHIFT (i : Nat) : Fld := ⟨0x30100304 + 0x10000 * i, 8, 4⟩
def PA_HS_BASE (i : Nat) : Fld := ⟨0x30100304 + 0x10000 * i, 0, 8⟩
def PA_CMD_WORD (i : Nat) : Fld := ⟨0x30100308 + 0x10000 * i, 0, 32⟩
def PA_RDATA_VALID (i : Nat) : Fld := ⟨0x3010030C + 0x10000 * i, 8, 1⟩
def PA_RDATA_DATA (i : Nat) : Fld := ⟨0x3010030C + 0x10000 * i, 0, 8⟩
def PA_STATUS_HW_PENDING (i : Nat) : Fld := ⟨0x30100310 + 0x10000 * i, 1, 1⟩
def PA_STATUS_BUSY (i : Nat) : Fld := ⟨0x30100310 + 0x10000 * i, 0, 1⟩
def SPN_CTRL_WORD (i : Nat) : Fld := ⟨0x30100400 + 0x10000 * i, 0, 32⟩
def SPN_CTRL_DIR (i : Nat) : Fld := ⟨0x30100400 + 0x10000 * i, 14, 1⟩
def SPN_CTRL_AUTO_RETRY (i : Nat) : Fld := ⟨0x30100400 + 0x10000 * i, 13, 1⟩
def SPN_CTRL_STOP_MODE (i : Nat) : Fld := ⟨0x30100400 + 0x10000 * i, 12, 1⟩
def SPN_CTRL_POLE_PAIRS (i : Nat) : Fld := ⟨0x30100400 + 0x10000 * i, 0, 4⟩
def SPN_CMD_WORD (i : Nat) : Fld := ⟨0x30100404 + 0x10000 * i, 0, 32⟩
def SPN_STATUS_MEASURE_BUSY (i : Nat) : Fld := ⟨0x30100408 + 0x10000 * i, 16, 1⟩
def SPN_STATUS_FAULT_CAUSE (i : Nat) : Fld := ⟨0x30100408 + 0x10000 * i, 8, 3⟩
def SPN_STATUS_RETRY_USED (i : Nat) : Fld := ⟨0x30100408 + 0x10000 * i, 7, 1⟩
def SPN_STATUS_STATE (i : Nat) : Fld := ⟨0x30100408 + 0x10000 * i, 0, 4⟩
def SPN_TARGET_WORD (i : Nat) : Fld := ⟨0x3010040C + 0x10000 * i, 0, 32⟩
def SPN_TARGET_PERIOD (i : Nat) : Fld := ⟨0x3010040C + 0x10000 * i, 0, 24⟩
def SPN_PERIOD_WORD (i : Nat) : Fld := ⟨0x30100410 + 0x10000 * i, 0, 32⟩
def SPN_PERIOD_MEASURED (i : Nat) : Fld := ⟨0x30100410 + 0x10000 * i, 0, 24⟩
def SPN_ALIGN_WORD (i : Nat) : Fld := ⟨0x30100414 + 0x10000 * i, 0, 32⟩
def SPN_ALIGN_DUTY (i : Nat) : Fld := ⟨0x30100414 + 0x10000 * i, 16, 16⟩
def SPN_RAMP_WORD (i : Nat) : Fld := ⟨0x30100418 + 0x10000 * i, 0, 32⟩
def SPN_RAMP_DUTY_WORD (i : Nat) : Fld := ⟨0x3010041C + 0x10000 * i, 0, 32⟩
def SPN_RAMP_DUTY_DUTY (i : Nat) : Fld := ⟨0x3010041C + 0x10000 * i, 16, 16⟩
def SPN_RAMP_DUTY_HANDOVER_ZC (i : Nat) : Fld := ⟨0x3010041C + 0x10000 * i, 0, 8⟩
def SPN_PWM_WORD (i : Nat) : Fld := ⟨0x30100420 + 0x10000 * i, 0, 32⟩
def SPN_PWM_PERIOD (i : Nat) : Fld := ⟨0x30100420 + 0x10000 * i, 0, 16⟩
def SPN_PWM_ILIM (i : Nat) : Fld := ⟨0x30100420 + 0x10000 * i, 16, 11⟩
def SPN_DUTY_ENV_WORD (i : Nat) : Fld := ⟨0x30100424 + 0x10000 * i, 0, 32⟩
def SPN_DUTY_ENV_DUTY_MAX (i : Nat) : Fld := ⟨0x30100424 + 0x10000 * i, 16, 16⟩
def SPN_DUTY_ENV_DUTY_MIN (i : Nat) : Fld := ⟨0x30100424 + 0x10000 * i, 0, 16⟩
def SPN_DUTY_PIN_WORD (i : Nat) : Fld := ⟨0x30100428 + 0x10000 * i, 0, 32⟩
def SPN_DUTY_PIN_DWELL (i : Nat) : Fld := ⟨0x30100428 + 0x10000 * i, 24, 8⟩
def SPN_DUTY_PIN_PIN_EN (i : Nat) : Fld := ⟨0x30100428 + 0x10000 * i, 16, 1⟩
def SPN_DUTY_PIN_PIN_DUTY (i : Nat) : Fld := ⟨0x30100428 + 0x10000 * i, 0, 16⟩
def SPN_LOCK_WORD (i : Nat) : Fld := ⟨0x3010042C + 0x10000 * i, 0, 32⟩
def SPN_LOCK_FLY_MIN (i : Nat) : Fld := ⟨0x3010042C + 0x10000 * i, 24, 8⟩
def SPN_LOCK_LOCK_REVS (i : Nat) : Fld := ⟨0x3010042C + 0x10000 * i, 16, 8⟩
def SPN_LOCK_SPEED_TOL (i : Nat) : Fld := ⟨0x3010042C + 0x10000 * i, 0, 16⟩
def SPN_TIMEOUT_WORD (i : Nat) : Fld := ⟨0x30100430 + 0x10000 * i, 0, 32⟩
def SPN_BUDGET_WORD (i : Nat) : Fld := ⟨0x30100434 + 0x10000 * i, 0, 32⟩
def SPN_BUDGET_I_BUDGET (i : Nat) : Fld := ⟨0x30100434 + 0x10000 * i, 0, 8⟩
def SPN_EVENT_WORD (i : Nat) : Fld := ⟨0x30100438 + 0x10000 * i, 0, 32⟩
def SPN_EVENT_CMD_REFUSED (i : Nat) : Fld := ⟨0x30100438 + 0x10000 * i, 10, 1⟩
def SPN_EVENT_STOPPED (i : Nat) : Fld := ⟨0x30100438 + 0x10000 * i, 9, 1⟩
def SPN_EVENT_FAULT (i : Nat) : Fld := ⟨0x30100438 + 0x10000 * i, 8, 1⟩
def SPN_EVENT_SAT (i : Nat) : Fld := ⟨0x30100438 + 0x10000 * i, 7, 1⟩
def SPN_EVENT_SPEED_DEV (i : Nat) : Fld := ⟨0x30100438 + 0x10000 * i, 6, 1⟩
def SPN_EVENT_AT_SPEED (i : Nat) : Fld := ⟨0x30100438 + 0x10000 * i, 5, 1⟩
def SPN_EVENT_SPINUP_FAIL (i : Nat) : Fld := ⟨0x30100438 + 0x10000 * i, 4, 1⟩
def SPN_EVENT_FLY_FAIL (i : Nat) : Fld := ⟨0x30100438 + 0x10000 * i, 3, 1⟩
def SPN_EVENT_FLY_OK (i : Nat) : Fld := ⟨0x30100438 + 0x10000 * i, 2, 1⟩
def SPN_EVENT_LOCK_LOST (i : Nat) : Fld := ⟨0x30100438 + 0x10000 * i, 1, 1⟩
def SPN_EVENT_INTERLOCK (i : Nat) : Fld := ⟨0x30100438 + 0x10000 * i, 0, 1⟩
def SPN_SHOOT_COUNT_COUNT (i : Nat) : Fld := ⟨0x3010043C + 0x10000 * i, 0, 16⟩
def SPN_RES_A_UV (i : Nat) : Fld := ⟨0x30100440 + 0x10000 * i, 16, 16⟩
def SPN_RES_A_VW (i : Nat) : Fld := ⟨0x30100440 + 0x10000 * i, 0, 16⟩
def SPN_RES_B_VCM (i : Nat) : Fld := ⟨0x30100444 + 0x10000 * i, 16, 16⟩
def SPN_RES_B_WU (i : Nat) : Fld := ⟨0x30100444 + 0x10000 * i, 0, 16⟩
def VCM_CTRL_WORD (i : Nat) : Fld := ⟨0x30100500 + 0x10000 * i, 0, 32⟩
def VCM_CTRL_ILIM (i : Nat) : Fld := ⟨0x30100500 + 0x10000 * i, 16, 12⟩
def VCM_CTRL_SRC (i : Nat) : Fld := ⟨0x30100500 + 0x10000 * i, 1, 1⟩
def VCM_CTRL_ENABLE (i : Nat) : Fld := ⟨0x30100500 + 0x10000 * i, 0, 1⟩
def VCM_DIRECT_WORD (i : Nat) : Fld := ⟨0x30100504 + 0x10000 * i, 0, 32⟩
def VCM_DIRECT_CMD (i : Nat) : Fld := ⟨0x30100504 + 0x10000 * i, 0, 16⟩
def VCM_ISENSE_CURRENT (i : Nat) : Fld := ⟨0x30100508 + 0x10000 * i, 0, 16⟩
def VCM_STATUS_WORD (i : Nat) : Fld := ⟨0x3010050C + 0x10000 * i, 0, 32⟩
def VCM_STATUS_CLAMPED (i : Nat) : Fld := ⟨0x3010050C + 0x10000 * i, 2, 1⟩
def VCM_STATUS_RETRACTING (i : Nat) : Fld := ⟨0x3010050C + 0x10000 * i, 1, 1⟩
def VCM_STATUS_FAULT_OC (i : Nat) : Fld := ⟨0x3010050C + 0x10000 * i, 0, 1⟩
def VCM_RETRACT_WORD (i : Nat) : Fld := ⟨0x30100510 + 0x10000 * i, 0, 32⟩
def VCM_RETRACT_DIR (i : Nat) : Fld := ⟨0x30100510 + 0x10000 * i, 31, 1⟩
def VCM_RETRACT_VEL (i : Nat) : Fld := ⟨0x30100510 + 0x10000 * i, 16, 8⟩
def VCM_RETRACT_I_BREAK (i : Nat) : Fld := ⟨0x30100510 + 0x10000 * i, 8, 8⟩
def VCM_RETRACT_I_HOLD (i : Nat) : Fld := ⟨0x30100510 + 0x10000 * i, 0, 8⟩
def VCM_COIL_RES_WORD (i : Nat) : Fld := ⟨0x30100514 + 0x10000 * i, 0, 32⟩
def VCM_COIL_RES_RES (i : Nat) : Fld := ⟨0x30100514 + 0x10000 * i, 0, 16⟩
def MTIME_LO_WORD : Fld := ⟨0x30180000, 0, 32⟩
def MTIME_HI_TIME : Fld := ⟨0x30180004, 0, 32⟩
def MTIMECMP_A_LO_CMP : Fld := ⟨0x30180008, 0, 32⟩
def MTIMECMP_A_HI_CMP : Fld := ⟨0x3018000C, 0, 32⟩
def MTIMECMP_B_LO_CMP : Fld := ⟨0x30180010, 0, 32⟩
def MTIMECMP_B_HI_CMP : Fld := ⟨0x30180014, 0, 32⟩
def TIMER_CTRL_WORD (i : Nat) : Fld := ⟨0x30180100 + 0x10 * i, 0, 32⟩
def TIMER_CTRL_PERIODIC (i : Nat) : Fld := ⟨0x30180100 + 0x10 * i, 1, 1⟩
def TIMER_CTRL_EN (i : Nat) : Fld := ⟨0x30180100 + 0x10 * i, 0, 1⟩
def TIMER_LOAD_WORD (i : Nat) : Fld := ⟨0x30180104 + 0x10 * i, 0, 32⟩
def TIMER_LOAD_LOAD (i : Nat) : Fld := ⟨0x30180104 + 0x10 * i, 0, 32⟩
def TIMER_COUNT_COUNT (i : Nat) : Fld := ⟨0x30180108 + 0x10 * i, 0, 32⟩
def WDT_CTRL_WORD (i : Nat) : Fld := ⟨0x30180200 + 0x20 * i, 0, 32⟩
def WDT_CTRL_PAUSE_DEBUG (i : Nat) : Fld := ⟨0x30180200 + 0x20 * i, 2, 1⟩
def WDT_CTRL_PAUSE_WFI (i : Nat) : Fld := ⟨0x30180200 + 0x20 * i, 1, 1⟩
def WDT_CTRL_ARM (i : Nat) : Fld := ⟨0x30180200 + 0x20 * i, 0, 1⟩
def WDT_TIME_WORD (i : Nat) : Fld := ⟨0x30180204 + 0x20 * i, 0, 32⟩
def WDT_TIME_STAGE2 (i : Nat) : Fld := ⟨0x30180204 + 0x20 * i, 16, 16⟩
def WDT_TIME_STAGE1 (i : Nat) : Fld := ⟨0x30180204 + 0x20 * i, 0, 16⟩
def WDT_KICK_WORD (i : Nat) : Fld := ⟨0x30180208 + 0x20 * i, 0, 32⟩
def WDT_STATUS_BAD_KICKS (i : Nat) : Fld := ⟨0x3018020C + 0x20 * i, 24, 8⟩
def WDT_STATUS_STAGE (i : Nat) : Fld := ⟨0x3018020C + 0x20 * i, 16, 1⟩
def WDT_STATUS_COUNT (i : Nat) : Fld := ⟨0x3018020C + 0x20 * i, 0, 16⟩
def UART_DATA_WORD : Fld := ⟨0x30180300, 0, 32⟩
def UART_STATUS_RX_LEVEL : Fld := ⟨0x30180304, 8, 5⟩
def UART_STATUS_TX_LEVEL : Fld := ⟨0x30180304, 0, 5⟩
def UART_STATUS_FRAMING : Fld := ⟨0x30180304, 6, 1⟩
def UART_STATUS_OVERRUN : Fld := ⟨0x30180304, 5, 1⟩
def UART_CTRL_RX_IE : Fld := ⟨0x30180308, 3, 1⟩
def UART_CTRL_TX_IE : Fld := ⟨0x30180308, 2, 1⟩
def UART_CTRL_RX_EN : Fld := ⟨0x30180308, 1, 1⟩
def UART_CTRL_TX_EN : Fld := ⟨0x30180308, 0, 1⟩
def GPIO_OUT_WORD : Fld := ⟨0x30180400, 0, 32⟩
def GPIO_OUT_OUT : Fld := ⟨0x30180400, 0, 16⟩
def GPIO_OE_WORD : Fld := ⟨0x30180404, 0, 32⟩
def GPIO_OE_OE : Fld := ⟨0x30180404, 0, 16⟩
def GPIO_IN_WORD : Fld := ⟨0x30180408, 0, 32⟩
def GPIO_EDGE_WORD : Fld := ⟨0x3018040C, 0, 32⟩
def GPIO_EDGE_FALL_EN : Fld := ⟨0x3018040C, 16, 16⟩
def GPIO_EDGE_RISE_EN : Fld := ⟨0x3018040C, 0, 16⟩
def GPIO_STAT_STAT : Fld := ⟨0x30180410, 0, 16⟩
def THERM_STATUS_TEMP : Fld := ⟨0x30180500, 0, 8⟩
def THERM_CFG_THRESH : Fld := ⟨0x30180504, 0, 8⟩
def IO_STATUS_GEN_3V3 : Fld := ⟨0x30180600, 1, 1⟩
def IO_STATUS_GEN_VALID : Fld := ⟨0x30180600, 0, 1⟩
def IO_CFG_WORD : Fld := ⟨0x30180604, 0, 32⟩
def HW_CONTROL_SWAP : Fld := ⟨0x100000004, 6, 1⟩
def HW_CONTROL_WAIT_EN : Fld := ⟨0x100000004, 5, 1⟩
def HW_CONTROL_DRQ_EN : Fld := ⟨0x100000004, 4, 1⟩
def HW_CONTROL_IE : Fld := ⟨0x100000004, 0, 4⟩
def HW_INDEX_SPACE : Fld := ⟨0x10000000C, 14, 2⟩
def HW_INDEX_OFFSET : Fld := ⟨0x10000000C, 0, 10⟩
def HW_SB_LBA_LO_LBA : Fld := ⟨0x10000002C, 0, 16⟩
def HW_SB_LBA_HI_LBA : Fld := ⟨0x100000030, 0, 16⟩
def HW_SB_CMD_RESULT : Fld := ⟨0x100000034, 8, 8⟩
def HW_SB_CMD_BUSY : Fld := ⟨0x100000034, 7, 1⟩
def HW_SB_CMD_DONE : Fld := ⟨0x100000034, 6, 1⟩
def HW_SB_CMD_VOLUME : Fld := ⟨0x100000034, 2, 2⟩
def HW_ERROR_TAG : Fld := ⟨0x100000038, 8, 5⟩
def HW_ERROR_CODE : Fld := ⟨0x100000038, 0, 8⟩
def EVC_MASK_BIT (i : Nat) : Fld := ⟨0x30010050 + 4 * (i / 32), i % 32, 1⟩
def HQE_TAG_STATE_OF (t : Nat) : Fld := ⟨0x300C0050 + 4 * (t / 8), 4 * (t % 8), 4⟩
def HQE_TAG_GEN_OF (t : Nat) : Fld := ⟨0x300C0060 + 4 * (t / 10), 3 * (t % 10), 3⟩
def SCE_SELECT_ENTRY (c i : Nat) : Fld := ⟨0x300BC000 + 0x40 * c + 4 * (i / 8), 4 * (i % 8), 4⟩
def FMT_NOISE_OF (n h : Nat) : Fld := ⟨0x30081050 + 0x100 * n + 4 * (h / 4), 8 * (h % 4), 5⟩
def PWR_DOMAIN_STATUS_BIT (d : Nat) : Fld := ⟨0x3000010C, d, 1⟩
def CH_ZMEM_WORD (p z w : Nat) : Fld := ⟨0x30100800 + 0x10000 * p + 0x40 * z + 4 * w, 0, 32⟩
def CH_ACT_WORD (p w : Nat) : Fld := ⟨0x30100280 + 0x10000 * p + 4 * w, 0, 32⟩

end Sys2Proof.Machine
end

