-- ==== Sys2Proof/Machine/RegMap.lean ====
section
/-! DEFINITION. The register tables of the spec as one list of rows: where each register lies, the power domain that
holds it (Table 14.4 and R634), and for each field its bits, access code (Table 0.5), reset value and the values
that R14 does not reserve. Host Port window registers (R11) stand at 0x1_0000_0000 + 4 × HP_A. Rows follow the
register tables of chapters 1 to 23 of spec/. -/

namespace Sys2Proof.Machine

/-- The domain that holds a register, for the losses of Table 3.3 and of Dusk: `aon` is reset by a Cold or Pin reset,
`aonSys` by a System reset too, `aonKept` and `pdie` (the power die) by none of them, `otp` is loaded from fuses. -/
inductive Dom
  | aon | aonSys | aonKept | otp | ret | core | port | afe | idu | mem | usb | hostp | servo | pdie
  deriving DecidableEq, Repr

/-- The access codes of Table 0.5 (R15). -/
inductive Acc
  | rw | ro | wo | w1c | w1s | rwl | rc
  deriving DecidableEq, Repr

/-- One field: its lowest bit, width, access, reset value and, where R14 reserves some values, the legal ranges. -/
structure FSpec where
  lo : Nat
  w : Nat
  acc : Acc
  reset : Nat
  legal : List (Nat × Nat)
  deriving DecidableEq, Repr

/-- One register, or an array of them with a stride and a count per index. -/
structure RegRow where
  name : String
  addr : Nat
  dims : List (Nat × Nat)
  dom : Dom
  fields : List FSpec
  deriving DecidableEq, Repr

/-- Rows of the register tables, by address: part 0. -/
def regRows0 : List RegRow := [
  ⟨"SYS_ID", 0x30000000, [], .otp,
    [⟨16, 16, .ro, 0x8100, []⟩, ⟨8, 8, .ro, 1, []⟩, ⟨0, 8, .ro, 205, []⟩]⟩,
  ⟨"SYS_REV", 0x30000004, [], .otp,
    [⟨12, 4, .ro, 1, []⟩, ⟨8, 4, .ro, 0, []⟩, ⟨0, 8, .ro, 0, []⟩]⟩,
  ⟨"SYS_CAP", 0x30000008, [], .otp,
    [⟨16, 2, .ro, 0, []⟩, ⟨15, 1, .ro, 1, []⟩, ⟨14, 1, .ro, 1, []⟩, ⟨8, 6, .ro, 63, []⟩, ⟨0, 8, .ro, 255, []⟩]⟩,
  ⟨"SYS_LOOP_SAT", 0x30000010, [], .ret,
    [⟨7, 1, .w1c, 0, []⟩, ⟨6, 1, .w1c, 0, []⟩, ⟨5, 1, .w1c, 0, []⟩, ⟨4, 1, .w1c, 0, []⟩, ⟨3, 1, .w1c, 0, []⟩, ⟨2, 1, .w1c, 0, []⟩, ⟨1, 1, .w1c, 0, []⟩, ⟨0, 1, .w1c, 0, []⟩]⟩,
  ⟨"SYS_PROTECT", 0x30000014, [], .ret,
    [⟨4, 1, .w1c, 0, []⟩, ⟨3, 1, .w1c, 0, []⟩, ⟨2, 1, .w1c, 0, []⟩, ⟨1, 1, .w1c, 0, []⟩, ⟨0, 1, .w1c, 0, []⟩]⟩,
  ⟨"CLK_STATUS", 0x30000100, [], .aonKept,
    [⟨6, 1, .ro, 1, []⟩, ⟨5, 1, .ro, 0, []⟩, ⟨4, 1, .ro, 0, []⟩, ⟨3, 1, .ro, 0, []⟩, ⟨2, 1, .ro, 0, []⟩, ⟨1, 1, .ro, 0, []⟩, ⟨0, 1, .ro, 0, []⟩]⟩,
  ⟨"PWR_STATE", 0x30000104, [], .aon,
    [⟨8, 1, .ro, 0, []⟩, ⟨0, 2, .ro, 0, []⟩]⟩,
  ⟨"PWR_CTRL", 0x30000108, [], .aon,
    [⟨16, 8, .rw, 63, []⟩, ⟨8, 2, .wo, 0, []⟩, ⟨0, 1, .rw, 1, []⟩]⟩,
  ⟨"PWR_DOMAIN_STATUS", 0x3000010C, [], .aonSys,
    [⟨0, 15, .ro, 0x7803, []⟩]⟩,
  ⟨"PWR_DOMAIN_REQ", 0x30000110, [], .aonSys,
    [⟨14, 1, .rw, 1, []⟩, ⟨13, 1, .rw, 1, []⟩, ⟨12, 1, .rw, 1, []⟩, ⟨10, 1, .rw, 0, []⟩, ⟨2, 8, .rw, 0, []⟩]⟩,
  ⟨"PWR_WAKE_EN", 0x30000114, [], .aon,
    [⟨0, 6, .rw, 63, []⟩]⟩,
  ⟨"PWR_WAKE_CAUSE", 0x30000118, [], .aon,
    [⟨0, 6, .w1c, 0, []⟩]⟩,
  ⟨"PWR_WAKE_TIMER", 0x3000011C, [], .aon,
    [⟨0, 32, .rw, 0, []⟩]⟩,
  ⟨"PWR_WAKE_VECTOR", 0x30000120, [], .aon,
    [⟨1, 31, .rwl, 0, []⟩]⟩,
  ⟨"PWR_REFUSE", 0x30000124, [], .aon,
    [⟨16, 10, .ro, 0, []⟩, ⟨0, 4, .ro, 0, []⟩]⟩,
  ⟨"PWR_DUSK_FAIL", 0x30000128, [], .aon,
    [⟨16, 16, .ro, 0, []⟩, ⟨4, 1, .ro, 0, []⟩, ⟨0, 4, .ro, 0, []⟩]⟩,
  ⟨"PWR_PMIC", 0x3000012C, [], .aon,
    [⟨16, 3, .ro, 7, []⟩, ⟨8, 8, .rwl, 33, []⟩, ⟨0, 3, .rwl, 0, []⟩]⟩,
  ⟨"PWR_EVENT", 0x30000130, [], .ret,
    [⟨0, 8, .w1c, 0, []⟩]⟩,
  ⟨"PWR_LOCK", 0x3000013C, [], .aon,
    [⟨0, 1, .w1s, 0, []⟩]⟩,
  ⟨"GOV_CTRL", 0x30000140, [], .servo,
    [⟨24, 8, .rw, 9, []⟩, ⟨16, 4, .rw, 15, []⟩, ⟨12, 1, .rw, 0, []⟩, ⟨8, 4, .rw, 15, []⟩, ⟨4, 4, .rw, 0, []⟩, ⟨0, 1, .rw, 1, []⟩]⟩,
  ⟨"GOV_THRESH_T", 0x30000144, [], .servo,
    [⟨16, 8, .rw, 5, []⟩, ⟨8, 8, .rw, 115, []⟩, ⟨0, 8, .rw, 100, []⟩]⟩,
  ⟨"GOV_THRESH_I", 0x30000148, [], .servo,
    [⟨8, 8, .rw, 141, []⟩, ⟨0, 8, .rw, 234, []⟩]⟩,
  ⟨"GOV_HOLD", 0x3000014C, [], .servo,
    [⟨0, 16, .rw, 50, []⟩]⟩,
  ⟨"GOV_STATUS", 0x30000150, [], .servo,
    [⟨12, 1, .ro, 0, []⟩, ⟨8, 4, .ro, 0, []⟩, ⟨4, 4, .ro, 15, []⟩, ⟨0, 4, .ro, 15, []⟩]⟩,
  ⟨"GOV_CLIP_ITER", 0x30000154, [], .servo,
    [⟨0, 32, .rc, 0, []⟩]⟩,
  ⟨"GOV_CLIP_SEEK", 0x30000158, [], .servo,
    [⟨0, 32, .rc, 0, []⟩]⟩,
  ⟨"GOV_CLIP_SPIN", 0x3000015C, [], .servo,
    [⟨0, 32, .rc, 0, []⟩]⟩,
  ⟨"SYS_RESET", 0x30000200, [], .aon,
    [⟨16, 16, .wo, 0, []⟩, ⟨2, 1, .wo, 0, []⟩, ⟨1, 1, .wo, 0, []⟩, ⟨0, 1, .wo, 0, []⟩]⟩,
  ⟨"SYS_RESET_CAUSE", 0x30000204, [], .aonKept,
    [⟨12, 1, .w1c, 0, []⟩, ⟨11, 1, .w1c, 0, []⟩, ⟨10, 1, .w1c, 0, []⟩, ⟨9, 1, .w1c, 0, []⟩, ⟨8, 1, .w1c, 0, []⟩, ⟨7, 1, .w1c, 0, []⟩, ⟨6, 1, .w1c, 0, []⟩, ⟨5, 1, .w1c, 0, []⟩, ⟨4, 1, .w1c, 0, []⟩, ⟨3, 1, .w1c, 0, []⟩, ⟨2, 1, .w1c, 0, []⟩, ⟨1, 1, .w1c, 0, []⟩, ⟨0, 1, .w1c, 1, []⟩]⟩,
  ⟨"SYS_STRAP", 0x30000208, [], .aon,
    [⟨8, 1, .ro, 0, []⟩, ⟨4, 2, .ro, 0, []⟩, ⟨0, 2, .ro, 0, []⟩]⟩,
  ⟨"SYS_RST_CFG", 0x3000020C, [], .aon,
    [⟨0, 1, .rw, 0, []⟩]⟩,
  ⟨"SYS_BOOT_INFO", 0x30000210, [], .core,
    [⟨16, 8, .rw, 0, []⟩, ⟨12, 4, .rw, 0, []⟩, ⟨8, 4, .rw, 15, []⟩, ⟨4, 4, .rw, 15, []⟩, ⟨0, 2, .rw, 3, []⟩]⟩,
  ⟨"SYS_CORE_RUN", 0x30000214, [], .core,
    [⟨1, 1, .w1s, 0, []⟩, ⟨0, 1, .ro, 1, []⟩]⟩,
  ⟨"SYS_RESTART_VEC_A", 0x30000218, [], .core,
    [⟨1, 31, .rwl, 0, []⟩]⟩,
  ⟨"SYS_RESTART_VEC_B", 0x3000021C, [], .core,
    [⟨1, 31, .rwl, 0, []⟩]⟩,
  ⟨"OTP_PROG", 0x30000220, [], .otp,
    [⟨16, 16, .wo, 0, []⟩, ⟨0, 12, .wo, 0, []⟩]⟩,
  ⟨"OTP_STATUS", 0x30000224, [], .otp,
    [⟨3, 1, .ro, 1, []⟩, ⟨2, 1, .w1c, 0, []⟩, ⟨1, 1, .w1c, 0, []⟩, ⟨0, 1, .ro, 0, []⟩]⟩,
  ⟨"OTP_RADDR", 0x30000228, [], .otp,
    [⟨0, 7, .rw, 0, []⟩]⟩,
  ⟨"OTP_RDATA", 0x3000022C, [], .otp,
    [⟨0, 32, .ro, 0, []⟩]⟩,
  ⟨"SYS_VEC_LOCK", 0x30000230, [], .core,
    [⟨0, 1, .w1s, 0, []⟩]⟩]

/-- Rows of the register tables, by address: part 1. The values that the spec gives LC_OP_LINES and LC_STREAM_ENV
are taken as all that R14 lets them hold: a write of another keeps the old value (DESIGN CHOICE, log entry 26). -/
def regRows1 : List RegRow := [
  ⟨"SYS_MSIP", 0x30000300, [], .core,
    [⟨1, 1, .rw, 0, []⟩, ⟨0, 1, .rw, 0, []⟩]⟩,
  ⟨"SYS_BUS_ERR", 0x30000310, [], .core,
    [⟨31, 1, .w1c, 0, []⟩, ⟨29, 2, .ro, 0, []⟩, ⟨28, 1, .ro, 0, []⟩, ⟨0, 5, .ro, 0, []⟩]⟩,
  ⟨"SYS_BUS_ERR_ADDR", 0x30000314, [], .core,
    [⟨0, 32, .ro, 0, []⟩]⟩,
  ⟨"EVC_CLAIM", 0x30010010, [(0x4, 2)], .ret,
    [⟨0, 8, .ro, 255, []⟩]⟩,
  ⟨"EVC_THRESH", 0x30010018, [(0x4, 2)], .ret,
    [⟨0, 3, .rw, 0, []⟩]⟩,
  ⟨"EVC_SW_SET", 0x30010020, [], .ret,
    [⟨0, 8, .w1s, 0, []⟩]⟩,
  ⟨"EVC_SW_CLR", 0x30010024, [], .ret,
    [⟨0, 8, .w1c, 0, []⟩]⟩,
  ⟨"EVC_PEND", 0x30010040, [(0x4, 4)], .ret,
    [⟨0, 32, .w1c, 0, []⟩]⟩,
  ⟨"EVC_MASK", 0x30010050, [(0x4, 4)], .ret,
    [⟨0, 32, .rw, 0xffffffff, []⟩]⟩,
  ⟨"EVC_RAW", 0x30010060, [(0x4, 4)], .ret,
    [⟨0, 32, .ro, 0, []⟩]⟩,
  ⟨"EVC_COALESCED", 0x30010070, [(0x4, 4)], .ret,
    [⟨0, 32, .w1c, 0, []⟩]⟩,
  ⟨"EVC_SRC_CFG", 0x30010100, [(0x4, 128)], .ret,
    [⟨8, 1, .rw, 0, []⟩, ⟨6, 2, .rw, 0, []⟩, ⟨3, 3, .rw, 0, []⟩, ⟨0, 1, .rw, 0, []⟩]⟩,
  ⟨"QM_DOORBELL", 0x30020000, [], .ret,
    [⟨26, 6, .wo, 0, []⟩, ⟨16, 10, .wo, 0, []⟩, ⟨0, 16, .wo, 0, []⟩]⟩,
  ⟨"QM_CONSUME", 0x30020004, [], .ret,
    [⟨26, 6, .wo, 0, []⟩, ⟨16, 10, .wo, 0, []⟩, ⟨0, 16, .wo, 0, []⟩]⟩,
  ⟨"QM_RING_SEL", 0x3002000C, [], .core,
    [⟨0, 10, .rw, 0, []⟩]⟩,
  ⟨"QM_RING_BASE", 0x30020010, [], .ret,
    [⟨6, 13, .rw, 0, []⟩]⟩,
  ⟨"QM_RING_CFG", 0x30020014, [], .ret,
    [⟨31, 1, .rw, 0, []⟩, ⟨30, 1, .rw, 0, []⟩, ⟨29, 1, .rw, 0, []⟩, ⟨24, 4, .rw, 0, []⟩, ⟨23, 1, .rw, 0, []⟩, ⟨22, 1, .rw, 0, []⟩, ⟨21, 1, .rw, 0, []⟩, ⟨8, 5, .rw, 0, []⟩, ⟨4, 1, .rw, 0, []⟩, ⟨0, 4, .rw, 0, []⟩]⟩,
  ⟨"QM_RING_WM", 0x30020018, [], .ret,
    [⟨16, 13, .rw, 0, [(0, 4096)]⟩, ⟨0, 13, .rw, 0, [(0, 4096)]⟩]⟩,
  ⟨"QM_RING_IDX", 0x3002001C, [], .ret,
    [⟨16, 16, .ro, 0, []⟩, ⟨0, 16, .ro, 0, []⟩]⟩,
  ⟨"QM_RING_STATUS", 0x30020020, [], .ret,
    [⟨21, 1, .w1c, 0, []⟩, ⟨20, 1, .ro, 0, []⟩, ⟨19, 1, .w1c, 0, []⟩, ⟨18, 1, .w1c, 0, []⟩, ⟨17, 1, .w1c, 0, []⟩, ⟨16, 1, .ro, 0, []⟩, ⟨0, 13, .ro, 0, []⟩]⟩,
  ⟨"QM_RING_CMD", 0x30020024, [], .ret,
    [⟨0, 4, .wo, 0, []⟩]⟩,
  ⟨"QM_ENQ_DATA", 0x30020040, [(0x4, 8)], .core,
    [⟨0, 32, .rw, 0, []⟩]⟩,
  ⟨"QM_ENQ_RING", 0x30020060, [], .ret,
    [⟨10, 22, .wo, 0, []⟩, ⟨0, 10, .wo, 0, []⟩]⟩,
  ⟨"QM_ENQ_RESULT", 0x30020064, [], .core,
    [⟨0, 2, .ro, 0, []⟩]⟩,
  ⟨"QM_ERR_INFO", 0x30020080, [], .ret,
    [⟨28, 4, .w1c, 0, []⟩, ⟨16, 10, .ro, 0, []⟩, ⟨0, 16, .ro, 0, []⟩]⟩,
  ⟨"QM_POISON_INFO", 0x30020084, [], .ret,
    [⟨16, 10, .ro, 0, []⟩, ⟨0, 16, .ro, 0, []⟩]⟩,
  ⟨"QM_COUNT", 0x30020088, [], .ret,
    [⟨16, 16, .rc, 0, []⟩, ⟨0, 16, .rc, 0, []⟩]⟩,
  ⟨"QM_GROUP_FIRST", 0x30020100, [(0x4, 16)], .ret,
    [⟨0, 16, .ro, 0xffff, []⟩]⟩,
  ⟨"QM_GROUP_STATUS", 0x30020140, [], .ret,
    [⟨0, 16, .ro, 0, []⟩]⟩,
  ⟨"QM_LATCH", 0x30020200, [(0x4, 32)], .ret,
    [⟨0, 32, .ro, 0, []⟩]⟩,
  ⟨"LC_CTRL", 0x30030000, [], .core,
    [⟨8, 8, .rw, 32, []⟩, ⟨0, 1, .rw, 1, []⟩]⟩,
  ⟨"LC_STATUS", 0x30030004, [], .core,
    [⟨31, 1, .ro, 0, []⟩, ⟨8, 5, .ro, 0, []⟩, ⟨0, 1, .ro, 0, []⟩]⟩,
  ⟨"LC_WCB_CFG", 0x30030008, [], .core,
    [⟨0, 8, .rw, 64, []⟩]⟩,
  ⟨"LC_CLASS_MASK", 0x30030010, [(0x4, 8)], .core,
    [⟨0, 16, .rw, 0xffff, []⟩]⟩,
  ⟨"LC_OP", 0x30030040, [], .core,
    [⟨16, 16, .wo, 0, []⟩, ⟨9, 7, .wo, 0, []⟩, ⟨8, 1, .wo, 0, []⟩, ⟨4, 4, .wo, 0, []⟩, ⟨0, 4, .wo, 0, []⟩]⟩,
  ⟨"LC_OP_ADDR", 0x30030044, [], .core,
    [⟨6, 26, .rw, 0, []⟩]⟩,
  ⟨"LC_OP_LINES", 0x30030048, [], .core,
    [⟨0, 24, .rw, 1, [(1, 14680064)]⟩]⟩,
  ⟨"LC_OP_SETWAY", 0x3003004C, [], .core,
    [⟨16, 4, .rw, 0, []⟩, ⟨0, 9, .rw, 0, []⟩]⟩,
  ⟨"LC_OP_DONE", 0x30030050, [], .core,
    [⟨0, 24, .ro, 0, []⟩]⟩,
  ⟨"LC_OP_FAILED", 0x30030054, [], .core,
    [⟨28, 4, .ro, 0, []⟩, ⟨0, 24, .ro, 0, []⟩]⟩]

/-- Rows of the register tables, by address: part 2. The ranges that the spec gives SRV_FMT, SRV_SAM and SRV_CELLS
are taken as all that R14 lets them hold: a write of another value keeps the old one (DESIGN CHOICE, log entry 26). -/
def regRows2 : List RegRow := [
  ⟨"LC_STREAM_CFG", 0x30030060, [], .core,
    [⟨24, 8, .rw, 15, []⟩, ⟨16, 8, .rw, 64, []⟩, ⟨8, 8, .rw, 8, []⟩, ⟨0, 8, .rw, 240, []⟩]⟩,
  ⟨"LC_STREAM_ENV", 0x30030064, [], .core,
    [⟨24, 1, .rw, 0, []⟩, ⟨16, 6, .rw, 8, [(2, 63)]⟩, ⟨8, 6, .rw, 32, [(2, 63)]⟩, ⟨0, 6, .rw, 4, [(2, 63)]⟩]⟩,
  ⟨"LC_STREAM_STATUS", 0x30030068, [], .core,
    [⟨16, 1, .ro, 0, []⟩, ⟨8, 6, .ro, 8, []⟩, ⟨0, 6, .ro, 8, []⟩]⟩,
  ⟨"LC_EVENT", 0x30030070, [], .core,
    [⟨4, 1, .w1c, 0, []⟩, ⟨3, 1, .w1c, 0, []⟩, ⟨2, 1, .w1c, 0, []⟩, ⟨1, 1, .w1c, 0, []⟩, ⟨0, 1, .w1c, 0, []⟩]⟩,
  ⟨"LC_LOCK_LOST_AT", 0x30030074, [], .core,
    [⟨16, 4, .ro, 0, []⟩, ⟨0, 9, .ro, 0, []⟩]⟩,
  ⟨"LC_COUNT_HIT", 0x30030080, [], .core,
    [⟨0, 32, .rc, 0, []⟩]⟩,
  ⟨"LC_COUNT_MISS", 0x30030084, [], .core,
    [⟨0, 32, .rc, 0, []⟩]⟩,
  ⟨"LC_COUNT_BYPASS", 0x30030088, [], .core,
    [⟨0, 32, .rc, 0, []⟩]⟩,
  ⟨"LC_COUNT_UNCORR", 0x3003008C, [], .core,
    [⟨16, 16, .rc, 0, []⟩, ⟨0, 16, .rc, 0, []⟩]⟩,
  ⟨"LC_COUNT_WCB_STALL", 0x30030090, [], .core,
    [⟨0, 32, .rc, 0, []⟩]⟩,
  ⟨"LC_PROBE", 0x300300A0, [], .core,
    [⟨16, 4, .rw, 0, []⟩, ⟨0, 9, .rw, 0, []⟩]⟩,
  ⟨"LC_PROBE_DATA", 0x300300A4, [], .core,
    [⟨31, 1, .ro, 0, []⟩, ⟨30, 1, .ro, 0, []⟩, ⟨29, 1, .ro, 0, []⟩, ⟨28, 1, .ro, 0, []⟩, ⟨0, 15, .ro, 0, []⟩]⟩,
  ⟨"INT_CTRL", 0x30040000, [], .ret,
    [⟨0, 1, .rw, 1, []⟩]⟩,
  ⟨"INT_CE_STATUS", 0x30040004, [], .ret,
    [⟨0, 13, .w1c, 0, []⟩]⟩,
  ⟨"INT_UE_STATUS", 0x30040008, [], .ret,
    [⟨0, 13, .w1c, 0, []⟩]⟩,
  ⟨"INT_COUNT", 0x30040100, [(0x4, 13)], .ret,
    [⟨16, 16, .rc, 0, []⟩, ⟨0, 16, .rc, 0, []⟩]⟩,
  ⟨"INT_CAP0", 0x30040200, [(0x20, 13), (0x8, 4)], .ret,
    [⟨0, 32, .ro, 0, []⟩]⟩,
  ⟨"INT_CAP1", 0x30040204, [(0x20, 13), (0x8, 4)], .ret,
    [⟨31, 1, .w1c, 0, []⟩, ⟨30, 1, .ro, 0, []⟩, ⟨16, 8, .ro, 0, []⟩, ⟨4, 1, .ro, 0, []⟩, ⟨0, 4, .ro, 0, []⟩]⟩,
  ⟨"INT_INJECT", 0x30040400, [], .ret,
    [⟨24, 8, .wo, 0, []⟩, ⟨16, 5, .rw, 0, []⟩, ⟨8, 4, .rw, 0, [(0, 13)]⟩, ⟨0, 1, .rw, 0, []⟩]⟩,
  ⟨"INT_DRAM_STATUS", 0x30040500, [], .ret,
    [⟨2, 1, .w1c, 0, []⟩, ⟨1, 1, .w1c, 0, []⟩, ⟨0, 1, .w1c, 0, []⟩]⟩,
  ⟨"INT_DRAM_COUNT", 0x30040504, [], .ret,
    [⟨16, 16, .rc, 0, []⟩, ⟨0, 16, .rc, 0, []⟩]⟩,
  ⟨"INT_DRAM_CAP0", 0x30040510, [(0x8, 4)], .ret,
    [⟨6, 26, .ro, 0, []⟩]⟩,
  ⟨"INT_DRAM_CAP1", 0x30040514, [(0x8, 4)], .ret,
    [⟨31, 1, .w1c, 0, []⟩, ⟨28, 3, .ro, 0, []⟩, ⟨16, 8, .ro, 0, []⟩, ⟨0, 5, .ro, 0, []⟩]⟩,
  ⟨"BC_CTRL", 0x30050000, [], .ret,
    [⟨0, 14, .rwl, 0, []⟩]⟩,
  ⟨"BC_LOCK", 0x30050004, [], .ret,
    [⟨0, 1, .w1s, 0, []⟩]⟩,
  ⟨"BC_STATUS", 0x30050008, [], .ret,
    [⟨31, 1, .ro, 0, []⟩, ⟨30, 1, .ro, 0, []⟩, ⟨29, 1, .ro, 0, []⟩, ⟨28, 1, .w1c, 0, []⟩, ⟨0, 18, .ro, 0, []⟩]⟩,
  ⟨"BC_COUNT", 0x3005000C, [], .ret,
    [⟨16, 16, .rc, 0, []⟩, ⟨0, 16, .rc, 0, []⟩]⟩,
  ⟨"PROT_STATUS", 0x30050040, [], .ret,
    [⟨31, 1, .w1c, 0, []⟩, ⟨30, 1, .ro, 0, []⟩, ⟨24, 5, .ro, 0, []⟩, ⟨23, 1, .ro, 0, []⟩, ⟨16, 4, .ro, 0, []⟩]⟩,
  ⟨"PROT_ADDR", 0x30050044, [], .ret,
    [⟨0, 32, .ro, 0, []⟩]⟩,
  ⟨"PROT_COUNT", 0x30050048, [], .ret,
    [⟨0, 32, .rc, 0, []⟩]⟩,
  ⟨"PROT_BASE", 0x30050100, [(0x10, 16)], .ret,
    [⟨12, 20, .rwl, 0, []⟩]⟩,
  ⟨"PROT_LIMIT", 0x30050104, [(0x10, 16)], .ret,
    [⟨12, 20, .rwl, 0, []⟩]⟩,
  ⟨"PROT_ALLOW", 0x30050108, [(0x10, 16)], .ret,
    [⟨0, 20, .rwl, 0xfffff, []⟩]⟩,
  ⟨"PROT_CTRL", 0x3005010C, [(0x10, 16)], .ret,
    [⟨0, 1, .rwl, 0, []⟩]⟩,
  ⟨"MC_STATUS", 0x30060000, [], .ret,
    [⟨31, 1, .ro, 0, []⟩, ⟨30, 1, .ro, 1, []⟩, ⟨29, 1, .ro, 0, []⟩, ⟨0, 16, .ro, 0, []⟩]⟩,
  ⟨"MC_EVENT", 0x30060004, [], .ret,
    [⟨3, 1, .w1c, 0, []⟩, ⟨2, 1, .w1c, 0, []⟩, ⟨1, 1, .w1c, 0, []⟩, ⟨0, 1, .w1c, 0, []⟩]⟩,
  ⟨"MC_RNG", 0x30060008, [], .ret,
    [⟨0, 32, .ro, 0, []⟩]⟩,
  ⟨"MC_COUNT", 0x3006000C, [], .ret,
    [⟨16, 16, .rc, 0, []⟩, ⟨0, 16, .rc, 0, []⟩]⟩,
  ⟨"MRAM_STATUS", 0x30070000, [], .core,
    [⟨16, 16, .rc, 0, []⟩, ⟨1, 1, .ro, 1, []⟩, ⟨0, 1, .ro, 0, []⟩]⟩,
  ⟨"FMT_CTRL", 0x30080000, [], .core,
    [⟨0, 1, .rw, 0, []⟩]⟩]

/-- Rows of the register tables, by address: part 3. -/
def regRows3 : List RegRow := [
  ⟨"FMT_ENTRY", 0x30080100, [(0x4, 64)], .core,
    [⟨0, 13, .rw, 0, []⟩]⟩,
  ⟨"FMT_CTX_CFG", 0x30081000, [(0x100, 8)], .core,
    [⟨8, 4, .rw, 15, []⟩, ⟨4, 4, .rw, 0, []⟩, ⟨0, 1, .rw, 0, []⟩]⟩,
  ⟨"FMT_CTX_CMD", 0x30081004, [(0x100, 8)], .core,
    [⟨8, 1, .wo, 0, []⟩, ⟨0, 4, .wo, 0, []⟩]⟩,
  ⟨"FMT_CTX_STATUS", 0x30081008, [(0x100, 8)], .core,
    [⟨28, 4, .ro, 0, []⟩, ⟨27, 1, .ro, 0, []⟩, ⟨24, 3, .ro, 0, []⟩, ⟨8, 13, .ro, 0, []⟩, ⟨0, 2, .ro, 0, []⟩]⟩,
  ⟨"FMT_CTX_PC", 0x3008100C, [(0x100, 8)], .core,
    [⟨0, 13, .rw, 0, []⟩]⟩,
  ⟨"FMT_CTX_FLAGS", 0x30081010, [(0x100, 8)], .core,
    [⟨16, 2, .ro, 0, []⟩, ⟨8, 4, .w1s, 0, []⟩, ⟨4, 4, .ro, 0, []⟩, ⟨1, 1, .ro, 0, []⟩, ⟨0, 1, .ro, 0, []⟩]⟩,
  ⟨"FMT_CTX_WTO", 0x30081014, [(0x100, 8)], .core,
    [⟨0, 16, .rw, 0, []⟩]⟩,
  ⟨"FMT_CTX_TIMER", 0x30081018, [(0x100, 8)], .core,
    [⟨0, 16, .rw, 0, []⟩, ⟨16, 16, .ro, 0, []⟩]⟩,
  ⟨"FMT_CTX_ZONE", 0x3008101C, [(0x100, 8)], .core,
    [⟨0, 5, .rw, 0, []⟩]⟩,
  ⟨"FMT_CTX_PA0", 0x30081020, [(0x100, 8)], .core,
    [⟨0, 16, .rw, 0, []⟩]⟩,
  ⟨"FMT_CTX_PA1", 0x30081024, [(0x100, 8)], .core,
    [⟨0, 16, .rw, 0, []⟩]⟩,
  ⟨"FMT_CTX_EVENT", 0x30081028, [(0x100, 8)], .core,
    [⟨12, 1, .w1c, 0, []⟩, ⟨11, 1, .w1c, 0, []⟩, ⟨10, 1, .w1c, 0, []⟩, ⟨9, 1, .w1c, 0, []⟩, ⟨8, 1, .w1c, 0, []⟩, ⟨0, 8, .w1c, 0, []⟩]⟩,
  ⟨"FMT_CTX_COUNT", 0x3008102C, [(0x100, 8)], .core,
    [⟨16, 16, .rc, 0, []⟩, ⟨0, 16, .rc, 0, []⟩]⟩,
  ⟨"FMT_CTX_RWQ", 0x30081030, [(0x100, 8)], .core,
    [⟨16, 1, .w1c, 0, []⟩, ⟨4, 9, .ro, 0, []⟩]⟩,
  ⟨"FMT_CTX_RWQ_LEN", 0x30081034, [(0x100, 8)], .core,
    [⟨0, 5, .ro, 0, []⟩]⟩,
  ⟨"FMT_CTX_CNT0", 0x30081038, [(0x100, 8)], .core,
    [⟨16, 16, .ro, 0, []⟩, ⟨0, 16, .ro, 0, []⟩]⟩,
  ⟨"FMT_CTX_CNT1", 0x3008103C, [(0x100, 8)], .core,
    [⟨16, 16, .ro, 0, []⟩, ⟨12, 4, .ro, 0, []⟩, ⟨0, 9, .ro, 0, []⟩]⟩,
  ⟨"FMT_CTX_BUF", 0x30081040, [(0x100, 8)], .core,
    [⟨6, 26, .ro, 0, []⟩]⟩,
  ⟨"FMT_NOISE", 0x30081050, [(0x100, 8), (0x4, 4)], .core,
    [⟨0, 5, .rw, 0, []⟩, ⟨8, 5, .rw, 0, []⟩, ⟨16, 5, .rw, 0, []⟩, ⟨24, 5, .rw, 0, []⟩]⟩,
  ⟨"FMT_ZFRAME0", 0x30082000, [(0x100, 8), (0x8, 32)], .core,
    [⟨24, 4, .rw, 0, []⟩, ⟨0, 24, .rw, 0, []⟩]⟩,
  ⟨"FMT_ZFRAME1", 0x30082004, [(0x100, 8), (0x8, 32)], .core,
    [⟨16, 16, .rw, 0, []⟩, ⟨0, 16, .rw, 0, []⟩]⟩,
  ⟨"IDU_ITER", 0x30090000, [], .idu,
    [⟨24, 8, .rw, 15, []⟩, ⟨16, 1, .rw, 0, []⟩, ⟨12, 4, .rw, 8, []⟩, ⟨4, 4, .rw, 8, [(1, 15)]⟩, ⟨0, 4, .rw, 1, [(1, 15)]⟩]⟩,
  ⟨"IDU_GOV", 0x30090004, [], .idu,
    [⟨16, 8, .rw, 39, []⟩, ⟨8, 8, .rw, 12, []⟩, ⟨0, 8, .rw, 2, []⟩]⟩,
  ⟨"IDU_GOV_STATUS", 0x30090008, [], .idu,
    [⟨8, 1, .ro, 0, []⟩, ⟨4, 4, .ro, 8, []⟩, ⟨0, 4, .ro, 8, []⟩]⟩,
  ⟨"IDU_DEC", 0x3009000C, [], .idu,
    [⟨0, 3, .rw, 1, []⟩]⟩,
  ⟨"IDU_TIMEOUT", 0x30090010, [], .idu,
    [⟨0, 20, .rw, 0x18000, [(70000, 1048575)]⟩]⟩,
  ⟨"IDU_KAT", 0x30090014, [], .idu,
    [⟨0, 16, .rw, 1000, []⟩]⟩,
  ⟨"IDU_FENCE", 0x30090018, [], .idu,
    [⟨24, 1, .ro, 0, []⟩, ⟨6, 18, .ro, 0, []⟩, ⟨0, 6, .ro, 0, []⟩]⟩,
  ⟨"IDU_CMD", 0x3009001C, [], .idu,
    [⟨4, 3, .wo, 0, []⟩, ⟨0, 4, .wo, 0, []⟩]⟩,
  ⟨"IDU_SLOT_ALLOC", 0x30090020, [], .idu,
    [⟨0, 8, .rc, 255, []⟩]⟩,
  ⟨"IDU_SLOT_RELEASE", 0x30090024, [], .idu,
    [⟨0, 6, .wo, 0, []⟩]⟩,
  ⟨"IDU_SLOT_FREE", 0x30090028, [], .idu,
    [⟨8, 6, .ro, 32, []⟩, ⟨0, 6, .ro, 48, []⟩]⟩,
  ⟨"IDU_SJD", 0x3009002C, [], .idu,
    [⟨8, 4, .rw, 6, [(0, 8)]⟩, ⟨4, 4, .rw, 1, []⟩, ⟨0, 4, .rw, 4, [(1, 8)]⟩]⟩,
  ⟨"IDU_COUNT", 0x30090030, [], .idu,
    [⟨16, 16, .rc, 0, []⟩, ⟨0, 16, .rc, 0, []⟩]⟩,
  ⟨"IDU_POISON_RING", 0x30090034, [], .idu,
    [⟨0, 10, .ro, 0, []⟩]⟩,
  ⟨"IDU_EVENT", 0x30090038, [], .idu,
    [⟨0, 8, .w1c, 0, []⟩]⟩,
  ⟨"IDU_QUOTA", 0x30090040, [(0x4, 8)], .idu,
    [⟨8, 6, .rw, 12, []⟩, ⟨0, 6, .rw, 4, []⟩]⟩,
  ⟨"IDU_SLOT", 0x30090100, [(0x4, 48)], .idu,
    [⟨16, 16, .ro, 0, []⟩, ⟨4, 4, .ro, 0, []⟩, ⟨0, 4, .ro, 0, []⟩]⟩,
  ⟨"LLR_WIN_ADDR", 0x30090200, [], .idu,
    [⟨24, 6, .rw, 0, []⟩, ⟨20, 2, .rw, 0, []⟩, ⟨0, 16, .rw, 0, []⟩]⟩,
  ⟨"LLR_WIN_DATA", 0x30090204, [], .idu,
    [⟨0, 32, .rw, 0, []⟩]⟩]

/-- Rows of the register tables, by address: part 4. -/
def regRows4 : List RegRow := [
  ⟨"AE_CTRL", 0x300A0000, [], .core,
    [⟨0, 1, .rw, 1, []⟩]⟩,
  ⟨"AE_STATUS", 0x300A0004, [], .core,
    [⟨16, 16, .ro, 0, []⟩, ⟨0, 1, .ro, 0, []⟩]⟩,
  ⟨"AE_PACE", 0x300A0008, [], .core,
    [⟨0, 16, .rw, 0, []⟩]⟩,
  ⟨"AE_EVENT", 0x300A000C, [], .core,
    [⟨0, 8, .w1c, 0, []⟩]⟩,
  ⟨"AE_SWSET", 0x300A0010, [], .core,
    [⟨4, 4, .wo, 0, []⟩]⟩,
  ⟨"AE_COUNT", 0x300A0014, [], .core,
    [⟨16, 16, .rc, 0, []⟩, ⟨0, 16, .rc, 0, []⟩]⟩,
  ⟨"AE_LAST_ERR", 0x300A0018, [], .core,
    [⟨16, 16, .ro, 0, []⟩, ⟨0, 8, .ro, 0, []⟩]⟩,
  ⟨"SCE_COEF", 0x300B0000, [(0x800, 24), (0x80, 16), (0x4, 32)], .servo,
    [⟨24, 8, .ro, 0, []⟩, ⟨0, 24, .rw, 0, []⟩]⟩,
  ⟨"SCE_SETCFG", 0x300B001C, [(0x800, 24), (0x80, 16)], .servo,
    [⟨2, 1, .rw, 0, []⟩, ⟨1, 1, .rw, 0, []⟩, ⟨0, 1, .rw, 0, []⟩]⟩,
  ⟨"SCE_SELECT", 0x300BC000, [(0x40, 24), (0x4, 16)], .servo,
    [⟨0, 4, .rw, 0, []⟩, ⟨4, 4, .rw, 0, []⟩, ⟨8, 4, .rw, 0, []⟩, ⟨12, 4, .rw, 0, []⟩, ⟨16, 4, .rw, 0, []⟩, ⟨20, 4, .rw, 0, []⟩, ⟨24, 4, .rw, 0, []⟩, ⟨28, 4, .rw, 0, []⟩]⟩,
  ⟨"CTX_CFG", 0x300BD000, [(0x40, 24)], .servo,
    [⟨24, 8, .rw, 15, []⟩, ⟨16, 4, .rw, 7, []⟩, ⟨8, 4, .rw, 0, [(0, 7)]⟩, ⟨1, 1, .rw, 0, []⟩, ⟨0, 1, .rw, 0, []⟩]⟩,
  ⟨"CTX_PIN", 0x300BD004, [(0x40, 24)], .servo,
    [⟨4, 1, .rw, 0, []⟩, ⟨0, 4, .rw, 0, []⟩]⟩,
  ⟨"CTX_CLAMP", 0x300BD008, [(0x40, 24)], .servo,
    [⟨16, 16, .rw, 0x7fff, []⟩, ⟨0, 16, .rw, 0x8000, []⟩]⟩,
  ⟨"CTX_BAND0", 0x300BD00C, [(0x40, 24)], .servo,
    [⟨16, 16, .rw, 256, []⟩, ⟨0, 16, .rw, 32, []⟩]⟩,
  ⟨"CTX_BAND1", 0x300BD010, [(0x40, 24)], .servo,
    [⟨16, 16, .rw, 8, []⟩, ⟨0, 16, .rw, 2560, []⟩]⟩,
  ⟨"CTX_STATUS", 0x300BD014, [(0x40, 24)], .servo,
    [⟨26, 1, .ro, 0, []⟩, ⟨24, 2, .ro, 0, []⟩, ⟨20, 4, .ro, 0, []⟩, ⟨16, 4, .ro, 0, []⟩, ⟨12, 4, .ro, 0, []⟩, ⟨10, 2, .ro, 0, []⟩, ⟨7, 3, .ro, 0, []⟩, ⟨5, 2, .ro, 0, []⟩, ⟨1, 1, .ro, 0, []⟩, ⟨0, 1, .ro, 0, []⟩]⟩,
  ⟨"CTX_IN", 0x300BD018, [(0x40, 24)], .servo,
    [⟨0, 24, .ro, 0, []⟩]⟩,
  ⟨"CTX_OUT", 0x300BD01C, [(0x40, 24)], .servo,
    [⟨0, 16, .ro, 0, []⟩]⟩,
  ⟨"CTX_CMD", 0x300BD020, [(0x40, 24)], .servo,
    [⟨0, 2, .wo, 0, []⟩]⟩,
  ⟨"CTX_STATE_IDX", 0x300BD024, [(0x40, 24)], .servo,
    [⟨0, 3, .rw, 0, []⟩]⟩,
  ⟨"CTX_STATE_LO", 0x300BD028, [(0x40, 24)], .servo,
    [⟨0, 32, .ro, 0, []⟩]⟩,
  ⟨"CTX_STATE_HI", 0x300BD02C, [(0x40, 24)], .servo,
    [⟨16, 16, .ro, 0, []⟩, ⟨0, 16, .ro, 0, []⟩]⟩,
  ⟨"SCE_RADIAL", 0x300BD600, [(0x20, 8), (0x4, 7)], .servo,
    [⟨0, 24, .rw, 0xffffff, []⟩]⟩,
  ⟨"PS_SPIN", 0x300BE000, [], .servo,
    [⟨8, 8, .rw, 187, []⟩, ⟨0, 4, .rw, 2, [(1, 8)]⟩]⟩,
  ⟨"PS_STATUS", 0x300BE004, [], .pdie,
    [⟨16, 8, .ro, 0, []⟩, ⟨8, 4, .ro, 0, []⟩, ⟨6, 1, .ro, 1, []⟩, ⟨5, 1, .ro, 0, []⟩, ⟨2, 3, .ro, 0, []⟩, ⟨1, 1, .ro, 0, []⟩, ⟨0, 1, .ro, 0, []⟩]⟩,
  ⟨"PS_VMOT", 0x300BE008, [], .pdie,
    [⟨16, 16, .ro, 0, []⟩, ⟨0, 16, .ro, 0, []⟩]⟩,
  ⟨"PS_TEMP", 0x300BE00C, [], .pdie,
    [⟨0, 8, .ro, 0, []⟩]⟩,
  ⟨"PS_RETRACT_CLR", 0x300BE010, [], .pdie,
    [⟨0, 1, .wo, 0, []⟩]⟩,
  ⟨"SCE_STATUS", 0x300BF000, [], .servo,
    [⟨31, 1, .ro, 0, []⟩, ⟨0, 5, .ro, 0, []⟩]⟩,
  ⟨"SCE_LAT_MAX", 0x300BF004, [], .servo,
    [⟨0, 16, .rc, 0, []⟩]⟩,
  ⟨"SCE_SAT", 0x300BF008, [], .servo,
    [⟨0, 16, .w1c, 0, []⟩]⟩,
  ⟨"SCE_OVERRUN", 0x300BF00C, [], .servo,
    [⟨0, 24, .w1c, 0, []⟩]⟩,
  ⟨"SCE_LIVE_WRITE", 0x300BF010, [], .servo,
    [⟨0, 24, .w1c, 0, []⟩]⟩,
  ⟨"HQE_CTRL", 0x300C0000, [], .ret,
    [⟨2, 1, .rw, 1, []⟩, ⟨1, 1, .rw, 1, []⟩, ⟨0, 1, .rw, 0, []⟩]⟩,
  ⟨"HQE_TAG_SPLIT", 0x300C0004, [], .ret,
    [⟨0, 6, .rw, 24, [(0, 32)]⟩]⟩,
  ⟨"HQE_AREA", 0x300C0008, [], .ret,
    [⟨0, 7, .rw, 127, []⟩]⟩,
  ⟨"HQE_MAP_BASE", 0x300C000C, [], .ret,
    [⟨16, 16, .rw, 0x8000, []⟩]⟩,
  ⟨"HQE_BUF_BASE", 0x300C0010, [], .ret,
    [⟨12, 20, .rw, 0x81000, []⟩]⟩,
  ⟨"HQE_VOL_CFG", 0x300C0020, [(0x4, 4)], .ret,
    [⟨1, 1, .rw, 0, []⟩, ⟨0, 1, .rw, 0, []⟩]⟩,
  ⟨"HQE_VOL_CAP", 0x300C0030, [(0x4, 4)], .ret,
    [⟨0, 32, .rw, 0, []⟩]⟩]

/-- Rows of the register tables, by address: part 5. USB_EP_CFG's SIZE outside 8 to 64 and MAXPKT outside 8 to 512 are
treated as reserved values, which a write does not store (R14): chapter 20 gives the ranges and does not say what another
value does. DESIGN CHOICE, log entry 26. -/
def regRows5 : List RegRow := [
  ⟨"HQE_STATUS", 0x300C0040, [], .ret,
    [⟨31, 1, .ro, 0, []⟩, ⟨30, 1, .ro, 0, []⟩, ⟨29, 1, .ro, 0, []⟩, ⟨0, 6, .ro, 0, []⟩]⟩,
  ⟨"HQE_TAG_STATE", 0x300C0050, [(0x4, 4)], .ret,
    [⟨0, 4, .ro, 0, []⟩, ⟨4, 4, .ro, 0, []⟩, ⟨8, 4, .ro, 0, []⟩, ⟨12, 4, .ro, 0, []⟩, ⟨16, 4, .ro, 0, []⟩, ⟨20, 4, .ro, 0, []⟩, ⟨24, 4, .ro, 0, []⟩, ⟨28, 4, .ro, 0, []⟩]⟩,
  ⟨"HQE_TAG_GEN", 0x300C0060, [(0x4, 4)], .ret,
    [⟨0, 32, .ro, 0, []⟩]⟩,
  ⟨"HQE_MAP_SYNC", 0x300C0070, [], .ret,
    [⟨0, 1, .wo, 0, []⟩]⟩,
  ⟨"HQE_CQ_HP", 0x300C0074, [], .ret,
    [⟨16, 7, .ro, 0, []⟩, ⟨0, 7, .ro, 0, []⟩]⟩,
  ⟨"HQE_CQ_USB", 0x300C0078, [], .ret,
    [⟨16, 7, .ro, 0, []⟩, ⟨0, 7, .ro, 0, []⟩]⟩,
  ⟨"HQE_EVENT", 0x300C0080, [], .ret,
    [⟨0, 8, .w1c, 0, []⟩]⟩,
  ⟨"HQE_SWSET", 0x300C0084, [], .ret,
    [⟨6, 2, .wo, 0, []⟩]⟩,
  ⟨"HQE_ERR_INFO", 0x300C0088, [], .ret,
    [⟨28, 4, .w1c, 0, []⟩, ⟨0, 5, .ro, 0, []⟩]⟩,
  ⟨"HQE_FP_STATUS", 0x300C0090, [], .ret,
    [⟨0, 3, .ro, 0, []⟩]⟩,
  ⟨"HQE_COUNT_FAST", 0x300C0094, [], .ret,
    [⟨0, 32, .rc, 0, []⟩]⟩,
  ⟨"HQE_COUNT_DECLINE", 0x300C0098, [], .ret,
    [⟨0, 32, .rc, 0, []⟩]⟩,
  ⟨"HQE_FP_LAT_MAX", 0x300C009C, [], .ret,
    [⟨0, 16, .rc, 0, []⟩]⟩,
  ⟨"HP_CFG", 0x300D0000, [], .hostp,
    [⟨16, 16, .rw, 1000, []⟩, ⟨1, 1, .rw, 0, []⟩, ⟨0, 1, .rw, 0, []⟩]⟩,
  ⟨"HP_STATE", 0x300D0004, [], .hostp,
    [⟨8, 8, .rw, 0, []⟩, ⟨0, 3, .rw, 0, []⟩]⟩,
  ⟨"HP_ATTN", 0x300D0008, [], .hostp,
    [⟨0, 1, .rw, 0, []⟩]⟩,
  ⟨"HP_EVENT", 0x300D000C, [], .hostp,
    [⟨0, 7, .w1c, 0, []⟩]⟩,
  ⟨"HP_COUNT", 0x300D0010, [], .hostp,
    [⟨16, 16, .rc, 0, []⟩, ⟨0, 16, .rc, 0, []⟩]⟩,
  ⟨"HP_ERR_LAST", 0x300D0014, [], .hostp,
    [⟨8, 5, .ro, 0, []⟩, ⟨0, 8, .ro, 0, []⟩]⟩,
  ⟨"HP_XFER", 0x300D0018, [], .hostp,
    [⟨8, 8, .ro, 0, []⟩, ⟨0, 8, .ro, 0, []⟩]⟩,
  ⟨"USB_CTRL", 0x300E0000, [], .usb,
    [⟨4, 1, .rw, 0, []⟩, ⟨3, 1, .rw, 0, []⟩, ⟨2, 1, .wo, 0, []⟩, ⟨1, 1, .rw, 0, []⟩, ⟨0, 1, .rw, 0, []⟩]⟩,
  ⟨"USB_STATUS", 0x300E0004, [], .usb,
    [⟨16, 7, .ro, 0, []⟩, ⟨8, 7, .ro, 0, []⟩, ⟨5, 1, .ro, 0, []⟩, ⟨4, 1, .ro, 0, []⟩, ⟨3, 1, .ro, 0, []⟩, ⟨2, 1, .ro, 0, []⟩, ⟨1, 1, .ro, 0, []⟩, ⟨0, 1, .ro, 0, []⟩]⟩,
  ⟨"USB_HUB_ID", 0x300E0008, [], .usb,
    [⟨16, 16, .rw, 0, []⟩, ⟨0, 16, .rw, 0, []⟩]⟩,
  ⟨"USB_HUB_CFG", 0x300E000C, [], .usb,
    [⟨16, 16, .rw, 256, []⟩, ⟨0, 8, .rw, 10, []⟩]⟩,
  ⟨"USB_PORT", 0x300E0010, [(0x4, 5)], .usb,
    [⟨16, 16, .ro, 0, []⟩, ⟨0, 16, .ro, 0, []⟩]⟩,
  ⟨"USB_EP_CFG", 0x300E0040, [(0x4, 7)], .usb,
    [⟨31, 1, .rw, 0, []⟩, ⟨24, 7, .rw, 0, [(8, 64)]⟩, ⟨16, 8, .rw, 0, []⟩, ⟨15, 1, .rw, 0, []⟩, ⟨13, 2, .rw, 0, [(0, 0), (2, 2)]⟩, ⟨0, 11, .rw, 64, [(8, 512)]⟩]⟩,
  ⟨"USB_EP_CTL", 0x300E0060, [(0x4, 7)], .usb,
    [⟨1, 1, .w1s, 0, []⟩, ⟨0, 1, .ro, 0, []⟩]⟩,
  ⟨"USB_EP0_CTL", 0x300E0080, [], .usb,
    [⟨24, 8, .wo, 0, []⟩, ⟨12, 11, .wo, 0, []⟩, ⟨0, 2, .wo, 0, []⟩]⟩,
  ⟨"USB_SETUP_SEQ", 0x300E0084, [], .usb,
    [⟨0, 8, .ro, 0, []⟩]⟩,
  ⟨"USB_MSE_CFG", 0x300E00A0, [], .usb,
    [⟨16, 16, .rw, 0x3800, []⟩, ⟨0, 1, .rw, 0, []⟩]⟩,
  ⟨"USB_MSE_CMD", 0x300E00A4, [], .usb,
    [⟨8, 1, .ro, 0, []⟩, ⟨0, 4, .ro, 0, []⟩]⟩,
  ⟨"USB_MSE_DLEN", 0x300E00AC, [], .usb,
    [⟨0, 32, .rw, 0, []⟩]⟩,
  ⟨"USB_MSE_BUF", 0x300E00B0, [], .usb,
    [⟨6, 26, .rw, 0, []⟩]⟩,
  ⟨"USB_MSE_SENSE", 0x300E00B4, [], .usb,
    [⟨24, 8, .rw, 0, []⟩, ⟨16, 4, .rw, 0, []⟩, ⟨8, 8, .rw, 0, []⟩, ⟨0, 8, .rw, 0, []⟩]⟩,
  ⟨"USB_MSE_START", 0x300E00B8, [], .usb,
    [⟨28, 2, .wo, 0, []⟩, ⟨16, 5, .wo, 0, []⟩, ⟨12, 1, .wo, 0, []⟩, ⟨0, 4, .wo, 0, []⟩]⟩,
  ⟨"USB_MSE_FINISH", 0x300E00BC, [], .usb,
    [⟨0, 4, .wo, 0, []⟩]⟩,
  ⟨"USB_MSE_CTX", 0x300E00C0, [(0x4, 16)], .usb,
    [⟨28, 4, .ro, 0, []⟩, ⟨16, 8, .ro, 0, []⟩, ⟨0, 16, .ro, 0, []⟩]⟩,
  ⟨"USB_EVENT", 0x300E0100, [], .usb,
    [⟨0, 8, .w1c, 0, []⟩]⟩,
  ⟨"USB_EP_EVENT", 0x300E0104, [], .usb,
    [⟨1, 1, .w1c, 0, []⟩, ⟨0, 1, .w1c, 0, []⟩]⟩,
  ⟨"USB_ERR", 0x300E0108, [], .usb,
    [⟨0, 8, .rc, 0, []⟩]⟩]

/-- Rows of the register tables, by address: part 6. The ranges that the spec gives USB_EP_CFG are taken as all
that R14 lets them hold (DESIGN CHOICE, log entry 26). -/
def regRows6 : List RegRow := [
  ⟨"USB_COUNT", 0x300E010C, [], .usb,
    [⟨16, 16, .rc, 0, []⟩, ⟨0, 16, .rc, 0, []⟩]⟩,
  ⟨"ALM_CTRL", 0x300F0000, [], .core,
    [⟨8, 2, .rw, 2, []⟩, ⟨0, 1, .rw, 1, []⟩]⟩,
  ⟨"ALM_STATUS", 0x300F0004, [], .core,
    [⟨31, 1, .ro, 0, []⟩, ⟨30, 1, .ro, 0, []⟩, ⟨29, 1, .ro, 0, []⟩, ⟨28, 1, .ro, 0, []⟩, ⟨0, 12, .ro, 0, []⟩]⟩,
  ⟨"ALM_NEWEST", 0x300F0008, [], .core,
    [⟨12, 1, .ro, 0, []⟩, ⟨0, 12, .ro, 0, []⟩]⟩,
  ⟨"ALM_COUNT_LO", 0x300F000C, [], .core,
    [⟨16, 13, .ro, 0, []⟩, ⟨0, 13, .ro, 0, []⟩]⟩,
  ⟨"ALM_COUNT_HI", 0x300F0010, [], .core,
    [⟨16, 13, .ro, 0, []⟩, ⟨0, 13, .ro, 0, []⟩]⟩,
  ⟨"ALM_DROPPED", 0x300F0020, [(0x4, 4)], .aonKept,
    [⟨0, 32, .ro, 0, []⟩]⟩,
  ⟨"ALM_TIME", 0x300F0030, [], .aonKept,
    [⟨0, 32, .ro, 0, []⟩]⟩,
  ⟨"ALM_CYCLES", 0x300F0034, [], .aonKept,
    [⟨0, 24, .ro, 0, []⟩]⟩,
  ⟨"ALM_CMD", 0x300F0040, [], .core,
    [⟨24, 8, .wo, 0, []⟩, ⟨0, 4, .wo, 0, []⟩]⟩,
  ⟨"ALM_EVENT", 0x300F0044, [], .core,
    [⟨2, 1, .w1c, 0, []⟩, ⟨1, 1, .w1c, 0, []⟩, ⟨0, 1, .w1c, 0, []⟩]⟩,
  ⟨"ALM_ERR", 0x300F0048, [], .core,
    [⟨0, 4, .rc, 0, []⟩]⟩,
  ⟨"SRV_FMT", 0x30100100, [(0x10000, 8)], .port,
    [⟨28, 4, .rw, 0, []⟩, ⟨23, 5, .rw, 22, [(16, 24)]⟩, ⟨19, 4, .rw, 9, [(6, 9)]⟩, ⟨9, 10, .rw, 256, [(64, 512)]⟩]⟩,
  ⟨"SRV_SAM", 0x30100104, [(0x10000, 8)], .port,
    [⟨16, 16, .rw, 249, []⟩, ⟨8, 8, .rw, 16, [(8, 16)]⟩, ⟨0, 8, .rw, 1, [(0, 2)]⟩]⟩,
  ⟨"SRV_CELLS", 0x30100108, [(0x10000, 8)], .port,
    [⟨26, 6, .rw, 12, [(8, 63)]⟩, ⟨16, 10, .rw, 96, []⟩, ⟨8, 8, .rw, 32, [(8, 255)]⟩, ⟨0, 4, .rw, 6, []⟩]⟩,
  ⟨"SRV_GATE", 0x3010010C, [(0x10000, 8)], .port,
    [⟨16, 16, .rw, 64, []⟩, ⟨0, 16, .rw, 16, []⟩]⟩,
  ⟨"SRV_PERIOD", 0x30100110, [(0x10000, 8)], .port,
    [⟨0, 16, .ro, 0, []⟩]⟩,
  ⟨"SRV_MAXTRACK", 0x30100114, [(0x10000, 8)], .port,
    [⟨0, 24, .rw, 0xffffff, []⟩]⟩,
  ⟨"SRV_POS", 0x30100118, [(0x10000, 8)], .port,
    [⟨0, 32, .ro, 0, []⟩]⟩,
  ⟨"SRV_TARGET", 0x3010011C, [(0x10000, 8)], .port,
    [⟨0, 32, .rw, 0, []⟩]⟩,
  ⟨"SRV_ERR", 0x30100120, [(0x10000, 8)], .port,
    [⟨0, 24, .ro, 0, []⟩]⟩,
  ⟨"SRV_BURST_AB", 0x30100124, [(0x10000, 8)], .port,
    [⟨16, 16, .ro, 0, []⟩, ⟨0, 16, .ro, 0, []⟩]⟩,
  ⟨"SRV_BURST_CD", 0x30100128, [(0x10000, 8)], .port,
    [⟨16, 16, .ro, 0, []⟩, ⟨0, 16, .ro, 0, []⟩]⟩,
  ⟨"SRV_GRAY", 0x3010012C, [(0x10000, 8)], .port,
    [⟨0, 24, .ro, 0, []⟩]⟩,
  ⟨"SRV_WI", 0x30100130, [(0x10000, 8)], .port,
    [⟨8, 4, .rw, 4, []⟩, ⟨0, 8, .rw, 30, []⟩]⟩,
  ⟨"SRV_ONTRACK", 0x30100134, [(0x10000, 8)], .port,
    [⟨24, 8, .rw, 20, []⟩, ⟨16, 8, .rw, 4, []⟩, ⟨8, 8, .rw, 26, []⟩, ⟨0, 8, .rw, 2, []⟩]⟩,
  ⟨"SRV_SEEK", 0x30100138, [(0x10000, 8)], .port,
    [⟨16, 16, .rw, 2048, []⟩, ⟨0, 16, .rw, 40, []⟩]⟩,
  ⟨"SRV_SEEK2", 0x3010013C, [(0x10000, 8)], .port,
    [⟨20, 12, .rw, 512, []⟩, ⟨10, 10, .rw, 256, []⟩, ⟨0, 10, .rw, 512, []⟩]⟩,
  ⟨"SRV_SEEK_ILIM", 0x30100140, [(0x10000, 8)], .port,
    [⟨0, 10, .rw, 600, []⟩]⟩,
  ⟨"SRV_LOSS", 0x30100144, [(0x10000, 8)], .port,
    [⟨16, 16, .rw, 256, []⟩, ⟨8, 8, .rw, 4, []⟩, ⟨0, 8, .rw, 4, []⟩]⟩,
  ⟨"SRV_LOAD", 0x30100148, [(0x10000, 8)], .port,
    [⟨24, 8, .rw, 25, []⟩, ⟨8, 16, .rw, 500, []⟩, ⟨0, 8, .rw, 3, []⟩]⟩,
  ⟨"SRV_UNLOAD", 0x3010014C, [(0x10000, 8)], .port,
    [⟨0, 24, .rw, 0, []⟩]⟩,
  ⟨"SRV_CMD", 0x30100150, [(0x10000, 8)], .port,
    [⟨8, 4, .wo, 0, []⟩, ⟨4, 4, .wo, 0, []⟩, ⟨0, 4, .wo, 0, []⟩]⟩,
  ⟨"SRV_STATUS", 0x30100154, [(0x10000, 8)], .port,
    [⟨9, 1, .ro, 0, []⟩, ⟨8, 1, .ro, 0, []⟩, ⟨7, 1, .ro, 0, []⟩, ⟨3, 4, .ro, 0, []⟩, ⟨0, 3, .ro, 0, []⟩]⟩,
  ⟨"SRV_EVENT", 0x30100158, [(0x10000, 8)], .port,
    [⟨9, 1, .w1c, 0, []⟩, ⟨8, 1, .w1c, 0, []⟩, ⟨7, 1, .w1c, 0, []⟩, ⟨6, 1, .w1c, 0, []⟩, ⟨5, 1, .w1c, 0, []⟩, ⟨4, 1, .w1c, 0, []⟩, ⟨3, 1, .w1c, 0, []⟩, ⟨2, 1, .w1c, 0, []⟩, ⟨1, 1, .w1c, 0, []⟩, ⟨0, 1, .w1c, 0, []⟩]⟩,
  ⟨"SRV_COUNT", 0x3010015C, [(0x10000, 8)], .port,
    [⟨16, 16, .rc, 0, []⟩, ⟨0, 16, .rc, 0, []⟩]⟩,
  ⟨"SRV_HEAD_OFS", 0x30100180, [(0x10000, 8), (0x4, 16)], .port,
    [⟨0, 16, .rw, 0, []⟩]⟩,
  ⟨"CH_ZONE", 0x30100204, [(0x10000, 8)], .port,
    [⟨31, 1, .wo, 0, []⟩, ⟨16, 5, .wo, 0, []⟩, ⟨0, 5, .ro, 0, []⟩]⟩,
  ⟨"CH_STATUS", 0x30100208, [(0x10000, 8)], .port,
    [⟨5, 1, .ro, 0, []⟩, ⟨4, 1, .ro, 0, []⟩, ⟨3, 1, .ro, 0, []⟩, ⟨2, 1, .ro, 0, []⟩, ⟨1, 1, .ro, 0, []⟩, ⟨0, 1, .ro, 0, []⟩]⟩,
  ⟨"CH_EVENT", 0x3010020C, [(0x10000, 8)], .port,
    [⟨10, 1, .w1c, 0, []⟩, ⟨9, 1, .w1c, 0, []⟩, ⟨8, 1, .w1c, 0, []⟩, ⟨7, 1, .w1c, 0, []⟩, ⟨6, 1, .w1c, 0, []⟩, ⟨5, 1, .w1c, 0, []⟩, ⟨4, 1, .w1c, 0, []⟩, ⟨3, 1, .w1c, 0, []⟩, ⟨2, 1, .w1c, 0, []⟩, ⟨1, 1, .w1c, 0, []⟩, ⟨0, 1, .w1c, 0, []⟩]⟩]

/-- Rows of the register tables, by address: part 7. -/
def regRows7 : List RegRow := [
  ⟨"CH_COUNT", 0x30100210, [(0x10000, 8)], .port,
    [⟨16, 16, .rc, 0, []⟩, ⟨0, 16, .rc, 0, []⟩]⟩,
  ⟨"AGC_CFG", 0x30100220, [(0x10000, 8)], .port,
    [⟨24, 8, .rw, 15, []⟩, ⟨16, 8, .rw, 32, [(1, 63)]⟩, ⟨12, 4, .rw, 3, []⟩, ⟨8, 4, .rw, 6, []⟩, ⟨6, 2, .rw, 1, []⟩, ⟨4, 2, .rw, 1, [(0, 2)]⟩]⟩,
  ⟨"AGC_ENV", 0x30100224, [(0x10000, 8)], .port,
    [⟨24, 8, .rw, 255, []⟩, ⟨16, 8, .rw, 0, []⟩, ⟨8, 8, .rw, 96, []⟩, ⟨0, 1, .rw, 0, []⟩]⟩,
  ⟨"AGC_STATUS", 0x30100228, [(0x10000, 8)], .port,
    [⟨24, 8, .ro, 0, []⟩, ⟨16, 8, .ro, 96, []⟩, ⟨0, 16, .ro, 0, []⟩]⟩,
  ⟨"AGC_SERVO", 0x3010022C, [(0x10000, 8)], .port,
    [⟨0, 8, .rw, 32, []⟩]⟩,
  ⟨"TR_CFG", 0x30100230, [(0x10000, 8)], .port,
    [⟨16, 16, .rw, 1023, []⟩, ⟨0, 16, .rw, 0x20c5, []⟩]⟩,
  ⟨"TR_PIN", 0x30100234, [(0x10000, 8)], .port,
    [⟨16, 1, .rw, 0, []⟩, ⟨0, 16, .rw, 0, []⟩]⟩,
  ⟨"TR_STATUS", 0x30100238, [(0x10000, 8)], .port,
    [⟨0, 16, .ro, 0, []⟩]⟩,
  ⟨"EQ_DWELL", 0x30100240, [(0x10000, 8)], .port,
    [⟨0, 16, .rw, 255, []⟩]⟩,
  ⟨"EQ_TAP", 0x30100250, [(0x10000, 8), (0x4, 12)], .afe,
    [⟨28, 4, .ro, 0, []⟩, ⟨16, 12, .ro, 0, []⟩, ⟨12, 4, .ro, 0, []⟩, ⟨0, 12, .rw, 0, []⟩]⟩,
  ⟨"CH_NCO", 0x30100280, [(0x10000, 8)], .afe,
    [⟨0, 25, .rw, 0, []⟩]⟩,
  ⟨"CH_AFE", 0x30100284, [(0x10000, 8)], .afe,
    [⟨24, 8, .rw, 0, []⟩, ⟨16, 8, .ro, 0, []⟩, ⟨12, 4, .ro, 0, []⟩, ⟨8, 2, .ro, 0, []⟩, ⟨0, 1, .ro, 0, []⟩]⟩,
  ⟨"TR_GAINS", 0x30100288, [(0x10000, 8)], .afe,
    [⟨12, 4, .rw, 0, []⟩, ⟨8, 4, .rw, 0, []⟩, ⟨4, 4, .rw, 0, []⟩, ⟨0, 4, .rw, 0, []⟩]⟩,
  ⟨"EQ_CFG", 0x3010028C, [(0x10000, 8)], .afe,
    [⟨20, 12, .rw, 0, []⟩, ⟨12, 8, .rw, 0, []⟩, ⟨8, 4, .rw, 0, []⟩, ⟨0, 1, .rw, 0, []⟩]⟩,
  ⟨"CH_TARGET", 0x301002A8, [(0x10000, 8)], .afe,
    [⟨24, 8, .rw, 0, []⟩, ⟨8, 8, .rw, 0, []⟩, ⟨0, 8, .rw, 0, []⟩]⟩,
  ⟨"CH_SYNC", 0x301002AC, [(0x10000, 8)], .afe,
    [⟨0, 32, .rw, 0, []⟩]⟩,
  ⟨"CH_FRAME", 0x301002B0, [(0x10000, 8)], .afe,
    [⟨24, 8, .rw, 0, [(4, 255)]⟩, ⟨16, 8, .rw, 0, []⟩, ⟨10, 3, .rw, 0, [(0, 4)]⟩, ⟨0, 10, .rw, 0, []⟩]⟩,
  ⟨"CH_WRITE", 0x301002B4, [(0x10000, 8)], .afe,
    [⟨24, 8, .rw, 0, []⟩, ⟨15, 5, .rw, 0, []⟩, ⟨10, 5, .rw, 0, []⟩, ⟨5, 5, .rw, 0, []⟩, ⟨0, 5, .rw, 0, []⟩]⟩,
  ⟨"PA_CFG", 0x30100300, [(0x10000, 8)], .port,
    [⟨0, 8, .rw, 1, []⟩]⟩,
  ⟨"PA_HS", 0x30100304, [(0x10000, 8)], .port,
    [⟨16, 7, .rw, 0, []⟩, ⟨8, 4, .rw, 0, [(0, 7)]⟩, ⟨0, 8, .rw, 0, []⟩]⟩,
  ⟨"PA_CMD", 0x30100308, [(0x10000, 8)], .port,
    [⟨0, 16, .wo, 0, []⟩]⟩,
  ⟨"PA_RDATA", 0x3010030C, [(0x10000, 8)], .port,
    [⟨8, 1, .rc, 0, []⟩, ⟨0, 8, .ro, 0, []⟩]⟩,
  ⟨"PA_STATUS", 0x30100310, [(0x10000, 8)], .port,
    [⟨1, 1, .ro, 0, []⟩, ⟨0, 1, .ro, 0, []⟩]⟩,
  ⟨"SPN_CTRL", 0x30100400, [(0x10000, 8)], .port,
    [⟨14, 1, .rw, 0, []⟩, ⟨13, 1, .rw, 1, []⟩, ⟨12, 1, .rw, 0, []⟩, ⟨4, 5, .rw, 4, []⟩, ⟨0, 4, .rw, 4, [(2, 8)]⟩]⟩,
  ⟨"SPN_CMD", 0x30100404, [(0x10000, 8)], .port,
    [⟨0, 4, .wo, 0, []⟩]⟩,
  ⟨"SPN_STATUS", 0x30100408, [(0x10000, 8)], .port,
    [⟨16, 1, .ro, 0, []⟩, ⟨8, 3, .ro, 0, []⟩, ⟨7, 1, .ro, 0, []⟩, ⟨0, 4, .ro, 0, []⟩]⟩,
  ⟨"SPN_TARGET", 0x3010040C, [(0x10000, 8)], .port,
    [⟨0, 24, .rw, 0x32dcd, [(75000, 833334)]⟩]⟩,
  ⟨"SPN_PERIOD", 0x30100410, [(0x10000, 8)], .port,
    [⟨0, 24, .ro, 0xffffff, []⟩]⟩,
  ⟨"SPN_ALIGN", 0x30100414, [(0x10000, 8)], .port,
    [⟨16, 16, .rw, 0x2000, []⟩, ⟨0, 16, .rw, 200, []⟩]⟩,
  ⟨"SPN_RAMP", 0x30100418, [(0x10000, 8)], .port,
    [⟨24, 8, .rw, 5, []⟩, ⟨16, 8, .rw, 60, []⟩, ⟨0, 16, .rw, 800, []⟩]⟩,
  ⟨"SPN_RAMP_DUTY", 0x3010041C, [(0x10000, 8)], .port,
    [⟨16, 16, .rw, 0x4000, []⟩, ⟨0, 8, .rw, 12, []⟩]⟩,
  ⟨"SPN_PWM", 0x30100420, [(0x10000, 8)], .port,
    [⟨16, 11, .rw, 1500, []⟩, ⟨0, 16, .rw, 4000, [(1000, 65535)]⟩]⟩,
  ⟨"SPN_DUTY_ENV", 0x30100424, [(0x10000, 8)], .port,
    [⟨16, 16, .rw, 0xffff, []⟩, ⟨0, 16, .rw, 0, []⟩]⟩,
  ⟨"SPN_DUTY_PIN", 0x30100428, [(0x10000, 8)], .port,
    [⟨24, 8, .rw, 15, []⟩, ⟨16, 1, .rw, 0, []⟩, ⟨0, 16, .rw, 0, []⟩]⟩,
  ⟨"SPN_LOCK", 0x3010042C, [(0x10000, 8)], .port,
    [⟨24, 8, .rw, 80, [(0, 100)]⟩, ⟨16, 8, .rw, 16, []⟩, ⟨0, 16, .rw, 66, []⟩]⟩,
  ⟨"SPN_TIMEOUT", 0x30100430, [(0x10000, 8)], .port,
    [⟨16, 16, .rw, 500, []⟩, ⟨0, 16, .rw, 150, []⟩]⟩,
  ⟨"SPN_BUDGET", 0x30100434, [(0x10000, 8)], .port,
    [⟨0, 8, .rw, 47, []⟩]⟩,
  ⟨"SPN_EVENT", 0x30100438, [(0x10000, 8)], .port,
    [⟨10, 1, .w1c, 0, []⟩, ⟨9, 1, .w1c, 0, []⟩, ⟨8, 1, .w1c, 0, []⟩, ⟨7, 1, .w1c, 0, []⟩, ⟨6, 1, .w1c, 0, []⟩, ⟨5, 1, .w1c, 0, []⟩, ⟨4, 1, .w1c, 0, []⟩, ⟨3, 1, .w1c, 0, []⟩, ⟨2, 1, .w1c, 0, []⟩, ⟨1, 1, .w1c, 0, []⟩, ⟨0, 1, .w1c, 0, []⟩]⟩,
  ⟨"SPN_SHOOT_COUNT", 0x3010043C, [(0x10000, 8)], .port,
    [⟨0, 16, .rc, 0, []⟩]⟩,
  ⟨"SPN_RES_A", 0x30100440, [(0x10000, 8)], .port,
    [⟨16, 16, .ro, 0xffff, []⟩, ⟨0, 16, .ro, 0xffff, []⟩]⟩]

/-- Rows of the register tables, by address: part 8. -/
def regRows8 : List RegRow := [
  ⟨"SPN_RES_B", 0x30100444, [(0x10000, 8)], .port,
    [⟨16, 16, .ro, 0xffff, []⟩, ⟨0, 16, .ro, 0xffff, []⟩]⟩,
  ⟨"VCM_CTRL", 0x30100500, [(0x10000, 8)], .port,
    [⟨16, 12, .rw, 800, []⟩, ⟨1, 1, .rw, 0, []⟩, ⟨0, 1, .rw, 0, []⟩]⟩,
  ⟨"VCM_DIRECT", 0x30100504, [(0x10000, 8)], .port,
    [⟨0, 16, .rw, 0, []⟩]⟩,
  ⟨"VCM_ISENSE", 0x30100508, [(0x10000, 8)], .port,
    [⟨0, 16, .ro, 0, []⟩]⟩,
  ⟨"VCM_STATUS", 0x3010050C, [(0x10000, 8)], .port,
    [⟨2, 1, .ro, 0, []⟩, ⟨1, 1, .ro, 0, []⟩, ⟨0, 1, .w1c, 0, []⟩]⟩,
  ⟨"VCM_RETRACT", 0x30100510, [(0x10000, 8)], .pdie,
    [⟨31, 1, .rw, 0, []⟩, ⟨16, 8, .rw, 50, []⟩, ⟨8, 8, .rw, 100, []⟩, ⟨0, 8, .rw, 60, []⟩]⟩,
  ⟨"VCM_COIL_RES", 0x30100514, [(0x10000, 8)], .pdie,
    [⟨0, 16, .rw, 1000, []⟩]⟩,
  ⟨"ZM_CH_NCO", 0x30100800, [(0x10000, 8), (0x40, 32)], .port,
    [⟨0, 25, .rw, 0, []⟩]⟩,
  ⟨"ZM_CH_AFE", 0x30100804, [(0x10000, 8), (0x40, 32)], .port,
    [⟨24, 8, .rw, 0, []⟩, ⟨16, 8, .rw, 0, []⟩, ⟨12, 4, .rw, 0, []⟩, ⟨8, 2, .rw, 0, []⟩, ⟨0, 1, .rw, 0, []⟩]⟩,
  ⟨"ZM_TR_GAINS", 0x30100808, [(0x10000, 8), (0x40, 32)], .port,
    [⟨12, 4, .rw, 0, []⟩, ⟨8, 4, .rw, 0, []⟩, ⟨4, 4, .rw, 0, []⟩, ⟨0, 4, .rw, 0, []⟩]⟩,
  ⟨"ZM_EQ_CFG", 0x3010080C, [(0x10000, 8), (0x40, 32)], .port,
    [⟨20, 12, .rw, 0, []⟩, ⟨12, 8, .rw, 0, []⟩, ⟨8, 4, .rw, 0, []⟩, ⟨0, 1, .rw, 0, []⟩]⟩,
  ⟨"ZM_TAPS0", 0x30100810, [(0x10000, 8), (0x40, 32)], .port,
    [⟨16, 12, .rw, 0, []⟩, ⟨0, 12, .rw, 0, []⟩]⟩,
  ⟨"ZM_TAPS1", 0x30100814, [(0x10000, 8), (0x40, 32)], .port,
    [⟨16, 12, .rw, 0, []⟩, ⟨0, 12, .rw, 0, []⟩]⟩,
  ⟨"ZM_TAPS2", 0x30100818, [(0x10000, 8), (0x40, 32)], .port,
    [⟨16, 12, .rw, 0, []⟩, ⟨0, 12, .rw, 0, []⟩]⟩,
  ⟨"ZM_TAPS3", 0x3010081C, [(0x10000, 8), (0x40, 32)], .port,
    [⟨16, 12, .rw, 0, []⟩, ⟨0, 12, .rw, 0, []⟩]⟩,
  ⟨"ZM_TAPS4", 0x30100820, [(0x10000, 8), (0x40, 32)], .port,
    [⟨16, 12, .rw, 0, []⟩, ⟨0, 12, .rw, 0, []⟩]⟩,
  ⟨"ZM_TAPS5", 0x30100824, [(0x10000, 8), (0x40, 32)], .port,
    [⟨16, 12, .rw, 0, []⟩, ⟨0, 12, .rw, 0, []⟩]⟩,
  ⟨"ZM_CH_TARGET", 0x30100828, [(0x10000, 8), (0x40, 32)], .port,
    [⟨24, 8, .rw, 0, []⟩, ⟨8, 8, .rw, 0, []⟩, ⟨0, 8, .rw, 0, []⟩]⟩,
  ⟨"ZM_CH_SYNC", 0x3010082C, [(0x10000, 8), (0x40, 32)], .port,
    [⟨0, 32, .rw, 0, []⟩]⟩,
  ⟨"ZM_CH_FRAME", 0x30100830, [(0x10000, 8), (0x40, 32)], .port,
    [⟨24, 8, .rw, 0, [(4, 255)]⟩, ⟨16, 8, .rw, 0, []⟩, ⟨10, 3, .rw, 0, [(0, 4)]⟩, ⟨0, 10, .rw, 0, []⟩]⟩,
  ⟨"ZM_CH_WRITE", 0x30100834, [(0x10000, 8), (0x40, 32)], .port,
    [⟨24, 8, .rw, 0, []⟩, ⟨15, 5, .rw, 0, []⟩, ⟨10, 5, .rw, 0, []⟩, ⟨5, 5, .rw, 0, []⟩, ⟨0, 5, .rw, 0, []⟩]⟩,
  ⟨"ZM_ZPA0", 0x30100838, [(0x10000, 8), (0x40, 32)], .port,
    [⟨31, 1, .rw, 0, []⟩, ⟨0, 16, .rw, 0, []⟩]⟩,
  ⟨"ZM_ZPA1", 0x3010083C, [(0x10000, 8), (0x40, 32)], .port,
    [⟨31, 1, .rw, 0, []⟩, ⟨0, 16, .rw, 0, []⟩]⟩,
  ⟨"MTIME_LO", 0x30180000, [], .ret,
    [⟨0, 32, .ro, 0, []⟩]⟩,
  ⟨"MTIME_HI", 0x30180004, [], .ret,
    [⟨0, 32, .ro, 0, []⟩]⟩,
  ⟨"MTIMECMP_A_LO", 0x30180008, [], .ret,
    [⟨0, 32, .rw, 0xffffffff, []⟩]⟩,
  ⟨"MTIMECMP_A_HI", 0x3018000C, [], .ret,
    [⟨0, 32, .rw, 0xffffffff, []⟩]⟩,
  ⟨"MTIMECMP_B_LO", 0x30180010, [], .ret,
    [⟨0, 32, .rw, 0xffffffff, []⟩]⟩,
  ⟨"MTIMECMP_B_HI", 0x30180014, [], .ret,
    [⟨0, 32, .rw, 0xffffffff, []⟩]⟩,
  ⟨"TIMER_CTRL", 0x30180100, [(0x10, 4)], .ret,
    [⟨1, 1, .rw, 0, []⟩, ⟨0, 1, .rw, 0, []⟩]⟩,
  ⟨"TIMER_LOAD", 0x30180104, [(0x10, 4)], .ret,
    [⟨0, 32, .rw, 0, []⟩]⟩,
  ⟨"TIMER_COUNT", 0x30180108, [(0x10, 4)], .ret,
    [⟨0, 32, .ro, 0, []⟩]⟩,
  ⟨"WDT_CTRL", 0x30180200, [(0x20, 2)], .core,
    [⟨2, 1, .rw, 1, []⟩, ⟨1, 1, .rw, 0, []⟩, ⟨0, 1, .w1s, 0, []⟩]⟩,
  ⟨"WDT_TIME", 0x30180204, [(0x20, 2)], .core,
    [⟨16, 16, .rw, 100, []⟩, ⟨0, 16, .rw, 1000, []⟩]⟩,
  ⟨"WDT_KICK", 0x30180208, [(0x20, 2)], .core,
    [⟨0, 16, .wo, 0, []⟩]⟩,
  ⟨"WDT_STATUS", 0x3018020C, [(0x20, 2)], .core,
    [⟨24, 8, .rc, 0, []⟩, ⟨16, 1, .ro, 0, []⟩, ⟨0, 16, .ro, 0, []⟩]⟩,
  ⟨"UART_DATA", 0x30180300, [], .core,
    [⟨0, 8, .rw, 0, []⟩]⟩,
  ⟨"UART_STATUS", 0x30180304, [], .core,
    [⟨8, 5, .ro, 0, []⟩, ⟨0, 5, .ro, 0, []⟩, ⟨6, 1, .w1c, 0, []⟩, ⟨5, 1, .w1c, 0, []⟩]⟩,
  ⟨"UART_CTRL", 0x30180308, [], .core,
    [⟨3, 1, .rw, 0, []⟩, ⟨2, 1, .rw, 0, []⟩, ⟨1, 1, .rw, 1, []⟩, ⟨0, 1, .rw, 1, []⟩]⟩,
  ⟨"UART_DIV", 0x3018030C, [], .core,
    [⟨0, 16, .rw, 3472, [(64, 65535)]⟩]⟩]

/-- Rows of the register tables, by address: part 9. -/
def regRows9 : List RegRow := [
  ⟨"GPIO_OUT", 0x30180400, [], .core,
    [⟨0, 16, .rw, 0, []⟩]⟩,
  ⟨"GPIO_OE", 0x30180404, [], .core,
    [⟨0, 16, .rw, 0, []⟩]⟩,
  ⟨"GPIO_IN", 0x30180408, [], .core,
    [⟨0, 16, .ro, 0, []⟩]⟩,
  ⟨"GPIO_EDGE", 0x3018040C, [], .aon,
    [⟨16, 16, .rw, 0, []⟩, ⟨0, 16, .rw, 0, []⟩]⟩,
  ⟨"GPIO_STAT", 0x30180410, [], .core,
    [⟨0, 16, .w1c, 0, []⟩]⟩,
  ⟨"THERM_STATUS", 0x30180500, [], .ret,
    [⟨0, 8, .ro, 0, []⟩]⟩,
  ⟨"THERM_CFG", 0x30180504, [], .ret,
    [⟨0, 8, .rw, 100, []⟩]⟩,
  ⟨"IO_STATUS", 0x30180600, [], .aonKept,
    [⟨1, 1, .ro, 0, []⟩, ⟨0, 1, .ro, 0, []⟩]⟩,
  ⟨"IO_CFG", 0x30180604, [], .aon,
    [⟨0, 2, .rw, 1, [(0, 2)]⟩]⟩,
  ⟨"HW_STATUS", 0x100000000, [], .hostp,
    [⟨8, 8, .ro, 0, []⟩, ⟨5, 3, .ro, 1, []⟩, ⟨4, 1, .ro, 1, []⟩, ⟨3, 1, .ro, 0, []⟩, ⟨2, 1, .ro, 0, []⟩, ⟨1, 1, .ro, 0, []⟩, ⟨0, 1, .ro, 0, []⟩]⟩,
  ⟨"HW_CONTROL", 0x100000004, [], .hostp,
    [⟨8, 8, .wo, 0, []⟩, ⟨7, 1, .wo, 0, []⟩, ⟨6, 1, .rw, 0, []⟩, ⟨5, 1, .rw, 1, []⟩, ⟨4, 1, .rw, 1, []⟩, ⟨0, 4, .rw, 0, []⟩]⟩,
  ⟨"HW_DOORBELL", 0x100000008, [], .hostp,
    [⟨0, 5, .wo, 0, []⟩]⟩,
  ⟨"HW_INDEX", 0x10000000C, [], .hostp,
    [⟨14, 2, .rw, 0, []⟩, ⟨0, 10, .rw, 0, []⟩]⟩,
  ⟨"HW_WINDOW", 0x100000010, [], .hostp,
    [⟨0, 16, .rw, 0, []⟩]⟩,
  ⟨"HW_CQ", 0x100000014, [], .hostp,
    [⟨8, 7, .ro, 0, []⟩, ⟨0, 7, .rw, 0, []⟩]⟩,
  ⟨"HW_DATA", 0x100000018, [], .hostp,
    [⟨0, 16, .rw, 0, []⟩]⟩,
  ⟨"HW_XSTAT", 0x10000001C, [], .hostp,
    [⟨7, 1, .ro, 0, []⟩, ⟨6, 1, .ro, 0, []⟩, ⟨5, 1, .ro, 0, []⟩, ⟨0, 5, .ro, 0, []⟩]⟩,
  ⟨"HW_MBOX_IN", 0x100000020, [], .hostp,
    [⟨0, 8, .wo, 0, []⟩]⟩,
  ⟨"HW_MBOX_OUT", 0x100000024, [], .hostp,
    [⟨0, 8, .ro, 0, []⟩]⟩,
  ⟨"HW_MBOX_CTL", 0x100000028, [], .hostp,
    [⟨8, 5, .ro, 0, []⟩, ⟨7, 1, .ro, 1, []⟩, ⟨6, 1, .ro, 0, []⟩, ⟨5, 1, .ro, 0, []⟩, ⟨0, 5, .ro, 0, []⟩, ⟨0, 4, .wo, 0, []⟩]⟩,
  ⟨"HW_SB_LBA_LO", 0x10000002C, [], .hostp,
    [⟨0, 16, .rw, 0, []⟩]⟩,
  ⟨"HW_SB_LBA_HI", 0x100000030, [], .hostp,
    [⟨0, 16, .rw, 0, []⟩]⟩,
  ⟨"HW_SB_CMD", 0x100000034, [], .hostp,
    [⟨8, 8, .ro, 0, []⟩, ⟨7, 1, .ro, 0, []⟩, ⟨6, 1, .ro, 0, []⟩, ⟨2, 2, .rw, 0, []⟩, ⟨0, 2, .wo, 0, []⟩]⟩,
  ⟨"HW_ERROR", 0x100000038, [], .hostp,
    [⟨8, 5, .rc, 0, []⟩, ⟨0, 8, .rc, 0, []⟩]⟩,
  ⟨"HW_BYTE_HI", 0x10000003C, [], .hostp,
    [⟨0, 8, .rw, 0, []⟩]⟩]

/-- Every register of the part. -/
def regRows : List RegRow :=
  regRows0 ++ regRows1 ++ regRows2 ++ regRows3 ++ regRows4 ++ regRows5 ++ regRows6 ++ regRows7 ++ regRows8 ++ regRows9

/-- The indices that an offset from an array's first register spells. -/
def idxOf : List (Nat × Nat) → Nat → Option (List Nat)
  | [], off => if off = 0 then some [] else none
  | (s, c) :: ds, off =>
    if off / s < c then
      match idxOf ds (off % s) with
      | some is => some (off / s :: is)
      | none => none
    else none

/-- The indices of address `a` in row `r`, if `a` is one of its registers. -/
def RegRow.index (r : RegRow) (a : Nat) : Option (List Nat) :=
  if r.addr ≤ a then idxOf r.dims (a - r.addr) else none

/-- The row of the register at an address, with its indices (none: no register occupies it, R12). -/
def regAt (a : Nat) : Option (RegRow × List Nat) :=
  regRows.findSome? fun r =>
    match r.index a with
    | some is => some (r, is)
    | none => none

/-- The value of a register after reset, from the reset column of its table. -/
def RegRow.resetWord (r : RegRow) : Word :=
  r.fields.foldl (fun acc f => acc ||| BitVec.ofNat 32 ((f.reset % 2 ^ f.w) <<< f.lo)) 0#32

/-- What the register at an address holds after reset. -/
def regReset (a : Nat) : Word :=
  match regAt a with
  | some (r, _) => r.resetWord
  | none => 0#32

end Sys2Proof.Machine
end

