-- ==== Sys2Proof/Machine/SMap.lean ====
section
/-! DEFINITION. Sparse storage by key: a list of key and value pairs in one canonical form, keys strictly rising and
no entry equal to what an unlisted key reads as. Registers, memories and rings are held so (log entry 5). -/

namespace Sys2Proof.Machine

/-- What key `k` holds; `d k` where it is not listed. -/
def smGet {α : Type} (d : Nat → α) (k : Nat) : List (Nat × α) → α
  | [] => d k
  | (j, v) :: m => if j = k then v else smGet d k m

/-- Key `k` set to `v`; the entry is dropped where `v` is what an unlisted key reads as. -/
def smSet {α : Type} [DecidableEq α] (d : Nat → α) (k : Nat) (v : α) : List (Nat × α) → List (Nat × α)
  | [] => if v = d k then [] else [(k, v)]
  | (j, w) :: m =>
    if j < k then (j, w) :: smSet d k v m
    else
      let rest := ((j, w) :: m).filter (fun e => !decide (e.1 = k))
      if v = d k then rest else (k, v) :: rest

/-- Every entry whose key meets `p` dropped: those keys read as unlisted ones. -/
def smDrop {α : Type} (p : Nat → Bool) (m : List (Nat × α)) : List (Nat × α) := m.filter (fun e => !p e.1)

/-- The canonical form: keys strictly rising, no entry that an unlisted key would read as. -/
def smWf {α : Type} [DecidableEq α] (d : Nat → α) (m : List (Nat × α)) : Bool :=
  decide (m.Pairwise (fun a b => a.1 < b.1)) && m.all (fun e => !decide (e.2 = d e.1))

end Sys2Proof.Machine
end

