-- ==== Sys2Proof/Machine/State.lean ====
section
/-! DEFINITION. The state of the block as plain data: the registers by address, memory as a sparse list of bytes, the
check bits beside it, and for each unit the state its chapter gives it outside registers. -/

namespace Sys2Proof.Machine

/-- Why a step stops with a fault: it never does. Every access that the spec calls an error completes with that error
(R635), so the type has no constructor. Safe. -/
inductive Fault
  deriving DecidableEq, Repr

/-- Why a command has no meaning here. -/
inductive Refusal
  /-- Raised by exec for a command that has no meaning in this model, with the command's mnemonic. Safe. -/
  | notModelled (mnemonic : String)
  deriving DecidableEq, Repr

/-- A byte on the fabric with its poison mark (R716). -/
abbrev PByte := Byte × Bool

/-- A ring's descriptor and status bits (Table 13.1); `latch` and `wakeCopy` are its two bits in PD_AON. -/
structure Ring where
  base : Nat := 0
  size : Nat := 0
  esize : Nat := 0
  consumer : Nat := 0
  en : Bool := false
  precious : Bool := false
  wakeEn : Bool := false
  group : Nat := 0
  neEn : Bool := false
  hiEn : Bool := false
  loEn : Bool := false
  hiWm : Nat := 0
  loWm : Nat := 0
  pi : Nat := 0
  ci : Nat := 0
  hiHit : Bool := false
  loHit : Bool := false
  fullSeen : Bool := false
  poisonSeen : Bool := false
  latch : Bool := false
  wakeCopy : Bool := false
  deriving DecidableEq, Repr

/-- The Event Controller's inputs, pending and coalesced bits, EVC_SW, and the deliverable wake sources that the power
sequencer has seen (chapter 13, R85). -/
structure Evc where
  raw : BitVec 128 := 0
  pend : BitVec 128 := 0
  coal : BitVec 128 := 0
  sw : BitVec 8 := 0
  woken : BitVec 128 := 0
  deriving DecidableEq, Repr

/-- The device's sleep state (Table 2.4). -/
inductive Sleep
  | active | idle | standby | nadir
  deriving DecidableEq, Repr

/-- The device-level transition under way; `back` brings switched domains back after an abort (R74). -/
inductive DevGoal
  | none | toStandby | toNadir | fromStandby | fromNadir | back
  deriving DecidableEq, Repr

/-- A domain's own Dusk or Dawn (R100). -/
inductive Phase
  | dusk | dawn
  deriving DecidableEq, Repr

/-- The count of saturated updates of a loop, and whether its episode has been reported (R35, R37). -/
structure Sat where
  run : Nat := 0
  told : Bool := false
  deriving DecidableEq, Repr

/-- Clocks, domains and sleep (chapter 2). Domain 15 stands for the AFE data paths of R53; PLLs are numbered as the
CLK_STATUS bits are. `todo` and `done` are the domains that the device-level transition has still to switch and has
switched, `onBefore` the domains on before STANDBY, `wakePend` a wake event latched in a Dusk (R96), `calm` and `sat` the
governor's, `aonWait` the writes that R51 stalls, and `aonRing` the ring whose WAKE_EN write is crossing (R601). -/
structure Power where
  sleep : Sleep := .active
  goal : DevGoal := .none
  todo : List Nat := []
  done : List Nat := []
  phases : List (Nat × Phase) := []
  onBefore : Nat := 0
  wakePend : Bool := false
  afeOff : Bool := false
  selfRefresh : Bool := false
  railWait : Bool := false
  aonWait : List (Nat × Nat × Nat) := []
  aonRing : Option Nat := none
  lostLock : BitVec 5 := 0
  calm : Nat := 0
  sat : Sat := {}
  vddAnaGood : Bool := true
  thermHold : Bool := false
  deriving DecidableEq, Repr

/-- The reset classes of Table 3.2. -/
inductive RClass
  | cold | pin | system
  deriving DecidableEq, Repr

/-- What Core A is running through start-up (chapter 3). -/
inductive Stage
  | rom | wakeRom | firmware | recovery | debugHalt | stopped
  deriving DecidableEq, Repr

/-- The state of the DFU function (R140): idle, between the blocks of a download, or errVERIFY after a failed manifestation. -/
inductive Dfu
  | idle | dnload | errVerify
  deriving DecidableEq, Repr

/-- Reset, OTP and boot (chapter 3). `fuses` and `shadow` are 32-bit rows of the OTP bank; `partFuses` the fuses left
partly programmed (R1073); `target` tells whether recovery's target slot is slot B (R136). -/
structure Boot where
  reset : Option RClass := none
  coldHeld : Bool := false
  otpLoading : Bool := false
  fuses : List (Nat × Word) := []
  shadow : List (Nat × Word) := []
  partFuses : List Nat := []
  otpBit : Option Nat := none
  stage : Stage := .rom
  owner : Option Transport := none
  dfu : Dfu := .idle
  target : Bool := false
  reply : List Byte := []
  deriving DecidableEq, Repr

/-- One control core, as far as the commands of the table reach into it (chapter 14): its registers, mode, the CSRs a
trap writes, the PMP's entries, its reservation, its triggers with tselect (R648), and its other CSRs by number. -/
structure CoreSt where
  run : Bool := false
  pc : Word := 0
  gpr : Vector Word 32 := Vector.replicate 32 0
  user : Bool := false
  mtvec : Word := 0
  mepc : Word := 0
  mcause : Word := 0
  mtval : Word := 0
  mcycle : Nat := 0
  minstret : Nat := 0
  pmpCfg : List Nat := List.replicate 16 0
  pmpAddr : List Nat := List.replicate 16 0
  csr : List (Nat × Word) := []
  resv : Option Nat := none
  tsel : Nat := 0
  tdata1 : Vector Word 4 := Vector.replicate 4 0
  tdata2 : Vector Word 4 := Vector.replicate 4 0
  wfi : Bool := false
  debug : Bool := false
  dpc : Word := 0
  deriving DecidableEq, Repr

/-- The Debug Module (R648 to R651): halt requests, resume acknowledgements and reset marks per hart, the harts selected,
the abstract command's error and data, the program buffer, and the System Bus Access registers. -/
structure Dbg where
  dmactive : Bool := false
  haltreq : BitVec 2 := 0
  resumeack : BitVec 2 := 0
  havereset : BitVec 2 := 3
  hartsel : Nat := 0
  hasel : Bool := false
  hamask : BitVec 2 := 0
  cmderr : Nat := 0
  command : Word := 0
  data0 : Word := 0
  progbuf : List Word := List.replicate 8 0
  autoexec : Nat := 0
  sbaccess : Nat := 2
  sbonaddr : Bool := false
  sbondata : Bool := false
  sbauto : Bool := false
  sberror : Nat := 0
  sbaddr : Word := 0
  sbdata : Word := 0
  deriving DecidableEq, Repr

/-- The JTAG port: its instruction, its boundary register (R1042), and what that register puts on each ball that has
output cells, in the order of the cells (none where the ball is released; no list while the balls carry their own
functions). -/
structure Jtag where
  ir : Nat := 1
  cells : BitVec 232 := 0
  balls : Option (List (Option Bool)) := none
  deriving DecidableEq, Repr

/-- MTIME, timers that have reached 0 and not yet expired, the Console UART's FIFOs with the
bytes that the Boot ROM has still to put into the transmit FIFO, the GPIO pins as the board drives
them, and the logic die's temperature (chapter 14). -/
structure Io where
  mtime : Nat := 0
  timerDue : BitVec 4 := 0
  uartRx : List Byte := []
  uartTx : List Byte := []
  uartWait : List Byte := []
  gpioPins : BitVec 16 := 0
  tLogic : Int := 25
  deriving DecidableEq, Repr

/-- One way of one set of the Line Cache (R662): its tag and state are set as a fill of it starts (R678), and `pend` says that the
fill's bytes have not come yet. -/
structure Line where
  valid : Bool := false
  tag : Nat := 0
  nru : Bool := false
  strm : Bool := false
  lock : Bool := false
  pend : Bool := false
  data : List PByte := []
  deriving DecidableEq, Repr

/-- One entry of the write-combining buffer: a line offset divided by 64, its bytes with the mask, whether it is
draining, and whether its line write has been sent to the memory path. -/
structure Wcb where
  line : Nat
  bytes : List (Option PByte)
  req : Nat
  draining : Bool
  sent : Bool := false
  deriving DecidableEq, Repr

/-- A fill in flight: its line, the set and way it goes to (none for a bypass), the requester, the address read and the bytes
asked for, the writes accepted meanwhile (R702), the reads that wait for it too (R703) as (requester, address, length), and
the line's bytes once they have been taken before the fill's own read is served. -/
structure FillReq where
  line : Nat
  way : Option Nat
  req : Nat
  addr : Nat
  len : Nat
  late : List (Nat × PByte)
  more : List (Nat × Nat × Nat) := []
  got : Option (List PByte) := none
  deriving DecidableEq, Repr

/-- The miss tracker of one class (R680). -/
structure Tracker where
  last : Option Nat := none
  run : Nat := 1
  deriving DecidableEq, Repr

/-- A maintenance operation under way (R688): its code, mode, way mask, first line, lines and set and way. -/
structure LcOpSt where
  op : Nat
  mode : Nat
  ways : Nat
  addr : Nat
  lines : Nat
  setway : Nat
  deriving DecidableEq, Repr

/-- The Line Cache beside its registers (chapter 15). -/
structure LineCache where
  lines : List (Nat × Line) := []
  acc : List (Nat × Nat) := []
  wcb : List Wcb := []
  fills : List FillReq := []
  trackers : Vector Tracker 8 := Vector.replicate 8 {}
  regret : Nat := 0
  outcomes : Nat := 0
  sat : Sat := {}
  op : Option LcOpSt := none
  deriving DecidableEq, Repr

/-- A re-encryption: its region, and the write that triggered it, if one did. -/
structure Reenc where
  region : Nat
  write : Option (Nat × List PByte × Nat)
  deriving DecidableEq, Repr

/-- A key band's slot in the Media Cipher: the 64-byte key. -/
structure KeySlot where
  key : List Byte
  deriving DecidableEq, Repr

/-- The Buffer Cipher and Media Cipher beside their registers and MRAM (chapter 17). -/
structure Cipher where
  master : List Byte := List.replicate 32 0
  keyCache : List (Nat × Nat) := []
  reenc : Option Reenc := none
  reencWait : List Reenc := []
  slots : Vector (Option KeySlot) 16 := Vector.replicate 16 none
  inFlight : Vector Nat 16 := Vector.replicate 16 0
  unloadWait : Option (List Byte) := none
  authHold : Bool := false
  root : List Byte := List.replicate 32 0
  deriving DecidableEq, Repr

/-- What the last fabric access delivered to its master: the bytes with their marks, its error (none, blocked by
a Protected Range, or completed with an error by R635), and the bytes delivered to each read that joined a fill (R703). -/
structure BusOut where
  data : List PByte := []
  joined : List (Nat × List PByte) := []
  blocked : Bool := false
  error : Bool := false
  deriving DecidableEq, Repr

/-- A port's spindle beside its registers (chapter 4): among them the missing crossings and the phase errors in a row
(R186), whether the present step has had its crossing and whether that was a phase error, whether a lost lock has not been regained
(R246), whether a FAULT's spindle has met the stopped condition of R168, and the on-time of the PWM period in SERVO cycles (R158). -/
structure Spindle where
  before : Nat := 0
  after : Nat := 0
  zc : Nat := 0
  revZc : Nat := 0
  revTicks : Nat := 0
  tolRun : Nat := 0
  devRun : Nat := 0
  pLast : Nat := 0
  step : Nat := 0
  stepCount : Nat := 0
  hits : List Nat := []
  heldOff : BitVec 3 := 0
  duty : Nat := 0
  dutyNow : Nat := 0
  chopped : Bool := false
  fly : Bool := false
  retryWait : Bool := false
  underWay : Bool := false
  clipTold : Bool := false
  missRun : Nat := 0
  errRun : Nat := 0
  crossed : Bool := false
  errStep : Bool := false
  unlocked : Bool := false
  still : Bool := false
  onTime : Nat := 0
  deriving DecidableEq, Repr

/-- The power die beside its registers: a retract under way with its cause, the ports whose heads were loaded and those
of them whose spindles turned at 70 % of nominal speed or more at the trigger (R207), and whether VRET is charged
(R157). -/
structure PowerDie where
  cause : Nat := 0
  ports : BitVec 8 := 0
  full : BitVec 8 := 0
  vret : Bool := true
  deriving DecidableEq, Repr

/-- A phase of a VCM drive that the power die runs on its own (R200, R240): a constant signed current for a time in
microseconds, or the back-EMF held at a signed speed in mV, with the limit in mA and the coil resistance its estimate
uses, for a time or until it is taken over. -/
inductive VcmPhase
  | current (us : Nat) (ma : Int)
  | backEmf (us : Option Nat) (mv : Int) (limit res : Nat)
  deriving DecidableEq, Repr

/-- A port's servo beside its registers (chapter 5); `drive` is the drive that the power die runs on the port's VCM, empty
where the VCM takes its command, `checked` tells that the record copies have been compared since the load (R427), and `hiZ` tells that no command has been applied since the VCM went high-Z. -/
structure Servo where
  checked : Bool := false
  expected : Nat := 0
  lastGood : Nat := 0
  vel : Int := 0
  posSeen : Bool := false
  badRun : Nat := 0
  readRun : Nat := 0
  writeRun : Nat := 0
  acqRun : Nat := 0
  swLeft : Nat := 0
  pendHead : Option Nat := none
  accel : Nat := 15
  seekWedges : Nat := 0
  seekTold : Bool := false
  seeking : Bool := false
  loaded : Bool := false
  loadPending : Bool := false
  guided : Bool := false
  gateOpen : Bool := false
  shockHeld : Bool := false
  shockLeft : Nat := 0
  cmd : Int := 0
  drive : List VcmPhase := []
  hiZ : Bool := true
  deriving DecidableEq, Repr

/-- A loop context of the SCE beside its registers (R262): the seven states, the saturation run, the blend counter and
whether its last update was a tracking one (R273). -/
structure SceCtx where
  m1 : Int := 0
  m2 : Int := 0
  m3 : Int := 0
  p1 : Int := 0
  p2 : Int := 0
  q1 : Int := 0
  q2 : Int := 0
  sat : Sat := {}
  k : Nat := 0
  tracked : Bool := false
  clear : Bool := false
  captured : Int := 0
  deriving DecidableEq, Repr

/-- A request in the SCE's queue: its context, age and input (R282). -/
structure SceReq where
  ctx : Nat
  age : Nat
  x : Int
  deriving DecidableEq, Repr

/-- The Servo Control Engine beside its registers (chapter 6). -/
structure Sce where
  ctx : Vector SceCtx 24 := Vector.replicate 24 {}
  queue : List SceReq := []
  age : Nat := 0
  deriving DecidableEq, Repr

/-- A frame for the preamp: 0 head-select, 1 zone load, 2 firmware's PA_CMD, 3 a formatter context's. -/
structure PaFrame where
  kind : Nat
  frame : Nat
  deriving DecidableEq, Repr

/-- One equalized symbol: the twelve interpolated samples x_{k+4} down to x_{k-7}, the tentative decisions a_k, a_{k-1}
and a_{k-2}, and whether it is an erasure (R308, R316). -/
structure Sym where
  x : List Int
  a0 : Bool
  a1 : Bool
  a2 : Bool
  erased : Bool
  deriving DecidableEq, Repr

/-- One bit of a write: its level, and where its transition stands if it makes one, in steps of 1/64 LINE cycle from the
first bit's boundary (R327 to R329). -/
structure WBit where
  level : Bool
  edge : Option Nat
  deriving DecidableEq, Repr

/-- A port's channel beside its registers (chapter 7). The read path: the last ADC samples after the digital gain, newest
first, the accumulator, the interpolated samples, newest first, with their erasures, the samples and the symbols counted,
the VGA steps requested and the samples at which they take effect, the tentative decisions, newest first, with their
erasures, the AGC window's sum, count and symbols, the window awaiting its update, where the sync mark was found, and how
many input LLRs are written. -/
structure Chan where
  slot : Nat := 0
  llrs : Nat := 0
  llrDone : Bool := false
  missed : Bool := false
  syncAt : Option Nat := none
  cut : Bool := false
  adc : List Int := []
  acc : Int := 0
  xs : List (Int × Bool) := []
  samples : Nat := 0
  symbols : Nat := 0
  equalized : Nat := 0
  steps : List (Nat × Int) := []
  erase : Nat := 0
  decs : List (Bool × Bool) := []
  lastSym : Option Sym := none
  agcSum : Nat := 0
  agcCount : Nat := 0
  agcSyms : Nat := 0
  agcWin : Option (Nat × Nat) := none
  lastY : Int := 0
  lastR : Int := 0
  satAgc : Sat := {}
  satTr : Sat := {}
  satLms : Sat := {}
  held : Option Nat := none
  loading : Option Nat := none
  frames : List PaFrame := []
  current : Option PaFrame := none
  wgReq : Bool := false
  writing : Bool := false
  wave : List WBit := []
  deriving DecidableEq, Repr

/-- A write that a shock or a cut may have damaged: what R461 gives back. -/
structure Rewrite where
  slot : Nat
  frame : Nat
  sidx : Nat
  buf : Nat
  deriving DecidableEq, Repr

/-- A gate of a formatter context, armed, started or open, and with a `code` its result (R450 to R456). `data` is a
write's prefetched block, `skew` the SKEWOFS it was armed with. -/
structure Gate where
  write : Bool
  slot : Nat
  frame : Nat
  sidx : Nat
  buf : Nat
  bypass : Bool
  raw : Bool
  band : Nat
  skew : Nat
  wlba : Nat
  wgen : Nat
  data : List PByte
  ready : Bool
  bad : Bool
  started : Bool
  isOpen : Bool
  llr : Option Nat
  code : Option Nat
  bitsDone : Nat
  deriving DecidableEq, Repr

/-- A formatter DMA under way with what it took from its request: slot, buffer, raw layout, the Media Cipher bypassed,
band, expected WLBA and check mode (R464), and the band's key as it is at the start (R774, R783). -/
structure FmtDma where
  slot : Nat
  buf : Nat
  raw : Bool
  bypass : Bool
  band : Nat
  wlba : Nat
  mode : Nat
  key : Option KeySlot
  deriving DecidableEq, Repr

/-- A context of the Formatter Engine beside its registers (chapter 10); `onRing` tells that its stalled word waits on a ring
write (R449). -/
structure FmtCtx where
  stack : List (Nat × Bool) := []
  req : List Byte := List.replicate 32 0
  done : Nat := 0
  failIdx : Nat := 0xFFFF
  poison : Bool := false
  since : Nat := 0
  gates : List Gate := []
  results : List Gate := []
  cur : Option Gate := none
  compl : List Byte := List.replicate 16 0
  wlog : List Rewrite := []
  rwq : List Rewrite := []
  dma : Option FmtDma := none
  waitSel : Nat := 0
  onRing : Bool := false
  pi : Nat := 0
  wgen : Nat := 0
  wedgeLatch : Bool := false
  frameLatch : Bool := false
  waitTimeout : Bool := false
  waitInt : Bool := false
  seekEnd : Bool := false
  seekOk : Bool := false
  deriving DecidableEq, Repr

/-- A slot of the LLR Store: its four areas (R344), values beyond a list's end being 0, and its last job. -/
structure LlrSlot where
  inp : List Int := []
  prior : List Int := []
  soft : List Int := []
  dec : List Bool := []
  params : Option (Bool × List Int) := none
  deriving DecidableEq, Repr

/-- A job of the IDU Pool (Table 8.5) with what the dispatcher keeps of it: its ring, which of its slots were HELD, its
limit and the limit requested at its last dispatch, whether it has been re-dispatched, whether it has been re-issued and
whether a re-issue awaits its dispatch, and which of its slots have been released, which withdraws it (R365). -/
structure Job where
  ring : Nat
  id : Nat
  slot : Nat
  code : Bool
  keep : Bool
  hold : Bool
  usePrior : Bool
  mirror : Bool
  f : Nat
  slot2 : Nat
  p1 : List Int
  p2 : List Int
  tag : List Byte
  held1 : Bool
  held2 : Bool
  limit : Nat
  idu : Nat
  redone : Bool
  reissued : Bool
  again : Bool
  req : Nat
  released : List Nat
  deriving DecidableEq, Repr

/-- A stripe-joint decoding request under way: its 32 bytes, the round, which indices of SLOT are failed and which await a
completion, how many were failed at first, and the result that a job's end has forced, 0 for none. -/
structure SjdSt where
  bytes : List Byte
  round : Nat := 0
  failed : List Nat := []
  waiting : List Nat := []
  started : Nat := 0
  forced : Nat := 0
  deriving DecidableEq, Repr

/-- The IDU Pool beside its registers and its rings (chapter 8): `kat` is 0 for no test, 1 a test, 2 the test of an
UNFENCE, `katTurn` are the IDUs whose periodic test is still to come, the first one's turn being now, and `katPass` tells
which IDUs passed their last one; `held` are completions that a full ring holds back. -/
structure IduPool where
  slots : Vector LlrSlot 48 := Vector.replicate 48 {}
  accepted : List Job := []
  reissue : List Job := []
  redisp : List Job := []
  running : Vector (Option Job) 6 := Vector.replicate 6 none
  lastRing : Nat := 8
  kat : Vector Nat 6 := Vector.replicate 6 0
  katTurn : List (Fin 6) := []
  katDue : BitVec 6 := 0
  katLate : BitVec 6 := 0
  katPass : BitVec 6 := 0
  held : List (Nat × List Byte) := []
  starved : Bool := false
  sat : Sat := {}
  emptyTold : Bool := false
  sjd : Option SjdSt := none
  sjdHeld : List (Nat × List Byte) := []
  deriving DecidableEq, Repr

/-- The Array Engine beside its registers: the completion of the command that runs, and whether ring 257 has refused
it. -/
structure Ae where
  cur : Option (List Byte) := none
  refused : Bool := false
  deriving DecidableEq, Repr

/-- A valid record that the Almanac's writer knows of: its slot, its severity, and its age key (R987). -/
structure AlmRec where
  slot : Nat
  sev : Nat
  cycles : Nat
  time : Nat
  subseq : Nat
  deriving DecidableEq, Repr

/-- The Almanac's writer beside its registers and MRAM (chapter 22): its index of valid records, the next SUBSEQ and the
(CYCLES, TIME) it belongs to, ticks not yet written to the state block, whether the last tick ran on the RC oscillator,
and a STATE_LOST record due. -/
structure Alm where
  recs : List AlmRec := []
  nextSub : Nat := 0
  subKey : Nat × Nat := (0, 0)
  ticks : Nat := 0
  rc : Bool := true
  lostDue : Bool := false
  deriving DecidableEq, Repr

/-- A tag of the HQE beside its registers (chapter 18): its transport, whether Simple Block mode owns it, its place in
the order of acceptance, its command, the target and generation of an ABORT, a completion that waits, whether its ring 0
entry is still to be written, whether firmware has completed it, and whether it is in its data phase. -/
structure HqTag where
  usb : Bool := false
  sb : Bool := false
  seq : Nat := 0
  ordered : Bool := false
  slot : List Byte := List.replicate 32 0
  abortOf : Option (Nat × Nat) := none
  entry : Option (List Byte) := none
  unposted : Bool := false
  fwDone : Bool := false
  dataPhase : Bool := false
  deriving DecidableEq, Repr

/-- A transfer of a data stream: by the Hit Fast Path or by a descriptor; what is left of its buffers, its length, the
bytes moved between the Buffer DRAM and the transport and those the host has taken, and the status that stopped it. -/
structure HqXfer where
  fast : Bool
  tag : Nat
  gen : Nat
  fromHost : Bool
  last : Bool
  id : Nat
  segs : List (Nat × Nat)
  total : Nat
  moved : Nat
  given : Nat
  stop : Option Nat
  deriving DecidableEq, Repr

/-- The HQE beside its registers: stream 0 is the Host Port's, stream 1 the USB Block's. `holds` are ABORTs whose
completion waits by R814, `posts` ring entries that a refused enqueue leaves to be written. -/
structure Hqe where
  tags : Vector HqTag 32 := Vector.replicate 32 {}
  seq : Nat := 0
  cur : Vector (Option HqXfer) 2 := Vector.replicate 2 none
  queue : Vector (List HqXfer) 2 := Vector.replicate 2 []
  waiting : Vector (List Nat) 2 := Vector.replicate 2 []
  holds : List Nat := []
  stopped : List (Nat × Nat) := []
  live : List (Nat × Nat) := []
  sync : List (Nat × Nat) := []
  posts : List (Nat × List PByte) := []
  deriving DecidableEq, Repr

/-- The Host Port beside its registers and window registers (chapter 19): the byte latches, the peek address, the data
FIFO, the in-buffer with the END flag of an entry that waits for ring 2, the out-buffer, a cycle that HP_WAIT_N holds
(true for a write), and whether an interface-scope reset is running. -/
structure HostPort where
  rhi : Nat := 0
  whi : Nat := 0
  peek : Nat := 0
  fifo : List PByte := []
  inBuf : List Byte := []
  inWait : Option Bool := none
  outBuf : List PByte := []
  outEnd : Bool := false
  held : Option Bool := none
  resetting : Bool := false
  deriving DecidableEq, Repr


/-- How a token or packet of the USB bus is answered (Table 20.6); `silent` is no answer. -/
inductive Handshake
  | silent | data | ack | nak | nyet | stall
  deriving DecidableEq, Repr

/-- An endpoint's buffer (R882): how many bytes have been taken from it and put into it since it was last emptied. -/
structure UsbEp where
  lo : Nat := 0
  hi : Nat := 0
  deriving DecidableEq, Repr

/-- Where the function's control transfer stands (R885 to R887). -/
inductive Ep0Stage
  | idle | posted | sending | status | stalled
  deriving DecidableEq, Repr

/-- The control transfer of EP0: its SETUP packet, the bytes still to send, and whether a zero-length packet ends them. -/
structure Ep0 where
  stage : Ep0Stage := .idle
  setup : List Byte := List.replicate 8 0
  left : Nat := 0
  zlp : Bool := false
  deriving DecidableEq, Repr

/-- A command context of the MSE beside its register (R895): its age, its record as received, whether it is a task
management request, and from START its kind and direction, the bytes of its data phase, D, the firmware buffer, the HQE
tag with its generation, the bytes filled from or passed to their source and the bytes moved on the bus, its CSW status
where Table 20.8 fixes it, the endpoint it halts at its end, the sense it was started with, and its completion. -/
structure MseCtx where
  age : Nat := 0
  cmd : List Byte := List.replicate 32 0
  task : Bool := false
  kind : Nat := 0
  toHost : Bool := false
  len : Nat := 0
  dlen : Nat := 0
  buf : Nat := 0
  hq : Option (Nat × Nat) := none
  filled : Nat := 0
  moved : Nat := 0
  csw : Option Nat := none
  haltEp : Option Nat := none
  sense : Nat := 0
  phased : Bool := false
  compl : Option Nat := none
  deriving DecidableEq, Repr

/-- A packet that waits on the status endpoint: the context whose status it is, if it is one, whether it is the Ready IU
of the data phase under way, and its bytes. -/
structure MseIu where
  ctx : Option (Fin 16)
  ready : Bool
  bytes : List Byte
  deriving DecidableEq, Repr

/-- The USB Block beside its registers and Endpoint Memory (chapter 20): the hub's configuration and halt, the Transaction
Translator's busy buffers, the function's test mode, the count of SETUP packets, ring 4 entries that wait, the data
phases ready in order and the one under way, whether the EP2 buffer is to be passed on, packets waiting on the status
endpoint, tags whose stream data is drained, whether an invalid CBW halts EP1 and EP2, the packets in the EP5 buffer
with the end of a transfer marked, whether the EP6 buffer holds a message's end, the ports that global suspend has
suspended, a remote wake that waits (true under global suspend), whether resume is driven upstream, and how the last
token or packet was answered. -/
structure Usb where
  hubConfig : Nat := 0
  hubHalt : Bool := false
  ttBusy : BitVec 4 := 0
  test : Nat := 0
  setups : Nat := 0
  posts : List (List Byte) := []
  ep : Vector UsbEp 7 := Vector.replicate 7 {}
  ep0 : Ep0 := {}
  ctx : Vector MseCtx 16 := Vector.replicate 16 {}
  age : Nat := 0
  ready : List (Fin 16) := []
  cur : Option (Fin 16) := none
  passDue : Bool := false
  out : List MseIu := []
  drains : List (Nat × Nat) := []
  badCbw : Bool := false
  pkts : List (Nat × Bool) := []
  vendorEnd : Bool := false
  globalSuspended : BitVec 5 := 0
  rwakeWait : Option Bool := none
  driving : Bool := false
  answer : Handshake := .silent
  deriving DecidableEq, Repr

/-- A unit of the Buffer Cache map (R420, R727, R728): its volume and volume unit, its buffer number, which logical
sectors are present, dirty and lost, and the age of its last use. -/
structure CacheEnt where
  vol : Nat
  unit : Nat
  buf : Nat
  mask : Nat
  dirty : Nat := 0
  lost : Nat := 0
  deriving DecidableEq, Repr

/-- Where an OCS command stands: just taken, waiting for its data from the host, with its data there, running in steps, or
waiting for its data to reach the host. -/
inductive OcsStage
  | fresh | dataIn | ready | running | dataOut
  deriving DecidableEq, Repr

/-- The path an OCS command came by: a tag of either transport with its generation, or a message of one with its
SEQ. -/
inductive OcsPath
  | tag (usb : Bool) (t gen : Nat)
  | mailbox (seq : Nat)
  | vendor (seq : Nat)
  | uart (seq : Nat)
  | tunnel (lun seq : Nat)
  deriving DecidableEq, Repr

/-- An OCS command that Otivo holds: its 32 bytes, its data from the host, its buffers, the transfers outstanding, how many
rows a step-wise command has done, and the STATUS, RESULT and DETAIL it will complete with. -/
structure OcsCmd where
  path : OcsPath
  bytes : List Byte
  stage : OcsStage := .fresh
  data : List Byte := []
  bufs : List Nat := []
  xfers : List Nat := []
  rows : Nat := 0
  status : Nat := 0
  result : Nat := 0
  detail : Nat := 0
  deriving DecidableEq, Repr

/-- A POWER action or SUSPEND_ACTION that waits for its tags, and the request that has been refused. -/
structure OtPower where
  action : Nat
  usbOnly : Bool := false
  refused : Bool := false
  deriving DecidableEq, Repr

/-- A unit sector whose verify read has failed after it was rewritten in place (R416): its port and sector, the volume and the
write-intent regions of its stripe, and the recovered block. -/
structure BadSector where
  port : Nat
  sec : Nat
  vol : Nat
  regions : List Nat
  block : List Byte
  deriving DecidableEq, Repr

/-- Otivo's own state (chapters 3, 9, 11, 12, 18 and 21). In order: whether it has started, whether STANDBY has ended it,
whether discovery is done and an invalid volume table recorded, and SYS_BOOT_INFO as it found it; port outcomes, ports
taken offline, ports whose heads have loaded and whose record has been checked, ports stopped by POWER, and the times of
port errors; assembled volumes, their ACTIVE members not found, the members whose REBUILD_DELAY has ended, progress not
yet persisted, regions awaiting resynchronisation, rebuilds under way and reshapes paused; the Buffer Cache map, buffers
that wait for MAP_SYNC, and buffers of MSE contexts; messages that have come in part on the mailbox and
the vendor pipe, outstanding commands, the next XFER_ID and refused ring entries;
unsaved features; notifications with NSEQ, their queues for the mailbox, the vendor pipe and the UART with OVERFLOW due,
the binary session and frames for the UART, and whether the host has used the vendor pipe; held tunnel replies,
contexts that receive a tunnel message (with their LUN and buffers), tags to be aborted with their generation, and the
last sense by LUN; dirty counts written last and those found at start-up; SYS_PROTECT bits and fenced IDUs seen; a power
request, an activation (1 due, 2 recorded), a TAG_SPLIT that waits, and background work paused by suspend; sectors to be
reallocated; the volumes whose reshape group is in flight, and the copy of its at-risk blocks in Buffer DRAM (R560). -/
structure Otivo where
  started : Bool := false
  woke : Bool := false
  discovered : Bool := false
  tableTold : Bool := false
  bootInfo : Word := 0
  outcome : Vector Nat 8 := Vector.replicate 8 0
  offline : BitVec 8 := 0
  loaded : BitVec 8 := 0
  parked : BitVec 8 := 0
  errs : Vector (List Nat) 8 := Vector.replicate 8 []
  ends : Vector MediaStatus 8 := Vector.replicate 8 .ok
  spnAt : Vector (List Nat) 8 := Vector.replicate 8 []
  srvAt : Vector (List Nat) 8 := Vector.replicate 8 []
  paAt : Vector (List Nat) 8 := Vector.replicate 8 []
  repaired : List (Nat × Nat × Bool) := []
  assembled : BitVec 4 := 0
  absent : Vector Nat 4 := Vector.replicate 4 0
  delayed : Vector Nat 4 := Vector.replicate 4 0
  rebRow : Vector Nat 4 := Vector.replicate 4 0
  cbRow : Vector Nat 4 := Vector.replicate 4 0
  resync : Vector (List Nat) 4 := Vector.replicate 4 []
  rebuild : BitVec 4 := 0
  paused : BitVec 4 := 0
  cache : List CacheEnt := []
  limbo : List Nat := []
  ctxBufs : List (Nat × Nat) := []
  partMsg : Vector (List Byte) 2 := Vector.replicate 2 []
  cmds : List OcsCmd := []
  xid : Nat := 0
  posts : List (Nat × List Byte) := []
  feats : List (Nat × Nat) := []
  nseq : Nat := 0
  notes : Vector (List (List Byte × List Byte)) 3 := Vector.replicate 3 []
  overflow : BitVec 3 := 0
  session : Bool := false
  uartOut : List (List Byte) := []
  vendorUsed : Bool := false
  tunnel : Vector (Option (List Byte)) 4 := Vector.replicate 4 none
  tunIn : List (Nat × Nat × List Nat) := []
  aborts : List (Nat × Nat) := []
  sense : Vector Nat 4 := Vector.replicate 4 0
  dirtyTold : List Nat := [0, 0, 0, 0]
  dirtyFound : List Nat := [0, 0, 0, 0]
  dirtyKnown : Bool := false
  protSeen : Nat := 0
  fenceSeen : Nat := 0
  power : Option OtPower := none
  activate : Nat := 0
  split : Option Nat := none
  quiet : Bool := false
  bad : List BadSector := []
  inGroup : BitVec 4 := 0
  backup : Vector (List (Nat × List Byte)) 4 := Vector.replicate 4 []
  deriving DecidableEq, Repr

/-- What of Otivo's memory a restart of its firmware leaves, until the next power-on: the ports taken offline (R528) and the locations
repaired (R715). -/
def Otivo.lasting (o : Otivo) : Otivo := { offline := o.offline, repaired := o.repaired }

/-- What the media and MRAM hold for Otivo beyond addressed memory: the 4112-byte blocks on the discs by port and slot,
and the features saved in Otivo's configuration, whose layout the spec does not give. -/
structure Media where
  disc : List (Nat × List Byte) := []
  saved : List (Nat × Nat) := []
  deriving DecidableEq, Repr


/-- The MRAM Controller's last store, its bytes as they stood before with their check bits: that of the command that runs, and that of
the command before, which loss of supply may still interrupt (R630). -/
structure MramPort where
  now : Option (Nat × List (Byte × BitVec 5)) := none
  last : Option (Nat × List (Byte × BitVec 5)) := none
  deriving DecidableEq, Repr

/-- The state of the block. `fmtLast` is the formatter context that issued last (R431); before the first issue it is 7, so
that context 0 is first (log entry 26). -/
@[ext]
structure State where
  regs : List (Nat × Word) := []
  mem : List Host.Cell := []
  ecc : List (Nat × BitVec 5) := []
  caps : List (Nat × Nat) := []
  rings : List (Nat × Ring) := []
  evc : Evc := {}
  pw : Power := {}
  boot : Boot := {}
  core : Vector CoreSt 2 := #v[{ run := true }, {}]
  dbg : Dbg := {}
  io : Io := {}
  lc : LineCache := {}
  cip : Cipher := {}
  bus : BusOut := {}
  spn : Vector Spindle 8 := Vector.replicate 8 {}
  die : PowerDie := {}
  srv : Vector Servo 8 := Vector.replicate 8 {}
  shockLow : Bool := false
  sce : Sce := {}
  ch : Vector Chan 8 := Vector.replicate 8 {}
  fmt : Vector FmtCtx 8 := Vector.replicate 8 {}
  fmtLast : Fin 8 := 7
  memDue : BitVec 3 := 0
  mram : MramPort := {}
  hq : Hqe := {}
  hp : HostPort := {}
  nanoStage : List (Nat × Word) := []
  usb : Usb := {}
  idu : IduPool := {}
  alm : Alm := {}
  jtag : Jtag := {}
  ae : Ae := {}
  ot : Otivo := {}
  media : Media := {}
  freeCtr : Nat := 0
  pending : List Instr := []
  deriving DecidableEq, Repr

/-- The machine right after internal reset release (R114), no command waiting: registers at the reset values of their
tables, Core A at 0x0000_0000 and Core B held (R117). Values the spec does not state are named in log entry 2. -/
def State.reset : State := {}

end Sys2Proof.Machine
end

