-- ==== Sys2Proof/Machine/Ops.lean ====
section
/-! DEFINITION. The named operations over registers and memory that every family uses: fields of registers (R6, R13),
saturating counters (R19), the per-byte code of chapter 16, and free values. -/

namespace Sys2Proof.Machine
open Sys2Proof

/-- `n` bits of a word from bit `lo`, as a number. -/
def getF (w : Word) (lo n : Nat) : Nat := (w.extractLsb' lo n).toNat

/-- A word with `n` bits from bit `lo` replaced by the low bits of `v`. -/
def putF (w : Word) (lo n v : Nat) : Word :=
  (w &&& ~~~(((BitVec.allOnes n).setWidth 32) <<< lo)) ||| (((BitVec.ofNat n v).setWidth 32) <<< lo)

/-- The word a register holds. -/
def State.reg (s : State) (a : Nat) : Word := smGet regReset a s.regs

/-- A register given a word. -/
def State.setReg (s : State) (a : Nat) (v : Word) : State := { s with regs := smSet regReset a v s.regs }

/-- A field's value, unsigned. -/
def State.rd (s : State) (f : Fld) : Nat := getF (s.reg f.addr) f.lo f.w

/-- A field's value as a two's complement number. -/
def State.rdI (s : State) (f : Fld) : Int := signedOf f.w (s.rd f)

/-- Whether a field is not 0. -/
def State.flag (s : State) (f : Fld) : Bool := s.rd f != 0

/-- A field given a value (its low bits). -/
def State.wr (s : State) (f : Fld) (v : Nat) : State := s.setReg f.addr (putF (s.reg f.addr) f.lo f.w v)

/-- A field given a signed value. -/
def State.wrI (s : State) (f : Fld) (v : Int) : State := s.wr f (unsignedOf f.w v)

/-- A one-bit field given a Boolean. -/
def State.put (s : State) (f : Fld) (b : Bool) : State := s.wr f (b2n b)

/-- A field set to 1. -/
def State.up (s : State) (f : Fld) : State := s.wr f 1

/-- The die-to-die link works again, unless EXTEST or CLAMP holds it lost (R1044). -/
def State.linkBack (s : State) : State := if s.jtag.ir = 3 ∨ s.jtag.ir = 4 then s else s.up PS_STATUS_LINK_OK

/-- A field set to 0. -/
def State.down (s : State) (f : Fld) : State := s.wr f 0

/-- A counter advanced by one, stopping at all ones (R19). -/
def State.inc (s : State) (f : Fld) : State := s.wr f (satInc f.w (s.rd f))

/-- A counter advanced by `n`, stopping at all ones (R19). -/
def State.add (s : State) (f : Fld) (n : Nat) : State := s.wr f (min (s.rd f + n) (2 ^ f.w - 1))

/-- One bit of a field set. -/
def State.setBit (s : State) (f : Fld) (i : Nat) : State := s.wr f (s.rd f ||| 2 ^ i)

/-- One bit of a field cleared. -/
def State.clrBit (s : State) (f : Fld) (i : Nat) : State := s.wr f (s.rd f &&& (2 ^ f.w - 1 - 2 ^ (i % f.w)))

/-- One bit of a field. -/
def State.bit (s : State) (f : Fld) (i : Nat) : Bool := (s.rd f).testBit i

/-- An operation done only where its condition holds. -/
def State.when (s : State) (c : Bool) (g : State → State) : State := if c then g s else s

/-- The next free value, and the state with the draw counted (log entry 3). -/
def State.draw (s : State) : Nat × State := (Config.freeNat s.freeCtr, { s with freeCtr := s.freeCtr + 1 })

/-- `n` free bytes, and the state with the draws counted: the entropy source. -/
def State.drawBytes : Nat → State → List Byte × State
  | 0, s => ([], s)
  | n + 1, s =>
    let (v, s) := s.draw
    let (bs, s) := State.drawBytes n s
    (BitVec.ofNat 8 v :: bs, s)

/-- A unit of a vector changed. -/
def vmod {α : Type} {n : Nat} (v : Vector α n) (i : Fin n) (g : α → α) : Vector α n := v.set i (g v[i])

/-- One of eight by a number, modulo 8. -/
def fin8 (n : Nat) : Fin 8 := ⟨n % 8, Nat.mod_lt _ (by decide)⟩

/-! ## The per-byte code (R704 to R718) -/

/-- The memory of Table 16.2 that holds a fabric address, with the location its captures carry. -/
def memAt (a : Nat) : Option (Nat × Nat) :=
  if 0x20000000 ≤ a ∧ a < 0x20080000 then some (2, a)
  else if 0x300E8000 ≤ a ∧ a < 0x300EC000 then some (3, a - 0x300E8000)
  else if 0x30088000 ≤ a ∧ a < 0x30090000 then some (4, a - 0x30088000)
  else if 0x30084000 ≤ a ∧ a < 0x30088000 then some (5, a - 0x30084000)
  else if 0x02000000 ≤ a ∧ a < 0x02010000 then some (8, a)
  else if 0x02100000 ≤ a ∧ a < 0x02108000 then some (9, a)
  else if 0x03000000 ≤ a ∧ a < 0x03010000 then some (10, a)
  else if 0x03100000 ≤ a ∧ a < 0x03108000 then some (11, a)
  else if 0x10000000 ≤ a ∧ a < 0x10100000 then some (12, a)
  else none

/-- The key under which the check bits of a location of memory `m` are held. -/
def eccKey (m loc : Nat) : Nat := (m + 1) * 2 ^ 32 + loc

/-- The check bits of a location, as their difference from what R704 gives the stored byte. -/
def State.eccOf (s : State) (m loc : Nat) : BitVec 5 := smGet (fun _ => 0) (eccKey m loc) s.ecc

/-- What a read of a byte finds (Table 16.1). -/
inductive EccClass
  | clean | corr | uncorr
  deriving DecidableEq, Repr

/-- The parity of five bits. -/
def par5 (e : BitVec 5) : Bool :=
  ((e.getLsbD 0 != e.getLsbD 1) != (e.getLsbD 2 != e.getLsbD 3)) != e.getLsbD 4

/-- Table 16.1 for stored check bits that differ from the right ones by `e`: the syndrome is its low four bits and p
its parity, since the data bits stand as they were written. -/
def eccClass (e : BitVec 5) : EccClass :=
  let sy := e.toNat % 16
  if e = 0 then .clean else if par5 e = false ∨ 13 ≤ sy then .uncorr else .corr

/-- The data bit that a correction inverts (positions 3, 5, 6, 7, 9, 10, 11 and 12), as a byte mask. -/
def eccFlip (e : BitVec 5) : Byte :=
  match eccClass e with
  | .corr =>
    match e.toNat % 16 with
    | 3 => 0x01 | 5 => 0x02 | 6 => 0x04 | 7 => 0x08 | 9 => 0x10 | 10 => 0x20 | 11 => 0x40 | 12 => 0x80
    | _ => 0
  | _ => 0

/-- How many captures memory `m` has made (13 is the Buffer DRAM). -/
def State.capsOf (s : State) (m : Nat) : Nat := smGet (fun _ => 0) m s.caps

/-- A capture of memory `m` into the oldest of its four entries (R713). -/
def State.capture (s : State) (m loc : Nat) (e : BitVec 5) (unc : Bool) : State :=
  let n := s.capsOf m
  let k := n % 4
  { (((((s.wr (INT_CAP0_LOC m k) loc).up (INT_CAP1_VALID m k)).put (INT_CAP1_UNCORR m k) unc).wr
      (INT_CAP1_SEQ m k) ((n + 1) % 256)).put (INT_CAP1_P m k) (par5 e)).wr (INT_CAP1_S m k) (e.toNat % 16)
    with caps := smSet (fun _ => 0) m (n + 1) s.caps }

/-- Whether one of memory `m`'s captures holds a location. -/
def State.captured (s : State) (m loc : Nat) : Bool :=
  (List.range 4).any (fun k => s.flag (INT_CAP1_VALID m k) && s.rd (INT_CAP0_LOC m k) == loc % 2 ^ 32)

/-- The counts, status bit and capture of an error that a read of a location found (R712, R717). -/
def State.eccNote (s : State) (m loc : Nat) (e : BitVec 5) : State :=
  match eccClass e with
  | .clean => s
  | .corr =>
    let s := (s.inc (INT_COUNT_CORR m)).setBit INT_CE_STATUS_MEM m
    if s.captured m loc then s else s.capture m loc e false
  | .uncorr => ((s.inc (INT_COUNT_UNCORR m)).setBit INT_UE_STATUS_MEM m).capture m loc e true

/-- The check-bit difference that a write of a byte to memory `m` stores: 0b00011 for a poisoned byte (R718), and the
armed injection on top (R731), which is then disarmed. -/
def State.writeEcc (s : State) (m loc : Nat) (poison : Bool) : State :=
  let e0 : BitVec 5 := if poison then 3 else 0
  let hit := s.flag INT_INJECT_ARM && s.rd INT_INJECT_MEM == m
  let e := if hit then e0 ^^^ BitVec.ofNat 5 (s.rd INT_INJECT_FLIP) else e0
  let s := { s with ecc := smSet (fun _ => 0) (eccKey m loc) e s.ecc }
  if hit then s.down INT_INJECT_ARM else s

/-! ## Memory by bytes -/

/-- What a byte of memory that nothing has written reads as: 0 (log entry 2). -/
def memDefault : Nat → Byte := fun _ => 0

/-- The stored byte at a fabric address; the Boot ROM's contents are the part's own. -/
def State.byteAt (s : State) (a : Nat) : Byte :=
  if a < 0x10000 then Config.bootRom a else smGet memDefault a s.mem

/-- A byte stored with no check bits touched. -/
def State.poke (s : State) (a : Nat) (b : Byte) : State := { s with mem := smSet memDefault a b s.mem }

/-- `n` stored bytes from an address, with no check. -/
def State.peekBytes (s : State) (a n : Nat) : List Byte := (List.range n).map (fun i => s.byteAt (a + i))

/-- Bytes stored from an address on, with no check bits touched. -/
def State.pokeBytes (s : State) (a : Nat) : List Byte → State
  | [] => s
  | b :: bs => (s.poke a b).pokeBytes (a + 1) bs

/-- One byte written with fresh check bits (R706, R718). -/
def State.writeByte (s : State) (a : Nat) (b : PByte) : State :=
  let s := s.poke a b.1
  match memAt a with
  | some (m, loc) => s.writeEcc m loc b.2
  | none => s

/-- Bytes written in ascending order. -/
def State.writeMem (s : State) (a : Nat) : List PByte → State
  | [] => s
  | b :: bs => (s.writeByte a b).writeMem (a + 1) bs

/-- One byte read through its code: corrected, or marked poisoned, with the error counted (R710, R716). -/
def State.readByte (s : State) (a : Nat) : PByte × State :=
  let b := s.byteAt a
  match memAt a with
  | none => ((b, false), s)
  | some (m, loc) =>
    let e := s.eccOf m loc
    match eccClass e with
    | .clean => ((b, false), s)
    | .corr => ((b ^^^ eccFlip e, false), s.eccNote m loc e)
    | .uncorr => ((b, true), s.eccNote m loc e)

/-- `n` bytes read in ascending order. -/
def State.readMem : Nat → Nat → State → List PByte × State
  | _, 0, s => ([], s)
  | a, n + 1, s =>
    let (b, s) := s.readByte a
    let (bs, s) := State.readMem (a + 1) n s
    (b :: bs, s)

/-- The errors that a read of `n` bytes of MRAM from `a` meets, counted and captured, where its bytes are taken otherwise
(R712). -/
def State.mramLook (s : State) (a n : Nat) : State :=
  (s.ecc.filter (fun e => decide (eccKey 12 a ≤ e.1 ∧ e.1 < eccKey 12 (a + n)))).foldl
    (fun s e => s.eccNote 12 (e.1 - eccKey 12 0) e.2) s

/-- A store to MRAM about to begin is noted with the bytes it replaces. -/
def State.mramNote (s : State) (a n : Nat) : State :=
  { s with mram := { s.mram with
    now := some (a, (List.range n).map (fun i => (s.byteAt (a + i), s.eccOf 12 (a + i)))) } }

/-- The five check bits of a byte (R704). -/
def byteCheck (b : Byte) : BitVec 5 :=
  let par (l : List Nat) : Bool := l.foldl (fun a i => a != b.getLsbD i) false
  let c0 := par [0, 1, 3, 4, 6]
  let c1 := par [0, 2, 3, 5, 6]
  let c2 := par [1, 2, 3, 7]
  let c3 := par [4, 5, 6, 7]
  let c4 := par (List.range 8) != ((c0 != c1) != (c2 != c3))
  BitVec.ofNat 5 (b2n c0 + 2 * b2n c1 + 4 * b2n c2 + 8 * b2n c3 + 16 * b2n c4)

/-- A byte of an interrupted store: each of its 13 bits is its old or its new one, as a free value says (R630). -/
def State.tearByte (s : State) (a : Nat) (old : Byte × BitVec 5) : State :=
  let (x, s) := s.draw
  let m : Byte := BitVec.ofNat 8 x
  let k : BitVec 5 := BitVec.ofNat 5 (x / 256)
  let new := s.byteAt a
  let cOld := byteCheck old.1 ^^^ old.2
  let cNew := byteCheck new ^^^ s.eccOf 12 a
  let b := (old.1 &&& m) ||| (new &&& ~~~m)
  let c := (cOld &&& k) ||| (cNew &&& ~~~k)
  let s := s.poke a b
  { s with ecc := smSet (fun _ => 0) (eccKey 12 a) (c ^^^ byteCheck b) s.ecc }

/-- Loss of supply: the last store may have been interrupted in any of its words, which a free value names. The words before it have
retired, those behind it have not begun (R630). -/
def State.tear (s : State) : State :=
  match s.mram.last with
  | none => s
  | some (a, old) =>
    let (w, s) := s.draw
    let s := { s with mram := {} }
    old.zipIdx.foldl (fun (s : State) e =>
      let i := (a + e.2) / 4 - a / 4
      if i < w then s
      else if i = w then s.tearByte (a + e.2) e.1
      else { s.poke (a + e.2) e.1.1 with ecc := smSet (fun _ => 0) (eccKey 12 (a + e.2)) e.1.2 s.ecc }) s

/-- Bytes without marks. -/
def clean (l : List Byte) : List PByte := l.map (fun b => (b, false))

/-- The stored bits of marked bytes. -/
def bits (l : List PByte) : List Byte := l.map Prod.fst

/-- Whether a byte of a transfer is poisoned. -/
def poisoned (l : List PByte) : Bool := l.any Prod.snd

/-- `n` bytes as a read through their code gives them (R710); none where one is uncorrectable. -/
def State.sureBytes (s : State) (a n : Nat) : Option (List Byte) :=
  let d := (State.readMem a n s).1
  if poisoned d then none else some (bits d)

/-- Plain bytes written with fresh check bits. -/
def State.store (s : State) (a : Nat) (l : List Byte) : State := s.writeMem a (clean l)

/-- A range of memory whose contents are lost or zeroed: it reads as memory nothing has written, its check bits
right. -/
def State.wipe (s : State) (lo hi : Nat) : State :=
  { s with
    mem := smDrop (fun a => decide (lo ≤ a ∧ a < hi)) s.mem
    ecc := s.ecc.filter (fun e =>
      match memAt lo with
      | some (m, loc) => !decide (eccKey m loc ≤ e.1 ∧ e.1 < eccKey m loc + (hi - lo))
      | none => true) }

/-- The check bits of every location of a memory that no address reaches made right. -/
def State.wipeEcc (s : State) (m : Nat) : State :=
  { s with ecc := smDrop (fun k => decide (eccKey m 0 ≤ k ∧ k < eccKey (m + 1) 0)) s.ecc }

/-- R708: the memories of one initialisation filled with 0x00 and valid check bits, where it is due: 0 the DTCMs, 1 the
Ring SRAM, 2 the Endpoint Memory. -/
def State.initMem (s : State) (m : Fin 3) : State :=
  if s.memDue.getLsbD m then
    let s := { s with memDue := s.memDue &&& ~~~BitVec.ofNat 3 (2 ^ m.val) }
    if m = 0 then (s.wipe 0x02100000 0x02108000).wipe 0x03100000 0x03108000
    else if m = 1 then s.wipe 0x20000000 0x20080000
    else s.wipe 0x300E8000 0x300EC000
  else s

/-- An access to a byte not yet initialised stalls until it has been written (R708); the access ends that wait first
(log entry 7). -/
def State.initAt (s : State) (a : Nat) : State :=
  match memAt a with
  | some (2, _) => s.initMem 1
  | some (3, _) => s.initMem 2
  | some (9, _) => s.initMem 0
  | some (11, _) => s.initMem 0
  | _ => s

/-! ## Regions and reservations -/

/-- What lies at an address (Table 14.1). -/
inductive Region
  | rom | ownItcm | ownDtcm | tcm | mram | ringSram | page | dram | uncachedWin | metadata | unmapped
  deriving DecidableEq, Repr

/-- The region of an address. -/
def regionAt (a : Nat) : Region :=
  if a < 0x10000 then .rom
  else if 0x01000000 ≤ a ∧ a < 0x01010000 then .ownItcm
  else if 0x01100000 ≤ a ∧ a < 0x01108000 then .ownDtcm
  else if 0x02000000 ≤ a ∧ a < 0x02010000 then .tcm
  else if 0x02100000 ≤ a ∧ a < 0x02108000 then .tcm
  else if 0x03000000 ≤ a ∧ a < 0x03010000 then .tcm
  else if 0x03100000 ≤ a ∧ a < 0x03108000 then .tcm
  else if 0x10000000 ≤ a ∧ a < 0x10100000 then .mram
  else if 0x20000000 ≤ a ∧ a < 0x20080000 then .ringSram
  else if 0x30000000 ≤ a ∧ a < 0x30190000 then .page
  else if 0x80000000 ≤ a ∧ a < 0xB8000000 then .dram
  else if 0xB8000000 ≤ a ∧ a < 0xC0000000 then .metadata
  else if 0xC0000000 ≤ a ∧ a < 0xF8000000 then .uncachedWin
  else .unmapped

/-- The block a reservation covers: a Buffer DRAM block is named by its data-area address, whichever view is used. -/
def resvBlock (a : Nat) : Nat := (if regionAt a = .uncachedWin then a - 0x40000000 else a) / 64

/-- R626: a write by any master but core `c` to a block ends a reservation on it. -/
def State.dropResv (s : State) (writer : Option Nat) (a n : Nat) : State :=
  let hit (r : Option Nat) : Bool :=
    match r with
    | some b => decide (resvBlock a ≤ b ∧ b ≤ resvBlock (a + (n - 1)))
    | none => false
  { s with core := Vector.ofFn (fun (i : Fin 2) =>
      let c := s.core[i]
      if hit c.resv && writer != some i.val then { c with resv := none } else c) }

/-! ## Domains and loops -/

/-- Whether a power domain is on (PWR_DOMAIN_STATUS); PD_AON always is. -/
def State.on (s : State) (d : Nat) : Bool := s.flag (PWR_DOMAIN_STATUS_BIT d)

/-- Whether a domain is in Dusk or Dawn, on its own or as part of a device-level transition. -/
def State.moving (s : State) (d : Nat) : Bool :=
  s.pw.phases.any (fun e => e.1 == d) || (s.pw.goal != .none && s.pw.todo.head? == some d)

/-- The PLLs a domain's clock needs, by their CLK_STATUS bits. -/
def domainPlls (d : Nat) : List Nat :=
  if d = 1 ∨ d = 13 then [1]
  else if 2 ≤ d ∧ d ≤ 9 then [0, 3]
  else if d = 10 then [0]
  else if d = 11 then [2]
  else if d = 12 then [4]
  else if d = 14 then [3]
  else []

/-- Whether a domain's logic runs: on, and none of its PLLs has lost its lock (R48). -/
def State.runs (s : State) (d : Nat) : Bool :=
  s.on d && (domainPlls d).all (fun p => !s.pw.lostLock.getLsbD p)

/-- What a unit of PD_CORE does of its own: nothing while it is held stopped (R48). -/
def State.engine (s : State) (g : State → State) : State := s.when (s.runs 1) g

/-- One update's saturation: the run of saturated updates and the episode (R35, R37), and whether the event is raised
now. -/
def Sat.update (t : Sat) (sat : Bool) (dwell : Nat) : Sat × Bool :=
  if sat then
    let r := t.run + 1
    if dwell + 1 ≤ r ∧ t.told = false then ({ run := r, told := true }, true) else ({ t with run := r }, false)
  else ({}, false)

/-- An all-ones value of `w` bits. -/
def ones (w : Nat) : Nat := 2 ^ w - 1

end Sys2Proof.Machine
end

