-- ==== Sys2Proof/Machine/Events.lean ====
section
/-! DEFINITION. The Event Controller's inputs (R605 to R615, R1070, Table 13.7): the present level of every source, the
pulse of an edge source, and `settle`, which brings raw and pending bits up to the levels of the state. -/

namespace Sys2Proof.Machine
open Sys2Proof

/-- Clocks and sleep changed. -/
def State.modPw (s : State) (g : Power → Power) : State := { s with pw := g s.pw }

/-- A core changed. -/
def State.modCore (s : State) (c : Fin 2) (g : CoreSt → CoreSt) : State := { s with core := vmod s.core c g }

/-- The timers, UART and pins changed. -/
def State.modIo (s : State) (g : Io → Io) : State := { s with io := g s.io }

/-- UART_STATUS's levels brought up to the FIFOs. -/
def State.uartSync (s : State) : State :=
  (s.wr UART_STATUS_RX_LEVEL s.io.uartRx.length).wr UART_STATUS_TX_LEVEL s.io.uartTx.length

/-- The transmit FIFO filled, as far as it goes, with bytes that wait for it. -/
def State.uartFeed (s : State) : State :=
  (s.modIo (fun i =>
    let n := 16 - i.uartTx.length
    { i with uartTx := i.uartTx ++ i.uartWait.take n, uartWait := i.uartWait.drop n })).uartSync

/-- Bytes sent on the Console UART by the Boot ROM, which waits for room in the FIFO. -/
def State.uartSend (s : State) (l : List Byte) : State := (s.modIo (fun i => { i with uartWait := i.uartWait ++ l })).uartFeed

/-- What a CSR kept by number holds at reset: dcsr shows its version and machine mode (PRESUMED, log entry 18). -/
def csrReset (n : Nat) : Word := if n = 0x7B0 then 0x40000003 else 0

/-- A CSR kept by number. -/
def CoreSt.csrAt (c : CoreSt) (n : Nat) : Word := smGet csrReset n c.csr

/-- A CSR kept by number given a word. -/
def CoreSt.setCsr (c : CoreSt) (n : Nat) (v : Word) : CoreSt := { c with csr := smSet csrReset n v c.csr }

/-- The CORE clock returns (R57). -/
def State.leaveIdle (s : State) : State :=
  if s.pw.sleep = .idle then
    (((s.modPw (fun p => { p with sleep := .active })).wr PWR_STATE_LAST_SLEEP 1).modCore 0
      (fun c => { c with wfi := false })).modCore 1 (fun c => { c with wfi := false })
  else s

/-- An access in IDLE that is a wake source of Table 2.5: it is recorded, and the CORE clock returns (R39, R64, R1074). -/
def State.idleWake (s : State) (src : Nat) : State :=
  if s.pw.sleep = .idle then (s.setBit PWR_WAKE_CAUSE_CAUSE src).leaveIdle else s

/-- How many entries a ring holds (R579). -/
def Ring.count (r : Ring) : Nat := (r.pi + 65536 - r.ci) % 65536

/-- How many entries a ring can hold: 16 × 2^SIZE. -/
def Ring.slots (r : Ring) : Nat := 16 * 2 ^ r.size

/-- A ring's entry size in bytes. -/
def Ring.bytes (r : Ring) : Nat := if r.esize = 0 then 16 else 32

/-- Whether an enabled ring contributes to its group (R597). -/
def Ring.presents (r : Ring) : Bool :=
  r.en && ((decide (0 < r.count) && r.neEn) || (r.hiHit && r.hiEn) || (r.loHit && r.loEn))

/-- A ring's descriptor. -/
def State.ring (s : State) (id : Nat) : Ring := smGet (fun _ => {}) id s.rings

/-- A ring's descriptor changed. -/
def State.setRing (s : State) (id : Nat) (r : Ring) : State :=
  { s with rings := smSet (fun _ => {}) id r s.rings }

/-- The rings that contribute to group `g`, in ascending order (R598). -/
def State.groupRings (s : State) (g : Nat) : List Nat :=
  (s.rings.filter (fun e => e.2.group == g && e.2.presents)).map Prod.fst

/-- The 128 source bits. -/
def srcBit (i : Nat) : BitVec 128 := BitVec.ofNat 128 (2 ^ i)

/-- The present input of each level source of a port (sources 32 + 4n to 35 + 4n). -/
def State.portLevels (s : State) (n : Nat) : List (Nat × Bool) :=
  let mine (w lo k : Nat) : Bool := bitsOf w lo k != 0
  [ (32 + 4 * n, s.flag (SRV_EVENT_WORD n) || mine (s.rd SCE_SAT_SAT) (2 * n) 2
      || mine (s.rd SCE_OVERRUN_CTX) (3 * n) 3 || mine (s.rd SCE_LIVE_WRITE_CTX) (3 * n) 3
      || s.flag (VCM_STATUS_FAULT_OC n))
  , (33 + 4 * n, s.flag (SPN_EVENT_WORD n))
  , (34 + 4 * n, s.flag (FMT_CTX_EVENT_WORD n))
  , (35 + 4 * n, s.flag (CH_EVENT_WORD n)) ]

/-- R655: whether source 5 is asserted. -/
def State.uartLevel (s : State) : Bool :=
  (s.flag UART_CTRL_RX_IE && s.io.uartRx != []) || (s.flag UART_CTRL_TX_IE && decide (s.io.uartTx.length < 4))
    || s.flag UART_STATUS_OVERRUN || s.flag UART_STATUS_FRAMING

/-- The present input of every source that holds its input asserted while a condition holds (Table 13.7). -/
def State.levels (s : State) : List (Nat × Bool) :=
  [(4, s.flag GPIO_STAT_STAT), (5, s.uartLevel)]
  ++ (List.range 8).map (fun i => (8 + i, s.evc.sw.getLsbD i))
  ++ (List.range 16).map (fun g => (16 + g, s.groupRings g != []))
  ++ (List.range 8).flatMap s.portLevels
  ++ (List.range 8).map (fun i => (64 + i, s.bit IDU_EVENT_EV i))
  ++ (List.range 8).map (fun i => (72 + i, s.bit AE_EVENT_EV i))
  ++ (List.range 8).map (fun i => (80 + i, s.bit HQE_EVENT_EV i))
  ++ [(89, s.bit HP_EVENT_EV 1), (90, s.bit HP_EVENT_EV 2),
      (99, s.bit USB_EVENT_EV 3), (100, s.bit USB_EVENT_EV 4), (101, s.bit USB_EVENT_EV 5),
      (104, s.flag INT_CE_STATUS_MEM), (105, s.flag INT_UE_STATUS_MEM),
      (106, s.flag INT_DRAM_STATUS_FAIL || s.flag INT_DRAM_STATUS_TRANSIENT),
      (107, s.flag PROT_STATUS_VALID), (109, s.flag MC_EVENT_UNLOADED),
      (110, s.flag MC_EVENT_ENTROPY_FAIL || s.flag MC_EVENT_AUTH_FAIL || s.flag MC_EVENT_KEY_POISON),
      (111, s.flag LC_EVENT_WORD)]
  ++ (List.range 8).map (fun i => (112 + i, s.bit PWR_EVENT_EV i))
  ++ [(122, s.flag ALM_EVENT_WRITTEN), (123, s.core[0].debug || s.core[1].debug)]

/-- The sources configured as rising edge. -/
def State.edgeMask (s : State) : BitVec 128 :=
  BitVec.ofNat 128 (maskOf 128 (fun i => s.flag (EVC_SRC_CFG_MODE i)))

/-- The inputs as a word. -/
def State.rawNow (s : State) : BitVec 128 :=
  s.levels.foldl (fun a e => if e.2 then a ||| srcBit e.1 else a) 0

/-- R606, R607 and R1070: level sources follow their inputs, and a rising input of an edge source sets its pending bit,
or its coalesced bit where it was pending already. -/
def Evc.follow (e : Evc) (raw edge : BitVec 128) : Evc :=
  let rising := raw &&& ~~~e.raw &&& edge
  { e with
    raw := raw
    pend := (e.pend &&& edge) ||| rising ||| (raw &&& ~~~edge)
    coal := e.coal ||| (rising &&& e.pend) }


/-- Whether a source is deliverable (R608). -/
def State.deliverable (s : State) (i : Nat) : Bool := s.evc.pend.getLsbD i && !s.flag (EVC_MASK_BIT i)

/-- The deliverable sources that are wake sources (R612). -/
def State.wakeSources (s : State) : BitVec 128 :=
  BitVec.ofNat 128 (maskOf 128 (fun i => s.deliverable i && s.flag (EVC_SRC_CFG_WAKE i)))

/-- Whether some deliverable source is a wake source (R612). -/
def State.eventWake (s : State) : Bool :=
  (List.range 128).any (fun i => s.deliverable i && s.flag (EVC_SRC_CFG_WAKE i))

/-- Whether the part is ACTIVE with no device-level transition under way. -/
def State.awake (s : State) : Bool := s.pw.sleep == .active && s.pw.goal == .none

/-- A Dawn from STANDBY begins: the domains that were on before (R67, Table 2.6). -/
def State.standbyDawn (s : State) : State :=
  s.modPw (fun p => { p with
    goal := .fromStandby, wakePend := false, done := [],
    todo := [11, 1, 10, 15].filter (fun d => d == 15 || p.onBefore.testBit d) })

/-- A doorbell or event that wakes (2 or 3 of Table 2.5) outside ACTIVE: recorded, and where it `starts` it ends IDLE, starts
the Dawn from STANDBY, or is latched in the Dusk towards it (R64, R79, R85, R96, R97). In NADIR neither is a wake source; in
the Dusk towards it they are recorded only. -/
def State.ringsWake (s : State) (src : Nat) (starts : Bool) : State :=
  if s.awake || (s.pw.goal == .none && s.pw.sleep == .nadir) then s
  else
    let s := s.setBit PWR_WAKE_CAUSE_CAUSE src
    if starts then
      match s.pw.goal, s.pw.sleep with
      | .none, .idle => s.leaveIdle
      | .none, _ => s.standbyDawn
      | .toStandby, _ => s.modPw (fun p => { p with wakePend := true })
      | _, _ => s
    else s

/-- The EVC brought up to the present inputs. -/
def State.evcSync (s : State) : State := { s with evc := s.evc.follow s.rawNow s.edgeMask }

/-- The store of the command that ends becomes the one that loss of supply may interrupt next (R630). -/
def State.mramSync (s : State) : State := { s with mram := { last := s.mram.now } }

/-- The EVC brought up to the present inputs; outside ACTIVE a wake source that has become deliverable is a wake event
(R64, R85). While the part is ACTIVE, it changes nothing outside the EVC. -/
def settleEvc (s : State) : State :=
  let s := s.evcSync
  let now := s.wakeSources
  let s1 := { s with evc := { s.evc with woken := now } }
  if now &&& ~~~s.evc.woken = 0 then s1 else s1.ringsWake 3 (s.bit PWR_WAKE_EN_EN 3)

/-- What the end of a command brings: the EVC settled, and the command's store to MRAM noted as the last one. -/
def settle (s : State) : State := (settleEvc s).mramSync

/-- A pulse at the input of source `i`: an edge source becomes pending, or coalesced (R606, R607); a level source
follows the pulse and falls again. -/
def pulse (i : Nat) (s : State) : State :=
  if s.flag (EVC_SRC_CFG_MODE i) then
    if s.evc.pend.getLsbD i then { s with evc := { s.evc with coal := s.evc.coal ||| srcBit i } }
    else { s with evc := { s.evc with pend := s.evc.pend ||| srcBit i } }
  else s

/-- The source a core would claim now (R609): the highest PRIO above its threshold, the lowest ID among equals. -/
def State.claimable (s : State) (c : Nat) : Option Nat :=
  (List.range 128).foldl (fun (best : Option Nat) i =>
    if s.deliverable i && s.rd (EVC_SRC_CFG_TARGET i) == c + 1 && decide (s.rd (EVC_THRESH_THRESH c) < s.rd (EVC_SRC_CFG_PRIO i)) then
      match best with
      | none => some i
      | some b => if s.rd (EVC_SRC_CFG_PRIO b) < s.rd (EVC_SRC_CFG_PRIO i) then some i else some b
    else best) none

/-- A core's MTIMECMP (R639). -/
def State.mtimecmp (s : State) (c : Nat) : Nat :=
  if c = 0 then s.rd MTIMECMP_A_HI_CMP * 2 ^ 32 + s.rd MTIMECMP_A_LO_CMP
  else s.rd MTIMECMP_B_HI_CMP * 2 ^ 32 + s.rd MTIMECMP_B_LO_CMP

/-- Whether a core is available: PD_CORE is on and the core has been released. -/
def State.coreOn (s : State) (c : Fin 2) : Bool := s.on 1 && s.core[c].run

/-- Whether a core has an enabled interrupt pending: external (R609), timer or software (R624), each where its bit of mie
is 1 (the bits are PRESUMED, log entry 18). -/
def State.irqPending (s : State) (c : Fin 2) : Bool :=
  let mie := s.core[c].csrAt 0x304
  (mie.getLsbD 11 && (s.claimable c.val).isSome)
    || (mie.getLsbD 3 && (if c = 0 then s.flag SYS_MSIP_A else s.flag SYS_MSIP_B))
    || (mie.getLsbD 7 && decide (s.mtimecmp c.val ≤ s.io.mtime))

/-- A power event of Table 2.13: its PWR_EVENT bit is set (R1076). -/
def State.pwrEvent (s : State) (i : Nat) : State := s.setBit PWR_EVENT_EV i

/-- The outcome of a command: the state reached, with the event inputs settled. -/
def fin (s : State) : Host.Outcome State Fault Refusal := .next (settle s)

end Sys2Proof.Machine
end

