-- ==== Sys2Proof/Machine/Domains.lean ====
section
/-! DEFINITION. Which power domain holds a register (Table 14.4), SYS_BUS_ERR (R1068), and the register accesses that have
rows of their own, which end as R634 says where their domain is off. -/

namespace Sys2Proof.Machine
open Sys2Proof

/-- The domain of a register page (Table 14.4). -/
def pageDom (a : Nat) : Dom :=
  if 0x100000000 ≤ a then .hostp
  else
    match a / 0x10000 with
    | 0x3000 => .aon
    | 0x3003 => .core
    | 0x3007 => .core
    | 0x3008 => .core
    | 0x3009 => .idu
    | 0x300A => .core
    | 0x300B => .servo
    | 0x300D => .hostp
    | 0x300E => .usb
    | 0x300F => .core
    | p => if 0x3010 ≤ p ∧ p ≤ 0x3017 then .port else .ret

/-- The domain that holds what lies at an address of the register pages; the copies of a banked register lie 2^36
apart. -/
def regDom (a : Nat) : Dom :=
  match regAt (a % 2 ^ 36) with
  | some (r, _) => r.dom
  | none => pageDom (a % 2 ^ 36)

/-- The number of Table 2.3 of the domain that holds an address; none for PD_AON, which is always on. -/
def domId (d : Dom) (a : Nat) : Option Nat :=
  match d with
  | .ret => some 0
  | .core => some 1
  | .port => some (2 + (a / 0x10000 - 0x3010) % 8)
  | .afe => some (2 + (a / 0x10000 - 0x3010) % 8)
  | .idu => some 10
  | .mem => some 11
  | .usb => some 12
  | .hostp => some 13
  | .servo => some 14
  | _ => none

/-- SYS_BUS_ERR records an error while it holds none (R1068). -/
def State.busError (s : State) (type req a : Nat) (write : Bool) : State :=
  if s.flag SYS_BUS_ERR_VALID then s
  else
    ((((s.up SYS_BUS_ERR_VALID).wr SYS_BUS_ERR_TYPE type).put SYS_BUS_ERR_WRITE write).wr SYS_BUS_ERR_REQ_ID req).wr
      SYS_BUS_ERR_ADDR_ADDR a

/-- Whether the domain that holds what lies at a page address is on (R634). -/
def State.regOn (s : State) (a : Nat) : Bool :=
  let d := if regDom a = .pdie then pageDom a else regDom a
  (match domId d a with
    | some i => s.on i
    | none => true) && !(d == .afe && s.pw.afeOff)

/-- A write of a register that has a row of its own, by requester `b`: with the register's domain off it has no effect and
is recorded (R634, R1068). -/
def State.regCmdBy (s : State) (b : Nat) (f : Fld) (g : State → State) : State :=
  if s.regOn f.addr then g s else s.busError 3 b f.addr true

/-- Such a write whose row names no requester: the record shows Core A. DESIGN CHOICE, log entry 26. -/
def State.regCmd (s : State) (f : Fld) (g : State → State) : State := s.regCmdBy 0 f g

/-- A read of such a register: with its domain off it gives 0 and is recorded. -/
def State.regAsk (s : State) (f : Fld) (g : State → State) : State :=
  if s.regOn f.addr then g s else { s.busError 3 0 f.addr false with bus := { data := clean (zerosB 4) } }

end Sys2Proof.Machine
end

