-- ==== Sys2Proof/Machine/Rings.lean ====
section
/-! DEFINITION. The Queue Manager's operations on rings (R578 to R604, R617, R618, R1079): producing and consuming,
latches, errors, and the configuration of a ring. -/

namespace Sys2Proof.Machine
open Sys2Proof

/-- The power domain of a consumer agent (Table 13.3). -/
def agentDomain (c : Nat) : Nat := if c = 4 then 13 else if c = 5 then 12 else if c = 6 then 10 else 1

/-- Whether a hardware agent may consume a ring (Table 13.3); firmware agents may consume any. -/
def agentMay (c id : Nat) : Bool :=
  if c ≤ 2 then true
  else if c = 3 then id == 1 || id == 7
  else if c = 4 then id == 3
  else if c = 5 then id == 6
  else if c = 6 then (decide (192 ≤ id) && decide (id ≤ 199)) || id == 208
  else if c = 7 then id == 256
  else if c = 8 then id == 209 || id == 210
  else if c = 9 then id == 320
  else if c = 10 then id == 322
  else if c = 11 then id == 448
  else id == 64 + 16 * (c - 16) || id == 200 + (c - 16)

/-- Whether a consumer code is reserved (Table 13.3). -/
def agentReserved (c : Nat) : Bool := (decide (12 ≤ c) && decide (c ≤ 15)) || decide (24 ≤ c)

/-- The address of the entry that index `i` names (R578). -/
def Ring.slotAddr (r : Ring) (i : Nat) : Nat := 0x20000000 + 64 * r.base + i % r.slots * r.bytes

/-- A QM error: counted, and recorded with its event while none is recorded (R1079). -/
def State.qmError (s : State) (code ring value : Nat) : State :=
  let s := s.inc QM_COUNT_REJECT
  if s.rd QM_ERR_INFO_CODE = 0 then
    pulse 6 (((s.wr QM_ERR_INFO_CODE code).wr QM_ERR_INFO_RING ring).wr QM_ERR_INFO_VALUE value)
  else s

/-- Whether a consumer's domain is off, or in Dusk or Dawn. -/
def State.asleep (s : State) (agent : Nat) : Bool :=
  !s.on (agentDomain agent) || s.moving (agentDomain agent)

/-- Whether a doorbell held for agent `c` may start a Dawn: firmware has not switched the agent's domain off (R79). -/
def State.agentAsked (s : State) (c : Nat) : Bool :=
  agentDomain c == 1 || (s.reg PWR_DOMAIN_REQ_WORD.addr).getLsbD (agentDomain c)

/-- A doorbell on ring `id` outside ACTIVE: on a wake-enabled ring it is a wake source, which starts a Dawn where it is held
(R64, R78, R79). -/
def State.doorbellSeen (s : State) (id : Nat) : State :=
  let r := s.ring id
  if r.wakeCopy then s.ringsWake 2 (s.bit PWR_WAKE_EN_EN 2 && r.latch && s.agentAsked r.consumer) else s

/-- A ring's PI moved to `pi`: HI_HIT by R596, and its latch set where the consumer's domain is not on (R600). -/
def State.publish (s : State) (id pi : Nat) : State :=
  let r := s.ring id
  let r' := { r with pi := pi % 65536 }
  let hit := decide (r.hiWm ≠ 0 ∧ r.count < r.hiWm ∧ r.hiWm ≤ r'.count)
  (s.setRing id { r' with hiHit := r.hiHit || hit, latch := r.latch || s.asleep r.consumer }).doorbellSeen id

/-- A ring's CI moved to `ci`: LO_HIT by R596. -/
def State.release (s : State) (id ci : Nat) : State :=
  let r := s.ring id
  let r' := { r with ci := ci % 65536 }
  s.setRing id { r' with loHit := r.loHit || decide (r.loWm < r.count ∧ r'.count ≤ r.loWm) }

/-- A doorbell that arrives in IDLE: on a wake-enabled ring it is a wake source of Table 2.5, and on any ring the CORE
clock returns (R39, R64, R1074). -/
def State.ringWake (s : State) (id : Nat) : State := if (s.ring id).wakeEn then s.idleWake 2 else s.leaveIdle

/-- Bytes made up to an entry's size with zeros, or cut to it. -/
def entryBytes (n : Nat) (l : List PByte) : List PByte := l.take n ++ List.replicate (n - l.length) (0, false)

/-- How an enqueue ends. -/
inductive EnqResult
  | ok | full | disabled
  deriving DecidableEq, Repr

/-- Whether an enqueue to a ring would be taken. -/
def State.enqTest (s : State) (id : Nat) : EnqResult :=
  let r := s.ring id
  if r.en = false then .disabled else if r.slots ≤ r.count then .full else .ok

/-- An entry written at PI by the QM, which ends reservations on its block (R626, R659), and PI advanced (R589, R591). -/
def State.push (s : State) (id : Nat) (e : List PByte) : State :=
  let s := s.initMem 1
  let r := s.ring id
  ((s.writeMem (r.slotAddr r.pi) (entryBytes r.bytes e)).dropResv none (r.slotAddr r.pi) r.bytes).publish id (r.pi + 1)

/-- A hardware enqueue (R591): the entry is written and PI advanced as one step, or the enqueue is refused, and a full
ring records the refusal. -/
def State.enqueueP (s : State) (id : Nat) (e : List PByte) : EnqResult × State :=
  match s.enqTest id with
  | .ok => (.ok, s.push id e)
  | .full => (.full, s.setRing id { s.ring id with fullSeen := true })
  | .disabled => (.disabled, s)

/-- A hardware enqueue of clean bytes. -/
def State.enqueue (s : State) (id : Nat) (e : List Byte) : EnqResult × State := s.enqueueP id (clean e)

/-- An enqueue whose refusal its producer handles by trying again later; the state is all that is kept. -/
def State.post (s : State) (id : Nat) (e : List Byte) : State := (s.enqueue id e).2

/-- What an enqueue that its ring takes does in IDLE (R39). -/
def State.takenWake (s : State) (id : Nat) : State := if s.enqTest id = .ok then s.ringWake id else s

/-- What an enqueue does in IDLE: an accepted one is a doorbell, and any needs the CORE clock. -/
def State.enqWake (s : State) (id : Nat) : State := if s.enqTest id = .ok then s.ringWake id else s.leaveIdle

/-- The entry at a ring's head, if it has one: its bytes read through their code, CI advanced, and a poisoned entry that a
hardware consumer takes recorded (R604). A ring whose consumer is NONE or a core is read by firmware. -/
def State.dequeue (s : State) (id : Nat) : Option (List PByte) × State :=
  let s := s.initMem 1
  let r := s.ring id
  if r.en && decide (0 < r.count) then
    let (e, s) := State.readMem (r.slotAddr r.ci) r.bytes s
    let s := s.release id (r.ci + 1)
    if poisoned e && decide (3 ≤ r.consumer) then
      let s := s.setRing id { s.ring id with poisonSeen := true }
      let s := ((s.wr QM_POISON_INFO_RING id).wr QM_POISON_INFO_INDEX r.ci).inc QM_COUNT_POISON
      (some e, pulse 7 s)
    else (some e, s)
  else (none, s)

/-- The entry at a ring's head, as stored, with nothing advanced. -/
def State.headEntry (s : State) (id : Nat) : Option (List Byte) :=
  let r := s.ring id
  if r.en && decide (0 < r.count) then some (s.peekBytes (r.slotAddr r.ci) r.bytes) else none

/-- A QM_DOORBELL write (R586, R587); in IDLE the CORE clock returns first (R39). -/
def State.doorbell (s : State) (id pi : Nat) : State :=
  let r := s.ring id
  if r.en = false then s.leaveIdle.qmError 3 id pi
  else if (pi + 65536 - r.pi) % 65536 ≤ r.slots - r.count then (s.ringWake id).publish id pi
  else s.leaveIdle.qmError 1 id pi

/-- A QM_CONSUME write (R594). -/
def State.consume (s : State) (id ci : Nat) : State :=
  let r := s.ring id
  if r.en = false then s.qmError 3 id ci
  else if (ci + 65536 - r.ci) % 65536 ≤ r.count then s.release id ci
  else s.qmError 2 id ci

/-- The copy of a banked QM register that a requester sees: Core A, Core B or the debug transport. -/
def banked (f : Fld) (b : Nat) : Fld := { f with addr := f.addr + b * 2 ^ 36 }

/-- A staged enqueue (R589): the requester's QM_ENQ_DATA is copied into the ring, and its QM_ENQ_RESULT written. -/
def State.stagedEnqueue (s : State) (b id : Nat) : State :=
  let data := (List.range 8).flatMap (fun k => leBytes 4 (s.rd (banked (QM_ENQ_DATA_DATA k) b)))
  match s.enqTest id with
  | .ok => (s.push id (clean data)).wr (banked QM_ENQ_RESULT_RESULT b) 0
  | .full => s.wr (banked QM_ENQ_RESULT_RESULT b) 1
  | .disabled => s.wr (banked QM_ENQ_RESULT_RESULT b) 2

/-- A QM_RING_BASE write to a ring (R581). -/
def State.ringBaseWrite (s : State) (id w : Nat) : State :=
  let r := s.ring id
  let v := bitsOf w 6 13
  if v = r.base then s else if r.en then s.qmError 4 id 0 else s.setRing id { r with base := v }

/-- A QM_RING_CFG write to a ring (R14, R581, R582). -/
def State.ringCfgWrite (s : State) (id w : Nat) : State :=
  let r := s.ring id
  let sz := if 9 ≤ bitsOf w 0 4 then r.size else bitsOf w 0 4
  let es := bitsOf w 4 1
  let co := if agentReserved (bitsOf w 8 5) then r.consumer else bitsOf w 8 5
  let locked := r.en && !(decide (sz = r.size ∧ es = r.esize ∧ co = r.consumer))
  let r1 := if r.en then r else { r with size := sz, esize := es, consumer := co }
  let r2 := { r1 with
    precious := w.testBit 30, wakeEn := w.testBit 29, group := bitsOf w 24 4
    loEn := w.testBit 23, hiEn := w.testBit 22, neEn := w.testBit 21 }
  let s := if locked then s.qmError 4 id 0 else s
  let en := w.testBit 31
  if en && !r.en && decide (524288 < 64 * r2.base + r2.slots * r2.bytes) then (s.setRing id r2).qmError 6 id 0
  else if en && !r.en && !agentMay r2.consumer id then (s.setRing id r2).qmError 5 id 0
  else s.setRing id { r2 with en := en }

/-- A QM_RING_WM write to a ring: values above 4096 are reserved. -/
def State.ringWmWrite (s : State) (id w : Nat) : State :=
  let r := s.ring id
  let hi := bitsOf w 16 13
  let lo := bitsOf w 0 13
  s.setRing id { r with hiWm := if 4096 < hi then r.hiWm else hi, loWm := if 4096 < lo then r.loWm else lo }

/-- A write of 1 to a ring's POISON_SEEN, FULL_SEEN, LO_HIT or HI_HIT clears it. -/
def State.ringStatusWrite (s : State) (id w : Nat) : State :=
  let r := s.ring id
  s.setRing id { r with
    poisonSeen := r.poisonSeen && !w.testBit 21, fullSeen := r.fullSeen && !w.testBit 19
    loHit := r.loHit && !w.testBit 18, hiHit := r.hiHit && !w.testBit 17 }

/-- QM_RING_CMD RESET (R618). -/
def State.ringReset (s : State) (id : Nat) : State :=
  let r := s.ring id
  if r.en then s.qmError 7 id 0
  else s.setRing id { r with pi := 0, ci := 0, hiHit := false, loHit := false, fullSeen := false,
                             poisonSeen := false, latch := false }

/-- Every ring changed. -/
def State.mapRings (s : State) (g : Nat → Ring → Ring) : State :=
  s.rings.foldl (fun t e => t.setRing e.1 (g e.1 e.2)) s

/-- R80: the held doorbells of a domain's consumers are presented and their latches clear. -/
def State.presentHeld (s : State) (d : Nat) : State :=
  s.mapRings (fun _ r => if agentDomain r.consumer = d then { r with latch := false } else r)

/-- A written descriptor's wake-enable bit copied into PD_AON (R81); a changed bit that is still crossing is copied when
its write completes (R601). -/
def State.copyWake (s : State) (id : Nat) : State :=
  if s.pw.aonRing = some id then s else s.setRing id { s.ring id with wakeCopy := (s.ring id).wakeEn }

/-- The crossing of a changed wake-enable bit ends: the PD_AON copy takes its new value (R601). -/
def State.syncWake (s : State) : State :=
  match s.pw.aonRing with
  | some id => (s.modPw (fun p => { p with aonRing := none })).copyWake id
  | none => s

/-- The words of the selected ring that QM_RING_BASE to QM_RING_STATUS show. -/
def Ring.word (r : Ring) (off : Nat) : Nat :=
  if off = 0x10 then r.base * 64
  else if off = 0x14 then
    b2n r.en * 2 ^ 31 + b2n r.precious * 2 ^ 30 + b2n r.wakeEn * 2 ^ 29 + r.group * 2 ^ 24 + b2n r.loEn * 2 ^ 23
      + b2n r.hiEn * 2 ^ 22 + b2n r.neEn * 2 ^ 21 + r.consumer * 256 + r.esize * 16 + r.size
  else if off = 0x18 then r.hiWm * 65536 + r.loWm
  else if off = 0x1C then r.ci * 65536 + r.pi
  else b2n r.poisonSeen * 2 ^ 21 + b2n r.latch * 2 ^ 20 + b2n r.fullSeen * 2 ^ 19 + b2n r.loHit * 2 ^ 18
    + b2n r.hiHit * 2 ^ 17 + b2n (decide (0 < r.count)) * 2 ^ 16 + r.count

end Sys2Proof.Machine
end

