-- ==== Sys2Proof/Machine/DramPath.lean ====
section
/-! DEFINITION. The memory path below the Line Cache: the Buffer Cipher and integrity logic (R719 to R726, R731, R734 to
R751). A line is named by its offset divided by 64. -/

namespace Sys2Proof.Machine
open Sys2Proof

/-- Where a line's data lies. -/
def lineAddr (l : Nat) : Nat := 0x80000000 + 64 * l

/-- Where a line's side record lies. -/
def sideAddr (l : Nat) : Nat := 0xB8000000 + 8 * l

/-- Where a region's major counter lies (R735). -/
def majorAddr (x : Nat) : Nat := 0xBF000000 + 8 * x

/-- A region's major counter. -/
def State.major (s : State) (x : Nat) : Nat := leVal (s.peekBytes (majorAddr x) 8)

/-- A region's major counter set. -/
def State.setMajor (s : State) (x m : Nat) : State := s.pokeBytes (majorAddr x) (leBytes 8 m)

/-- A line's side record. -/
def State.side (s : State) (l : Nat) : Nat := leVal (s.peekBytes (sideAddr l) 8)

/-- Whether the Buffer Cipher is enabled in a line's window (R734, R739). -/
def State.windowOn (s : State) (l : Nat) : Bool :=
  s.bit BC_CTRL_WINDOW_EN (l / 2 ^ 20) && !s.flag BC_STATUS_KEY_FAIL

/-- The key of region `x` under major counter `m` (R741). -/
def State.regionKey (s : State) (x m : Nat) : List Byte := kdf s.cip.master "BCR" (beBytes 4 x ++ beBytes 8 m)

/-- The IV of a line under a minor counter (R742). -/
def lineIv (l n : Nat) : List Byte := beBytes 4 l ++ beBytes 2 n ++ zerosB 6

/-- A line encrypted or decrypted under its region key and minor counter (R742). -/
def State.lineCrypt (s : State) (l m n : Nat) (d : List Byte) : List Byte :=
  xorB d (gcmStream (aesRoundKeys (s.regionKey (l / 64) m)) (lineIv l n) 4)

/-- The 48-bit MAC of a line's ciphertext: the first six tag bytes, byte 0 highest (R742). -/
def State.lineMac (s : State) (l m n : Nat) (ct : List Byte) : Nat :=
  beVal (sliceB (gcmTag (aesRoundKeys (s.regionKey (l / 64) m)) (lineIv l n) ct) 0 6)

/-- The CRC of a line where the cipher is off (R720). -/
def lineCrc (l : Nat) (d : List Byte) : Nat := crc48 (leBytes 8 (64 * l) ++ d)

/-- A region's key taken into the key cache of 64 (R743). -/
def State.keyUse (s : State) (x m : Nat) : State :=
  { s with cip := { s.cip with keyCache := ((x, m) :: s.cip.keyCache.filter (fun e => e.1 != x)).take 64 } }

/-- A line and its side record stored as one step (R721): under major `m` and minor `n` where the cipher is on; a
poisoned line with the MAC or CRC inverted (R724); an armed injection for the Buffer DRAM applied (R731). -/
def State.putLine (s : State) (l m n : Nat) (d : List Byte) (poison : Bool) : State :=
  let on := s.windowOn l
  let s := if on then s.keyUse (l / 64) m else s
  let st := if on then s.lineCrypt l m n d else d
  let mac := if on then s.lineMac l m n st else lineCrc l d
  let mac := if poison then mac ^^^ (2 ^ 48 - 1) else mac
  let side := (if on then n * 2 ^ 48 else 0) + mac
  let hit := s.flag INT_INJECT_ARM && s.rd INT_INJECT_MEM == 13
  let side := if hit then side ^^^ s.rd INT_INJECT_FLIP else side
  let s := if hit then s.down INT_INJECT_ARM else s
  (s.pokeBytes (lineAddr l) st).pokeBytes (sideAddr l) (leBytes 8 side)

/-- What the check of a stored line finds: the plain bytes, and the cause of the failure (0: it passes, 2: the side
record of R724, 1: any other). -/
def State.checkLine (s : State) (l : Nat) : List Byte × Nat :=
  let m := s.major (l / 64)
  let st := s.peekBytes (lineAddr l) 64
  let sd := s.side l
  let n := sd / 2 ^ 48
  let got := sd % 2 ^ 48
  let on := s.windowOn l
  let d := if on then s.lineCrypt l m n st else st
  let want := if on then s.lineMac l m n st else lineCrc l st
  let bad := if on then false else n != 0
  (d, if got = want ∧ bad = false then 0 else if got = want ^^^ (2 ^ 48 - 1) then 2 else 1)

/-- A failed line: counted, FAIL set, and captured in a free entry with its cause and requester, or CAP_LOST set where
there is none (R723, R733). -/
def State.dramFail (s : State) (l cause req : Nat) : State :=
  let s := (s.inc INT_DRAM_COUNT_FAIL).up INT_DRAM_STATUS_FAIL
  match lowestIdx 4 (fun k => !s.flag (INT_DRAM_CAP1_VALID k)) with
  | none => s.up INT_DRAM_STATUS_CAP_LOST
  | some k =>
    let n := s.capsOf 13
    { (((((s.wr (INT_DRAM_CAP0_ADDR k) (lineAddr l / 64)).up (INT_DRAM_CAP1_VALID k)).wr (INT_DRAM_CAP1_CAUSE k)
        cause).wr (INT_DRAM_CAP1_SEQ k) ((n + 1) % 256)).wr (INT_DRAM_CAP1_REQ_ID k) req)
      with caps := smSet (fun _ => 0) 13 (n + 1) s.caps }

/-- R737: the region table zeroed and INIT_DONE set. -/
def State.regionTableInit (s : State) : State := (s.wipe 0xBF000000 0xBF1C0000).up BC_STATUS_INIT_DONE

/-- The MEM PLL's lock returned, where it was lost (R48). -/
def State.memClock (s : State) : State :=
  if s.pw.lostLock.getLsbD 2 then
    (s.modPw (fun p => { p with lostLock := p.lostLock &&& ~~~4#5 })).put CLK_STATUS_MEM_LOCK (s.on 11)
  else s

/-- A data-area access stalls while the MEM PLL has lost its lock (R48), and until INIT_DONE is 1; the access ends that wait
first (log entry 7). -/
def State.memReady (s : State) : State :=
  let s := s.memClock
  if s.flag BC_STATUS_INIT_DONE then s else s.regionTableInit

/-- R745: an unwritten region initialised, its 64 lines zero under major counter 1. -/
def State.initRegion (s : State) (x : Nat) : State :=
  let t := s.setMajor x 1
  let t := (List.range 64).foldl (fun t i => t.putLine (64 * x + i) 1 0 (zerosB 64) false) t
  t.inc BC_COUNT_INIT

/-- One line of a re-encryption from major `m` to `m + 1` (R747, R750). -/
def State.reencLine (s : State) (x m : Nat) (i : Nat) : State :=
  let l := 64 * x + i
  let (d, c) := s.checkLine l
  let s := if c = 0 then s else s.dramFail l 2 17
  s.putLine l (m + 1) 0 d (c != 0)

/-- The 64 lines of a region re-encrypted in order. Each line is checked under the old counter, which the table still
holds, and the table takes the new counter at the end. -/
def State.reencRegion (s : State) (x : Nat) : State :=
  let m := s.major x
  let s := (List.range 64).foldl (fun t i => t.reencLine x m i) s
  s.setMajor x (m + 1)

/-- The re-encryption under way ends (R747, R751): its triggering write is performed with minor counter 1, REKEY counts
and BC_REKEY is raised. -/
def State.finishReenc (s : State) : State :=
  match s.cip.reenc with
  | none => s
  | some r =>
    let s := s.reencRegion r.region
    let s := match r.write with
      | some (l, d, _) => s.putLine l (s.major r.region) 1 (bits d) (poisoned d)
      | none => s
    let s := (s.inc BC_COUNT_REKEY).down BC_STATUS_REKEY_BUSY
    pulse 108 { s with cip := { s.cip with reenc := none } }

/-- A re-encryption starts, or waits behind the one under way (R749). -/
def State.startReenc (s : State) (r : Reenc) : State :=
  match s.cip.reenc with
  | none =>
    let s := (s.up BC_STATUS_REKEY_BUSY).wr BC_STATUS_REKEY_REGION r.region
    { s with cip := { s.cip with reenc := some r } }
  | some _ => { s with cip := { s.cip with reencWait := s.cip.reencWait ++ [r] } }

/-- A line write whose region is neither unwritten nor under re-encryption: stored with the next minor counter, or the
start of a re-encryption where the counter is exhausted (R744, R747). -/
def State.writeReady (s : State) (l : Nat) (d : List PByte) (req : Nat) : State :=
  if s.windowOn l then
    let n := s.side l / 2 ^ 48
    if n = 0xFFFF then s.startReenc { region := l / 64, write := some (l, d, req) }
    else s.putLine l (s.major (l / 64)) (n + 1) (bits d) (poisoned d)
  else s.putLine l (s.major (l / 64)) 0 (bits d) (poisoned d)

/-- The re-encryption under way ended, and the next waiting one started on the region as it now is. -/
def State.nextReenc (s : State) : State :=
  let s := s.finishReenc
  match s.cip.reencWait with
  | [] => s
  | r :: rs =>
    let s := { s with cip := { s.cip with reencWait := rs } }
    match r.write with
    | some (l, d, q) => s.writeReady l d q
    | none => if s.major r.region = 0 then s else s.startReenc r

/-- Every re-encryption under way or waiting ended, by number. -/
def State.finishAll : Nat → State → State
  | 0, s => s
  | n + 1, s => State.finishAll n s.nextReenc

/-- Whether a region is under re-encryption or waits for one. -/
def State.rekeying (s : State) (x : Nat) : Bool :=
  (match s.cip.reenc with | some r => r.region == x | none => false) || s.cip.reencWait.any (fun r => r.region == x)

/-- Accesses to a region under re-encryption stall until it ends (R748); the access ends that wait first (log entry
7). -/
def State.regionReady (s : State) (x : Nat) : State :=
  let s := s.memReady
  if s.rekeying x then State.finishAll (s.cip.reencWait.length + 1) s else s

/-- A line write (R721, R744, R745, R747). -/
def State.lineWrite (s : State) (l : Nat) (d : List PByte) (req : Nat) : State :=
  let s := s.regionReady (l / 64)
  let s := if s.major (l / 64) = 0 then s.initRegion (l / 64) else s
  s.writeReady l d req

/-- A line read (R721 to R723, R736): zeros from an unwritten region; a failing line is delivered poisoned. A retry
of R722 reads the same stored line, so here it fails again. -/
def State.lineRead (s : State) (l req : Nat) : List PByte × State :=
  let s := s.regionReady (l / 64)
  if s.major (l / 64) = 0 then (clean (zerosB 64), s)
  else
    let s := if s.windowOn l then s.keyUse (l / 64) (s.major (l / 64)) else s
    let (d, c) := s.checkLine l
    if c = 0 then (clean d, s) else (d.map (fun b => (b, true)), s.dramFail l c req)

/-- Bytes laid over a line. -/
def overlay (base : List PByte) (top : List (Option PByte)) : List PByte :=
  List.zipWith (fun b t => t.getD b) base top

/-- The indivisible read-merge-write of a partial entry (R672, R725). -/
def State.mergeWrite (s : State) (l : Nat) (top : List (Option PByte)) (req : Nat) : State :=
  let s := s.regionReady (l / 64)
  if s.major (l / 64) = 0 then s.lineWrite l (overlay (clean (zerosB 64)) top) req
  else
    let (d, c) := s.checkLine l
    if c = 0 then s.lineWrite l (overlay (clean d) top) req
    else
      let s := s.dramFail l 3 17
      s.lineWrite l (overlay (d.map (fun b => (b, true))) (top.map (fun t => t.map (fun b => (b.1, true))))) req

end Sys2Proof.Machine
end

