-- ==== Sys2Proof/Machine/Cache.lean ====
section
/-! DEFINITION. The Line Cache's lookup, fills, write-combining buffer and streaming detector (R660 to R682, R693 to
R698, R702), over lines named by their offset divided by 64. -/

namespace Sys2Proof.Machine
open Sys2Proof

/-- The requester class of a master (Table 15.1). -/
def lcClass (req : Nat) (instr : Bool) : Nat :=
  if req = 0 then (if instr then 0 else 1)
  else if req = 1 then (if instr then 2 else 3)
  else if 3 ≤ req ∧ req ≤ 5 then 4
  else if 6 ≤ req ∧ req ≤ 13 then 5
  else if req = 14 ∨ req = 15 then 6
  else 7

/-- A way of a set, by one number. -/
def wayIdx (set w : Nat) : Nat := set * 16 + w

/-- What a way holds. -/
def State.way (s : State) (i : Nat) : Line := smGet (fun _ => {}) i s.lc.lines

/-- A way changed. -/
def State.setWay (s : State) (i : Nat) (w : Line) : State :=
  { s with lc := { s.lc with lines := smSet (fun _ => {}) i w s.lc.lines } }

/-- The set of a line (R661). -/
def lineSet (l : Nat) : Nat := l % 512

/-- The tag of a line (R661). -/
def lineTag (l : Nat) : Nat := l / 512

/-- The line that a way holds. -/
def heldLine (i : Nat) (w : Line) : Nat := w.tag * 512 + i / 16

/-- The valid way that holds a line, if one does. -/
def State.findWay (s : State) (l : Nat) : Option Nat :=
  (lowestIdx 16 (fun w => (s.way (wayIdx (lineSet l) w)).valid && (s.way (wayIdx (lineSet l) w)).tag == lineTag l)).map
    (wayIdx (lineSet l))

/-- R681: one update of the streaming detector. -/
def State.streamUpdate (s : State) : State :=
  let frac := if s.lc.outcomes = 0 then 0 else s.lc.regret * 256 / s.lc.outcomes
  let k : Int := s.rd LC_STREAM_STATUS_K
  let lo : Int := s.rd LC_STREAM_ENV_K_MIN
  let hi : Int := max (s.rd LC_STREAM_ENV_K_MIN) (s.rd LC_STREAM_ENV_K_MAX)
  let want := if s.rd LC_STREAM_CFG_HI_R < frac then k + 1 else if frac < s.rd LC_STREAM_CFG_LO_R then k - 1 else k
  let pin := s.flag LC_STREAM_ENV_PIN_EN
  let sat := !pin && (decide (want < lo) || decide (hi < want))
  let k' := (clampInt lo hi want).toNat
  let (t, raise) := s.lc.sat.update sat (s.rd LC_STREAM_CFG_DWELL)
  let s := { s with lc := { s.lc with regret := 0, outcomes := 0, sat := t } }
  let s := ((s.wr LC_STREAM_STATUS_K k').wr LC_STREAM_STATUS_EFF_K
    (if pin then s.rd LC_STREAM_ENV_PIN_K else k')).put LC_STREAM_STATUS_SATURATED sat
  if raise then (s.up LC_EVENT_STREAM_SAT).up SYS_LOOP_SAT_LC_STREAM else s

/-- The detector updates when outcomes reaches 256. -/
def State.streamDue (s : State) : State := if 256 ≤ s.lc.outcomes then s.streamUpdate else s

/-- An outcome of a streamed line counted, with the update that the 256th brings (R681). -/
def State.outcome (s : State) : State := ({ s with lc := { s.lc with outcomes := s.lc.outcomes + 1 } }).streamDue

/-- A way made invalid, its NRU and STRM bits cleared and its lock kept (R687), its state written with fresh check bits (R706);
a line with STRM counts one outcome. -/
def State.dropWay (s : State) (i : Nat) : State :=
  let w := s.way i
  let s := (s.setWay i { lock := w.lock }).writeEcc 1 (i * 512) false
  if w.valid && w.strm then s.outcome else s

/-- The errors of a set's tags, found as they are read: a correctable one is counted, an uncorrectable one makes the
line invalid (R698). -/
def State.checkTags (s : State) (set : Nat) : State :=
  (List.range 16).foldl
    (fun s w =>
      let i := wayIdx set w
      let e := s.eccOf 1 (i * 512)
      match eccClass e with
      | .clean => s
      | .corr => s.eccNote 1 (i * 512) e
      | .uncorr =>
        let locked := (s.way i).lock
        let s := (s.eccNote 1 (i * 512) e).inc LC_COUNT_UNCORR_TAG
        let s := s.dropWay i
        if locked && !s.flag LC_EVENT_LOCK_LOST then
          ((s.up LC_EVENT_LOCK_LOST).wr LC_LOCK_LOST_AT_SET set).wr LC_LOCK_LOST_AT_WAY w
        else s)
    s

/-- A way that holds a line, its set's tags read through their code first (R698). -/
def State.seek (s : State) (l : Nat) : Option Nat × State :=
  let s := s.checkTags (lineSet l)
  (s.findWay l, s)

/-- R680: a read miss of a class, and whether it is streaming. A miss through the uncached window starts a run anew, as any
but a data-area miss of the next line does. -/
def State.trackMiss (s : State) (c : Fin 8) (l : Nat) (unc : Bool) : Bool × State :=
  if s.bit LC_STREAM_CFG_CLASS_EN c then
    let t := s.lc.trackers[c]
    let run := if !unc && decide (t.last = some (l - 1) ∧ 0 < l) then min 63 (t.run + 1) else 1
    (decide (s.rd LC_STREAM_STATUS_EFF_K ≤ run),
      { s with lc := { s.lc with trackers := s.lc.trackers.set c { last := some l, run := run } } })
  else (false, s)

/-- What a lookup answers. -/
inductive Lookup
  | hit (way : Nat)
  | noFill
  | bypass
  | fill (way : Nat)
  deriving DecidableEq, Repr

/-- Whether the Line Cache works as a cache: enabled and initialised (R693, R694). -/
def State.lcOn (s : State) : Bool := s.flag LC_CTRL_ENABLE && s.flag LC_STATUS_INIT_DONE

/-- The ageing of a set at a lookup (R678). -/
def State.age (s : State) (set : Nat) : State :=
  let p := s.rd LC_CTRL_AGE_PERIOD
  if p = 0 then s
  else
    let a := smGet (fun _ => 0) set s.lc.acc + 1
    if p ≤ a then
      let s := (List.range 16).foldl
        (fun s w => s.setWay (wayIdx set w) { s.way (wayIdx set w) with nru := false }) s
      { s with lc := { s.lc with acc := smSet (fun _ => 0) set 0 s.lc.acc } }
    else { s with lc := { s.lc with acc := smSet (fun _ => 0) set a s.lc.acc } }

/-- The candidate ways of a read of a class (R664, R683). -/
def State.candidate (s : State) (set c w : Nat) : Bool :=
  s.bit (LC_CLASS_MASK_MASK c) w && !(s.way (wayIdx set w)).lock

/-- The fill in flight of a way that waits for its bytes. -/
def State.fillOf (s : State) (i l : Nat) : Option Nat := s.lc.fills.findIdx? (fun f => f.line == l && f.way == some i)

/-- The victim of R678 among the candidates, whose lowest is `first`: NRU bits are cleared where none is 0. -/
def State.victim (s : State) (set : Nat) (cand : Nat → Bool) (first : Nat) : Nat × State :=
  match lowestIdx 16 (fun w => cand w && !(s.way (wayIdx set w)).valid) with
  | some v => (v, s)
  | none =>
    match lowestIdx 16 (fun w => cand w && !(s.way (wayIdx set w)).nru) with
    | some v => (v, s)
    | none =>
      (first, (List.range 16).foldl
        (fun t w => if cand w then t.setWay (wayIdx set w) { t.way (wayIdx set w) with nru := false } else t) s)

/-- A way taken for a line whose bytes are to come: tag and state are set, and the tag has fresh check bits. -/
def State.takeWay (s : State) (i l : Nat) (nru strm : Bool) : State :=
  (s.setWay i { valid := true, tag := lineTag l, nru := nru, strm := strm, lock := (s.way i).lock, pend := true }).writeEcc
    1 (i * 512) false

/-- The procedure of R678 for a line, a class, and whether the access writes or carries the STREAM hint. -/
def State.lookup (s : State) (l : Nat) (c : Fin 8) (write hint : Bool) : Lookup × State :=
  let set := lineSet l
  let s := (s.checkTags set).age set
  match s.findWay l with
  | some i =>
    let w := s.way i
    let s := s.setWay i { w with nru := w.nru || !hint, strm := false }
    (.hit i, if w.strm then ({ s with lc := { s.lc with regret := s.lc.regret + 1 } }).outcome else s)
  | none =>
    if write then (.noFill, s)
    else
      let (streaming, s) := s.trackMiss c l false
      let cand := fun w => s.candidate set c w
      match lowestIdx 16 cand with
      | none => (.bypass, s)
      | some first =>
        let (v, s) := s.victim set cand first
        let i := wayIdx set v
        let s := if (s.way i).valid && (s.way i).strm then s.outcome else s
        (.fill i, s.takeWay i l (!(hint || streaming)) (streaming && !hint))

/-- The bytes of a way's line, with fresh check bits. -/
def State.fillData (s : State) (i : Nat) (d : List PByte) : State :=
  (List.range 64).foldl (fun s b => s.writeEcc 0 (i * 512 + b) false) (s.setWay i { s.way i with pend := false, data := d })

/-- Bytes of a way's line written, the check bits of each with it (R666, R706). -/
def State.writeWay (s : State) (i : Nat) (top : List (Option PByte)) : State :=
  let s := s.setWay i { s.way i with data := overlay (s.way i).data top }
  ((List.range 64).filter (fun b => (top.getD b none).isSome)).foldl (fun s b => s.writeEcc 0 (i * 512 + b) false) s

/-- The bytes of a valid way read through their code, with the errors met noted; none where one is uncorrectable, which counts
(R697). -/
def State.wayBytes (s : State) (i : Nat) : Option (List PByte) × State :=
  let w := s.way i
  let errs := (List.range 64).filter (fun b => s.eccOf 0 (i * 512 + b) != 0)
  let t := errs.foldl (fun s b => s.eccNote 0 (i * 512 + b) (s.eccOf 0 (i * 512 + b))) s
  if errs.any (fun b => eccClass (s.eccOf 0 (i * 512 + b)) == .uncorr) then (none, t.inc LC_COUNT_UNCORR_DATA)
  else
    (some ((List.range 64).map (fun b =>
      let p := w.data.getD b (0, false)
      (p.1 ^^^ eccFlip (s.eccOf 0 (i * 512 + b)), p.2))), t)

/-- The bytes of the write-combining entries of a line laid over it, in their order. -/
def State.pendingOver (s : State) (l : Nat) (d : List PByte) : List PByte :=
  (s.lc.wcb.filter (fun e => e.line == l)).foldl (fun d e => overlay d e.bytes) d

/-- The cached line that a partial entry is written from (R672): its bytes, which hold the entry's. One with an uncorrectable error
is fetched anew, the entry's bytes and those of later entries laid over it (R697); it is dropped where that fails. None
where the DRAM's line is to be merged instead. -/
def State.drainSource (s : State) (i : Nat) (e : Wcb) : Option (List PByte) × State :=
  match s.wayBytes i with
  | (some d, s) => (some d, s)
  | (none, s) =>
    let (d, s) := s.lineRead e.line e.req
    if poisoned d then (none, s.dropWay i)
    else (some (overlay d e.bytes), s.fillData i (s.pendingOver e.line (overlay d e.bytes)))

/-- One entry of the write-combining buffer written to the DRAM (R672): the whole line, the cached line that holds its
bytes, or a read-merge-write. A poisoned drain invalidates the cached copy. -/
def State.drainWrite (s : State) (e : Wcb) : State :=
  if e.sent then s else
  let bad := e.bytes.any (fun b => match b with | some p => p.2 | none => false)
  let (found, s) := if s.lcOn then s.seek e.line else (none, s)
  let inCache := found.filter (fun i => !(s.way i).pend)
  let s :=
    if e.bytes.all Option.isSome then s.lineWrite e.line (e.bytes.map (fun b => b.getD (0, false))) e.req
    else
      match inCache with
      | some i =>
        match s.drainSource i e with
        | (some d, s) => s.lineWrite e.line d e.req
        | (none, s) => s.mergeWrite e.line e.bytes e.req
      | none => s.mergeWrite e.line e.bytes e.req
  match bad, found with
  | true, some i => s.dropWay i
  | _, _ => s

/-- The entries that meet a test drained in the order they were taken (R671), and freed. -/
def State.drainIf (s : State) (p : Wcb → Bool) : State :=
  let out := s.lc.wcb.filter p
  let s := { s with lc := { s.lc with wcb := s.lc.wcb.filter (fun e => !p e) } }
  out.foldl State.drainWrite s

/-- R673: the entries of a line drained. -/
def State.drainLine (s : State) (l : Nat) : State := s.drainIf (fun e => e.line == l)

/-- The bytes of a valid way read through their code; an uncorrectable error refetches the line into its way, after R673 (R697). -/
def State.readWay (s : State) (i : Nat) (req : Nat) : List PByte × State :=
  let l := heldLine i (s.way i)
  match s.wayBytes i with
  | (some d, s) => (d, s)
  | (none, s) =>
    let (d, s) := (s.drainLine l).lineRead l req
    if poisoned d then (d, s.dropWay i) else (d, s.fillData i d)

/-- A fill in flight ends (R696, R702): the line is read, the writes accepted meanwhile are laid over it, and it is
kept unless it is poisoned or its way has been taken from it. A fill whose line was taken already only delivers it. -/
def State.endFill (s : State) (f : FillReq) : List PByte × State :=
  match f.got with
  | some d => (d, s)
  | none =>
    let (d, s) := s.lineRead f.line f.req
    let d' := f.late.foldl (fun d e => d.set e.1 e.2) d
    match f.way with
    | none => (d', s)
    | some i =>
      let w := s.way i
      if !(w.valid && w.pend && w.tag == lineTag f.line) then (d', s)
      else if poisoned d then (d', s.setWay i { lock := w.lock })
      else (d', s.fillData i d')

/-- A read that waits for a fill in flight, served with it (R703). -/
def State.joinFill (s : State) (k : Nat) (r : Nat × Nat × Nat) : State :=
  { s with lc := { s.lc with fills := s.lc.fills.modify k (fun (x : FillReq) => { x with more := x.more ++ [r] }) } }

/-- A read of a line: a hit's bytes, or the number of the fill in flight that serves it (R663 to R665, R678, R694). A read that
finds its line waiting for its bytes waits with it. Whether it came in the same CORE cycle as the miss, so that it is a miss
too (R703), or later, so that it is a hit of R678, is a free value (log entries 3 and 26). An uncached read neither
allocates nor ages. -/
def State.beginRead (s : State) (req : Nat) (instr uncached hint : Bool) (l addr len : Nat) :
    Sum (List PByte) Nat × State :=
  let start (s : State) (way : Option Nat) : Sum (List PByte) Nat × State :=
    let s := s.drainLine l
    (.inr s.lc.fills.length, { s with lc := { s.lc with
      fills := s.lc.fills ++ [{ line := l, way := way, req := req, addr := addr, len := len, late := [] }] } })
  let serve (s : State) (i : Nat) : Sum (List PByte) Nat × State :=
    match if (s.way i).pend then s.fillOf i l else none with
    | some k => (.inr k, s.joinFill k (req, addr, len))
    | none =>
      let (d, s) := s.readWay i req
      (.inl d, s)
  let c := fin8 (lcClass req instr)
  if s.lcOn = false then start s none
  else if uncached then
    match s.seek l with
    | (some i, s) => serve s i
    | (none, s) => start (s.trackMiss c l true).2 none
  else
    let waits := (s.findWay l).any (fun i => (s.way i).pend)
    match s.lookup l c false hint with
    | (.hit i, s) =>
      if waits then
        let (n, s) := s.draw
        if n.testBit 0 then serve ((s.trackMiss c l false).2.inc LC_COUNT_MISS_COUNT) i
        else serve (s.inc LC_COUNT_HIT_COUNT) i
      else serve (s.inc LC_COUNT_HIT_COUNT) i
    | (.fill i, s) => start (s.inc LC_COUNT_MISS_COUNT) (some i)
    | (_, s) => start ((s.inc LC_COUNT_MISS_COUNT).inc LC_COUNT_BYPASS_COUNT) none

/-- A read of a line carried to its end at once. Where it joined a fill, that fill's line is read now, and the fill stays
in flight for the reads before it. -/
def State.readLine (s : State) (req : Nat) (instr uncached hint : Bool) (l : Nat) : List PByte × State :=
  match s.beginRead req instr uncached hint l (lineAddr l) 64 with
  | (.inl d, s) => (d, s)
  | (.inr k, s) =>
    match s.lc.fills[k]? with
    | none => ([], s)
    | some f =>
      let (d, s) := s.endFill f
      let rest : List FillReq :=
        if f.more = [] then s.lc.fills.eraseIdx k
        else s.lc.fills.set k { f with way := none, more := f.more.dropLast, got := some d }
      (d, { s with lc := { s.lc with fills := rest } })

/-- Bytes of a write laid at their places in a line. -/
def atOffset (off : Nat) (d : List PByte) : List (Option PByte) :=
  (List.range 64).map (fun i => if off ≤ i ∧ i < off + d.length then d[i - off]? else none)

/-- The youngest entry of a line that is not draining. -/
def State.openEntry (s : State) (l : Nat) : Option Nat :=
  ((List.range s.lc.wcb.length).reverse).find? (fun k =>
    match s.lc.wcb[k]? with | some e => e.line == l && !e.draining | none => false)

/-- A write accepted into the write-combining buffer (R668, R670). A writer that finds no free entry waits while the
oldest drains; the stalled cycles are a free value. -/
def State.wcbAccept (s : State) (l req : Nat) (top : List (Option PByte)) : State :=
  let full (b : List (Option PByte)) : Bool := b.all Option.isSome
  match s.openEntry l with
  | some k =>
    let wcb := s.lc.wcb.modify k (fun e =>
      let b := List.zipWith (fun o t => t.or o) e.bytes top
      { e with bytes := b, draining := full b })
    { s with lc := { s.lc with wcb := wcb } }
  | none =>
    let s :=
      if s.lc.wcb.length < 16 then s
      else
        let (n, s) := s.draw
        let s := s.add LC_COUNT_WCB_STALL_COUNT (n + 1)
        match s.lc.wcb with
        | [] => s
        | e :: es => ({ s with lc := { s.lc with wcb := es } }).drainWrite e
    { s with lc := { s.lc with wcb := s.lc.wcb ++ [{ line := l, bytes := top, req := req, draining := full top, sent := false }] } }

/-- Bytes of a line that the cache takes with a write: into the line where it is valid (R666), and over every fill of it in flight
when that ends (R702). -/
def State.cacheWrite (s : State) (l : Nat) (top : List (Option PByte)) : State :=
  let (found, s) := if s.lcOn then s.seek l else (none, s)
  let s := match found with
    | some i => if (s.way i).pend then s else s.writeWay i top
    | none => s
  let late := (List.range 64).filterMap (fun b => (top.getD b none).map (fun p => (b, p)))
  { s with lc := { s.lc with
    fills := s.lc.fills.map (fun (f : FillReq) => if f.line = l then { f with late := f.late ++ late } else f) } }

/-- A write of bytes inside a line (R666, R668, R702). -/
def State.writeLine (s : State) (req : Nat) (uncached hint : Bool) (l off : Nat) (d : List PByte) : State :=
  let top := atOffset off d
  let s := if s.lcOn && !uncached then (s.lookup l (fin8 (lcClass req false)) true hint).2 else s
  (s.cacheWrite l top).wcbAccept l req top

/-- R691: the fills of a line in flight brought to their ends; their reads are served by LC_FILL_DONE. -/
def State.awaitFills (s : State) (l : Nat) : State :=
  (List.range s.lc.fills.length).foldl (fun (s : State) k =>
    match s.lc.fills[k]? with
    | none => s
    | some f =>
      if f.line ≠ l then s
      else
        let (d, s) := s.endFill f
        { s with lc := { s.lc with fills := s.lc.fills.set k { f with way := none, got := some d } } }) s

/-- An access to the Buffer DRAM cut at line boundaries: (line, offset in it, length) from an offset on. -/
def linePieces : Nat → Nat → Nat → List (Nat × Nat × Nat)
  | 0, _, _ => []
  | f + 1, a, n =>
    if n = 0 then []
    else
      let k := min n (64 - a % 64)
      (a / 64, a % 64, k) :: linePieces f (a + k) (n - k)

/-- Every entry drained (R670). -/
def State.drainAll (s : State) : State := s.drainIf (fun _ => true)

/-- Every line invalid (R690), the lock bits kept or cleared, each with fresh check bits; each streamed line counts its outcome
in turn (R681). -/
def State.dropAllWays (s : State) (keepLocks : Bool) : State :=
  let n := (s.lc.lines.filter (fun e => e.2.valid && e.2.strm)).length
  let s := { s.wipeEcc 1 with lc := { s.lc with
    lines := if keepLocks then
        s.lc.lines.filterMap (fun e => if e.2.lock then some (e.1, { lock := true }) else none)
      else [] } }
  (List.range n).foldl (fun (s : State) _ => s.outcome) s

end Sys2Proof.Machine
end

