-- ==== Sys2Proof/Machine/Fabric.lean ====
section
/-! DEFINITION. The fabric (Tables 14.1 and 14.3): what each master may reach, the Protected Ranges (R757 to R761),
SYS_BUS_ERR (R1068), reservations (R626), and reads and writes of memory by a master. Register pages are left to the
register operations of the later files. -/

namespace Sys2Proof.Machine
open Sys2Proof

/-- Whether a master may reach a region at an address (Table 14.3). -/
def mayReach (req a : Nat) : Bool :=
  match regionAt a with
  | .unmapped => false
  | .metadata => req == 17
  | .dram => decide (req ≤ 17)
  | .uncachedWin => decide (req ≤ 17)
  | .ownItcm => decide (req ≤ 1)
  | .ownDtcm => decide (req ≤ 1)
  | .mram =>
    decide (req ≤ 2) || (req == 16 && decide (0x100F0000 ≤ a ∧ a < 0x100F4000))
      || (req == 18 && decide (0x100C0000 ≤ a ∧ a < 0x100E0000))
  | .ringSram => decide (req ≤ 2) || req == 19
  | _ => decide (req ≤ 2)

/-- The type of error that an access ends with before it reaches anything (R1068): 0 none, 1 unmapped, 2 outside reach.
The metadata area counts as unmapped for every master but the integrity logic. -/
def busErrType (req a : Nat) (write : Bool) : Nat :=
  match regionAt a with
  | .unmapped => 1
  | .metadata => if req = 17 then 0 else 1
  | .rom => if write ∨ mayReach req a = false then 2 else 0
  | _ => if mayReach req a then 0 else 2

/-- The same line offset in the other view of the Buffer DRAM (R757). -/
def mirror (a : Nat) : Nat :=
  match regionAt a with
  | .dram => a + 0x40000000
  | .uncachedWin => a - 0x40000000
  | _ => a

/-- Whether Protected Range `i` covers an address (R757). -/
def State.rangeCovers (s : State) (i a : Nat) : Bool :=
  let b := s.rd (PROT_BASE_BASE i) * 4096
  let e := s.rd (PROT_LIMIT_LIMIT i) * 4096 + 4095
  (decide (b ≤ a ∧ a ≤ e)) || (decide (b ≤ mirror a ∧ mirror a ≤ e))

/-- The lowest range that blocks an access (R759). -/
def State.blockedBy (s : State) (req : Nat) (dbg : Bool) (a : Nat) : Option Nat :=
  lowestIdx 16 (fun i =>
    s.flag (PROT_CTRL_EN i) && s.rangeCovers i a && (dbg || !s.bit (PROT_ALLOW_ALLOW i) req))

/-- A blocked access: counted, and captured while no capture is held (R761). -/
def State.protNote (s : State) (i req : Nat) (dbg : Bool) (a : Nat) (write : Bool) : State :=
  let s := s.inc PROT_COUNT_COUNT
  if s.flag PROT_STATUS_VALID then s
  else
    (((((s.up PROT_STATUS_VALID).put PROT_STATUS_WRITE write).wr PROT_STATUS_REQ_ID req).put PROT_STATUS_DEBUG dbg).wr
      PROT_STATUS_RANGE i).wr PROT_ADDR_ADDR a

/-- How an access is let through: not, with the error or the block recorded (R635, R759, R761), or on to its
target. -/
inductive Passage
  | error | blocked | pass
  deriving DecidableEq, Repr

/-- The checks an access meets before its target, in the order of R635. -/
def State.gate (s : State) (req : Nat) (dbg : Bool) (a : Nat) (write : Bool) : Passage × State :=
  let dbg := dbg || req == 2 || req == 4
  match busErrType req a write with
  | 0 =>
    match s.blockedBy req dbg a with
    | some i => (.blocked, s.protNote i req dbg a write)
    | none => (.pass, s.initAt a)
  | t => (.error, s.busError t req a write)

/-- The line offset of a Buffer DRAM address (R661). -/
def dramOff (a : Nat) : Nat := if 0xC0000000 ≤ a then a - 0xC0000000 else a - 0x80000000

/-- Where a core's own-TCM address lies among the global aliases (R629). -/
def tcmAlias (core a : Nat) : Nat := if 0x01000000 ≤ a ∧ a < 0x01200000 then a + 0x01000000 * (core + 1) else a

/-- Reads of `n` bytes of the Buffer DRAM data area, line by line. -/
def readPieces (req : Nat) (instr uncached hint : Bool) : List (Nat × Nat × Nat) → State → List PByte × State
  | [], s => ([], s)
  | (l, off, n) :: ps, s =>
    let (d, s) := s.readLine req instr uncached hint l
    let (ds, s) := readPieces req instr uncached hint ps s
    ((d.drop off).take n ++ ds, s)

/-- Writes of bytes to the Buffer DRAM data area, line by line. -/
def writePieces (req : Nat) (uncached hint : Bool) : List (Nat × Nat × Nat) → List PByte → State → State
  | [], _, s => s
  | (l, off, n) :: ps, d, s =>
    writePieces req uncached hint ps (d.drop n) (s.writeLine req uncached hint l off (d.take n))

/-- `n` bytes read from memory by a master that has passed the checks. -/
def State.targetRead (s : State) (req : Nat) (instr hint : Bool) (a n : Nat) : List PByte × State :=
  match regionAt a with
  | .dram => readPieces req instr false hint (linePieces (n + 1) (dramOff a) n) s
  | .uncachedWin => readPieces req instr true hint (linePieces (n + 1) (dramOff a) n) s
  | _ => State.readMem a n s

/-- Bytes written to memory by a master that has passed the checks. A word written to MRAM counts in MRAM_STATUS. -/
def State.targetWrite (s : State) (req : Nat) (hint : Bool) (a : Nat) (d : List PByte) : State :=
  match regionAt a with
  | .dram => writePieces req false hint (linePieces (d.length + 1) (dramOff a) d.length) d s
  | .uncachedWin => writePieces req true hint (linePieces (d.length + 1) (dramOff a) d.length) d s
  | .mram => ((s.mramNote a d.length).writeMem a d).add MRAM_STATUS_WRITES ((d.length + 3) / 4)
  | _ => s.writeMem a d

/-- The addresses at which a transfer of `n` bytes is checked: one in each 4 KiB granule it touches. -/
def granules (a n : Nat) : List Nat := (List.range (n / 4096 + 2)).map (fun i => min (a + 4096 * i) (a + (n - 1)))

/-- The checks of a whole transfer: it passes where each granule passes, and ends at the first that does not. -/
def gateAll (req : Nat) (dbg write : Bool) : List Nat → State → Passage × State
  | [], s => (.pass, s)
  | a :: as, s =>
    match s.gate req dbg a write with
    | (.pass, s) => gateAll req dbg write as s
    | r => r

/-- A read by a master: zeros with an error where it is blocked or outside reach (R635, R760). -/
def State.masterRead (s : State) (req : Nat) (dbg instr hint : Bool) (a n : Nat) : BusOut × State :=
  match gateAll req dbg false (granules a n) s with
  | (.error, s) => ({ data := clean (zerosB n), error := true }, s)
  | (.blocked, s) => ({ data := clean (zerosB n), blocked := true }, s)
  | (.pass, s) =>
    let (d, s) := s.targetRead req instr hint a n
    ({ data := d }, s)

/-- A write by a master: dropped with an error where it is blocked or outside reach (R635, R760). A write that lands
ends other masters' reservations on its blocks (R626). -/
def State.masterWrite (s : State) (req : Nat) (dbg hint : Bool) (a : Nat) (d : List PByte) : BusOut × State :=
  match gateAll req dbg true (granules a d.length) s with
  | (.error, s) => ({ error := true }, s)
  | (.blocked, s) => ({ blocked := true }, s)
  | (.pass, s) => ({}, (s.targetWrite req hint a d).dropResv (if req ≤ 1 then some req else none) a d.length)

/-- Whether an access failed: blocked, in error, or with a poisoned byte. -/
def BusOut.bad (o : BusOut) : Bool := o.blocked || o.error || poisoned o.data

/-- The fabric address of a Buffer DRAM buffer as the DMA masters read it, with no STREAM hint. -/
def State.dmaRead (s : State) (req a n : Nat) : BusOut × State := s.masterRead req false false false a n

/-- A DMA master's write with no STREAM hint. -/
def State.dmaWrite (s : State) (req a : Nat) (d : List PByte) : BusOut × State := s.masterWrite req false false a d

end Sys2Proof.Machine
end

