-- ==== Sys2Proof/Machine/AlmWriter.lean ====
section
/-! DEFINITION. The Almanac's record writer and its state block (chapter 22). -/

namespace Sys2Proof.Machine
open Sys2Proof

/-- The Almanac changed. -/
def State.modAlm (s : State) (g : Alm → Alm) : State := { s with alm := g s.alm }

/-- An Almanac error: its code is kept while none is, and ALM_ERROR is pulsed. -/
def State.almError (s : State) (code : Nat) : State :=
  let s := if s.rd ALM_ERR_CODE = 0 then s.wr ALM_ERR_CODE code else s
  pulse 121 (s.up ALM_EVENT_ERROR)

/-- The address of slot `i` (R983). -/
def almSlotAddr (i : Nat) : Nat := 0x100C0000 + 32 * i

/-- A record's age, with its slot to break ties (R987). -/
def AlmRec.age (r : AlmRec) : Nat := ((r.cycles * 2 ^ 32 + r.time) * 64 + r.subseq) * 4096 + r.slot

/-- The record that 32 bytes of a slot hold, where they hold a valid one (R985). -/
def almParse (slot : Nat) (b : List Byte) : Option AlmRec :=
  if (fieldB b 11 1).testBit 7 ∧ fieldB b 28 4 = crc32c (sliceB b 0 28) then
    some { slot := slot, sev := fieldB b 7 1 / 64, cycles := fieldB b 4 3, time := fieldB b 0 4, subseq := fieldB b 11 1 % 64 }
  else none

/-- The oldest of some records. -/
def oldest : List AlmRec → Option AlmRec
  | [] => none
  | r :: rs =>
    match oldest rs with
    | none => some r
    | some o => if r.age < o.age then some r else some o

/-- The newest of some records. -/
def newest : List AlmRec → Option AlmRec
  | [] => none
  | r :: rs =>
    match newest rs with
    | none => some r
    | some o => if o.age < r.age then some r else some o

/-- The counts and ALM_NEWEST brought up to the index (R997, R1003). -/
def State.almSync (s : State) : State :=
  let n (k : Nat) : Nat := (s.alm.recs.filter (fun r => r.sev == k)).length
  let s := (((s.wr ALM_COUNT_LO_TRACE (n 0)).wr ALM_COUNT_LO_NOTICE (n 1)).wr ALM_COUNT_HI_FAULT (n 2)).wr ALM_COUNT_HI_CRITICAL (n 3)
  match newest s.alm.recs with
  | some r => (s.up ALM_NEWEST_VALID).wr ALM_NEWEST_INDEX r.slot
  | none => (s.down ALM_NEWEST_VALID).wr ALM_NEWEST_INDEX 0

/-- The slot that R999 chooses for a record of severity `sev`, none where it is dropped. -/
def almTarget (recs : List AlmRec) (sev : Nat) : Option Nat :=
  match lowestIdx 4096 (fun i => !recs.any (fun r => r.slot == i)) with
  | some i => some i
  | none =>
    match lowestIdx 4 (fun k => recs.any (fun r => r.sev == k)) with
    | some low => if low ≤ sev then (oldest (recs.filter (fun r => r.sev == low))).map AlmRec.slot else none
    | none => none

/-- A record written into a slot in the three phases of R1001. -/
def State.almPut (s : State) (slot : Nat) (b : List Byte) : State :=
  let a := almSlotAddr slot
  let s := (s.dmaWrite 18 (a + 11) (clean [0])).2
  let s := (s.dmaWrite 18 a (clean (sliceB b 0 11))).2
  let s := (s.dmaWrite 18 (a + 12) (clean (sliceB b 12 20))).2
  (s.dmaWrite 18 (a + 11) (clean (sliceB b 11 1))).2

/-- A record's bytes (Table 22.1, R984): `body` holds bytes 7 to 10 and 12 to 27 in their places. -/
def almRecord (time cycles subseq : Nat) (rc : Bool) (body : List Byte) : List Byte :=
  let b := leBytes 4 time ++ leBytes 3 cycles ++ sliceB body 7 4 ++ leBytes 1 (128 + 64 * b2n rc + subseq) ++ sliceB body 12 16
  b ++ leBytes 4 (crc32c b)

/-- An entry stamped, placed and written, or dropped (R999 to R1004). -/
def State.almPlace (s : State) (body : List Byte) : State :=
  let time := s.rd ALM_TIME_TIME
  let cycles := s.rd ALM_CYCLES_CYCLES
  let sev := fieldB body 7 1 / 64
  match almTarget s.alm.recs sev with
  | none => pulse 120 ((s.inc (ALM_DROPPED_COUNT sev)).up ALM_EVENT_DROP)
  | some slot =>
    let next := if s.alm.subKey = (cycles, time) then s.alm.nextSub else 0
    let sub := min next 63
    let s := (s.wr ALM_STATUS_WRITE_INDEX slot).almPut slot (almRecord time cycles sub s.alm.rc body)
    let r : AlmRec := { slot := slot, sev := sev, cycles := cycles, time := time, subseq := sub }
    let s := s.modAlm (fun a => { a with
      recs := r :: a.recs.filter (fun o => o.slot != slot), nextSub := next + 1, subKey := (cycles, time) })
    (s.put ALM_EVENT_WRITTEN (s.flag ALM_EVENT_WRITTEN || decide (s.rd ALM_CTRL_IRQ_SEV ≤ sev))).almSync

/-- An entry of the writer's own (R1006). -/
def State.almOwn (s : State) (sev code : Nat) (payload : List Byte) : State :=
  s.almPlace (zerosB 7 ++ leBytes 1 (64 * sev + code / 256 % 64) ++ leBytes 2 code ++ leBytes 1 121 ++ zerosB 1
    ++ sliceB payload 0 16 ++ zerosB 4)

/-! ## The state block -/

/-- The address of a copy of the state block. -/
def stateCopy (i : Nat) : Nat := 0x100F4F80 + 32 * i

/-- A copy's bytes, where it is valid (R990); one with an uncorrectable byte is not. -/
def State.copyAt (s : State) (i : Nat) : Option (List Byte) :=
  (s.sureBytes (stateCopy i) 32).filter (fun b => fieldB b 28 4 == crc32c (sliceB b 0 28))

/-- The copy that holds the state (R990), with its bytes. -/
def State.stateBlock (s : State) : Option (Nat × List Byte) :=
  match s.copyAt 0, s.copyAt 1 with
  | some a, some b => if fieldB a 24 4 < fieldB b 24 4 then some (1, b) else some (0, a)
  | some a, none => some (0, a)
  | none, some b => some (1, b)
  | none, none => none

/-- The state written into the copy that does not hold it (R991); copy 0 with SEQ 1 where neither does (log entry
16). -/
def State.writeState (s : State) : State :=
  let (i, seq) := match s.stateBlock with
    | some (i, b) => (1 - i, fieldB b 24 4 + 1)
    | none => (0, 1)
  let s := s.mramLook (stateCopy 0) 64
  let b := leBytes 4 (s.rd ALM_TIME_TIME) ++ leBytes 3 (s.rd ALM_CYCLES_CYCLES) ++ [0]
    ++ (List.range 4).flatMap (fun k => leBytes 4 (s.rd (ALM_DROPPED_COUNT k))) ++ leBytes 4 seq
  s.targetWrite 18 false (stateCopy i) (clean (b ++ leBytes 4 (crc32c b)))

/-- A Cold reset's release: the counters taken from the state block, or begun anew (R993, R994). -/
def State.almRestore (s : State) : State :=
  let ticks := s.alm.ticks
  let cap (w n : Nat) : Nat := min n (2 ^ w - 1)
  let s := match s.stateBlock with
    | some (_, b) =>
      let s := ((s.wr ALM_TIME_TIME (cap 32 (fieldB b 0 4 + ticks))).wr ALM_CYCLES_CYCLES (cap 24 (fieldB b 4 3 + 1))).down ALM_STATUS_STATE_LOST
      (List.range 4).foldl (fun (s : State) k => s.wr (ALM_DROPPED_COUNT k) (fieldB b (8 + 4 * k) 4)) s
    | none =>
      let s := (((s.wr ALM_TIME_TIME ticks).wr ALM_CYCLES_CYCLES 1).up ALM_STATUS_STATE_LOST).almError 2
      ((List.range 4).foldl (fun (s : State) k => s.wr (ALM_DROPPED_COUNT k) 0) s).modAlm (fun a => { a with lostDue := true })
  (s.modAlm (fun a => { a with ticks := 0 })).writeState

/-- Every slot read: a poisoned one counts as free (R997, R998). -/
def almScan : List Nat → State → List AlmRec × State
  | [], s => ([], s)
  | i :: is, s =>
    let (b, s) := State.readMem (almSlotAddr i) 32 s
    let s := if poisoned b then s.almError 3 else s
    let (rs, s) := almScan is s
    match if poisoned b then none else almParse i (bits b) with
    | some r => (r :: rs, s)
    | none => (rs, s)

/-- The index build (R997), with the STATE_LOST record that then is due (R994). -/
def State.almBuild (s : State) : State :=
  let (recs, s) := almScan (List.range 4096) s
  let key := (s.rd ALM_CYCLES_CYCLES, s.rd ALM_TIME_TIME)
  let same := recs.filter (fun r => decide ((r.cycles, r.time) = key))
  let next := same.foldl (fun n r => max n (r.subseq + 1)) 0
  let s := ((s.modAlm (fun a => { a with recs := recs, nextSub := next, subKey := key })).up ALM_STATUS_READY).almSync
  if s.alm.lostDue then (s.modAlm (fun a => { a with lostDue := false })).almOwn 2 0x0C01 [] else s

end Sys2Proof.Machine
end

