-- ==== Sys2Proof/Machine/Almanac.lean ====
section
/-! DEFINITION. The meanings of chapter 22: the Almanac event recorder. -/

namespace Sys2Proof.Machine
open Sys2Proof

/-- TIME_TICK (R989, R992): the state is written while PD_CORE is on. -/
def execTimeTick (s : State) : Host.Outcome State Fault Refusal :=
  let s := (s.inc ALM_TIME_TIME).modAlm (fun a => { a with rc := s.flag CLK_STATUS_AON_SRC })
  fin (if s.runs 1 then s.writeState else s.modAlm (fun a => { a with ticks := a.ticks + 1 }))

/-- ALMANAC_INDEX_BUILD (R997). -/
def execAlmanacIndexBuild (s : State) : Host.Outcome State Fault Refusal :=
  fin (if s.runs 1 && !s.flag ALM_STATUS_READY then s.almBuild else s)

/-- ALMANAC_RECORD (R999, R1005): the entry at the head of ring 448. -/
def execAlmanacRecord (s : State) : Host.Outcome State Fault Refusal :=
  fin (if s.flag ALM_STATUS_READY && s.flag ALM_CTRL_ENABLE && s.runs 1 && (s.ring 448).consumer == 11 then
    match s.dequeue 448 with
    | (none, s) => s
    | (some e, s) => if poisoned e then s.almError 1 else s.almPlace (bits e)
  else s)

/-- An ALM_CMD with its key (R1012). -/
def State.almCmd (s : State) (g : State → State) : State :=
  if s.flag ALM_STATUS_READY && !s.flag ALM_STATUS_CMD_BUSY then g s else s.almError 4

/-- ALM_ERASE (R1010). -/
def execAlmErase (s : State) : Host.Outcome State Fault Refusal :=
  fin (s.regCmd ALM_CMD_WORD (fun s => s.almCmd (fun s =>
    let d := (List.range 4).flatMap (fun k => leBytes 4 (s.rd (ALM_DROPPED_COUNT k)))
    let s := (List.range 4096).foldl (fun (s : State) i => (s.dmaWrite 18 (almSlotAddr i + 11) (clean [0])).2) s
    (s.modAlm (fun a => { a with recs := [] })).almOwn 1 0x0C02 d)))

/-- ALM_CLEAR_DROPPED (R1011). -/
def execAlmClearDropped (s : State) : Host.Outcome State Fault Refusal :=
  fin (s.regCmd ALM_CMD_WORD (fun s => s.almCmd (fun s => (List.range 4).foldl (fun (s : State) k => s.wr (ALM_DROPPED_COUNT k) 0) s)))

end Sys2Proof.Machine
end

