-- ==== Sys2Proof/Machine/HqeOps.lean ====
section
/-! DEFINITION. The Host Command Queue's operations (chapter 18): tags, ordering, completions, aborts, the Hit Fast Path
and the data streams. -/

namespace Sys2Proof.Machine
open Sys2Proof

/-- One of the 32 tags by number. -/
def tagOf (n : Nat) : Fin 32 := ⟨n % 32, Nat.mod_lt _ (by decide)⟩

/-- The index of a transport: the Host Port's 0, the USB Block's 1. -/
def trOf (usb : Bool) : Fin 2 := if usb then 1 else 0

/-- The HQE changed. -/
def State.modHq (s : State) (g : Hqe → Hqe) : State := { s with hq := g s.hq }

/-- A tag changed. -/
def State.modTag (s : State) (t : Fin 32) (g : HqTag → HqTag) : State :=
  s.modHq (fun h => { h with tags := vmod h.tags t g })

/-- A tag's state (Table 18.2). -/
def State.tagState (s : State) (t : Fin 32) : Nat := s.rd (HQE_TAG_STATE_OF t.val)

/-- A tag's generation (R790). -/
def State.tagGen (s : State) (t : Fin 32) : Nat := s.rd (HQE_TAG_GEN_OF t.val)

/-- A tag given a state. -/
def State.setTag (s : State) (t : Fin 32) (st : Nat) : State := s.wr (HQE_TAG_STATE_OF t.val) st

/-- The tags. -/
def allTags : List (Fin 32) := List.ofFn (fun i => i)

/-- Whether a tag belongs to Simple Block mode (R784); a clear of SB_EN takes effect once tag 31 is FREE (R866). -/
def State.sbTag (s : State) (t : Fin 32) : Bool :=
  t.val == 31 && (s.flag HP_CFG_SB_EN || (s.tagState t != 0 && s.hq.tags[t].sb))

/-- Whether a tag belongs to the USB Block (R784). Simple Block mode is a use of the Host Port. -/
def State.usbTag (s : State) (t : Fin 32) : Bool :=
  !s.sbTag t && decide (s.rd HQE_TAG_SPLIT_SPLIT ≤ t.val)

/-- The HQE area's address in the Ring SRAM (Table 18.1). -/
def State.hqArea (s : State) : Nat := 0x20000000 + 4096 * s.rd HQE_AREA_BASE

/-- The address of a tag's command slot. -/
def State.slotAddr (s : State) (t : Fin 32) : Nat := s.hqArea + 32 * t.val

/-- HQE_STATUS and HQE_COMPL_FULL brought up to the tags (R802, R821). -/
def State.hqSync (s : State) : State :=
  let out := countIdx 32 (fun t => s.rd (HQE_TAG_STATE_OF t) != 0)
  let bar (u : Bool) : Bool := allTags.any (fun t => s.tagState t != 0 && s.hq.tags[t].usb == u && s.hq.tags[t].ordered)
  let s := ((s.wr HQE_STATUS_OUTSTANDING out).put HQE_STATUS_BARRIER_USB (bar true)).put HQE_STATUS_BARRIER_HP (bar false)
  if s.hq.waiting[(0 : Fin 2)].isEmpty && s.hq.waiting[(1 : Fin 2)].isEmpty then s.clrBit HQE_EVENT_EV 3
  else s.setBit HQE_EVENT_EV 3

/-- An HQE error (R788, R1079): recorded with its event while none is recorded. -/
def State.hqError (s : State) (code tag : Nat) : State :=
  if s.rd HQE_ERR_INFO_CODE = 0 then
    ((s.wr HQE_ERR_INFO_CODE code).wr HQE_ERR_INFO_TAG tag).setBit HQE_EVENT_EV 4
  else s

/-! ## Ring entries the HQE writes -/

/-- An entry for ring 0 or ring 8, with its event; a refused one is kept and tried again (log entry 13). -/
def State.hqPost (s : State) (ring : Nat) (e : List PByte) : State :=
  if s.hq.posts.any (fun p => p.1 == ring) then s.modHq (fun h => { h with posts := h.posts ++ [(ring, e)] })
  else
    match s.enqueueP ring e with
    | (.ok, s) => s.setBit HQE_EVENT_EV (if ring = 0 then 0 else 1)
    | (_, s) => s.modHq (fun h => { h with posts := h.posts ++ [(ring, e)] })

/-- The entries that wait, tried again in order. A tag whose ring 0 entry is written is known to firmware. -/
def State.hqRetry (s : State) : State :=
  let ps := s.hq.posts
  let s := ps.foldl (fun (s : State) (p : Nat × List PByte) => s.hqPost p.1 p.2) (s.modHq (fun h => { h with posts := [] }))
  allTags.foldl (fun (s : State) t =>
    s.modTag t (fun x => { x with unposted := x.unposted && s.hq.posts.any (fun p => p.1 == 0 && fieldB (bits p.2) 3 1 % 32 == t.val) })) s

/-- A transfer completion for ring 8 (Table 18.5). -/
def State.post8 (s : State) (id tag gen status moved : Nat) : State :=
  s.hqPost 8 (clean (leBytes 2 id ++ leBytes 1 tag ++ leBytes 1 (32 * gen) ++ leBytes 1 status ++ zerosB 3
    ++ leBytes 4 moved ++ zerosB 4))

/-- R789: a command handed to firmware on ring 0, its slot copied with the tag and generation in byte 3. -/
def State.handoff (s : State) (t : Fin 32) : State :=
  let (raw, s) := State.readMem (s.slotAddr t) 32 (s.initMem 1)
  let e := raw.set 3 (BitVec.ofNat 8 (t.val + 32 * s.tagGen t), false)
  let s := (s.setTag t 3).hqPost 0 e
  s.modTag t (fun x => { x with unposted := s.hq.posts.any (fun p => p.1 == 0 && p.2 == e) })

/-! ## Completions -/

/-- A completion entry for a tag's command (Table 18.6). -/
def State.complEntry (s : State) (t : Fin 32) (status result flags : Nat) : List Byte :=
  sliceB s.hq.tags[t].slot 4 4 ++ leBytes 1 t.val ++ leBytes 1 status ++ leBytes 1 flags ++ zerosB 1
    ++ leBytes 4 result ++ zerosB 4

/-- The TAIL of a transport's completion ring. -/
def cqTail (u : Fin 2) : Fld := if u = 0 then HQE_CQ_HP_TAIL else HQE_CQ_USB_TAIL

/-- The HEAD of a transport's completion ring. -/
def cqHead (u : Fin 2) : Fld := if u = 0 then HQE_CQ_HP_HEAD else HQE_CQ_USB_HEAD

/-- How many entries a completion ring holds (R801). -/
def State.cqCount (s : State) (u : Fin 2) : Nat := (s.rd (cqTail u) + 128 - s.rd (cqHead u)) % 128

/-- A tag returned to FREE, its generation advanced (R790). -/
def State.freeTag (s : State) (t : Fin 32) : State :=
  let s := (s.setTag t 0).wr (HQE_TAG_GEN_OF t.val) (s.tagGen t + 1)
  (s.modTag t (fun _ => {})).modHq (fun h => { h with stopped := h.stopped.filter (fun x => x.1 != t.val) })

/-- A completion written at TAIL with its phase, and its tag made FREE (R801). -/
def State.writeCq (s : State) (t : Fin 32) (e : List Byte) : State :=
  let u := trOf s.hq.tags[t].usb
  let tail := s.rd (cqTail u)
  let a := s.hqArea + (if u = 0 then 0x400 else 0x800) + 16 * (tail % 64)
  let s := ((s.initMem 1).store a (sliceB e 0 15 ++ leBytes 1 (1 - tail / 64))).dropResv none a 16
  (s.wr (cqTail u) (tail + 1)).freeTag t

/-- A completion that is ready: posted, or POSTING while it waits for ring space (R802) or for the Host Port to write it
to SB_CMD (R866). -/
def State.complete (s : State) (t : Fin 32) (e : List Byte) : State :=
  let x := s.hq.tags[t]
  let u := trOf x.usb
  if x.sb then (s.setTag t 5).modTag t (fun x => { x with entry := some e })
  else if s.hq.waiting[u] ≠ [] ∨ 64 ≤ s.cqCount u then
    let s := (s.setTag t 5).modTag t (fun x => { x with entry := some e })
    s.modHq (fun h => { h with waiting := vmod h.waiting u (· ++ [t.val]) })
  else s.writeCq t e

/-- The first completion that waits for ring space, posted where there is room (R802). -/
def State.postWaiting (s : State) (u : Fin 2) : State :=
  match s.hq.waiting[u] with
  | [] => s
  | t :: ts =>
    if 64 ≤ s.cqCount u then s
    else
      let s := s.modHq (fun h => { h with waiting := h.waiting.set u ts })
      s.writeCq (tagOf t) (s.hq.tags[tagOf t].entry.getD [])

/-! ## The data streams -/

/-- The transfer at the head of a stream changed. -/
def State.modCur (s : State) (u : Fin 2) (g : HqXfer → HqXfer) : State :=
  s.modHq (fun h => { h with cur := vmod h.cur u (fun o => o.map g) })

/-- A stream takes its next transfer while it serves none (R798). -/
def State.startXfer (s : State) (u : Fin 2) : State :=
  match s.hq.cur[u], s.hq.queue[u] with
  | none, x :: xs =>
    let s := s.modHq (fun h => { h with cur := h.cur.set u (some x), queue := h.queue.set u xs })
    s.modTag (tagOf x.tag) (fun t => { t with dataPhase := true })
  | _, _ => s

/-- A transfer placed on its stream. -/
def State.queueXfer (s : State) (u : Fin 2) (x : HqXfer) : State :=
  (s.modHq (fun h => { h with queue := vmod h.queue u (· ++ [x]) })).startXfer u

/-- A transfer stopped (R799): poison raises HQE_POISON, a blocked access HQE_ERROR code 6. -/
def State.stopXfer (s : State) (u : Fin 2) (tag status : Nat) : State :=
  let s := if status = 1 then s.setBit HQE_EVENT_EV 5 else s.hqError 6 tag
  let s := if u = 0 then { s with hp := { s.hp with fifo := [] } } else s
  s.modCur u (fun x => { x with stop := some status })

/-- What is left of a transfer's buffers after `n` bytes. -/
def advance (n : Nat) : List (Nat × Nat) → List (Nat × Nat)
  | [] => []
  | (a, k) :: r => if k ≤ n then r else (a + n, k - n) :: r

/-- Up to `n` bytes of the transfer towards the host, read from the Buffer DRAM (R799, R818). -/
def State.xferRead (s : State) (u : Fin 2) (n : Nat) : List PByte × State :=
  match s.hq.cur[u] with
  | none => ([], s)
  | some x =>
    match x.segs with
    | [] => ([], s)
    | (a, k) :: _ =>
      if x.fromHost || x.stop.isSome then ([], s)
      else
        let n := min n (min k (64 - a % 64))
        let (o, s) := s.dmaRead 3 a n
        if o.blocked || o.error then ([], s.stopXfer u x.tag 2)
        else if poisoned o.data then ([], s.stopXfer u x.tag 1)
        else (o.data, s.modCur u (fun y => { y with segs := advance n y.segs, moved := y.moved + n }))

/-- Bytes from the host written to the Buffer DRAM (R799, R906). -/
def State.xferWrite (s : State) (u : Fin 2) (d : List PByte) : State :=
  match s.hq.cur[u] with
  | none => s
  | some x =>
    match x.segs with
    | [] => s
    | (a, _) :: _ =>
      if !x.fromHost || x.stop.isSome then s
      else if poisoned d then s.stopXfer u x.tag 1
      else
        let (o, s) := s.dmaWrite 3 a d
        if o.blocked || o.error then s.stopXfer u x.tag 2
        else s.modCur u (fun y =>
          { y with segs := advance d.length y.segs, moved := y.moved + d.length, given := y.given + d.length })

/-- Whether a transfer has moved every byte: taken by the host, or written to the Buffer DRAM. -/
def HqXfer.finished (x : HqXfer) : Bool := x.segs.isEmpty && decide (x.total ≤ x.given)

/-- A descriptor of ring 7 (Table 18.4), with what R797 asks of it. -/
def State.descOk (s : State) (d : List Byte) : Bool :=
  let c := fieldB d 3 1
  let n := fieldB d 4 4
  let a := fieldB d 8 4
  let t := tagOf (fieldB d 2 1)
  decide (fieldB d 0 2 < 0xFFFE) && decide (fieldB d 2 1 < 32) && bitsOf c 2 3 == 0 && n % 64 == 0 && decide (64 ≤ n ∧ n ≤ 65536)
    && a % 64 == 0 && (regionAt a == .dram || regionAt a == .uncachedWin) && regionAt (a + (n - 1)) == regionAt a
    && fieldB d 12 20 == 0 && s.tagState t == 3 && s.tagGen t == c / 32 && !s.hq.tags[t].unposted

/-- A descriptor taken from ring 7 (R797, R799). -/
def State.takeDesc (s : State) (d : List Byte) : State :=
  let t := tagOf (fieldB d 2 1)
  let c := fieldB d 3 1
  if s.descOk d = false then s.post8 (fieldB d 0 2) (fieldB d 2 1) (c / 32) 5 0
  else if s.hq.stopped.contains (t.val, c / 32) then s.post8 (fieldB d 0 2) t.val (c / 32) 3 0
  else
    s.queueXfer (trOf s.hq.tags[t].usb)
      { fast := false, tag := t.val, gen := c / 32, fromHost := c.testBit 0, last := c.testBit 1, id := fieldB d 0 2,
        segs := [(fieldB d 8 4, fieldB d 4 4)], total := fieldB d 4 4, moved := 0, given := 0, stop := none }

/-! ## The Hit Fast Path -/

/-- The buffers of a range of logical sectors: address and length, unit by unit (R818). -/
def fastSegs (lss : Bool) (bufAddr : Nat → Nat) : Nat → Nat → Nat → List (Nat × Nat)
  | 0, _, _ => []
  | f + 1, lba, n =>
    if n = 0 then []
    else if lss then (bufAddr lba, 4096) :: fastSegs lss bufAddr f (lba + 1) (n - 1)
    else
      let k := min n (8 - lba % 8)
      (bufAddr (lba / 8) + lba % 8 * 512, 512 * k) :: fastSegs lss bufAddr f (lba + k) (n - k)

/-- R817: the decline code, or the buffers of a READ that meets every condition. -/
def State.fastTest (s : State) (t : Fin 32) : (Nat ⊕ List (Nat × Nat)) × State :=
  let c := s.hq.tags[t].slot
  let v := fieldB c 2 1
  let lba := fieldB c 8 8
  let n := fieldB c 16 4
  let lss := s.flag (HQE_VOL_CFG_LSS v)
  let cap := s.rd (HQE_VOL_CAP_UNITS v) * (if lss then 1 else 8)
  let unit (l : Nat) : Nat := if lss then l else l / 8
  let u0 := unit lba
  let u1 := unit (lba + (n - 1))
  if (if s.hq.tags[t].usb then s.flag HQE_CTRL_FP_USB else s.flag HQE_CTRL_FP_HP) = false then (.inl 1, s)
  else if fieldB c 0 1 ≠ 1 ∨ fieldB c 1 1 ≠ 0 then (.inl 2, s)
  else if 3 < v ∨ s.flag (HQE_VOL_CFG_FAST_EN v) = false ∨ n = 0 ∨ cap < lba + n then (.inl 3, s)
  else if u0 / 8 ≠ u1 / 8 then (.inl 4, s)
  else
    let idx (u : Nat) : Nat := ((u % 8192) ^^^ (v * 2048)) % 8192
    let line := s.rd HQE_MAP_BASE_BASE * 65536 + 64 * (idx u0 / 8)
    let (o, s) := s.dmaRead 3 line 64
    let entry (u : Nat) : Nat := fieldB (bits o.data) (8 * (idx u % 8)) 8
    let units := (List.range (u1 + 1 - u0)).map (u0 + ·)
    let hit (u : Nat) : Bool :=
      (entry u).testBit 63 && (entry u).testBit 62 && bitsOf (entry u) 60 2 == v && bitsOf (entry u) 41 19 == u / 8192 % 2 ^ 19
        && decide (u / 8192 < 2 ^ 19)
    let sectorOk (l : Nat) : Bool :=
      if lss then bitsOf (entry l) 33 8 == 0xFF else (entry (l / 8)).testBit (33 + l % 8)
    if o.bad then (.inl 7, s)
    else if units.all hit = false then (.inl 5, s)
    else if ((List.range n).all (fun i => sectorOk (lba + i))) = false then (.inl 6, s)
    else (.inr (fastSegs lss (fun u => s.rd HQE_BUF_BASE_BASE * 4096 + 4096 * bitsOf (entry u) 0 18) n lba n), s)

/-- A command that is not HELD: served by the Hit Fast Path, or handed to firmware (R789, R817, R818). How many cycles the
path took is timing, a free value here (log entry 3). -/
def State.routeTag (s : State) (t : Fin 32) : State :=
  let c := s.hq.tags[t].slot
  if fieldB c 0 1 ≠ 1 ∨ s.hq.tags[t].ordered = true then s.handoff t
  else
    match s.fastTest t with
    | (.inl code, s) => ((s.wr HQE_FP_STATUS_LAST_DECLINE code).inc HQE_COUNT_DECLINE_COUNT).handoff t
    | (.inr segs, s) =>
      let usb := s.hq.tags[t].usb
      let gen := s.tagGen t
      let s := (s.setTag t 2).inc HQE_COUNT_FAST_COUNT
      let s := s.modHq (fun h => { h with live := (t.val, gen) :: h.live })
      let (v, s) := s.draw
      let s := if usb then s else s.wr HQE_FP_LAT_MAX_CYCLES (max (s.rd HQE_FP_LAT_MAX_CYCLES) (v % 65536))
      s.queueXfer (trOf usb)
        { fast := true, tag := t.val, gen := gen, fromHost := false, last := true, id := 0xFFFE, segs := segs,
          total := (segs.map Prod.snd).sum, moved := 0, given := 0, stop := none }

/-! ## Ordering and aborts -/

/-- Whether an earlier command of its transport keeps a tag waiting (R792, R793). -/
def State.mustWait (s : State) (t : Fin 32) : Bool :=
  let x := s.hq.tags[t]
  allTags.any (fun o =>
    let y := s.hq.tags[o]
    o != t && s.tagState o != 0 && y.usb == x.usb && decide (y.seq < x.seq) && (x.ordered || y.ordered))

/-- An ABORT's own completion, held until its target's has been posted (R814). -/
def State.abortHeld (s : State) (t : Fin 32) (outcome : Nat) : State :=
  (s.modTag t (fun x => { x with entry := some (s.complEntry t 0 outcome 0) })).modHq (fun h => { h with holds := h.holds ++ [t.val] })

/-- An accepted ABORT (R812, R813). -/
def State.abortTag (s : State) (t : Fin 32) : State :=
  let g := tagOf (fieldB s.hq.tags[t].slot 20 1)
  let s := (s.setTag t 4).modTag t (fun x => { x with abortOf := some (g.val, s.tagGen g) })
  let st := s.tagState g
  if g = t ∨ s.usbTag g ≠ s.hq.tags[t].usb ∨ st = 0 then s.complete t (s.complEntry t 0 3 0)
  else if st = 1 then (s.abortHeld t 0).complete g (s.complEntry g 2 0 0)
  else if st = 3 then (s.handoff t).setBit HQE_EVENT_EV 2
  else s.abortHeld t 2

/-- The ABORT held longest whose target's recorded generation has been posted, completed (R814). -/
def State.releaseAbort (s : State) : State :=
  let due (n : Nat) : Bool := match s.hq.tags[tagOf n].abortOf with
    | some (g, gen) => s.tagGen (tagOf g) != gen
    | none => true
  match s.hq.holds.find? due with
  | none => s
  | some n =>
    let s := s.modHq (fun h => { h with holds := h.holds.erase n })
    s.complete (tagOf n) (s.hq.tags[tagOf n].entry.getD [])

/-- The earliest HELD command that nothing holds any more, routed (R793, R794). -/
def State.releaseHeld (s : State) : State :=
  let free := allTags.filter (fun t => s.tagState t == 1 && !s.mustWait t)
  match free.find? (fun t => free.all (fun o => decide (s.hq.tags[t].seq ≤ s.hq.tags[o].seq))) with
  | none => s
  | some t => s.routeTag t

/-- What follows from the tags that have become FREE, by number of rounds. -/
def State.hqSettle : Nat → State → State
  | 0, s => s.hqSync
  | n + 1, s => State.hqSettle n (s.releaseAbort.releaseHeld)

/-- The Host Port's FIFO filled from its stream's transfer towards the host, one line at a time (R850). -/
def State.hpFill (s : State) : State :=
  if s.hp.fifo.length ≤ 64 then
    let (d, s) := s.xferRead 0 64
    if d.isEmpty then s else { s with hp := { s.hp with fifo := s.hp.fifo ++ d } }
  else s

/-- The FIFO filled as far as it goes. -/
def State.hpPump (s : State) : State := s.hpFill.hpFill

/-- The HQE after an operation: waiting ring entries tried again, then what its tags allow, then the Host Port's FIFO. -/
def State.hqDone (s : State) : State := (State.hqSettle 64 s.hqRetry).hpPump

/-- A doorbell (R787 to R789): the error code, 0 where it is accepted. `sb` tells Simple Block mode's. In IDLE the CORE
clock returns first (R39). -/
def State.hqDoorbell (s : State) (usb sb : Bool) (t : Fin 32) : Nat × State :=
  let s := s.leaveIdle
  let code :=
    if s.flag HQE_CTRL_ENABLE = false then 1
    else if s.usbTag t ≠ usb ∨ s.sbTag t ≠ sb then 2
    else if s.tagState t ≠ 0 then 3
    else 0
  if code ≠ 0 then (code, s.hqError code t.val)
  else
    let (raw, s) := State.readMem (s.slotAddr t) 32 (s.initMem 1)
    let c := bits raw
    let abort := fieldB c 0 1 == 4
    let s := s.modHq (fun h => { h with seq := h.seq + 1 })
    let s := s.modTag t (fun _ =>
      { usb := usb, sb := sb, seq := s.hq.seq, slot := c, ordered := !abort && (fieldB c 1 1).testBit 0 })
    let s := if abort then s.abortTag t else if s.mustWait t then s.setTag t 1 else s.routeTag t
    (0, s.hqDone)

/-! ## Ends -/

/-- A transfer leaves its stream. -/
def State.dropCur (s : State) (u : Fin 2) (x : HqXfer) : State :=
  let s := s.modHq (fun h =>
    { h with cur := h.cur.set u none, live := h.live.filter (fun l => !x.fast || l != (x.tag, x.gen)),
             sync := h.sync.filter (fun l => !x.fast || l != (x.tag, x.gen)) })
  if x.last || x.stop.isSome then s.modTag (tagOf x.tag) (fun t => { t with dataPhase := false }) else s

/-- A descriptor's transfer ends, or a stopped Hit Fast Path transfer leaves its command to firmware (R799, R823). -/
def State.transferDone (s : State) (u : Fin 2) : State :=
  match s.hq.cur[u] with
  | none => s
  | some x =>
    match x.stop with
    | some st =>
      let s := s.dropCur u x
      let s := s.modHq (fun h => { h with stopped := (x.tag, x.gen) :: h.stopped })
      let s := if x.fast then (s.handoff (tagOf x.tag)).post8 0xFFFE x.tag x.gen st x.given
        else s.post8 x.id x.tag x.gen st (if x.fromHost then x.moved else x.given)
      (s.startXfer u).hqDone
    | none =>
      if !x.fast && x.finished then (((s.dropCur u x).post8 x.id x.tag x.gen 0 x.moved).startXfer u).hqDone else s

/-- The transport reports the last byte of a Hit Fast Path transfer (R818). -/
def State.fastDone (s : State) (u : Fin 2) : State :=
  match s.hq.cur[u] with
  | none => s
  | some x =>
    if x.fast && x.stop.isNone && x.finished then
      let t := tagOf x.tag
      let s := s.dropCur u x
      ((s.complete t (s.complEntry t 0 (fieldB s.hq.tags[t].slot 16 4) 1)).startXfer u).hqDone
    else s

/-- Every descriptor on ring 7 taken; those of retired tags complete RETIRED (R827). -/
def State.drain7 (retired : Fin 32 → Bool) : Nat → State → State
  | 0, s => s
  | n + 1, s =>
    match s.dequeue 7 with
    | (none, s) => s
    | (some e, s) =>
      let d := bits e
      let s := if poisoned e then s.setBit HQE_EVENT_EV 5
        else if fieldB d 2 1 < 32 ∧ retired (tagOf (fieldB d 2 1)) = true then
          s.post8 (fieldB d 0 2) (fieldB d 2 1) (fieldB d 3 1 / 32) 4 0
        else s.takeDesc d
      State.drain7 retired n s

/-- A reset retires a transport's tags (R827): no completion is posted for them. -/
def State.retire (s : State) (usb : Bool) : State :=
  let u := trOf usb
  let mine (t : Fin 32) : Bool := s.tagState t != 0 && s.hq.tags[t].usb == usb
  let gone := allTags.filter mine
  let s := State.drain7 mine 65536 s
  let late (s : State) (x : HqXfer) : State := if x.fast then s else s.post8 x.id x.tag x.gen 4 x.moved
  let s := match s.hq.cur[u] with
    | some x => late (s.dropCur u x) x
    | none => s
  let s := s.hq.queue[u].foldl late s
  let s := s.modHq (fun h => { h with
    queue := h.queue.set u [], waiting := h.waiting.set u [],
    holds := h.holds.filter (fun n => !gone.contains (tagOf n)),
    posts := h.posts.filter (fun p => p.1 != 0 || !gone.contains (tagOf (fieldB (bits p.2) 3 1))),
    live := h.live.filter (fun l => !gone.contains (tagOf l.1)), sync := h.sync.filter (fun l => !gone.contains (tagOf l.1)) })
  let s := gone.foldl (fun (s : State) t =>
    let s := if s.tagState t = 3 ∧ s.hq.tags[t].unposted = false then s.post8 0xFFFF t.val (s.tagGen t) 4 0 else s
    s.freeTag t) s
  ((s.wr (cqTail u) 0).wr (cqHead u) 0).hqDone

end Sys2Proof.Machine
end

