-- ==== Sys2Proof/Machine/HostPort.lean ====
section
/-! DEFINITION. The Host Port (chapter 19): its cycles, registers, data stream, mailboxes and Simple Block mode. A cycle's
answer is what the part drives on HP_D. -/

namespace Sys2Proof.Machine
open Sys2Proof

/-- The Host Port changed. -/
def State.modHp (s : State) (g : HostPort → HostPort) : State := { s with hp := g s.hp }

/-- Whether the Host Port is 16 bits wide (R828). -/
def State.hpWide (s : State) : Bool := s.bit SYS_STRAP_HP_MODE 0

/-- Bytes in a unit (R838). -/
def State.hpUnit (s : State) : Nat := if s.hpWide then 2 else 1

/-- STATUS.AWAKE (R841). -/
def State.hpAwake (s : State) : Bool := s.on 1 && !s.moving 1

/-- An event of HP_EVENT with its source: bits 1 and 2 are levels, the others pulse. -/
def State.hpEvent (s : State) (i : Nat) : State :=
  let s := s.setBit HP_EVENT_EV i
  if i = 1 ∨ i = 2 then s else pulse (88 + i) s

/-- An error (R871). -/
def State.hpError (s : State) (code tag : Nat) : State :=
  let s := if s.rd HW_ERROR_CODE = 0 then (s.wr HW_ERROR_CODE code).wr HW_ERROR_TAG tag else s
  (((s.inc HP_COUNT_ERRORS).wr HP_ERR_LAST_CODE code).wr HP_ERR_LAST_TAG tag).hpEvent 4

/-- What a read cycle drives. -/
def State.drive (s : State) (l : List Byte) : State := { s with bus := { data := clean l } }

/-- A cycle that completes as not ready (R854): all ones for a read, code 7. -/
def State.notReady (s : State) (write : Bool) : State :=
  let s := if write then s else s.drive (List.replicate s.hpUnit 0xFF)
  (s.modHp (fun h => { h with held := none })).hpError 7 0

/-- A cycle that is not ready: held by HP_WAIT_N, or completed as not ready at once (R854, R868). A held cycle is
presented again until it completes (log entry 14). -/
def State.hold (s : State) (write : Bool) : State :=
  if s.flag HW_CONTROL_WAIT_EN then s.modHp (fun h => { h with held := some write }) else s.notReady write

/-- A cycle of the Host Port: nothing while it is disabled (R130) or stopped (R48), zeros and no effect during an
interface-scope reset (R843), not ready while the part is not awake unless the register path serves it (R868). In IDLE the
cycle is a wake source, and the CORE clock returns (R64, R1074). -/
def State.hpCycle (s : State) (write served : Bool) (g : State → State) : State :=
  if s.runs 13 = false ∨ s.flag HP_CFG_ENABLE = false then s.drive []
  else if s.hp.resetting then (if write then s else s.drive (zerosB s.hpUnit))
  else if !served && !s.hpAwake then s.hold write
  else g ((s.idleWake 0).modHp (fun h => { h with held := none }))

/-- The word that a register write carries (R836, R837): WHI supplies the high byte in 8-bit mode and is then cleared. -/
def State.hpWord (s : State) (v : BitVec 16) : Nat × State :=
  if s.hpWide then (v.toNat, s) else (s.hp.whi * 256 + v.toNat % 256, s.modHp (fun h => { h with whi := 0 }))

/-- A register read: in 8-bit mode the high byte goes to RHI (R837). -/
def State.hpGive (s : State) (w : Nat) : State :=
  if s.hpWide then s.drive (leBytes 2 w)
  else (s.modHp (fun h => { h with rhi := w / 256 % 256 })).drive (leBytes 1 w)

/-- Whether the two lanes of a unit are exchanged (R852). -/
def State.hpSwap (s : State) : Bool := s.hpWide && s.flag HW_CONTROL_SWAP

/-- The bytes of a unit on the bus, in ascending address order (R852). -/
def State.unitIn (s : State) (v : BitVec 16) : List Byte :=
  let l := leBytes s.hpUnit v.toNat
  if s.hpSwap then l.reverse else l

/-- A unit driven (R852). -/
def State.unitOut (s : State) (l : List Byte) : State := s.drive (if s.hpSwap then l.reverse else l)

/-! ## The data stream -/

/-- Whether the stream's transfer is from the host. -/
def State.hpInbound (s : State) : Bool := match s.hq.cur[(0 : Fin 2)] with
  | some x => x.fromHost
  | none => false

/-- R850: whether the stream is ready. -/
def State.hpReady (s : State) : Bool :=
  if s.hpInbound then
    match s.hq.cur[(0 : Fin 2)] with
    | some x => x.stop.isNone && decide (x.moved + s.hp.fifo.length < x.total) && decide (s.hp.fifo.length + s.hpUnit ≤ 128)
    | none => false
  else decide (s.hpUnit ≤ s.hp.fifo.length)

/-- HP_DRQ (R851); not driven while the Host Port is disabled (R130). -/
def State.hpDrq (s : State) : Bool := s.on 13 && s.flag HP_CFG_ENABLE && s.hpReady && s.flag HW_CONTROL_DRQ_EN

/-- XSTAT. -/
def State.hpXstat (s : State) : Nat :=
  128 * b2n s.hpReady + (match s.hq.cur[(0 : Fin 2)] with
    | some x => 64 * b2n x.fromHost + 32 + x.tag
    | none => 0)

/-- HP_DMA_DONE where the descriptor is a LAST one whose last unit has been moved (R856). -/
def State.dmaDoneCheck (s : State) : State := match s.hq.cur[(0 : Fin 2)] with
  | some x => if x.last && !x.fast && x.finished then s.hpEvent 5 else s
  | none => s

/-- One unit taken by the host (R853). -/
def State.streamRead (s : State) : State :=
  let n := s.hpUnit
  let s := s.unitOut (bits (s.hp.fifo.take n))
  let s := s.modHp (fun h => { h with fifo := h.fifo.drop n })
  (s.modCur 0 (fun x => { x with given := x.given + n })).hpPump.dmaDoneCheck

/-- One unit given by the host (R853): the FIFO passes whole lines to the Buffer DRAM. -/
def State.streamWrite (s : State) (v : BitVec 16) : State :=
  let s := s.modHp (fun h => { h with fifo := h.fifo ++ clean (s.unitIn v) })
  if 64 ≤ s.hp.fifo.length then
    let d := s.hp.fifo.take 64
    ((s.modHp (fun h => { h with fifo := h.fifo.drop 64 })).xferWrite 0 d).dmaDoneCheck
  else s

/-- A data cycle or a DATA cycle (R853, R854). -/
def State.dataCycle (s : State) (write : Bool) (v : BitVec 16) : State :=
  s.hpCycle write false (fun s =>
    if s.hpReady && s.hpInbound == write then (if write then s.streamWrite v else s.streamRead) else s.hold write)

/-- HP_DATA_TRANSFER. -/
def execHpDataTransfer (write : Bool) (v : BitVec 16) (s : State) : Host.Outcome State Fault Refusal :=
  fin (s.dataCycle write v)

/-- HP_WAIT_LIMIT (R854): a held cycle completes as not ready; the count runs only while the part is awake (R868). -/
def execHpWaitLimit (s : State) : Host.Outcome State Fault Refusal :=
  fin (match s.hp.held with
    | some w => if s.runs 13 && s.hpAwake then s.notReady w else s
    | none => s)

/-- HP_STROBE_CONFLICT (R833). -/
def execHpStrobeConflict (s : State) : Host.Outcome State Fault Refusal :=
  fin (if s.bit SYS_STRAP_HP_MODE 1 then s else s.hpCycle true true (fun s => s.hpError 13 0))

/-- HP_BYTE_HI_WRITE (R837). -/
def execHpByteHiWrite (v : BitVec 16) (s : State) : Host.Outcome State Fault Refusal :=
  fin (s.hpCycle true false (fun s => if s.hpWide then s else s.modHp (fun h => { h with whi := v.toNat % 256 })))

/-! ## The window -/

/-- INDEX advanced by `n`, modulo 1024 (R845). -/
def State.indexNext (s : State) (n : Nat) : State := s.wr HW_INDEX_OFFSET (s.rd HW_INDEX_OFFSET + n)

/-- The offset that a window cycle reaches (R845). -/
def State.winOff (s : State) : Nat :=
  let o := s.rd HW_INDEX_OFFSET
  if s.hpWide then o - o % 2 else o

/-- A WINDOW write (R845, R846). -/
def State.windowStore (s : State) (v : BitVec 16) : State :=
  match s.rd HW_INDEX_SPACE with
  | 0 =>
    let o := s.winOff
    let t := tagOf (o / 32)
    if s.tagState t = 0 ∧ s.usbTag t = false ∧ s.sbTag t = false then
      let d := s.unitIn v
      (((s.initMem 1).store (s.hqArea + o) d).dropResv none (s.hqArea + o) d.length).indexNext d.length
    else s.hpError 4 t.val
  | 3 =>
    let (w, s) := s.hpWord v
    let low := s.rd HW_INDEX_OFFSET % 2 == 0
    s.modHp (fun h => { h with peek := if low then h.peek / 65536 * 65536 + w else w * 65536 + h.peek % 65536 })
  | _ => s.hpError 5 0

/-- HP_WINDOW_WRITE. -/
def execHpWindowWrite (v : BitVec 16) (s : State) : Host.Outcome State Fault Refusal :=
  fin (s.hpCycle true false (fun s => s.windowStore v))

/-- A WINDOW read in space 0, 1 or 3 (R845); poisoned Ring SRAM is given as stored, with code 10. -/
def State.windowLoad (s : State) : State :=
  match s.rd HW_INDEX_SPACE with
  | 2 => s
  | 3 => s.hpGive (if s.rd HW_INDEX_OFFSET % 2 = 0 then s.hp.peek % 65536 else s.hp.peek / 65536)
  | sp =>
    let (d, s) := State.readMem (s.hqArea + 0x400 * sp + s.winOff) s.hpUnit (s.initMem 1)
    let s := if poisoned d then s.hpError 10 0 else s
    (s.unitOut (bits d)).indexNext d.length

/-- HP_WINDOW_READ. -/
def execHpWindowRead (s : State) : Host.Outcome State Fault Refusal :=
  fin (s.hpCycle false false (fun s => s.windowLoad))

/-- A peek of the Buffer DRAM (R862, R863). -/
def State.peekLoad (s : State) : State :=
  if s.rd HW_INDEX_SPACE = 2 then
    let n := s.hpUnit
    let a := if n = 2 then s.hp.peek - s.hp.peek % 2 else s.hp.peek
    let (o, s) := s.dmaRead 4 a n
    let s := if o.bad then s.hpError 10 0 else s
    (s.unitOut (bits o.data)).modHp (fun h => { h with peek := (h.peek + n) % 2 ^ 32 })
  else s

/-- HP_PEEK_READ. -/
def execHpPeekRead (s : State) : Host.Outcome State Fault Refusal :=
  fin (s.hpCycle false false (fun s => s.peekLoad))

/-- A DOORBELL write (R847). -/
def State.doorbellWrite (s : State) (v : BitVec 16) : State :=
  let (w, s) := s.hpWord v
  let t := tagOf (w % 32)
  match s.hqDoorbell false false t with
  | (0, s) => s
  | (code, s) => s.hpError code t.val

/-- HP_DOORBELL_WRITE. -/
def execHpDoorbellWrite (v : BitVec 16) (s : State) : Host.Outcome State Fault Refusal :=
  fin (s.hpCycle true false (fun s => s.doorbellWrite v))

/-- A CQ write (R848). -/
def State.cqWrite (s : State) (v : BitVec 16) : State :=
  let (w, s) := s.hpWord v
  if (w % 128 + 128 - s.rd HQE_CQ_HP_HEAD) % 128 ≤ s.cqCount 0 then s.wr HQE_CQ_HP_HEAD w else s.hpError 6 0

/-- HP_CQ_WRITE. -/
def execHpCqWrite (v : BitVec 16) (s : State) : Host.Outcome State Fault Refusal :=
  fin (s.hpCycle true false (fun s => s.cqWrite v))

/-! ## Mailboxes -/

/-- The entry that the in-buffer makes (Table 19.5). -/
def mboxEntry (d : List Byte) (fin' : Bool) : List Byte :=
  leBytes 1 d.length ++ leBytes 1 (b2n fin') ++ sliceB d 0 30

/-- A message cut into entries of 30 bytes, the last with END (Table 19.5). -/
def msgEntries : Nat → List Byte → List (List Byte)
  | 0, _ => []
  | n + 1, l => if l.length ≤ 30 then [mboxEntry l true] else mboxEntry (l.take 30) false :: msgEntries n (l.drop 30)

/-- A waiting in-buffer entry tried on ring 2 (R858). -/
def State.mboxTry (s : State) : State :=
  match s.hp.inWait with
  | none => s
  | some e =>
    match (s.takenWake 2).enqueue 2 (mboxEntry s.hp.inBuf e) with
    | (.ok, s) =>
      let s := s.modHp (fun h => { h with inBuf := [], inWait := none })
      if e then s.hpEvent 1 else s
    | (_, s) => s

/-- A byte for the in-buffer (R857). -/
def State.mboxIn (s : State) (v : BitVec 16) : State :=
  if s.hp.inWait.isSome || decide (30 ≤ s.hp.inBuf.length) then s.hpError 8 0
  else
    let s := s.modHp (fun h => { h with inBuf := h.inBuf ++ [v.setWidth 8] })
    if 30 ≤ s.hp.inBuf.length then (s.modHp (fun h => { h with inWait := some false })).mboxTry else s

/-- HP_MBOX_IN_WRITE. -/
def execHpMboxInWrite (v : BitVec 16) (s : State) : Host.Outcome State Fault Refusal :=
  fin (s.hpCycle true false (fun s => s.mboxIn v))

/-- PUSH (R858). -/
def State.mboxPush (s : State) : State :=
  if s.hp.inWait.isSome || s.hp.inBuf.isEmpty then s else (s.modHp (fun h => { h with inWait := some false })).mboxTry

/-- HP_MBOX_PUSH. -/
def execHpMboxPush (s : State) : Host.Outcome State Fault Refusal :=
  fin (s.hpCycle true false (fun s => s.mboxPush))

/-- END (R858). -/
def State.mboxEnd (s : State) : State :=
  if s.hp.inWait.isSome then s.modHp (fun h => { h with inWait := some true })
  else (s.modHp (fun h => { h with inWait := some true })).mboxTry

/-- HP_MBOX_END. -/
def execHpMboxEnd (s : State) : Host.Outcome State Fault Refusal :=
  fin (s.hpCycle true false (fun s => s.mboxEnd))

/-- IN_CLEAR (R861). -/
def State.mboxClear (s : State) : State := s.modHp (fun h => { h with inBuf := [], inWait := none })

/-- HP_MBOX_IN_CLEAR. -/
def execHpMboxInClear (s : State) : Host.Outcome State Fault Refusal :=
  fin (s.hpCycle true false (fun s => s.mboxClear))

/-- Entries of a mailbox ring taken up to and including the next with END, by number of entries. -/
def dropMessage (ring : Nat) : Nat → State → State
  | 0, s => s
  | n + 1, s =>
    match s.dequeue ring with
    | (none, s) => s
    | (some e, s) => if (fieldB (bits e) 1 1).testBit 0 then s else dropMessage ring n s

/-- OUT_FLUSH (R861). -/
def State.mboxFlush (s : State) : State :=
  if s.hp.outBuf.isEmpty then s
  else
    let whole := s.hp.outEnd
    let s := s.modHp (fun h => { h with outBuf := [], outEnd := false })
    if whole then s else dropMessage 3 (s.ring 3).count s

/-- HP_MBOX_OUT_FLUSH. -/
def execHpMboxOutFlush (s : State) : Host.Outcome State Fault Refusal :=
  fin (s.hpCycle true false (fun s => s.mboxFlush))

/-- HP_MBOX_IN_ENQUEUE (R858), while the port's logic runs (R48). -/
def execHpMboxInEnqueue (s : State) : Host.Outcome State Fault Refusal :=
  fin (s.when (s.runs 13) (fun s => s.mboxTry))

/-- The head entry of ring 3 taken into an empty out-buffer (R859). -/
def State.mboxTake (s : State) : State :=
  if s.hp.outBuf.isEmpty && (s.ring 3).consumer == 4 then
    match s.dequeue 3 with
    | (none, s) => s
    | (some e, s) =>
      s.modHp (fun h => { h with
        outBuf := (e.drop 2).take (min 30 (fieldB (bits e) 0 1)), outEnd := (fieldB (bits e) 1 1).testBit 0 })
  else s

/-- HP_MBOX_OUT_TAKE. -/
def execHpMboxOutTake (s : State) : Host.Outcome State Fault Refusal :=
  fin (s.when (s.runs 13) (fun s => s.mboxTake))

/-- A MBOX_OUT read (R859). -/
def State.mboxRead (s : State) : State :=
  match s.hp.outBuf with
  | [] => (s.drive (zerosB s.hpUnit)).hpError 9 0
  | b :: bs =>
    let s := (s.drive (b.1 :: zerosB (s.hpUnit - 1))).modHp (fun h => { h with outBuf := bs })
    let s := if b.2 then s.hpError 10 0 else s
    if bs.isEmpty && s.hp.outEnd && (s.ring 3).count == 0 then s.hpEvent 2 else s

/-- HP_MBOX_OUT_READ. -/
def execHpMboxOutRead (s : State) : Host.Outcome State Fault Refusal :=
  fin (s.hpCycle false false (fun s => s.mboxRead))

/-! ## Simple Block mode -/

/-- An SB_CMD write with an operation (R864, R865). -/
def State.sbCommand (s : State) (op : Nat) (v : BitVec 16) : State :=
  let (w, s) := s.hpWord v
  if s.flag HP_CFG_SB_EN && s.flag HQE_CTRL_ENABLE && !s.flag HW_SB_CMD_BUSY && s.tagState 31 == 0 then
    let vol := bitsOf w 2 2
    let lba := s.rd HW_SB_LBA_HI_LBA * 65536 + s.rd HW_SB_LBA_LO_LBA
    let slot := leBytes 1 op ++ leBytes 1 0 ++ leBytes 1 vol ++ leBytes 1 0 ++ leBytes 4 0xFFFFFFFF ++ leBytes 8 lba
      ++ leBytes 4 1 ++ zerosB 12
    let s := (((s.wr HW_SB_CMD_VOLUME vol).initMem 1).store (s.slotAddr 31) slot).dropResv none (s.slotAddr 31) slot.length
    match s.hqDoorbell false true 31 with
    | (0, s) => ((s.up HW_SB_CMD_BUSY).down HW_SB_CMD_DONE).hpEvent 3
    | (code, s) => (s.down HW_SB_CMD_DONE).hpError code 31
  else s.hpError 11 0

/-- HP_SB_READ. -/
def execHpSbRead (v : BitVec 16) (s : State) : Host.Outcome State Fault Refusal :=
  fin (s.hpCycle true false (fun s => s.sbCommand 1 v))

/-- HP_SB_WRITE. -/
def execHpSbWrite (v : BitVec 16) (s : State) : Host.Outcome State Fault Refusal :=
  fin (s.hpCycle true false (fun s => s.sbCommand 2 v))

/-- The completion of tag 31 (R866). -/
def State.sbComplete (s : State) : State :=
  match s.hq.tags[(31 : Fin 32)].entry with
  | some e =>
    if s.tagState 31 = 5 ∧ s.hq.tags[(31 : Fin 32)].sb = true then
      ((((s.wr HW_SB_CMD_RESULT (fieldB e 5 1)).down HW_SB_CMD_BUSY).up HW_SB_CMD_DONE).freeTag 31).hqDone
    else s
  | none => s

/-- HP_SB_COMPLETE. -/
def execHpSbComplete (s : State) : Host.Outcome State Fault Refusal :=
  fin (s.when (s.runs 13) (fun s => s.sbComplete))

/-! ## Registers -/

/-- STATUS (R840, R841, R849, R860); BOOTING alone during an interface-scope reset (R843). -/
def State.hpStatus (s : State) : Nat :=
  if s.hp.resetting then 32
  else
    256 * s.rd HP_STATE_DETAIL + 32 * s.rd HP_STATE_STATE + 16 * b2n s.hpAwake + 8 * s.rd HP_ATTN_ATTN
      + 4 * b2n (s.rd HW_ERROR_CODE != 0) + 2 * b2n (!s.hp.outBuf.isEmpty) + b2n (s.cqCount 0 != 0)

/-- HP_IRQ_N asserted (R611, R844); not while the Host Port is disabled (R130). -/
def State.hpIrq (s : State) : Bool :=
  s.on 13 && s.flag HP_CFG_ENABLE &&
    ((s.hpStatus % 16) &&& s.rd HW_CONTROL_IE != 0
      || (List.range 128).any (fun i => s.deliverable i && s.rd (EVC_SRC_CFG_TARGET i) == 3))

/-- MBOX_CTL as read. -/
def State.mboxCtl (s : State) : Nat :=
  256 * s.hp.inBuf.length + 128 * b2n (s.hp.inWait.isNone && decide (s.hp.inBuf.length < 30))
    + 64 * b2n (!s.hp.outBuf.isEmpty) + 32 * b2n s.hp.outEnd + s.hp.outBuf.length

/-- SB_CMD as read. -/
def State.sbStatus (s : State) : Nat :=
  256 * s.rd HW_SB_CMD_RESULT + 128 * s.rd HW_SB_CMD_BUSY + 64 * s.rd HW_SB_CMD_DONE + 4 * s.rd HW_SB_CMD_VOLUME

/-- What a window register without a row of its own reads as (Table 19.3). -/
def State.hwRead (s : State) (a : Nat) : Nat :=
  match a with
  | 0 => s.hpStatus
  | 1 => 64 * s.rd HW_CONTROL_SWAP + 32 * s.rd HW_CONTROL_WAIT_EN + 16 * s.rd HW_CONTROL_DRQ_EN + s.rd HW_CONTROL_IE
  | 3 => 16384 * s.rd HW_INDEX_SPACE + s.rd HW_INDEX_OFFSET
  | 5 => 256 * s.rd HQE_CQ_HP_TAIL + s.rd HQE_CQ_HP_HEAD
  | 7 => s.hpXstat
  | 0xA => s.mboxCtl
  | 0xB => s.rd HW_SB_LBA_LO_LBA
  | 0xC => s.rd HW_SB_LBA_HI_LBA
  | 0xD => s.sbStatus
  | _ => 0

/-- A register read cycle (R836, R837, R839). WINDOW, DATA, MBOX_OUT and ERROR have rows of their own. -/
def State.hwCycle (s : State) (a : Nat) : State :=
  if a = 4 ∨ a = 6 ∨ a = 9 ∨ a = 0xE then s
  else if a = 0 ∧ s.hp.resetting = true ∧ s.runs 13 = true ∧ s.flag HP_CFG_ENABLE = true then s.hpGive s.hpStatus
  else if a = 0xF then
    s.hpCycle false false (fun s => s.drive (if s.hpWide then zerosB 2 else leBytes 1 s.hp.rhi))
  else s.hpCycle false (a == 0 || a == 5) (fun s => s.hpGive (s.hwRead a))

/-- HP_REGISTER_READ. -/
def execHpRegisterRead (a : Fin 16) (s : State) : Host.Outcome State Fault Refusal := fin (s.hwCycle a.val)

/-- HP_ERROR_READ (R871): the first recorded error, which the read clears. -/
def execHpErrorRead (s : State) : Host.Outcome State Fault Refusal :=
  fin (s.hpCycle false true (fun s =>
    ((s.hpGive (256 * s.rd HW_ERROR_TAG + s.rd HW_ERROR_CODE)).wr HW_ERROR_CODE 0).wr HW_ERROR_TAG 0))

/-- A write to CONTROL's plain fields. -/
def State.controlFields (s : State) (w : Nat) : State :=
  (((s.wr HW_CONTROL_SWAP (bitsOf w 6 1)).wr HW_CONTROL_WAIT_EN (bitsOf w 5 1)).wr HW_CONTROL_DRQ_EN (bitsOf w 4 1)).wr
    HW_CONTROL_IE (bitsOf w 0 4)

/-- A write to a window register that has no row of its own: plain fields, MBOX_CTL with several CMD bits (R861), an
SB_CMD with no operation (R864), or a read-only register (code 5). -/
def State.hwWrite (s : State) (a : Nat) (v : BitVec 16) : State :=
  s.hpCycle true (a == 1) (fun s =>
    match a with
    | 1 =>
      let (w, s) := s.hpWord v
      s.controlFields w
    | 3 =>
      let (w, s) := s.hpWord v
      (s.wr HW_INDEX_SPACE (bitsOf w 14 2)).wr HW_INDEX_OFFSET (bitsOf w 0 10)
    | 0xA =>
      let (w, s) := s.hpWord v
      let s := if w.testBit 2 then s.mboxClear else s
      let s := if w.testBit 1 then s.mboxEnd else if w.testBit 0 then s.mboxPush else s
      if w.testBit 3 then s.mboxFlush else s
    | 0xB =>
      let (w, s) := s.hpWord v
      s.wr HW_SB_LBA_LO_LBA w
    | 0xC =>
      let (w, s) := s.hpWord v
      s.wr HW_SB_LBA_HI_LBA w
    | 0xD =>
      let (_, s) := s.hpWord v
      s.hpError 11 0
    | 0 => (s.hpWord v).2.hpError 5 0
    | 7 => (s.hpWord v).2.hpError 5 0
    | 9 => s.hpError 5 0
    | 0xE => (s.hpWord v).2.hpError 5 0
    | _ => s)

/-! ## Reset and enable -/

/-- The interface-scope CONTROL reset (R843). -/
def State.hpInterfaceReset (s : State) : State :=
  let s := s.modHp (fun _ => { resetting := true })
  let s := (List.range 16).foldl (fun (s : State) a => s.setReg (0x100000000 + 4 * a) (regReset (0x100000000 + 4 * a))) s
  let s := if s.tagState 31 ≠ 0 ∧ s.hq.tags[(31 : Fin 32)].sb = true then (s.wr HW_SB_CMD_RESULT 0xFF).up HW_SB_CMD_DONE else s
  ((s.retire false).modHp (fun h => { h with fifo := [] })).hpEvent 0

/-- HP_INTERFACE_RESET_DONE (R120). -/
def execHpInterfaceResetDone (s : State) : Host.Outcome State Fault Refusal :=
  fin (s.modHp (fun h => { h with resetting := false }))

/-- A write to HP_CFG (R130): the tags, rings, window registers and buffers stay. Disabled, the port drives nothing, so a
cycle that HP_WAIT_N held is let go. -/
def State.hpCfgWrite (s : State) (v : Word) : State :=
  let s := ((s.wr HP_CFG_WAIT_LIMIT (getF v 16 16)).wr HP_CFG_SB_EN (getF v 1 1)).wr HP_CFG_ENABLE (getF v 0 1)
  if v.getLsbD 0 then s else s.modHp (fun h => { h with held := none })

/-- HOST_PORT_ENABLE. -/
def execHostPortEnable (v : Word) (s : State) : Host.Outcome State Fault Refusal :=
  fin (s.regCmd HP_CFG_WORD (fun s => s.hpCfgWrite v))

end Sys2Proof.Machine
end

