-- ==== Sys2Proof/Machine/AlmOps.lean ====
section
/-! DEFINITION. Entries for the Almanac's ring 448 (Table 22.1), as its producers write them. -/

namespace Sys2Proof.Machine
open Sys2Proof

/-- A ring 448 entry: severity, code (its class is the code's high byte), source and payload. -/
def almEntry (sev code source : Nat) (payload : List Byte) : List Byte :=
  zerosB 7 ++ leBytes 1 (64 * sev + code / 256 % 64) ++ leBytes 2 code ++ leBytes 1 source ++ zerosB 1
    ++ sliceB payload 0 16 ++ zerosB 4

/-- Otivo's state changed. -/
def State.modOt (s : State) (g : Otivo → Otivo) : State := { s with ot := g s.ot }

/-- Ring entries that Otivo writes: what a ring refuses waits in order and is tried again. -/
def State.otPost (s : State) (ring : Nat) (e : List Byte) : State :=
  if s.ot.posts.any (fun x => x.1 == ring) then { s with ot := { s.ot with posts := s.ot.posts ++ [(ring, e)] } }
  else
    match s.enqueue ring e with
    | (.ok, s) => s
    | (_, s) => { s with ot := { s.ot with posts := s.ot.posts ++ [(ring, e)] } }

/-- A record that Otivo on Core A produces; a refused enqueue is retried on a later pass (R1007). -/
def State.almLog (s : State) (sev code : Nat) (payload : List Byte) : State :=
  s.otPost 448 (almEntry sev code 0x80 payload)

end Sys2Proof.Machine
end

