-- ==== Sys2Proof/Machine/Ldpc.lean ====
section
/-! DEFINITION. The two LDPC codes, the encoder, the detector and the decoder of the IDU Pool (R346 to R352), as
functions on numbers. -/

namespace Sys2Proof.Machine
open Sys2Proof

/-- The information bits of a sector, and of the codeword of each code (Table 8.2). -/
def infoBits : Nat := 32896

def codeBits (code : Bool) : Nat := if code then 41120 else 37008

/-- The block rows of a code (Table 8.2). -/
def blockRows (code : Bool) : Nat := if code then 32 else 16

/-- The circulants of one block row: their block columns and shifts (R348, R349). -/
def rowCirculants (m r : Nat) : List (Nat × Nat) :=
  (List.range 128).flatMap (fun j =>
    (List.range 4).filterMap (fun t =>
      if (j + t * (2 * (j / 16) + 1)) % m = r then some (j, ((t + 1) * (j + 1) * 29 + 64 * t) % 257) else none))
  ++ (List.range 4).filterMap (fun d =>
      if d ≤ r then some (128 + (r - d), if d = 0 then 0 else (7 * (r - d) + 53 * d) % 257) else none)

/-- The codeword bits that check `c` meets (R346, R347). -/
def checkBits (m c : Nat) : List Nat :=
  (rowCirculants m (c / 257)).map (fun e => 257 * e.1 + (c % 257 + e.2) % 257)

/-- Saturation to ±31. -/
def sat31 (i : Int) : Int := clampInt (-31) 31 i

/-- Saturation to ±127. -/
def sat127 (i : Int) : Int := clampInt (-127) 127 i

/-- An entry of an array, 0 beyond its end. -/
def at0 (a : Array Int) (i : Nat) : Int := a.getD i 0

/-- The offset min-sum check update (R351) on the values of one check's edges: their new check messages. -/
def checkMsgs (offset : Int) (t : List Int) : List Int :=
  (List.range t.length).map (fun i =>
    let others := (t.take i) ++ (t.drop (i + 1))
    let mag := others.foldl (fun (m : Option Int) x =>
      match m with
      | none => some (x.natAbs : Int)
      | some m => some (min m (x.natAbs : Int))) none
    let mag := min (max (mag.getD 0 - offset) 0) 31
    if ((others.filter (fun x => decide (0 < x))).length) % 2 = 1 then mag else -mag)

/-- The bit-node totals and the check messages of the decoder. -/
structure Dec where
  q : Array Int
  r : Array (List Int)

/-- One check of a layer (R351). -/
def checkUpdate (m : Nat) (offset : Int) (d : Dec) (c : Nat) : Dec :=
  let vs := checkBits m c
  let rs := d.r.getD c []
  let t := vs.zipIdx.map (fun e => at0 d.q e.1 - rs.getD e.2 0)
  let r' := checkMsgs offset t
  let q' := (vs.zip (t.zip r')).foldl (fun q e => q.setIfInBounds e.1 (sat127 (e.2.1 + e.2.2))) d.q
  { q := q', r := d.r.setIfInBounds c r' }

/-- The sum of the check messages at every bit. -/
def sumR (m n : Nat) (r : Array (List Int)) : Array Int :=
  (List.range (257 * m)).foldl (fun acc c =>
    ((checkBits m c).zip (r.getD c [])).foldl (fun acc e => acc.setIfInBounds e.1 (at0 acc e.1 + e.2)) acc)
    (Array.replicate n 0)

/-- How many checks the hard decisions of `q` leave unsatisfied (R350). -/
def unsat (m : Nat) (q : Array Int) : Nat :=
  ((List.range (257 * m)).filter (fun c =>
    ((checkBits m c).filter (fun v => decide (0 < at0 q v))).length % 2 = 1)).length

/-- The detector parameters of a slot: T1, T2, SCALE and NOISE_SHIFT. -/
structure DetPar where
  t1 : Int
  t2 : Int
  scale : Int
  noise : Nat

/-- ±1 by a bit. -/
def pm (b : Bool) : Int := if b then 1 else -1

/-- The larger of two path metrics, none being no path. -/
def bestOf (a b : Option Int) : Option Int :=
  match a, b with
  | none, x => x
  | x, none => x
  | some x, some y => some (max x y)

/-- The branch metric of R352 for a symbol `a` from the state (a1, a2). -/
def branch (p : DetPar) (z la : Int) (a a1 a2 : Bool) : Int :=
  let d := 512 * z - p.scale * (64 * pm a + p.t1 * pm a1 + p.t2 * pm a2)
  pm a * la - (d * d) / 2 ^ p.noise

/-- The four states (a_{k-1}, a_{k-2}). -/
def trellis : List (Bool × Bool) := [(false, false), (true, false), (false, true), (true, true)]

/-- The place of a state in a list of four metrics. -/
def stIdx (a1 a2 : Bool) : Nat := b2n a1 + 2 * b2n a2

/-- One step of the forward recursion. -/
def fwdStep (p : DetPar) (z la : Int) (m : List Int) : List Int :=
  trellis.map (fun s =>
    let a := s.1
    let a1 := s.2
    let via (a2 : Bool) : Int := m.getD (stIdx a1 a2) 0 + branch p z la a a1 a2
    max (via false) (via true))

/-- One step of the backward recursion. -/
def bwdStep (p : DetPar) (z la : Int) (m : List Int) : List Int :=
  trellis.map (fun s =>
    let via (a : Bool) : Int := m.getD (stIdx a s.1) 0 + branch p z la a s.1 s.2
    max (via false) (via true))

/-- The extrinsic output of one symbol (R352). -/
def detOut (p : DetPar) (z la : Int) (f b : List Int) : Int :=
  let best (a : Bool) : Option Int :=
    trellis.foldl (fun acc s => bestOf acc (some (f.getD (stIdx s.1 s.2) 0 + branch p z la a s.1 s.2
      + b.getD (stIdx a s.1) 0))) none
  let app := ((best true).getD 0 - (best false).getD 0) / 2
  sat31 (app - la)

/-- The max-log BCJR detector (R352) over the inputs `z` with the priors `la`: starting from and ending in equally likely
states. -/
def detector (p : DetPar) (z la : List Int) : List Int :=
  let zs := z.zip la
  let fwd := (zs.foldl (fun (acc : List (List Int) × List Int) e => (acc.2 :: acc.1, fwdStep p e.1 e.2 acc.2))
    ([], [0, 0, 0, 0])).1.reverse
  let bwd := (zs.foldr (fun e (acc : List (List Int) × List Int) => (acc.2 :: acc.1, bwdStep p e.1 e.2 acc.2))
    ([], [0, 0, 0, 0])).1
  (zs.zip (fwd.zip bwd)).map (fun e => detOut p e.1.1 e.1.2 e.2.1 e.2.2)

/-- How a job ends: whether its checks are met, its iterations, its unsatisfied checks, and its bit-node totals. -/
structure DecEnd where
  ok : Bool
  iters : Nat
  unsat : Nat
  q : Array Int

/-- The global iterations of R350 with up to `fuel` left: `det` is the detector over la, already summed for a mirror
job. -/
def iterate (det : List Int → List Int) (prior : List Int) (m n : Nat) (offset : Int) :
    Nat → Nat → Dec → DecEnd
  | 0, it, d => { ok := false, iters := it, unsat := unsat m d.q, q := d.q }
  | fuel + 1, it, d =>
    let sr := sumR m n d.r
    let la := (List.range n).map (fun v => sat31 ((if it = 0 then 0 else sat31 (at0 sr v)) + prior.getD v 0))
    let le := det la
    let q := ((List.range n).zip le).map (fun e => sat127 (e.2 + prior.getD e.1 0 + at0 sr e.1))
    let d := (List.range (257 * m)).foldl (checkUpdate m offset) { d with q := q.toArray }
    let u := unsat m d.q
    if u = 0 then { ok := true, iters := it + 1, unsat := 0, q := d.q }
    else iterate det prior m n offset fuel (it + 1) d

/-- A list cut or made up with zeros to `n` entries. -/
def padTo (n : Nat) (l : List Int) : List Int := l.take n ++ List.replicate (n - l.length) 0

/-- A job run to its end (R350, R362). -/
def runJob (code : Bool) (offset : Int) (limit : Nat) (prior : List Int) (ins : List (DetPar × List Int)) : DecEnd :=
  let m := blockRows code
  let n := codeBits code
  let det (la : List Int) : List Int :=
    match ins.map (fun e => detector e.1 (padTo n e.2) la) with
    | [] => List.replicate n 0
    | [a] => a
    | a :: b :: _ => List.zipWith (fun x y => sat31 (x + y)) a b
  iterate det (padTo n (prior.take infoBits)) m n offset limit 0
    { q := Array.replicate n 0, r := Array.replicate (257 * m) [] }

/-- The parity blocks of the encoder by forward substitution (R349). -/
def parityBlocks (m : Nat) (info : Array Bool) : Nat → Array (Array Bool)
  | 0 => #[]
  | r + 1 =>
    let ps := parityBlocks m info r
    let cs := (rowCirculants m r).filter (fun e => e.1 != 128 + r)
    ps.push (Array.ofFn (fun (a : Fin 257) =>
      cs.foldl (fun x e =>
        let b := (a.val + e.2) % 257
        x != (if e.1 < 128 then info.getD (257 * e.1 + b) false else (ps.getD (e.1 - 128) #[]).getD b false)) false))

/-- The codeword of information bits (R345, R349, R392). -/
def ldpcEncode (code : Bool) (info : List Bool) : List Bool :=
  let i := ((info.take infoBits) ++ List.replicate (infoBits - info.length) false).toArray
  i.toList ++ ((parityBlocks (blockRows code) i (blockRows code)).toList.flatMap (fun p => p.toList))

/-- Bytes as bits, bit k of byte i at 8i + k (R345). -/
def bytesToBits (l : List Byte) : List Bool := l.flatMap (fun b => (List.range 8).map (fun k => b.getLsbD k))

/-- Bits as bytes (R345). -/
def bitsToBytes : Nat → List Bool → List Byte
  | 0, _ => []
  | n + 1, l => BitVec.ofNat 8 (maskOf 8 (fun k => l.getD k false)) :: bitsToBytes n (l.drop 8)

end Sys2Proof.Machine
end

