-- ==== Sys2Proof/Machine/Motion.lean ====
section
/-! DEFINITION. What spindles, servos, write gates and the power die share (chapters 4, 5 and 7): unloading heads, the
write-inhibit latch and its rewrites, dropping the write gate, and the retracts. -/

namespace Sys2Proof.Machine
open Sys2Proof

/-- A port's spindle changed. -/
def State.modSpn (s : State) (p : Fin 8) (g : Spindle → Spindle) : State := { s with spn := vmod s.spn p g }

/-- A port's servo changed. -/
def State.modSrv (s : State) (p : Fin 8) (g : Servo → Servo) : State := { s with srv := vmod s.srv p g }

/-- A port's channel changed. -/
def State.modCh (s : State) (p : Fin 8) (g : Chan → Chan) : State := { s with ch := vmod s.ch p g }

/-- A formatter context changed. -/
def State.modFmt (s : State) (p : Fin 8) (g : FmtCtx → FmtCtx) : State := { s with fmt := vmod s.fmt p g }

/-- All ports, in ascending order. -/
def ports : List (Fin 8) := [0, 1, 2, 3, 4, 5, 6, 7]

/-- An operation done for every port in ascending order. -/
def State.eachPort (s : State) (g : Fin 8 → State → State) : State := ports.foldl (fun s p => g p s) s

/-- A context's fault flag set with an asynchronous cause, unless one is already held (Table 10.9). -/
def State.fmtFault (s : State) (p : Fin 8) (cause : Nat) : State :=
  if s.flag (FMT_CTX_FLAGS_FAULT p) then s
  else (s.up (FMT_CTX_FLAGS_FAULT p)).wr (FMT_CTX_FLAGS_ASYNC_CAUSE p) cause

/-- R459 and R460: the write log moves to the rewrite queue of 16 entries; one that does not fit is discarded. -/
def State.moveLog (s : State) (p : Fin 8) (wedge : Nat) : State :=
  let f := s.fmt[p]
  let all := f.rwq ++ f.wlog
  let s := (s.modFmt p (fun f => { f with rwq := all.take 16, wlog := [] })).wr (FMT_CTX_RWQ_LAST_GOOD p) wedge
  let s := s.wr (FMT_CTX_RWQ_LEN_ENTRIES p) (min all.length 16)
  if 16 < all.length then
    ((s.up (FMT_CTX_RWQ_OVF p)).up (FMT_CTX_EVENT_RWQ_OVF p)).fmtFault p 3
  else s

/-- Pn_PA_WG deasserted: a write under way is cut (R331); WRITE_CUT reports it. -/
def State.dropWg (s : State) (p : Fin 8) : State :=
  let s := if s.ch[p].writing then s.modCh p (fun c => { c with cut := true }) else s
  s.down (CH_STATUS_WG p)

/-- The write-inhibit latch of a port set (R245 to R249): the write gate drops, WRITE_OK falls, the setting is counted
and the write log moves. A latch already set is not set again. -/
def State.inhibit (s : State) (p : Fin 8) : State :=
  let s := ((s.dropWg p).down (SRV_STATUS_WRITE_OK p)).modSrv p (fun v => { v with writeRun := 0 })
  if s.flag (SRV_STATUS_WI_LATCH p) then s
  else
    (((s.up (SRV_STATUS_WI_LATCH p)).inc (SRV_COUNT_WI p)).up (SRV_EVENT_WI p)).moveLog p s.srv[p].lastGood

/-- What SHOCK_N low does to a port (R247): the latch is set, and held from then on. -/
def State.shockLatch (s : State) (p : Fin 8) : State :=
  (s.inhibit p).modSrv p (fun v => { v with shockHeld := true, shockLeft := 0 })

/-- Whether a port's spindle and servo logic runs: its domain is on and the SERVO clock's PLL holds its lock (R48). -/
def State.portRuns (s : State) (p : Fin 8) : Bool := s.on (2 + p.val) && !s.pw.lostLock.getLsbD 3

/-! ## Roles of the loop contexts (R255 to R260) -/

/-- A context changed. -/
def State.modCtx (s : State) (c : Fin 24) (g : SceCtx → SceCtx) : State :=
  { s with sce := { s.sce with ctx := vmod s.sce.ctx c g } }

/-- One of the 24 contexts by number. -/
def ctxOf (n : Nat) : Fin 24 := ⟨n % 24, Nat.mod_lt _ (by decide)⟩

/-- The port of a context (R255). -/
def ctxPort (c : Fin 24) : Fin 8 := fin8 (c.val / 3)

/-- The kind of a context: 0 position, 1 seek, 2 spindle (R255). -/
def ctxKind (c : Fin 24) : Nat := c.val % 3

/-- Whether a port's VCM contexts only track, whatever the port's state (R257). -/
def State.vcmForced (s : State) (p : Fin 8) : Bool :=
  s.flag (VCM_CTRL_SRC p) || !s.flag (VCM_CTRL_ENABLE p) || s.flag (VCM_STATUS_FAULT_OC p)
    || s.flag PS_STATUS_RETRACTED

/-- A context's role now (R257, R259): 0 idle, 1 driving, 2 tracking. -/
def State.role (s : State) (c : Fin 24) : Nat :=
  let p := ctxPort c
  let st := s.rd (SRV_STATUS_STATE p)
  if ctxKind c = 2 then
    let sp := s.rd (SPN_STATUS_STATE p)
    if sp = 4 ∨ sp = 5 then (if s.flag (SPN_DUTY_PIN_PIN_EN p) then 2 else 1) else 0
  else if s.vcmForced p then 2
  else if ctxKind c = 0 then (if st = 3 ∨ st = 4 then 1 else 2)
  else if st = 5 ∨ (st = 7 ∧ s.srv[p].guided) then 1
  else 2

/-- R280: the count of saturated updates restarts for each context of a port that drives now and did not in `old`. Its
episode of R37 goes on. -/
def State.redriven (s old : State) (p : Fin 8) : State :=
  [0, 1, 2].foldl (fun (t : State) k =>
    let c := ctxOf (3 * p.val + k)
    if s.role c = 1 ∧ old.role c ≠ 1 then t.modCtx c (fun x => { x with sat := { x.sat with run := 0 } }) else t) s

/-- The states preset from a measured output U (R258, R260). -/
def State.preset (s : State) (c : Fin 24) (u : Int) : State :=
  s.modCtx c (fun t => { t with m1 := u * 1048576, m2 := 0, m3 := 0, p1 := 0, p2 := 0, q1 := 0, q2 := 0 })

/-! ## States of servo and spindle -/

/-- A port's servo state set. Leaving FOLLOW drops READ_OK and WRITE_OK and sets the write-inhibit latch (R246). -/
def State.srvState (s : State) (p : Fin 8) (st : Nat) : State :=
  let t := if s.rd (SRV_STATUS_STATE p) = 4 ∧ st ≠ 4 then (s.inhibit p).down (SRV_STATUS_READ_OK p) else s
  (t.wr (SRV_STATUS_STATE p) st).redriven s p

/-- A port's spindle state set. -/
def State.spnState (s : State) (p : Fin 8) (st : Nat) : State := (s.wr (SPN_STATUS_STATE p) st).redriven s p

/-- The effective governor level: 15 while PD_SERVO is off (R101). -/
def State.govLevel (s : State) : Nat := if s.on 14 then s.rd GOV_STATUS_EFFECTIVE else 15

/-- PS_STATUS.SPINUPS shows how many spin-ups are under way (R178). -/
def State.countSpinups (s : State) : State :=
  s.wr PS_STATUS_SPINUPS (countIdx 8 (fun p => s.spn[fin8 p].underWay))

/-- A spin-up ends (R178). -/
def State.endSpinup (s : State) (p : Fin 8) : State :=
  (s.modSpn p (fun x => { x with underWay := false, clipTold := false })).countSpinups

/-- A seek of the formatter ends for WAIT's SEEK_END (Table 10.4). -/
def State.seekEnds (s : State) (p : Fin 8) (ok : Bool) : State :=
  s.modFmt p (fun f => { f with seekEnd := true, seekOk := ok })

/-- SPN_PERIOD reports no valid measurement (R169), and the observer's runs start anew. -/
def State.noPeriod (s : State) (p : Fin 8) : State :=
  (s.wr (SPN_PERIOD_MEASURED p) 0xFFFFFF).modSpn p (fun x =>
    { x with zc := 0, revZc := 0, revTicks := 0, tolRun := 0, devRun := 0 })

/-- Whether the power die ignores spindle and VCM commands (R201): RETRACTED is latched, or a retract runs at whose end it
latches (Table 4.6), of which R201 does not speak (DESIGN CHOICE, log entry 22). -/
def State.dieHeld (s : State) : Bool := s.flag PS_STATUS_RETRACTED || s.die.cause != 0

/-! ## The drives that the power die runs on a VCM (R193, R200, R240, R243) -/

/-- The limit of VCM_RETRACT.I_BREAK in mA; above 150 it acts as 150. -/
def State.breakMa (s : State) (p : Fin 8) : Nat := 2 * min 150 (s.rd (VCM_RETRACT_I_BREAK p))

/-- The sign of a current towards the ramp (VCM_RETRACT.DIR). -/
def State.rampSign (s : State) (p : Fin 8) : Int := if s.flag (VCM_RETRACT_DIR p) then -1 else 1

/-- The three phases of a retract's profile, the last with `hold` mA. -/
def State.profileOf (s : State) (p : Fin 8) (hold : Nat) : List VcmPhase :=
  [ .current 2000 (s.rampSign p * s.breakMa p)
  , .backEmf (some 26000) (s.rampSign p * (4 * s.rd (VCM_RETRACT_VEL p) : Nat)) (s.breakMa p) (s.rd (VCM_COIL_RES_RES p))
  , .current 2000 (s.rampSign p * hold) ]

/-- The profile of a retract (R200): I_BREAK towards the ramp, the back-EMF held at VEL, and I_HOLD into the ramp stop. An
unload's back-EMF profile (R243) is the same. -/
def State.retractProfile (s : State) (p : Fin 8) : List VcmPhase := s.profileOf p (s.rd (VCM_RETRACT_I_HOLD p))

/-- The profile of a port's own retract, its whole drive limited to I_BREAK (R193). -/
def State.ownProfile (s : State) (p : Fin 8) : List VcmPhase :=
  s.profileOf p (min (s.breakMa p) (s.rd (VCM_RETRACT_I_HOLD p)))

/-- The drive of a load (R240): away from the ramp, the back-EMF held at LOAD_VEL until servo is acquired. -/
def State.loadDrive (s : State) (p : Fin 8) : List VcmPhase :=
  [.backEmf none (-(s.rampSign p * (4 * s.rd (SRV_LOAD_LOAD_VEL p) : Nat))) (s.breakMa p) (s.rd (VCM_COIL_RES_RES p))]

/-- The power die drives a port's VCM by a profile. A profile that runs on is kept. -/
def State.runDrive (s : State) (p : Fin 8) (d : List VcmPhase) : State :=
  s.modSrv p (fun v => { v with drive := d, hiZ := false })

/-- The back-EMF profile of an unload begins (R243, R244); a retract that runs on the port goes on (R193, R200). -/
def State.backEmfUnload (s : State) (p : Fin 8) : State :=
  if s.flag (VCM_STATUS_RETRACTING p) then s else s.runDrive p (s.retractProfile p)

/-- Whether servo is valid on a port: it tracks, settles or seeks (R243). -/
def State.servoValid (s : State) (p : Fin 8) : Bool :=
  s.rd (SRV_STATUS_STATE p) == 3 || s.rd (SRV_STATUS_STATE p) == 4 || s.rd (SRV_STATUS_STATE p) == 5

/-- The hardware unload (R243, R244, R254): guided to the unload track where servo is valid, else the back-EMF profile
at once. In UNLOADED and UNLOADING it changes nothing. -/
def State.unload (s : State) (p : Fin 8) : State :=
  let st := s.rd (SRV_STATUS_STATE p)
  if st = 0 ∨ st = 7 then s
  else
    let g := s.servoValid p
    let s := if s.srv[p].seeking then s.seekEnds p false else s
    let s := s.modSrv p (fun v =>
      { v with guided := g, seeking := false, accel := 15, loadPending := false, pendHead := none, acqRun := 0 })
    let s := s.srvState p 7
    if g then s else s.backEmfUnload p

/-- The port is UNLOADED: heads parked, the VCM high-Z, every run cleared. -/
def State.park (s : State) (p : Fin 8) : State :=
  let s := if s.srv[p].seeking then s.seekEnds p false else s
  (s.srvState p 0).modSrv p (fun v =>
    { v with loaded := false, checked := false, guided := false, seeking := false, loadPending := false, pendHead := none,
             badRun := 0, readRun := 0, writeRun := 0, acqRun := 0, posSeen := false, cmd := 0, gateOpen := false,
             drive := [], hiZ := true })

/-- A spindle fault latched (R166): half-bridges high-Z, the heads' unload requested, FAULT with its cause. The
measurement of R169 starts anew. -/
def State.spindleFault (s : State) (p : Fin 8) (cause : Nat) : State :=
  let s := (((s.spnState p 9).wr (SPN_STATUS_FAULT_CAUSE p) cause).up (SPN_EVENT_FAULT p)).noPeriod p
  let s := (s.modSpn p (fun x =>
    { x with duty := 0, dutyNow := 0, onTime := 0, heldOff := 0, still := false, fly := false, retryWait := false })).endSpinup p
  (s.unload p).fmtFault p 5

/-- A port's spindle made to coast with its bridges high-Z. -/
def State.coast (s : State) (p : Fin 8) : State :=
  (s.spnState p 6).modSpn p (fun x => { x with duty := 0, dutyNow := 0, onTime := 0, heldOff := 0 })

/-- BRAKE entered: both low-side switches of each phase on, so that no back-EMF is left to measure. -/
def State.brake (s : State) (p : Fin 8) : State :=
  ((s.spnState p 8).noPeriod p).modSpn p (fun x => { x with duty := 0, dutyNow := 0, onTime := 0, heldOff := 0 })

/-- ACCEL entered with the duty in force, from which the spindle context is preset (R260). -/
def State.toAccel (s : State) (p : Fin 8) (duty : Nat) : State :=
  let s := (s.spnState p 4).modSpn p (fun x =>
    { x with tolRun := 0, devRun := 0, missRun := 0, errRun := 0, crossed := true, errStep := false, unlocked := false,
             duty := duty })
  s.preset (ctxOf (3 * p.val + 2)) duty

/-- A flying restart drives again: ACCEL with no spin-up slot, from a duty of 0, and FLY_OK (R189, R260). -/
def State.flyAccel (s : State) (p : Fin 8) : State := (s.toAccel p 0).up (SPN_EVENT_FLY_OK p)

/-- The spindle goes on to the state it was bound for: COAST, BRAKE, or ACCEL after a flying restart. -/
def State.spnGo (s : State) (p : Fin 8) (st : Nat) : State :=
  if st = 6 then s.coast p else if st = 8 then s.brake p else s.flyAccel p

/-- The spindle's next state once any head is unloaded: through UNLOADING where heads are loaded (R184, R189). -/
def State.spnAfterUnload (s : State) (p : Fin 8) (st : Nat) : State :=
  if s.srv[p].loaded then
    let b := s.rd (SPN_STATUS_STATE p)
    ((s.modSpn p (fun x => { x with before := b, after := st })).spnState p 7).unload p
  else s.spnGo p st

/-- A spindle held in UNLOADING goes on, its heads being parked (R184, R189). -/
def State.spnRelease (s : State) (p : Fin 8) : State :=
  if s.rd (SPN_STATUS_STATE p) = 7 then s.spnGo p s.spn[p].after else s

/-- An unload ends (R243): the port is UNLOADED, and a spindle held in UNLOADING goes on to its next state. -/
def State.unloaded (s : State) (p : Fin 8) : State :=
  ((s.park p).up (SRV_EVENT_UNLOAD_DONE p)).spnRelease p

/-- A failed spin-up or flying restart (R182): high-Z; a retry waits for the stop, or a fault with cause 3 latches. Heads
that an UNLOADING was parking go on being unloaded. -/
def State.spinFailed (s : State) (p : Fin 8) : State :=
  let s := (s.coast p).up (SPN_EVENT_SPINUP_FAIL p)
  if s.flag (SPN_CTRL_AUTO_RETRY p) && !s.flag (SPN_STATUS_RETRY_USED p) then
    (s.up (SPN_STATUS_RETRY_USED p)).modSpn p (fun x => { x with retryWait := true, fly := false })
  else s.spindleFault p 3

/-! ## Retracts -/

/-- Whether a port's spindle turns at 70 % of its nominal speed or more by its last measurement (R207): SPN_PERIOD, or where
that shows no valid one the last before it, 0 from the stop on (DESIGN CHOICE, log entry 22). -/
def State.fastEnough (s : State) (p : Fin 8) : Bool :=
  let shown := s.rd (SPN_PERIOD_MEASURED p)
  let period := if shown = 0xFFFFFF then s.spn[p].pLast else shown
  decide (period ≠ 0 ∧ period * 7 ≤ s.rd (SPN_TARGET_PERIOD p) * 10)

/-- The start of a retract with a cause (R197, R199, R200, R202, R203): every bridge rectifies, each driven spindle
coasts with no restart left to make, and the profile runs on each port whose heads were loaded. A trigger during a retract
sets the bits and raises the source of its own cause, and the retract goes on with its first cause, ports and profile; one
that comes while RETRACTED is latched starts a retract of its own (DESIGN CHOICE, log entry 22). -/
def State.startRetract (s : State) (cause : Nat) : State :=
  let s := if cause ≤ 3 then (s.pwrEvent 5).eachPort (fun p s => s.dropWg p) else s
  let s := if cause = 1 then (s.up SYS_PROTECT_VMOT_LOSS).down PS_STATUS_VMOT_OK else s
  let s := if cause = 4 then ((s.up SYS_PROTECT_THERM_POWER).pwrEvent 4).up PS_STATUS_THERM_SHUTDOWN else s
  if s.die.cause ≠ 0 then s
  else
    let mask := maskOf 8 (fun p => s.srv[fin8 p].loaded)
    let fast := maskOf 8 (fun p => s.srv[fin8 p].loaded && s.fastEnough (fin8 p))
    let s := { s with die := { s.die with cause := cause, ports := BitVec.ofNat 8 mask, full := BitVec.ofNat 8 fast } }
    s.eachPort (fun p s =>
      let st := s.rd (SPN_STATUS_STATE p)
      let s := if 2 ≤ st ∧ st ≤ 8 then (s.coast p).modSpn p (fun x => { x with fly := false }) else s
      if s.srv[p].loaded then ((s.inhibit p).up (VCM_STATUS_RETRACTING p)).runDrive p (s.retractProfile p) else s)

/-- Whether a register is held in the power die (Table 4.7). -/
def isDie (a : Nat) : Bool :=
  match regAt a with
  | some (r, _) => r.dom == .pdie
  | none => false

/-- VMOT and VRET are both below 3.0 V: the power die's registers reset, and nothing of a retract is left (Table 4.7).
VMOT_OK shows that VMOT is absent. -/
def State.dieLost (s : State) : State :=
  (({ s with regs := smDrop isDie s.regs, die := { vret := false } }).down PS_STATUS_VMOT_OK).countSpinups

/-- The end of a retract's profile (R200, R201, R207): the VCMs high-Z, RETRACTED latched with its cause and ports, and
each of those ports UNLOADED. Where VRET did not last with VMOT absent, the heads of a port whose spindle turned below 70 %
of nominal stay where they are, and the power die is lost. -/
def State.endRetract (s : State) (vret : Bool) : State :=
  if s.die.cause = 0 then s
  else
    let d := s.die
    let dead := !vret && !s.flag PS_STATUS_VMOT_OK
    let s := ((s.up PS_STATUS_RETRACTED).wr PS_STATUS_RETRACT_CAUSE d.cause).wr PS_STATUS_RETRACTED_PORTS d.ports.toNat
    let s := { s with die := { vret := s.die.vret } }
    let s := s.eachPort (fun p s =>
      let s := s.fmtFault p 5
      if d.ports.getLsbD p then
        (if dead && !d.full.getLsbD p then s.modSrv p (fun v => { v with drive := [], hiZ := true }) else s.park p).down
          (VCM_STATUS_RETRACTING p)
      else s)
    if dead then s.dieLost else s

/-- The end of a port's own retract after an over-current (R193): the VCM high-Z, the heads parked, and a spindle held in
UNLOADING going on. An emergency retract that has taken the port over ends with the others. -/
def State.endOwnRetract (s : State) (p : Fin 8) : State :=
  if s.flag (VCM_STATUS_RETRACTING p) && !(s.die.cause != 0 && s.die.ports.getLsbD p) then
    ((s.park p).down (VCM_STATUS_RETRACTING p)).spnRelease p
  else s

end Sys2Proof.Machine
end

