-- ==== Sys2Proof/Machine/IduOps.lean ====
section
/-! DEFINITION. The IDU Pool's operations on slots, jobs and completions (R355 to R379, R390). Slot states are the
numbers of Table 8.4. -/

namespace Sys2Proof.Machine
open Sys2Proof

/-- One of 48 slots by number. -/
def slotOf (n : Nat) : Fin 48 := ⟨n % 48, Nat.mod_lt _ (by decide)⟩

/-- One of six IDUs by number. -/
def iduOf (n : Nat) : Fin 6 := ⟨n % 6, Nat.mod_lt _ (by decide)⟩

/-- The pool changed. -/
def State.modIdu (s : State) (g : IduPool → IduPool) : State := { s with idu := g s.idu }

/-- A slot's areas changed. -/
def State.modSlot (s : State) (j : Fin 48) (g : LlrSlot → LlrSlot) : State :=
  s.modIdu (fun u => { u with slots := vmod u.slots j g })

/-- How many slots a port holds. -/
def State.heldBy (s : State) (n : Nat) : Nat :=
  countIdx 48 (fun j => s.rd (IDU_SLOT_STATE j) != 0 && s.rd (IDU_SLOT_OWNER j) == n)

/-- The free slots. -/
def State.freeSlots (s : State) : Nat := countIdx 48 (fun j => s.rd (IDU_SLOT_STATE j) == 0)

/-- The slots that ports still lack to reach their MIN quotas (R356). -/
def State.owedSlots (s : State) : Nat :=
  (List.range 8).foldl (fun a n => a + (s.rd (IDU_QUOTA_MIN n) - s.heldBy n)) 0

/-- IDU_SLOT_FREE brought up to the slots. -/
def State.slotCounts (s : State) : State :=
  (s.wr IDU_SLOT_FREE_FREE s.freeSlots).wr IDU_SLOT_FREE_RESERVED_SUM s.owedSlots

/-! ## The areas of a slot (R344, R345) -/

/-- How many values an area holds: 0 IN, 1 PRIOR, 2 SOFT, 3 DEC. -/
def areaSize (area : Nat) : Nat := if area = 0 then 41120 else infoBits

/-- How many bits a value of an area has. -/
def areaBits (area : Nat) : Nat := if area = 0 then 5 else if area = 3 then 1 else 6

/-- The first and the last byte of an area that value `i` lies in. Values stand one behind the other from bit 0 of byte 0,
as R345 states for DEC (DEDUCED, log entry 25). -/
def valueBytes (area i : Nat) : Nat × Nat :=
  (i * areaBits area / 8, (i * areaBits area + areaBits area - 1) / 8)

/-- The value of an area at an index, 0 where the area has none. -/
def LlrSlot.value (x : LlrSlot) (area i : Nat) : Int :=
  if areaSize area ≤ i then 0
  else if area = 0 then x.inp.getD i 0
  else if area = 1 then x.prior.getD i 0
  else if area = 2 then x.soft.getD i 0
  else if x.dec.getD i false then 1 else 0

/-- An entry of a list of numbers set, the list made long enough. -/
def setInt (l : List Int) (i : Nat) (v : Int) : List Int := (padTo (max l.length (i + 1)) l).set i v

/-- An area of a slot with one value set, saturated to the area's range (R391). There is no value beyond an area's end. -/
def LlrSlot.put (x : LlrSlot) (area i : Nat) (v : Int) : LlrSlot :=
  if areaSize area ≤ i then x
  else if area = 0 then { x with inp := setInt x.inp i (clampInt (-15) 15 v) }
  else if area = 1 then { x with prior := setInt x.prior i (sat31 v) }
  else if area = 2 then { x with soft := setInt x.soft i (sat31 v) }
  else { x with dec := (x.dec ++ List.replicate (i + 1 - x.dec.length) false).set i (decide (0 < v)) }

/-- The LLR Store's check-bit key of a location (Table 16.2, ID 6). -/
def llrLoc (slot area i : Nat) : Nat := slot * 2 ^ 24 + area * 2 ^ 20 + i

/-- The bytes of an area of a slot whose check bits are not right, with those bits. -/
def State.llrOff (s : State) (slot area : Nat) : List (Nat × BitVec 5) :=
  (s.ecc.filter (fun e => decide (eccKey 6 (llrLoc slot area 0) ≤ e.1 ∧ e.1 < eccKey 6 (llrLoc slot area 65536)))).map
    (fun e => (e.1 - eccKey 6 (llrLoc slot area 0), e.2))

/-- The bytes of an area of a slot that hold an uncorrectable error. -/
def State.llrBad (s : State) (slot area : Nat) : List Nat :=
  ((s.llrOff slot area).filter (fun e => eccClass e.2 == .uncorr)).map Prod.fst

/-- Whether value `i` of an area lies in one of the bytes `bad`. -/
def hitBy (bad : List Nat) (area i : Nat) : Bool :=
  bad.any (fun b => decide ((valueBytes area i).1 ≤ b ∧ b ≤ (valueBytes area i).2))

/-- The errors that a read of an area meets in its first `n` bytes, counted and captured (R712). -/
def State.llrNote (s : State) (slot area n : Nat) : State :=
  ((s.llrOff slot area).filter (fun e => decide (e.1 < n))).foldl (fun s e => s.eccNote 6 (llrLoc slot area e.1) e.2) s

/-- Value `i` of an area as a read delivers it, from its value `v` and the area's bytes `off` whose check bits are not right: each
data bit at a correctable syndrome is inverted (R705, R710). -/
def llrFixed (off : List (Nat × BitVec 5)) (area i : Nat) (v : Int) : Int :=
  let w := areaBits area
  let m := maskOf w (fun k => off.any (fun e => e.1 == (i * w + k) / 8 && (eccFlip e.2).getLsbD ((i * w + k) % 8)))
  if m = 0 then v
  else if area = 3 then 1 - v
  else signedOf w (unsignedOf w v ^^^ m)

/-- A value of an area as it reads: 0 where an uncorrectable error touches it (R388). -/
def llrValue (off : List (Nat × BitVec 5)) (bad : List Nat) (area i : Nat) (v : Int) : Int :=
  if hitBy bad area i then 0 else llrFixed off area i v

/-- The values of PRIOR or SOFT as they read (R388, R710). -/
def State.readMsgs (s : State) (slot area : Nat) : List Int :=
  let x := s.idu.slots[slotOf slot]
  let l := if area = 1 then x.prior else x.soft
  match s.llrOff slot area with
  | [] => l
  | off => l.zipIdx.map (fun e => llrValue off (s.llrBad slot area) area e.2 e.1)

/-- The decisions of DEC as they read (R388, R710). -/
def State.readDec (s : State) (slot : Nat) : List Bool :=
  let l := s.idu.slots[slotOf slot].dec
  match s.llrOff slot 3 with
  | [] => l
  | off => l.zipIdx.map (fun e => llrValue off (s.llrBad slot 3) 3 e.2 (if e.1 then 1 else 0) != 0)

/-- The values of IN as they read, with correctable errors corrected (R710). -/
def State.readIn (s : State) (slot : Nat) : List Int :=
  let l := s.idu.slots[slotOf slot].inp
  match s.llrOff slot 0 with
  | [] => l
  | off => l.zipIdx.map (fun e => llrFixed off 0 e.2 e.1)

/-- The information bits a slot decoded to, as bytes, with the errors met noted. -/
def State.decBytes (s : State) (j : Nat) : List Byte × State :=
  (bitsToBytes (infoBits / 8) (s.readDec j), s.llrNote j 3 65536)

/-- An area written afresh: its check bits are right, but for an armed injection, which its first byte takes (R731). -/
def State.llrFresh (s : State) (slot area : Nat) : State :=
  let s := { s with ecc := smDrop (fun k => decide (eccKey 6 (llrLoc slot area 0) ≤ k
    ∧ k < eccKey 6 (llrLoc slot area 65536))) s.ecc }
  s.writeEcc 6 (llrLoc slot area 0) false

/-- One value of an area written, the check bits of its bytes with it (log entry 25). -/
def State.putValue (s : State) (slot area i : Nat) (v : Int) : State :=
  if areaSize area ≤ i then s
  else
    let s := s.modSlot (slotOf slot) (fun x => x.put area i v)
    let b := valueBytes area i
    let s := if b.1 = b.2 then s else { s with ecc := smSet (fun _ => 0) (eccKey 6 (llrLoc slot area b.2)) 0 s.ecc }
    s.writeEcc 6 (llrLoc slot area b.1) false

/-! ## Slots -/

/-- A slot's state set. -/
def State.setSlot (s : State) (j st : Nat) : State := (s.wr (IDU_SLOT_STATE j) st).slotCounts

/-- The lowest free slot. -/
def State.lowestFree (s : State) : Option Nat := lowestIdx 48 (fun j => s.rd (IDU_SLOT_STATE j) == 0)

/-- A slot given to an owner in FILLING. -/
def State.giveSlot (s : State) (j owner : Nat) : State := (s.wr (IDU_SLOT_OWNER j) owner).setSlot j 1

/-- A port's allocation under its quotas (R356, R357). -/
def State.portAlloc (s : State) (p : Fin 8) : Option Nat × State :=
  let held := s.heldBy p.val
  let mn := s.rd (IDU_QUOTA_MIN p)
  let mx := max mn (s.rd (IDU_QUOTA_MAX p))
  let may := decide (held < mn) || (decide (held < mx) && decide (s.owedSlots < s.freeSlots))
  match (if may then s.lowestFree else none) with
  | some j => (some j, s.giveSlot j p.val)
  | none => (none, (s.inc IDU_COUNT_ALLOC_FAIL).setBit IDU_EVENT_EV 7)

/-- A slot made FREE. -/
def State.freeSlot (s : State) (j : Nat) : State := s.setSlot j 0

/-- A completion posted on its ring, or held while the ring refuses it (R363, R390); in IDLE the CORE clock returns
(R1074). -/
def State.postIdu (s : State) (ring : Nat) (e : List Byte) : State :=
  if s.idu.held.any (fun h => h.1 == ring) then s.modIdu (fun u => { u with held := u.held ++ [(ring, e)] })
  else
    match (s.enqWake ring).enqueue ring e with
    | (.ok, s) => s
    | (_, s) => s.modIdu (fun u => { u with held := u.held ++ [(ring, e)] })

/-- The completion ring paired with a job ring (Table 8.3). -/
def complRing (r : Nat) : Nat := if r = 208 then 209 else r + 8

/-- A completion entry (Table 8.6). -/
def iduEntry (j : Job) (status iters unsat info5 : Nat) : List Byte :=
  leBytes 2 j.id ++ leBytes 1 j.slot ++ leBytes 1 status ++ leBytes 1 (iters % 16 + 16 * (j.limit % 16))
    ++ leBytes 1 (j.idu % 8 + 8 * b2n j.reissued + 16 * b2n j.redone + 32 * info5) ++ leBytes 2 (min unsat 0xFFFF)
    ++ sliceB j.tag 0 8

/-- A job completed with a status. -/
def State.completeJob (s : State) (j : Job) (status iters unsat info5 : Nat) : State :=
  s.postIdu (complRing j.ring) (iduEntry j status iters unsat info5)

/-- The slots of a job with whether each was HELD. -/
def Job.slots (j : Job) : List (Nat × Bool) :=
  if j.mirror then [(j.slot, j.held1), (j.slot2, j.held2)] else [(j.slot, j.held1)]

/-- A job's slots moved to their state at completion (R361); a LOST slot stays LOST. -/
def State.endSlots (s : State) (j : Job) : State :=
  j.slots.foldl (fun s e =>
    if s.rd (IDU_SLOT_STATE e.1) = 7 then s else s.setSlot e.1 (if j.hold || e.2 then 6 else 5)) s

/-- A signed byte of an entry. -/
def sByte (l : List Byte) (off : Nat) : Int := signedOf 8 (fieldB l off 1)

/-- A job entry's fields (Table 8.5), from ring `ring`. -/
def jobOf (ring : Nat) (e : List Byte) : Job :=
  let fl := fieldB e 3 1
  { ring := ring, id := fieldB e 0 2, slot := fieldB e 2 1 % 64, code := fl.testBit 0, keep := fl.testBit 1,
    hold := fl.testBit 2, usePrior := fl.testBit 3, mirror := fl.testBit 4, f := fieldB e 4 1 % 16,
    slot2 := fieldB e 5 1 % 64,
    p1 := [sByte e 6, sByte e 7, (fieldB e 8 1 : Nat), (fieldB e 9 1 : Nat)],
    p2 := [sByte e 10, sByte e 11, (fieldB e 12 1 : Nat), (fieldB e 13 1 : Nat)],
    tag := sliceB e 16 8, held1 := false, held2 := false, limit := 0, idu := 0, redone := false, reissued := false,
    again := false, req := 0, released := [] }

/-- Whether a release has withdrawn a job (R365). -/
def Job.withdrawn (j : Job) : Bool := !j.released.isEmpty

/-- Whether an entry has a reserved bit at 1 (Table 8.5). -/
def jobReserved (e : List Byte) : Bool :=
  fieldB e 2 1 / 64 != 0 || fieldB e 3 1 / 32 != 0 || fieldB e 4 1 / 16 != 0 || fieldB e 5 1 / 64 != 0
    || fieldB e 9 1 / 32 != 0 || fieldB e 13 1 / 32 != 0 || fieldB e 14 2 != 0 || fieldB e 24 8 != 0

/-- Whether a slot may be named by a job of a ring (R360). -/
def State.jobSlotOk (s : State) (ring slot : Nat) : Bool :=
  decide (slot < 48) && (if ring = 208 then s.rd (IDU_SLOT_STATE slot) == 2 || s.rd (IDU_SLOT_STATE slot) == 6
    else s.rd (IDU_SLOT_STATE slot) == 2 && s.rd (IDU_SLOT_OWNER slot) == ring - 192)

/-- Whether an IDU is fenced. -/
def State.fenced (s : State) (i : Fin 6) : Bool := s.bit IDU_FENCE_FENCED i.val

/-- Whether every IDU is fenced (R379). -/
def State.allFenced (s : State) : Bool := s.rd IDU_FENCE_FENCED == 63

/-- R379: POOL_EMPTY is raised once on entering the condition that every IDU is fenced. -/
def State.poolEmpty (s : State) : State :=
  if s.allFenced then
    if s.idu.emptyTold then s
    else (s.setBit IDU_EVENT_EV 1).modIdu (fun u => { u with emptyTold := true })
  else s.modIdu (fun u => { u with emptyTold := false })

/-- A test that is due starts once its IDU is free (R374). -/
def State.katFree (s : State) (i : Fin 6) : State :=
  if s.idu.katDue.getLsbD i.val && s.idu.running[i].isNone then
    s.modIdu (fun u => { u with kat := u.kat.set i (max 1 u.kat[i]), katDue := u.katDue &&& ~~~(1#6 <<< i.val) })
  else s

/-- An IDU fenced (R375, R376): its job is re-issued from its slot's input LLRs, and a FAULT record is posted. -/
def State.fence (s : State) (i : Fin 6) (cause : Nat) : State :=
  let job := s.idu.running[i]
  let s := (s.setBit IDU_FENCE_FENCED i.val).up IDU_FENCE_POOL_DEGRADED
  let c := s.rd IDU_FENCE_CAUSE
  let s := s.wr IDU_FENCE_CAUSE (c - bitsOf c (3 * i.val) 3 * 2 ^ (3 * i.val) + cause * 2 ^ (3 * i.val))
  let s := s.setBit IDU_EVENT_EV 0
  let s := s.modIdu (fun u => { u with
    running := u.running.set i none
    kat := if u.kat[i] = 2 then u.kat.set i 1 else u.kat
    reissue := match job with
      | some j => u.reissue ++ [{ j with reissued := true, again := true }]
      | none => u.reissue })
  let s := s.katFree i
  let s :=
    match job with
    | some j => j.slots.foldl (fun (s : State) (e : Nat × Bool) => if s.rd (IDU_SLOT_STATE e.1) = 7 then s else s.setSlot e.1 3) s
    | none => s
  let pay := leBytes 1 i.val ++ leBytes 1 cause ++ leBytes 1 (b2n job.isSome) ++ zerosB 1
    ++ (match job with
        | some j => leBytes 2 j.id ++ leBytes 1 j.slot
        | none => zerosB 3)
  (s.postIdu 448 (almEntry 2 0x0601 64 pay)).poolEmpty

/-- The Power Governor's iteration ceiling (Table 2.10). -/
def State.iterCeiling (s : State) : Nat := max 1 s.govLevel

/-- A job's requested F: 0 asks for ITER_MAX (Table 8.5). -/
def State.jobF (s : State) (j : Job) : Nat := if j.f = 0 then s.rd IDU_ITER_ITER_MAX else j.f

/-- The ring of a place in the round robin of R366. -/
def robinRing (r : Nat) : Nat := if r = 8 then 208 else 192 + r

/-- The next job by the order of R366, and the pool without it. A withdrawn job is passed over (R365). -/
def State.nextJob (s : State) : Option Job × State :=
  let live (j : Job) : Bool := !j.withdrawn
  match s.idu.reissue.find? live with
  | some j => (some j, s.modIdu (fun u => { u with reissue := u.reissue.erase j }))
  | none =>
    match s.idu.redisp.find? live with
    | some j => (some j, s.modIdu (fun u => { u with redisp := u.redisp.erase j }))
    | none =>
      let order := (List.range 9).map (fun k => (s.idu.lastRing + 1 + k) % 9)
      let head (r : Nat) : Option Job := s.idu.accepted.find? (fun j => live j && j.ring == robinRing r)
      match order.find? (fun r => (head r).isSome) with
      | none => (none, s)
      | some r =>
        (head r, s.modIdu (fun u => { u with
          lastRing := r
          accepted := match head r with
            | some j => u.accepted.erase j
            | none => u.accepted }))

/-- The detector parameters as a job carries them. -/
def detPar (p : List Int) : DetPar :=
  { t1 := p.getD 0 0, t2 := p.getD 1 0, scale := p.getD 2 0, noise := (p.getD 3 0).toNat }

/-- A running job taken off its IDU, whose due test then starts (R374). -/
def State.idle (s : State) (i : Fin 6) : State :=
  (s.modIdu (fun u => { u with running := u.running.set i none })).katFree i

/-- What a job's end writes into its first slot: the decisions, and with KEEP_SOFT the soft values (R353). -/
def State.putResult (s : State) (j : Job) (d : DecEnd) : State :=
  let info := (List.range infoBits).map (fun v => at0 d.q v)
  let s := s.modSlot (slotOf j.slot) (fun x => { x with
    dec := info.map (fun q => decide (0 < q))
    soft := if j.keep then info.map (fun q => if d.ok then (if 0 < q then 31 else -31) else sat31 q) else x.soft })
  let s := s.llrFresh j.slot 3
  if j.keep then s.llrFresh j.slot 2 else s

/-- A job ended with a decoder's outcome (R361, R363, R370), its result written. -/
def State.jobEnded (s : State) (i : Fin 6) (j : Job) (d : DecEnd) : State :=
  let s := (s.idle i).putResult j d
  if d.ok then (s.endSlots j).completeJob j 0 d.iters 0 0
  else
    let s := if j.limit = s.rd IDU_GOV_STATUS_EFF_B then s.modIdu (fun u => { u with starved := true }) else s
    if j.limit < min (s.jobF j) s.iterCeiling ∧ j.redone = false then
      let s := j.slots.foldl (fun s e => s.setSlot e.1 3) s
      s.modIdu (fun u => { u with redisp := u.redisp ++ [{ j with redone := true }] })
    else (s.endSlots j).completeJob j 1 d.iters d.unsat (b2n (decide (j.limit < s.jobF j)))

/-- Every place a job of a slot may stand, waiting jobs and running jobs: the slot is noted as released there. -/
def State.withdraw (s : State) (slot : Nat) : State :=
  let mark (j : Job) : Job :=
    if j.slots.any (fun e => e.1 == slot) && !j.released.contains slot then { j with released := j.released ++ [slot] }
    else j
  s.modIdu (fun u => { u with
    accepted := u.accepted.map mark, reissue := u.reissue.map mark, redisp := u.redisp.map mark
    running := u.running.map (fun r => r.map mark) })

/-- A release of a slot (R364, R365): a job of it is withdrawn, and any other slot becomes FREE. -/
def State.releaseSlot (s : State) (slot : Nat) : State :=
  let st := s.rd (IDU_SLOT_STATE slot)
  if slot < 48 ∧ st ≠ 0 then
    if st = 3 ∨ st = 4 then s.withdraw slot else s.freeSlot slot
  else s

/-- A release by a port through its formatter context: of a slot it owns that is not HELD (R364). -/
def State.portRelease (s : State) (p : Fin 8) (slot : Nat) : State :=
  if s.rd (IDU_SLOT_OWNER slot) = p.val ∧ s.rd (IDU_SLOT_STATE slot) ≠ 6 then s.releaseSlot slot else s

end Sys2Proof.Machine
end

