-- ==== Sys2Proof/Machine/CipherOps.lean ====
section
/-! DEFINITION. The Media Cipher's work on one unit (R763 to R765) and protection information (R393 to R398). -/

namespace Sys2Proof.Machine
open Sys2Proof

/-- The Buffer and Media Ciphers changed. -/
def State.modCip (s : State) (g : Cipher → Cipher) : State := { s with cip := g s.cip }

/-- One of 16 bands by number. -/
def keyBand (n : Nat) : Fin 16 := ⟨n % 16, Nat.mod_lt _ (by decide)⟩

/-- A count of units in flight changed (R783). -/
def State.flight (s : State) (band : Nat) (g : Nat → Nat) : State :=
  s.modCip (fun c => { c with inFlight := vmod c.inFlight (keyBand band) g })

/-- One 4096-byte unit through the Media Cipher (R763); a unit of a band that is not loaded is delivered poisoned
(R765), and poison stays poison. -/
def State.mediaUnit (s : State) (encrypt : Bool) (key : Option KeySlot) (wlba : Nat) (d : List PByte) :
    List PByte × State :=
  match key with
  | none => (d.map (fun b => (b.1, true)), (s.up MC_EVENT_UNLOADED).inc MC_COUNT_UNLOADED)
  | some k =>
    let out := if encrypt then xtsEncrypt k.key wlba (bits d) else xtsDecrypt k.key wlba (bits d)
    (out.map (fun b => (b, poisoned d)), s)

/-- The 16 bytes of protection information behind 4096 bytes of data as stored (Table 9.2). -/
def piBytes (data : List Byte) (wlba wgen : Nat) : List Byte :=
  let head := sliceB data 0 4096 ++ leBytes 8 wlba ++ leBytes 4 wgen
  leBytes 8 wlba ++ leBytes 4 wgen ++ leBytes 4 (crc32c head)

/-- The check of Table 9.3 on a 4112-byte block as stored: 0 PI_OK, 1 PI_CRC, 2 PI_LBA. -/
def piCheck (mode wlba : Nat) (block : List Byte) : Nat :=
  if mode = 2 then 0
  else if crc32c (sliceB block 0 4108) ≠ fieldB block 4108 4 then 1
  else
    let w := fieldB block 4096 8
    if w = wlba ∧ w.testBit 63 = (mode == 1) then 0 else 2

end Sys2Proof.Machine
end

