-- ==== Sys2Proof/Machine/OtpOps.lean ====
section
/-! DEFINITION. The OTP bank (Table 3.3): its fuses and their shadow, as 32-bit rows. -/

namespace Sys2Proof.Machine
open Sys2Proof

/-- A row of a bank: unprogrammed fuses read 0. -/
def otpRow (bank : List (Nat × Word)) (r : Nat) : Word := smGet (fun _ => 0) r bank

/-- A bit of a bank. -/
def otpBit (bank : List (Nat × Word)) (i : Nat) : Bool := (otpRow bank (i / 32)).getLsbD (i % 32)

/-- A field of a bank. -/
def otpField (bank : List (Nat × Word)) (lo n : Nat) : Nat := maskOf n (fun i => otpBit bank (lo + i))

/-- A bit of a bank set. -/
def otpSet (bank : List (Nat × Word)) (i : Nat) : List (Nat × Word) :=
  smSet (fun _ => 0) (i / 32) (otpRow bank (i / 32) ||| BitVec.ofNat 32 (2 ^ (i % 32))) bank

/-- Fuse `i` programmed. -/
def State.burn (s : State) (i : Nat) : State := { s with boot := { s.boot with fuses := otpSet s.boot.fuses i } }

/-- A fuse as it now stands: one left partly programmed reads as a free value (R1073, log entry 3). -/
def State.fuseNow (s : State) (i : Nat) : Bool :=
  if s.boot.partFuses.contains i then (Config.freeNat (s.freeCtr + i)).testBit 0 else otpBit s.boot.fuses i

/-- Two of three. -/
def majority (a b c : Bool) : Bool := (a && b) || (a && c) || (b && c)

/-- OTP_WRITE_LOCK as its fuses now stand (R127, R153). -/
def State.otpLocked (s : State) : Bool := majority (s.fuseNow 548) (s.fuseNow 3572) (s.fuseNow 3580)

/-- A bit of a bank made 0. -/
def otpClear (bank : List (Nat × Word)) (i : Nat) : List (Nat × Word) :=
  smSet (fun _ => 0) (i / 32) (otpRow bank (i / 32) &&& ~~~BitVec.ofNat 32 (2 ^ (i % 32))) bank

/-- The 32 bytes of ROOT_KEY in a bank, byte `i` in bits 8i + 7 to 8i. -/
def otpRoot (bank : List (Nat × Word)) : List Byte := leBytes 32 (otpField bank 0 256)

/-- The bits of a byte string programmed from fuse `lo` on. -/
def State.burnBytes (s : State) (lo : Nat) (d : List Byte) : State :=
  (List.range (8 * d.length)).foldl
    (fun (s : State) i => if (leVal d).testBit i then s.burn (lo + i) else s) s

end Sys2Proof.Machine
end

