-- ==== Sys2Proof/Machine/UsbOps.lean ====
section
/-! DEFINITION. The USB Block's operations (chapter 20): events, Endpoint Memory, the hub's ports, control transfers, and
the mass-storage engine. Each token or packet leaves its handshake in `usb.answer` and its data in `bus`. -/

namespace Sys2Proof.Machine
open Sys2Proof

/-- The USB Block changed. -/
def State.modUsb (s : State) (g : Usb → Usb) : State := { s with usb := g s.usb }

/-- A handshake with its data. -/
def State.reply (s : State) (h : Handshake) (d : List Byte) : State :=
  { (s.modUsb (fun u => { u with answer := h })) with bus := { data := clean d } }

/-- An event of USB_EVENT with its source: bits 3, 4 and 5 are levels, the others pulse. -/
def State.usbEvent (s : State) (i : Nat) : State :=
  let s := s.setBit USB_EVENT_EV i
  if i = 3 ∨ i = 4 ∨ i = 5 then s else pulse (96 + i) s

/-- An error: counted, its code kept while none is, and USB_ERROR pulsed. -/
def State.usbError (s : State) (code : Nat) : State :=
  let s := s.inc USB_COUNT_ERRORS
  (if s.rd USB_ERR_CODE = 0 then s.wr USB_ERR_CODE code else s).usbEvent 7

/-- Whether the upstream port answers the host (R875, R931). -/
def State.hubLive (s : State) : Bool := s.runs 12 && s.flag USB_CTRL_PULLUP && s.flag USB_STATUS_VBUS

/-- Whether the host reaches the function: port 5 is enabled. -/
def State.fnLive (s : State) : Bool := s.hubLive && s.bit (USB_PORT_STATUS 4) 1

/-- Something the host does, which a part that is not there leaves unanswered. -/
def State.usbCycle (s : State) (live : Bool) (g : State → State) : State := if live then g s else s.reply .silent []

/-! ## Endpoints -/

/-- An endpoint changed. -/
def State.modEp (s : State) (e : Fin 7) (g : UsbEp → UsbEp) : State := s.modUsb (fun u => { u with ep := vmod u.ep e g })

/-- The bytes an endpoint's buffer can hold. -/
def State.epSize (s : State) (e : Fin 7) : Nat := 64 * s.rd (USB_EP_CFG_SIZE e)

/-- The bytes an endpoint's buffer holds. -/
def State.epHeld (s : State) (e : Fin 7) : Nat := s.usb.ep[e].hi - s.usb.ep[e].lo

/-- The room in an endpoint's buffer. -/
def State.epRoom (s : State) (e : Fin 7) : Nat := s.epSize e - s.epHeld e

/-- The address of the byte at a place of an endpoint's buffer, which is used as a ring (R882). -/
def State.epAddr (s : State) (e : Fin 7) (i : Nat) : Nat :=
  0x300E8000 + 64 * s.rd (USB_EP_CFG_BASE e) + i % s.epSize e

/-- Bytes read from an endpoint's buffer. -/
def State.epBytes (e : Fin 7) : Nat → Nat → State → List PByte × State
  | _, 0, s => ([], s)
  | i, n + 1, s =>
    let (b, s) := (s.initMem 2).readByte (s.epAddr e i)
    let (bs, s) := State.epBytes e (i + 1) n s
    (b :: bs, s)

/-- Bytes put into an endpoint's buffer. -/
def State.epPut (s : State) (e : Fin 7) : List PByte → State
  | [] => s
  | b :: bs => (((s.initMem 2).writeByte (s.epAddr e s.usb.ep[e].hi) b).modEp e (fun p => { p with hi := p.hi + 1 })).epPut e bs

/-- Bytes taken from an endpoint's buffer. -/
def State.epTake (s : State) (e : Fin 7) (n : Nat) : State := s.modEp e (fun p => { p with lo := p.lo + n })

/-- A buffer emptied. -/
def State.epEmpty (s : State) (e : Fin 7) : State := s.modEp e (fun _ => {})

/-- Whether an endpoint is halted. -/
def State.halted (s : State) (e : Fin 7) : Bool := s.flag (USB_EP_CTL_HALT e)

/-- A data toggle flipped: a packet has been acknowledged. -/
def State.flip (s : State) (e : Fin 7) : State := s.wr (USB_EP_CTL_TOGGLE e) (1 - s.rd (USB_EP_CTL_TOGGLE e))

/-- How an accepted OUT packet is answered (Table 20.6). -/
def State.accepted (s : State) (e : Fin 7) : State :=
  s.reply (if s.flag USB_STATUS_HS && decide (s.epRoom e < s.rd (USB_EP_CFG_MAXPKT e)) then .nyet else .ack) []

/-- The next packet of an endpoint, of `n` bytes: NAK and discarded where a byte is poisoned (Table 16.3), else sent;
with the host's acknowledgement its bytes leave the buffer and `done` follows. -/
def State.sendPacket (s : State) (e : Fin 7) (n : Nat) (ack : Bool) (done : State → State) : State :=
  let (d, s) := State.epBytes e s.usb.ep[e].lo n s
  if poisoned d then ((s.epTake e n).usbError 4).reply .nak []
  else (if ack then done ((s.epTake e n).flip e) else s).reply .data (bits d)

/-! ## The hub's ports (the bits of wPortStatus and wPortChange are those of USB 2.0) -/

/-- A change of port `n + 1` (R880). -/
def State.portChange (s : State) (n i : Nat) : State := (s.setBit (USB_PORT_CHANGE n) i).usbEvent 5

/-- The status bits of a port cleared but those of a mask. -/
def State.portKeep (s : State) (n mask : Nat) : State := s.wr (USB_PORT_STATUS n) (s.rd (USB_PORT_STATUS n) &&& mask)

/-- The function's address, remote wake, halts and toggles at a reset of its port. -/
def State.fnDefault (s : State) : State :=
  let s := (s.wr USB_STATUS_FN_ADDR 0).down USB_STATUS_RWE_FN
  let s := s.modUsb (fun u => { u with test := 0, ep0 := {} })
  (List.finRange 7).foldl (fun (s : State) (e : Fin 7) => (s.down (USB_EP_CTL_HALT e)).down (USB_EP_CTL_TOGGLE e)) s

/-- SET_PORT_FEATURE (R876, R877, R922). -/
def State.setPortFeature (s : State) (n : Fin 5) (f : Nat) : State :=
  let has (i : Nat) : Bool := s.bit (USB_PORT_STATUS n) i
  let ack (s : State) : State := s.reply .ack []
  if f = 8 then ack (if n = 4 then s else (s.setBit (USB_PORT_STATUS n) 8).clrBit (USB_PORT_STATUS n) 3)
  else if f = 4 then
    ack (if has 0 && has 8 then
        let s := ((s.clrBit (USB_PORT_STATUS n) 2).setBit (USB_PORT_STATUS n) 1).portChange n 4
        if n = 4 then
          let s := if s.flag USB_STATUS_HS then s.setBit (USB_PORT_STATUS n) 10 else s.clrBit (USB_PORT_STATUS n) 10
          (s.put USB_STATUS_FN_SUSPENDED (s.flag USB_STATUS_SUSPENDED)).fnDefault
        else s
      else s)
  else if f = 2 then
    ack (if has 1 then
        let s := s.setBit (USB_PORT_STATUS n) 2
        if n = 4 then (s.up USB_STATUS_FN_SUSPENDED).usbEvent 1 else s
      else s)
  else if f = 21 then ack (s.setBit (USB_PORT_STATUS n) 11)
  else if f ≤ 20 ∧ ¬(5 ≤ f ∧ f ≤ 7) ∧ ¬(11 ≤ f ∧ f ≤ 15) then ack s
  else s.reply .stall []

/-- Port `n + 1` leaves selective suspend (R927). -/
def State.portResume (s : State) (n : Nat) : State :=
  if s.bit (USB_PORT_STATUS n) 2 then
    let s := (s.clrBit (USB_PORT_STATUS n) 2).portChange n 2
    if n = 4 then s.put USB_STATUS_FN_SUSPENDED (s.flag USB_STATUS_SUSPENDED) else s
  else s

/-- CLEAR_PORT_FEATURE (R876, R877). -/
def State.clearPortFeature (s : State) (n : Fin 5) (f : Nat) : State :=
  let ack (s : State) : State := s.reply .ack []
  if f = 8 then ack (if n = 4 then s else s.portKeep n 0x0008)
  else if f = 1 then ack ((s.clrBit (USB_PORT_STATUS n) 1).clrBit (USB_PORT_STATUS n) 2)
  else if f = 2 then ack (s.portResume n)
  else if 16 ≤ f ∧ f ≤ 20 then ack (s.clrBit (USB_PORT_CHANGE n) (f - 16))
  else if f = 0 ∨ f = 3 ∨ f = 4 ∨ f = 9 ∨ f = 21 then ack s
  else s.reply .stall []

/-! ## The hub's descriptors (Table 20.2) -/

/-- The hub's device descriptor. -/
def State.hubDevice (s : State) : List Byte :=
  leBytes 4 0x02000112 ++ [0x09, 0x00, if s.flag USB_STATUS_HS then 0x01 else 0x00, 64]
    ++ leBytes 2 (s.rd USB_HUB_ID_VENDOR) ++ leBytes 2 (s.rd USB_HUB_ID_PRODUCT) ++ leBytes 2 (s.rd USB_HUB_CFG_BCD_DEVICE)
    ++ [0, 0, 0, 1]

/-- The hub's configuration, interface and endpoint descriptors; `type` 2 for this speed, 7 for the other. -/
def State.hubConfiguration (s : State) (type : Byte) : List Byte :=
  let hs := s.flag USB_STATUS_HS == (type == 2)
  [9, type, 25, 0, 1, 1, 0, 0xE0, 0, 9, 4, 0, 0, 1, 0x09, 0, 0, 0, 7, 5, 0x81, 3, 1, 0, if hs then 12 else 255]

/-- The device qualifier: the hub at the other speed. -/
def State.hubQualifier (s : State) : List Byte :=
  [10, 6, 0x00, 0x02, 0x09, 0x00, if s.flag USB_STATUS_HS then 0x00 else 0x01, 64, 1, 0]

/-- The hub descriptor (Table 20.2). -/
def State.hubDescriptor (s : State) : List Byte :=
  [9, 0x29, 5, 0x0D, 0x00, BitVec.ofNat 8 (s.rd USB_HUB_CFG_PWRGOOD), 0, 0x20, 0xFF]

/-- A standard request, or GET_DESCRIPTOR of the hub descriptor, answered by the hub (R876). -/
def State.hubRequest (s : State) (p : List Byte) : State :=
  let type := fieldB p 0 1
  let req := fieldB p 1 1
  let value := fieldB p 2 2
  let index := fieldB p 4 2
  let give (d : List Byte) : State := s.reply .data (d.take (fieldB p 6 2))
  let ack (s : State) : State := s.reply .ack []
  let stall : State := s.reply .stall []
  match req with
  | 0 =>
    if type = 0x80 then give [BitVec.ofNat 8 (1 + 2 * s.rd USB_STATUS_RWE_HUB), 0]
    else if type = 0x81 then give [0, 0]
    else if type = 0x82 then give [BitVec.ofNat 8 (if index = 0x81 then b2n s.usb.hubHalt else 0), 0]
    else stall
  | 1 =>
    if type = 0 ∧ value = 1 then ack (s.down USB_STATUS_RWE_HUB)
    else if type = 2 ∧ value = 0 then ack (if index = 0x81 then s.modUsb (fun u => { u with hubHalt := false }) else s)
    else stall
  | 3 =>
    if type = 0 ∧ value = 1 then ack (s.up USB_STATUS_RWE_HUB)
    else if type = 0 ∧ value = 2 then ack (s.modUsb (fun u => { u with test := index / 256 }))
    else if type = 2 ∧ value = 0 then ack (if index = 0x81 then s.modUsb (fun u => { u with hubHalt := true }) else s)
    else stall
  | 5 => if type = 0 ∧ value < 128 then ack (s.wr USB_STATUS_HUB_ADDR value) else stall
  | 6 =>
    if type = 0xA0 ∧ value / 256 = 0x29 then give s.hubDescriptor
    else if type ≠ 0x80 then stall
    else if value = 0x0100 then give s.hubDevice
    else if value = 0x0200 then give (s.hubConfiguration 2)
    else if value = 0x0600 then give s.hubQualifier
    else if value = 0x0700 then give (s.hubConfiguration 7)
    else stall
  | 8 => if type = 0x80 then give [BitVec.ofNat 8 s.usb.hubConfig] else stall
  | 9 => if type = 0 ∧ value ≤ 1 then ack (s.modUsb (fun u => { u with hubConfig := value })) else stall
  | 10 => if type = 0x81 ∧ index = 0 then give [0] else stall
  | 11 => if type = 1 ∧ index = 0 ∧ value = 0 then ack s else stall
  | _ => stall

/-! ## Control transfers of the function -/

/-- A SETUP packet to the function: counted, and a transfer in progress is abandoned (R887). -/
def State.setup (s : State) (p : List Byte) : State :=
  (s.modUsb (fun u => { u with setups := (u.setups + 1) % 256, ep0 := { setup := p } })).up (USB_EP_CTL_TOGGLE 0)

/-- Ring 4 entries that wait, written in order; SETUP is set while one is there to take. -/
def State.postRetry (s : State) : State :=
  s.usb.posts.foldl (fun (s : State) e =>
    if s.usb.posts ≠ [] then s.modUsb (fun u => { u with posts := u.posts ++ [e] })
    else
      match s.enqueue 4 e with
      | (.ok, s) => s.usbEvent 3
      | (_, s) => s.modUsb (fun u => { u with posts := u.posts ++ [e] })) (s.modUsb (fun u => { u with posts := [] }))

/-- A request posted on ring 4 (Table 20.5). -/
def State.postControl (s : State) (p : List Byte) (data handled : Bool) (n : Nat) : State :=
  let flags := b2n data + 2 * b2n handled + 4 * s.rd USB_STATUS_HS
  let e := p ++ leBytes 1 s.usb.setups ++ leBytes 1 flags ++ leBytes 2 n ++ zerosB 4
  ((s.wr USB_SETUP_SEQ_SEQ s.usb.setups).modUsb (fun u => { u with posts := u.posts ++ [e] })).postRetry

/-- Whether a request is one that the USB Block answers itself (R884). -/
def State.ownRequest (s : State) (p : List Byte) : Bool :=
  let type := fieldB p 0 1
  let req := fieldB p 1 1
  let value := fieldB p 2 2
  (type == 0 && req == 5) || ((type == 0x80 || type == 0x81 || type == 0x82) && req == 0)
    || ((req == 1 || req == 3) && ((type == 0 && (value == 1 || value == 2)) || (type == 2 && value == 0)))
    || (type == 0x21 && req == 0xFF)
    || (s.flag USB_CTRL_DBG_EN && ((type == 0xC0 && req == 0xD0) || (type == 0x40 && req == 0xD1)))

/-- A request that firmware answers (R885, R888). -/
def State.postRequest (s : State) (p out : List Byte) : State :=
  let s := s.setup p
  let stage (s : State) (g : Ep0Stage) : State := s.modUsb (fun u => { u with ep0 := { u.ep0 with stage := g } })
  if 1024 < out.length then (stage s .stalled).reply .stall []
  else
    let data := !out.isEmpty
    let s := if data then (s.epEmpty 0).epPut 0 (clean out) else s
    ((stage s .posted).postControl p data false out.length).reply .ack []

/-- A USB_EP0_CTL write (R886, R887): SEND, ACK or STALL. -/
def State.ep0Answer (s : State) (op : Nat) (v : Word) : State :=
  let x := s.usb.ep0
  let len := getF v 12 11
  let stage (s : State) (g : Ep0Stage) : State := s.modUsb (fun u => { u with ep0 := { u.ep0 with stage := g } })
  if getF v 24 8 ≠ s.rd USB_SETUP_SEQ_SEQ then s.usbError 2
  else if x.stage ≠ .posted then s
  else if op = 3 then stage s .stalled
  else if op = 1 ∧ 128 ≤ fieldB x.setup 0 1 ∧ 0 < fieldB x.setup 6 2 then
    if 1024 < len then s
    else
      let want := fieldB x.setup 6 2
      let n := min len want
      (s.modEp 0 (fun _ => { lo := 0, hi := n })).modUsb (fun u =>
        { u with ep0 := { u.ep0 with stage := .sending, left := n, zlp := decide (n < want ∧ n % 64 = 0) } })
  else stage s .status

/-- An IN token to EP0 (R886). -/
def State.ep0In (s : State) (ack : Bool) : State :=
  let x := s.usb.ep0
  let inward := decide (128 ≤ fieldB x.setup 0 1 ∧ 0 < fieldB x.setup 6 2)
  match x.stage with
  | .stalled => s.reply .stall []
  | .sending =>
    if x.left = 0 ∧ x.zlp = false then s.reply .nak []
    else
      let n := min 64 x.left
      s.sendPacket 0 n ack (fun s => s.modUsb (fun u =>
        { u with ep0 := { u.ep0 with left := u.ep0.left - n, zlp := u.ep0.zlp && decide (n = 64) } }))
  | .status =>
    if inward then s.reply .nak []
    else (if ack then s.modUsb (fun u => { u with ep0 := { u.ep0 with stage := .idle } }) else s).reply .data []
  | _ => s.reply .nak []

/-- An OUT packet to EP0: the status stage of an IN transfer (R886). -/
def State.ep0Out (s : State) : State :=
  match s.usb.ep0.stage with
  | .stalled => s.reply .stall []
  | .sending => (s.modUsb (fun u => { u with ep0 := { u.ep0 with stage := .idle } })).reply .ack []
  | .status => (s.modUsb (fun u => { u with ep0 := { u.ep0 with stage := .idle } })).reply .ack []
  | _ => s.reply .nak []

/-- What a debug request asks of R890: its words' addresses, where it asks rightly. -/
def debugWords (p : List Byte) : Option (List Nat) :=
  let n := fieldB p 6 2
  if n % 4 = 0 ∧ 4 ≤ n ∧ n ≤ 512 then
    some ((List.range (n / 4)).map (fun i => fieldB p 4 2 * 65536 + fieldB p 2 2 + 4 * i))
  else none

/-- Words read as requester 5 with the debug attribute, none where one fails (R891). -/
def debugRead : List Nat → List Byte → State → Option (List Byte) × State
  | [], acc, s => (some acc, s)
  | a :: as, acc, s =>
    let (o, s) := s.masterRead 5 true false false a 4
    if o.bad then (none, s) else debugRead as (acc ++ bits o.data) s

/-- Words written as requester 5 with the debug attribute, up to the first that fails (R891). -/
def debugWrite : List Nat → List Byte → State → Bool × State
  | [], _, s => (true, s)
  | a :: as, d, s =>
    let (o, s) := s.masterWrite 5 true false a (clean (sliceB d 0 4))
    if o.bad then (false, s) else debugWrite as (d.drop 4) s

/-! ## The mass-storage engine -/

/-- A context changed. -/
def State.modMse (s : State) (c : Fin 16) (g : MseCtx → MseCtx) : State := s.modUsb (fun u => { u with ctx := vmod u.ctx c g })

/-- A context's state. -/
def State.ctxState (s : State) (c : Fin 16) : Nat := s.rd (USB_MSE_CTX_STATE c)

/-- A context given a state. -/
def State.setCtx (s : State) (c : Fin 16) (n : Nat) : State := s.wr (USB_MSE_CTX_STATE c) n

/-- USB_MSE_CMD brought up to the contexts (R895). -/
def State.mseSync (s : State) : State :=
  let new := (List.finRange 16).filter (fun c => s.ctxState c == 1)
  match new.find? (fun c => new.all (fun o => decide (s.usb.ctx[c].age ≤ s.usb.ctx[o].age))) with
  | some c => (s.up USB_MSE_CMD_VALID).wr USB_MSE_CMD_NEXT c
  | none => s.down USB_MSE_CMD_VALID

/-- A command accepted into a free context (R895). -/
def State.takeCommand (s : State) (c : Fin 16) (task : Bool) (tag : Nat) (pkt : List Byte) : State :=
  let r := sliceB pkt 0 32
  let s := (s.initMem 2).store (0x300E8000 + s.rd USB_MSE_CFG_REC_BASE + 32 * c.val) r
  let s := s.modMse c (fun _ => { age := s.usb.age, cmd := r, task := task })
  let s := s.modUsb (fun u => { u with age := u.age + 1 })
  ((((s.setCtx c 1).wr (USB_MSE_CTX_UAS_TAG c) tag).up USB_EP_EVENT_CMD).usbEvent 4).mseSync

/-- The lowest free context. -/
def State.freeCtx (s : State) : Option (Fin 16) := (List.finRange 16).find? (fun c => s.ctxState c == 0)

/-- A packet on EP2 that is a CBW, or not a valid one (R896, R897). -/
def State.cbw (s : State) (pkt : List Byte) : State :=
  if s.halted 2 then s.reply .stall []
  else if s.ctxState 0 ≠ 0 then s.reply .nak []
  else if pkt.length = 31 ∧ fieldB pkt 0 4 = 0x43425355 then ((s.flip 2).takeCommand 0 false 0 pkt).reply .ack []
  else
    let s := ((s.flip 2).up (USB_EP_CTL_HALT 1)).up (USB_EP_CTL_HALT 2)
    ((s.modUsb (fun u => { u with badCbw := true })).usbError 6).reply .ack []

/-- The head of a UAS IU: its ID and tag. -/
def iuHead (id : Nat) (tag : Nat) : List Byte := leBytes 1 id ++ [0] ++ beBytes 2 tag

/-- A packet placed on the status endpoint. -/
def State.pushIu (s : State) (i : MseIu) : State := s.modUsb (fun u => { u with out := u.out ++ [i] })

/-- An IU on EP4 (R898): a Command IU (0x01) or a Task Management IU (0x05). -/
def State.uasIu (s : State) (pkt : List Byte) : State :=
  let tag := beVal (sliceB pkt 2 2)
  let task := fieldB pkt 0 1 == 5
  let taken := (List.finRange 16).any (fun c => s.ctxState c != 0 && s.rd (USB_MSE_CTX_UAS_TAG c) == tag)
  if s.halted 4 then s.reply .stall []
  else if s.flag USB_MSE_CFG_UAS = false ∨ (fieldB pkt 0 1 ≠ 1 ∧ fieldB pkt 0 1 ≠ 5) then s.reply .nak []
  else
    match s.freeCtx with
    | none => s.reply .nak []
    | some c =>
      if taken && !task then
        (((s.flip 4).pushIu { ctx := none, ready := false, bytes := iuHead 4 tag ++ [0, 0, 0, 0x0A] }).usbError 7).reply .ack []
      else ((s.flip 4).takeCommand c task tag pkt).reply .ack []

/-- A context's status placed on its endpoint (R908 to R910): `sense` is USB_MSE_SENSE, 0 for GOOD. -/
def State.sendStatus (s : State) (c : Fin 16) (sense : Nat) : State :=
  let x := s.usb.ctx[c]
  let st := sense / 2 ^ 24 % 256
  let tag := s.rd (USB_MSE_CTX_UAS_TAG c)
  let h := fieldB x.cmd 8 4
  let b :=
    if s.flag USB_MSE_CFG_UAS = false then
      [0x55, 0x53, 0x42, 0x53] ++ sliceB x.cmd 4 4
        ++ leBytes 4 (if x.csw.isSome && decide (0 < x.len) then 0 else h - x.moved)
        ++ leBytes 1 (x.csw.getD (if st = 0 then 0 else 1))
    else if x.kind = 3 then iuHead 4 tag ++ [0, 0, 0] ++ leBytes 1 sense
    else
      let sd := if st = 2 then
          [0x70, 0] ++ leBytes 1 (sense / 65536 % 16) ++ zerosB 4 ++ [10] ++ zerosB 4 ++ leBytes 1 (sense / 256)
            ++ leBytes 1 sense ++ zerosB 4
        else []
      iuHead 3 tag ++ [0, 0] ++ leBytes 1 st ++ zerosB 7 ++ beBytes 2 sd.length ++ sd
  (s.setCtx c 5).pushIu { ctx := some c, ready := false, bytes := b }

/-- The halt that a context's case asks for at its end (R901). -/
def State.haltEnd (s : State) (c : Fin 16) : State :=
  match s.usb.ctx[c].haltEp with
  | some e => if e = 1 then s.up (USB_EP_CTL_HALT 1) else s.up (USB_EP_CTL_HALT 2)
  | none => s

/-- The HQE transfer at the head of the USB stream, where it is a context's. -/
def State.ctxXfer (s : State) (c : Fin 16) : Option HqXfer :=
  match s.hq.cur[(1 : Fin 2)] with
  | some x => if s.usb.ctx[c].hq = some (x.tag, x.gen) then some x else none
  | none => none

/-- A context's data phase ends, or what it had of one: its endpoint's buffer is emptied, and what the stream still
holds for it is drained (case 7 of Table 20.8). -/
def State.endPhase (s : State) (c : Fin 16) : State :=
  let x := s.usb.ctx[c]
  let was := s.usb.cur == some c
  let s := if was then (if x.toHost then s.epEmpty 1 else s.epEmpty 2) else s
  let s := s.modUsb (fun u => { u with
    cur := if was then none else u.cur, ready := u.ready.filter (· != c), passDue := u.passDue && !was,
    out := u.out.filter (fun i => !(was && i.ready)),
    drains := if x.len < x.dlen ∧ x.compl = none then u.drains ++ x.hq.toList else u.drains })
  (s.modMse c (fun x => { x with phased := true })).haltEnd c

/-- The KIND 0 phase that the stream presents, taken into the order of ready phases (R904). -/
def State.queueReady (s : State) : State :=
  match (List.finRange 16).find? (fun c =>
      s.ctxState c == 2 && s.usb.ctx[c].phased == false && decide (0 < s.usb.ctx[c].len) && (s.ctxXfer c).isSome) with
  | some c => (s.modMse c (fun x => { x with phased := true })).modUsb (fun u => { u with ready := u.ready ++ [c] })
  | none => s

/-- Up to `n` bytes towards the host from the stream. -/
def streamBytes : Nat → Nat → State → List PByte × State
  | 0, _, s => ([], s)
  | f + 1, n, s =>
    if n = 0 then ([], s)
    else
      let (d, s) := s.xferRead 1 n
      if d.isEmpty then ([], s)
      else
        let (ds, s) := streamBytes f (n - d.length) s
        (d ++ ds, s)

/-- Whether the Ready IU of the phase under way still waits (R903). -/
def State.iuWaits (s : State) : Bool := s.usb.out.any (fun i => i.ready)

/-- A firmware buffer's access that is blocked or in error ends its phase (log entry 15). -/
def State.dmaFailed (s : State) (c : Fin 16) : State :=
  let s := s.usbError 5
  (s.endPhase c).sendStatus c s.usb.ctx[c].sense

/-- The EP1 buffer filled once the host has acknowledged its last packet (R905). -/
def State.fillEp1 (s : State) (c : Fin 16) : State :=
  let x := s.usb.ctx[c]
  let n := min (s.epSize 1) (x.len - x.filled)
  if s.epHeld 1 ≠ 0 ∨ n = 0 then s
  else if x.kind = 0 then
    if (s.ctxXfer c).isSome then
      let (d, s) := streamBytes (n + 1) n s
      ((s.epEmpty 1).epPut 1 d).modMse c (fun y => { y with filled := y.filled + d.length })
    else s
  else
    let (o, s) := s.dmaRead 5 (x.buf + x.filled) n
    if o.blocked || o.error then s.dmaFailed c
    else ((s.epEmpty 1).epPut 1 o.data).modMse c (fun y => { y with filled := y.filled + n })

/-- The EP2 buffer's bytes passed to the stream, as far as it takes them. -/
def passStream : Nat → Fin 16 → State → State
  | 0, _, s => s
  | f + 1, c, s =>
    match s.ctxXfer c with
    | some ⟨_, _, _, true, _, _, (_, k) :: _, _, _, _, none⟩ =>
      let n := min k (s.epHeld 2)
      if n = 0 then s
      else
        let (d, s) := State.epBytes 2 s.usb.ep[(2 : Fin 7)].lo n s
        let s := (s.epTake 2 n).xferWrite 1 d
        passStream f c (s.modMse c (fun y => { y with moved := y.moved + n }))
    | _ => s

/-- The EP2 buffer passed on where that is due (R906). -/
def State.passEp2 (s : State) (c : Fin 16) : State :=
  if s.usb.passDue = false then s
  else
    let x := s.usb.ctx[c]
    let s :=
      if x.kind = 0 then passStream 4096 c s
      else
        let n := s.epHeld 2
        let (d, s) := State.epBytes 2 s.usb.ep[(2 : Fin 7)].lo n s
        let (o, s) := s.dmaWrite 5 (x.buf + x.moved) d
        if o.blocked || o.error then s.dmaFailed c
        else (s.epTake 2 n).modMse c (fun y => { y with moved := y.moved + n })
    if s.epHeld 2 = 0 then s.modUsb (fun u => { u with passDue := false }) else s

/-- The end of the phase under way: every byte moved, or its command complete (R901, R908). -/
def State.phaseCheck (s : State) (c : Fin 16) : State :=
  let x := s.usb.ctx[c]
  let idle := if x.toHost then s.epHeld 1 == 0 && (s.ctxXfer c).isNone else !s.usb.passDue
  if x.len ≤ x.moved ∨ (x.compl.isSome ∧ idle = true) then
    let s := s.endPhase c
    if x.kind = 1 then s.sendStatus c x.sense
    else if x.compl.isSome then s.sendStatus c 0
    else s.setCtx c 2
  else s

/-- Stream data of a drained tag read and discarded, or refused where the host was to give it (R912). -/
def State.drainStep (s : State) : State :=
  match s.hq.cur[(1 : Fin 2)] with
  | some x =>
    if s.usb.drains.contains (x.tag, x.gen) && x.stop.isNone then
      if x.fromHost then s.modCur 1 (fun y => { y with stop := some 3 })
      else
        let (_, s) := streamBytes 65536 x.total s
        s.modCur 1 (fun y => { y with given := y.moved })
    else s
  | none => s

/-- What follows from a USB operation. -/
def State.usbDone (s : State) : State :=
  let s := s.postRetry.drainStep
  let s := match s.usb.cur with
    | some c =>
      let s := if s.usb.ctx[c].toHost then s.fillEp1 c else s.passEp2 c
      if s.usb.cur = some c then s.phaseCheck c else s
    | none => s
  s.mseSync

/-- USB_MSE_START (R899 to R902): what a context is started with, by its kind. -/
def State.mseStart (s : State) (kind : Nat) (v : Word) : State :=
  let c : Fin 16 := ⟨getF v 0 4 % 16, Nat.mod_lt _ (by decide)⟩
  let x := s.usb.ctx[c]
  let dir := v.getLsbD 12
  let tag := tagOf (getF v 16 5)
  let d := if kind ≤ 1 then s.rd USB_MSE_DLEN_BYTES else 0
  let h := fieldB x.cmd 8 4
  let hostIn := (fieldB x.cmd 12 1).testBit 7
  let bot := !s.flag USB_MSE_CFG_UAS
  let sense := (s.reg USB_MSE_SENSE_WORD.addr).toNat
  let ep : Nat := if hostIn then 1 else 2
  let x' : MseCtx := { x with kind := kind, toHost := dir, dlen := d, buf := s.rd USB_MSE_BUF_ADDR * 64, sense := sense }
  if s.ctxState c ≠ 1 ∨ (kind = 3 ∧ x.task = false) then s.usbError 3
  else if bot && ((h == 0 && decide (0 < d)) || (decide (0 < h) && decide (0 < d) && hostIn != dir)
      || (decide (0 < h) && !hostIn && decide (h < d))) then
    let s := s.modMse c (fun _ => { x' with len := 0, csw := some 2, haltEp := if h = 0 then none else some ep })
    (s.haltEnd c).sendStatus c sense
  else
    let x' : MseCtx := if bot then
        { x' with len := min d h, csw := if h < d then some 2 else none, haltEp := if d < h then some ep else none }
      else { x' with len := d }
    if kind = 0 then
      let gen := s.tagGen tag
      match s.hqDoorbell true false tag with
      | (0, s) => ((s.modMse c (fun _ => { x' with hq := some (tag.val, gen) })).setCtx c 2).usbDone
      | (_, s) => (s.usbError 1).usbDone
    else if kind = 1 ∧ 0 < x'.len then
      let s := ((s.queueReady).modMse c (fun _ => { x' with phased := true })).setCtx c 2
      (s.modUsb (fun u => { u with ready := u.ready ++ [c] })).usbDone
    else (((s.modMse c (fun _ => x')).haltEnd c).sendStatus c sense).usbDone

/-- A ready data phase begins (R903, R904). -/
def State.phaseStart (s : State) : State :=
  let s := s.queueReady
  match s.usb.cur, s.usb.ready with
  | none, c :: r =>
    let x := s.usb.ctx[c]
    let s := (s.modUsb (fun u => { u with cur := some c, ready := r, passDue := false })).setCtx c 3
    let s := if x.toHost then s.epEmpty 1 else s.epEmpty 2
    let s := if s.flag USB_MSE_CFG_UAS then
        s.pushIu { ctx := none, ready := true, bytes := iuHead (if x.toHost then 6 else 7) (s.rd (USB_MSE_CTX_UAS_TAG c)) }
      else s
    s.usbDone
  | _, _ => s

/-- The first completion of the USB completion ring taken (R907 to R909). -/
def State.takeCompletion (s : State) : State :=
  if s.cqCount 1 = 0 then s
  else
    let head := s.rd (cqHead 1)
    let (e, s) := State.readMem (s.hqArea + 0x800 + 16 * (head % 64)) 16 (s.initMem 1)
    let s := s.wr (cqHead 1) (head + 1)
    let t := fieldB (bits e) 4 1
    let st := fieldB (bits e) 5 1
    let drained := s.usb.drains.find? (fun d => d.1 == t)
    let s := s.modUsb (fun u => { u with drains := match drained with
      | some d => u.drains.erase d
      | none => u.drains })
    let mine (c : Fin 16) : Bool :=
      (s.ctxState c == 2 || s.ctxState c == 3) && s.usb.ctx[c].compl.isNone
        && (match drained with
          | some d => s.usb.ctx[c].hq == some d
          | none => (s.usb.ctx[c].hq.map Prod.fst) == some t)
    match (List.finRange 16).find? mine with
    | none => s.usbDone
    | some c =>
      let s := s.modMse c (fun x => { x with compl := some st })
      if st ≠ 0 then
        let s := s.endPhase c
        ((((s.setCtx c 4).wr (USB_MSE_CTX_OCS_STATUS c) st).up USB_EP_EVENT_CPL_FW).usbEvent 4).usbDone
      else if s.usb.cur = some c then s.usbDone
      else ((s.endPhase c).sendStatus c 0).usbDone

/-- The MSE's reset (R912); started commands' stream data is drained and their completions dropped. -/
def State.mseReset (s : State) : State :=
  let s := ([1, 2] : List (Fin 7)).foldl (fun (s : State) (e : Fin 7) =>
    ((s.down (USB_EP_CTL_HALT e)).down (USB_EP_CTL_TOGGLE e)).epEmpty e) s
  let left := (List.finRange 16).filterMap (fun c =>
    if (s.ctxState c == 2 || s.ctxState c == 3) && s.usb.ctx[c].compl.isNone then s.usb.ctx[c].hq else none)
  let s := (List.finRange 16).foldl (fun (s : State) (c : Fin 16) => s.setCtx c 0) s
  (s.modUsb (fun u => { u with
    ctx := Vector.replicate 16 {}, ready := [], cur := none, passDue := false, out := [], badCbw := false,
    drains := u.drains ++ left.filter (fun d => !u.drains.contains d) })).usbDone

/-- The effects of a bus reset on the USB Block (R928, R930). -/
def State.usbReset (s : State) (hs : Bool) : State :=
  let s := s.up SYS_RESET_CAUSE_USB_BUS
  let s := (((s.wr USB_STATUS_HUB_ADDR 0).down USB_STATUS_RWE_HUB).down USB_STATUS_SUSPENDED).down USB_STATUS_FN_SUSPENDED
  let s := ((s.put USB_STATUS_HS hs).fnDefault).mseReset
  let s := (List.finRange 7).foldl (fun (s : State) (e : Fin 7) => s.epEmpty e) s
  let s := (List.range 4).foldl (fun (s : State) n => (s.wr (USB_PORT_STATUS n) 0).wr (USB_PORT_CHANGE n) 0) s
  let at5 := s.flag USB_CTRL_FN_ATTACH
  let s := (s.wr (USB_PORT_STATUS 4) (256 + b2n at5)).wr (USB_PORT_CHANGE 4) (b2n at5)
  let s := s.modUsb (fun u => { u with
    hubConfig := 0, hubHalt := false, ttBusy := 0, drains := [], pkts := [], vendorEnd := false,
    globalSuspended := 0, rwakeWait := none, driving := false })
  let s := { s with ot := { s.ot with vendorUsed := false, partMsg := s.ot.partMsg.set 1 [] } }
  ((s.retire true).inc USB_COUNT_RESETS).usbEvent 0

end Sys2Proof.Machine
end

