-- ==== Sys2Proof/Machine/Reset.lean ====
section
/-! DEFINITION. What resets and lost power domains clear (Tables 3.3 and 2.12 and the state inventories), and the starts
of the cores (chapters 2, 3 and 14). -/

namespace Sys2Proof.Machine
open Sys2Proof

/-- Registers at their reset values. -/
def State.dropRegs (s : State) (p : Nat → Bool) : State := { s with regs := smDrop p s.regs }

/-! ## Losses of one domain -/

/-- The governor's registers, which stay with their retained configuration while PD_SERVO is off (R76). -/
def isGov (a : Nat) : Bool := decide (0x30000140 ≤ a ∧ a < 0x30000160)

/-- Whether an address is one of a watchdog's registers. -/
def isWdt (a : Nat) : Bool := decide (0x30180200 ≤ a ∧ a < 0x30180230)

/-- What PD_CORE loses when it is switched off (Tables 7.x to 22.7): its registers but the watchdogs', the TCMs, the
Microstore and Nanostore, the Line Cache, the formatter contexts, the key cache and the Almanac's index. -/
def State.loseCore (s : State) : State :=
  let s := s.dropRegs (fun a => regDom a == .core && !isWdt a)
  let s := (((s.wipe 0x02000000 0x02010000).wipe 0x02100000 0x02108000).wipe 0x03000000 0x03010000).wipe 0x03100000 0x03108000
  let s := (((s.wipe 0x30084000 0x30088000).wipe 0x30088000 0x30090000).wipeEcc 0).wipeEcc 1
  let s := { s with
    lc := {}, fmt := Vector.replicate 8 {}, nanoStage := [], core := #v[{}, {}], cip := { s.cip with keyCache := [] }
    ae := {}, alm := { ticks := s.alm.ticks, rc := s.alm.rc, lostDue := s.alm.lostDue }, io := { s.io with uartRx := [], uartTx := [], uartWait := [] }
    ot := { s.ot.lasting with
            cache := s.ot.cache, dirtyTold := s.ot.dirtyTold, backup := s.ot.backup
            woke := s.ot.started || s.ot.woke }
    pw := { s.pw with aonWait := [] } }
  (List.range 2).foldl (fun (s : State) c =>
    (s.wr (WDT_STATUS_STAGE c) 0).wr (WDT_STATUS_COUNT c)
      (if s.flag (WDT_CTRL_ARM c) then max 1 (s.rd (WDT_TIME_STAGE1 c)) else s.rd (WDT_STATUS_COUNT c))) s

/-- What a domain loses at its own Dusk or at that of STANDBY; its configuration is retained (R76). -/
def State.loseDomain (s : State) (d : Nat) : State :=
  if d = 1 then s.loseCore
  else if d = 10 then
    let s := s.dropRegs (fun a => 0x30090000 ≤ a && a < 0x300A0000 && (match regAt a with
      | some (r, _) => r.name == "IDU_SLOT" || r.name == "IDU_SLOT_FREE"
      | none => false))
    (((s.modIdu (fun u => { u with slots := Vector.replicate 48 {} })).slotCounts).wipeEcc 6).wipeEcc 7
  else if d = 14 then { s.dropRegs (fun a => regDom a == .servo && !isGov a && a != PS_SPIN_SPIN_SLOTS.addr) with sce := {} }
  else if d = 15 then { s.dropRegs (fun a => regDom a == .afe) with pw := { s.pw with afeOff := true } }
  else if 2 ≤ d ∧ d ≤ 9 then s.dropRegs (fun a => regDom a == .afe && domId .afe a == some d)
  else if d = 11 then { s with pw := { s.pw with selfRefresh := true } }
  else s

/-! ## Resets -/

/-- Whether a reset of class `c` (none: what NADIR loses, R69) keeps a register of a domain. PWR_DOMAIN_REQ lies in PD_AON
and stays over NADIR (Table 2.12), but for the bits that a NADIR Dawn sets (log entry 26). -/
def keepsDom (c : Option RClass) : Dom → Bool
  | .aonKept => true
  | .pdie => true
  | .aon => c == some .system || c == none
  | .aonSys => c == none
  | .otp => c == some .system || c == none
  | _ => false

/-- Everything a reset of class `c` clears, cleared (Table 3.3). MRAM, the fuses, the power die, the pins and the
commands that wait stay; so do the drives that the power die runs on the VCMs. -/
def State.fresh (s : State) (c : Option RClass) : State :=
  let m : Nat → Bool := fun a => decide (0x10000000 ≤ a ∧ a < 0x10100000)
  let rings := match c with
    | none => s.rings.filterMap (fun e =>
        if e.2.latch || e.2.wakeCopy then some (e.1, { latch := e.2.latch, wakeCopy := e.2.wakeCopy }) else none)
    | some _ => []
  ({ s with
    regs := smDrop (fun a => !keepsDom c (regDom a)) s.regs
    mem := s.mem.filter (fun e => m e.1)
    ecc := s.ecc.filter (fun e => decide (eccKey 12 0 ≤ e.1 ∧ e.1 < eccKey 13 0))
    caps := [], rings := rings, evc := {}, core := #v[{ run := true }, {}], lc := {}, bus := {}, sce := {}
    pw := { thermHold := s.pw.thermHold, vddAnaGood := s.pw.vddAnaGood }
    io := { gpioPins := s.io.gpioPins, tLogic := s.io.tLogic }
    cip := { root := s.cip.root }, spn := Vector.replicate 8 {}
    srv := s.srv.map (fun v => { drive := v.drive, hiZ := v.drive.isEmpty })
    ch := Vector.replicate 8 {}, fmt := Vector.replicate 8 {}, memDue := 0, hq := {}, hp := {}, nanoStage := []
    usb := {}, idu := {}, ae := {}, ot := if c = some .cold then {} else s.ot.lasting
    alm := { ticks := s.alm.ticks, rc := s.alm.rc, lostDue := s.alm.lostDue } } : State).countSpinups

/-- How wide a class is (R1072). -/
def RClass.width : RClass → Nat
  | .cold => 3
  | .pin => 2
  | .system => 1

/-- The boot state changed. -/
def State.modBoot (s : State) (g : Boot → Boot) : State := { s with boot := g s.boot }

/-- A reset of class `c` takes the die-to-die link away, and the power die retracts by its loss (R197): a Cold reset with
the loss of VAON, unless VMOT and VRET are lost too. -/
def State.resetLink (s : State) (c : RClass) : State :=
  let s1 := s.down PS_STATUS_LINK_OK
  if c = .cold ∧ s.die.vret = false ∧ s.flag PS_STATUS_VMOT_OK = false then s1 else s1.startRetract 5

/-- A reset of class `c` applied, with its cause bit (R116, R121, R151, R1072). The programming of a fuse goes on (R1073),
and so does a shadow load that a System reset meets (R113). -/
def State.applyReset (s : State) (c : RClass) (cause : Fld) : State :=
  let covered := match s.boot.reset with
    | some r => decide (c.width ≤ r.width)
    | none => false
  if covered then (if c = .system then s else s.up cause)
  else
    let s := (s.resetLink c).fresh (some c)
    let s := s.put OTP_STATUS_BUSY s.boot.otpBit.isSome
    let s := if c = .pin then s.setReg SYS_RESET_CAUSE_WORD.addr 0
      else if c = .cold then s.setReg SYS_RESET_CAUSE_WORD.addr (regReset SYS_RESET_CAUSE_WORD.addr) else s
    let s := s.setReg CLK_STATUS_WORD.addr (if c = .cold then 64 else s.reg CLK_STATUS_WORD.addr &&& 64)
    let s := if c = .system then s else s.down OTP_STATUS_SHADOW_VALID
    (s.up cause).modBoot (fun b => { b with
      reset := some c, coldHeld := decide (c = .cold)
      otpLoading := decide (c = .pin) || (decide (c = .system) && b.otpLoading)
      stage := .rom, owner := none, dfu := .idle, reply := [] })

/-- The fuses that the programming of a bit programs: with their two copies for bits 544 to 548 (R127). -/
def fusesOf (b : Nat) : List Nat := if 544 ≤ b ∧ b ≤ 548 then [b, b + 3024, b + 3032] else [b]

/-- The fuse being programmed is left partly programmed by a loss of its supply (R1073). -/
def State.partBurn (s : State) : State :=
  match s.boot.otpBit with
  | some b => (s.down OTP_STATUS_BUSY).modBoot (fun x => { x with
      otpBit := none, partFuses := fusesOf b ++ x.partFuses.filter (fun i => !(fusesOf b).contains i) })
  | none => s

/-- The Buffer Cipher's master key drawn from the entropy source, whose health test passes or fails (R738, R739). -/
def State.drawMaster (s : State) (healthy : Bool) : State :=
  let (k, s) := State.drawBytes 32 s
  let s := { s with cip := { s.cip with master := k } }
  let s := (s.put MC_STATUS_ENTROPY_OK healthy).put BC_STATUS_KEY_FAIL (!healthy)
  if healthy then s else s.up MC_EVENT_ENTROPY_FAIL

/-! ## The cores' starts -/

/-- A core started at an address in machine mode, its CSRs and PMP at reset. -/
def State.startCore (s : State) (c : Fin 2) (pc : Nat) : State :=
  let s := { s with dbg := { s.dbg with havereset := s.dbg.havereset ||| BitVec.ofNat 2 (2 ^ c.val) } }
  s.modCore c (fun _ => { run := true, pc := BitVec.ofNat 32 pc })

/-- Whether Core B has been released. -/
def State.coreBRuns (s : State) : Bool := s.flag SYS_CORE_RUN_B

/-- A core's restart vector (R118). -/
def State.restartVec (s : State) (c : Fin 2) : Nat :=
  2 * (if c = 0 then s.rd SYS_RESTART_VEC_A_VECTOR else s.rd SYS_RESTART_VEC_B_VECTOR)

/-- A core started at its restart vector; with none, the Boot ROM's restart path requests a system reset (R118). -/
def State.restartCore (s : State) (c : Fin 2) : State :=
  let v := s.restartVec c
  if v = 0 then s.applyReset .system SYS_RESET_CAUSE_SW_SYSTEM else s.startCore c v

/-- A Core-class reset's cause bit; the core's own watchdog is disarmed (R118). -/
def State.coreMark (s : State) (c : Fin 2) (cause : Fld) : State := (s.up cause).down (WDT_CTRL_ARM c)

/-- A Core-class reset's restart; Core B not yet released stays held (R118). -/
def State.coreGo (s : State) (c : Fin 2) : State := if c = 1 ∧ s.coreBRuns = false then s else s.restartCore c

/-- A Core-class reset (R118); nothing under a wider reset (R1072). -/
def State.coreReset (s : State) (c : Fin 2) (cause : Fld) : State :=
  if s.boot.reset.isSome then s else (s.coreMark c cause).coreGo c

/-- The cores started after a Dawn of PD_CORE (R67, R69). -/
def State.startCores (s : State) : State :=
  let v := 2 * s.rd PWR_WAKE_VECTOR_VECTOR
  if v = 0 then ((s.startCore 0 0).modCore 1 (fun _ => {})).modBoot (fun b => { b with stage := .wakeRom })
  else (((s.startCore 0 v).startCore 1 v).up SYS_CORE_RUN_B).modBoot (fun b => { b with stage := .firmware })

/-- Whether a PLL is needed by a domain or function that is on (Table 2.1, R54), by the number of its CLK_STATUS bit. -/
def State.pllNeeded (s : State) (i : Nat) : Bool :=
  if i = 0 then
    s.on 10 || (List.range 8).any (fun p => s.on (2 + p) && (!s.pw.afeOff || s.srv[fin8 p].loaded))
  else if i = 1 then s.on 1
  else if i = 2 then s.on 11
  else if i = 3 then s.on 14
  else s.on 12

/-- CLK_STATUS brought up to the PLLs that are needed and that hold their lock; one no longer needed has no lock left to
miss (R48). -/
def State.clkSync (s : State) : State :=
  let s := s.modPw (fun p => { p with lostLock := p.lostLock &&& BitVec.ofNat 5 (maskOf 5 s.pllNeeded) })
  let need (f : Fld) (i : Nat) (s : State) : State := s.put f (s.pllNeeded i && !s.pw.lostLock.getLsbD i)
  let s := s.put CLK_STATUS_REF_OK (s.pw.sleep != .nadir)
  need CLK_STATUS_LINE_LOCK 0 (need CLK_STATUS_CORE_LOCK 1 (need CLK_STATUS_MEM_LOCK 2
    (need CLK_STATUS_SERVO_LOCK 3 (need CLK_STATUS_USB_LOCK 4 s))))

/-! ## The Host Port's CONTROL reset -/

/-- A CONTROL write (R842): its plain fields, and a reset of the scope that HP_SCOPE selects, or code 12. -/
def State.controlWrite (s : State) (w : Nat) : State :=
  let s := s.controlFields w
  if w.testBit 7 = false then s
  else if bitsOf w 8 8 ≠ 0xA5 then s.hpError 12 0
  else if s.flag SYS_RST_CFG_HP_SCOPE then (s.up SYS_RESET_CAUSE_HP_INTERFACE).hpInterfaceReset
  else s.applyReset .system SYS_RESET_CAUSE_HP_DEVICE

/-- HP_CONTROL_RESET (R842, R843). -/
def execHpControlReset (v : BitVec 16) (s : State) : Host.Outcome State Fault Refusal :=
  fin (s.hpCycle true true (fun s =>
    let (w, s) := s.hpWord v
    s.controlWrite w))

end Sys2Proof.Machine
end

