-- ==== Sys2Proof/Machine/BootOps.lean ====
section
/-! DEFINITION. The Boot ROM (R129 to R140, R1067, R1078): initialisation, slot selection and verification, and
recovery. -/

namespace Sys2Proof.Machine
open Sys2Proof

/-! ## Straps and OTP -/

/-- The straps latched (R123, R126). -/
def State.latchStraps (s : State) (straps : BitVec 4) : State :=
  let sel := straps.toNat % 4
  let eff := if otpBit s.boot.shadow 546 ∨ (otpBit s.boot.shadow 545 = true ∧ sel = 2) then 0 else sel
  ((s.wr SYS_STRAP_BOOT_SEL eff).wr SYS_STRAP_HP_MODE (straps.toNat / 4)).put SYS_STRAP_OVERRIDDEN (eff != sel)

/-- Fuses left partly programmed read into a shadow: each as a free value (R1073, log entry 3). -/
def readParts : List Nat → List (Nat × Word) → State → List (Nat × Word) × State
  | [], bank, s => (bank, s)
  | i :: is, bank, s =>
    let (v, s) := s.draw
    readParts is (if v.testBit 0 then otpSet bank i else otpClear bank i) s

/-- The shadow load (R113, R127): the triplicated bits are read by majority, the reserved
bits beside their copies read 0, and what rests on the shadow follows. -/
def State.loadShadow (s : State) : State :=
  let (bank, s) := readParts s.boot.partFuses s.boot.fuses s
  let bank := [0, 1, 2, 3, 4].foldl (fun b i =>
    if majority (otpBit bank (544 + i)) (otpBit bank (3568 + i)) (otpBit bank (3576 + i)) then otpSet b (544 + i)
    else otpClear b (544 + i)) bank
  let bank := [3573, 3574, 3575, 3581, 3582, 3583].foldl otpClear bank
  let s := (s.modBoot (fun x => { x with shadow := bank, otpLoading := false })).up OTP_STATUS_SHADOW_VALID
  { s.wr SYS_CAP_TEMP_GRADE (otpField bank 552 2) with cip := { s.cip with root := otpRoot bank } }

/-- An OTP_PROG write (R128, R153). -/
def State.otpProgram (s : State) (v : Word) : State :=
  let b := getF v 0 12
  if getF v 16 16 ≠ 0x6B1D then s
  else if s.flag OTP_STATUS_BUSY ∨ s.pw.vddAnaGood = false ∨ (s.otpLocked = true ∧ (b < 512 ∨ (544 ≤ b ∧ b < 576))) then
    s.up OTP_STATUS_REFUSED
  else (s.up OTP_STATUS_BUSY).modBoot (fun x => { x with otpBit := some b })

/-- The programming of a bit ends (R127, R1073). -/
def State.otpDone (s : State) : State :=
  match s.boot.otpBit with
  | none => s
  | some b =>
    let s := (fusesOf b).foldl (fun (s : State) i => s.burn i) s
    ((s.down OTP_STATUS_BUSY).up OTP_STATUS_DONE).modBoot (fun x => { x with
      otpBit := none, partFuses := x.partFuses.filter (fun i => !(fusesOf b).contains i) })

/-! ## Slots -/

/-- The base of slot A or B. -/
def slotBase (b : Bool) : Nat := if b then 0x10060000 else 0x10000000

/-- The header checks of Table 3.7: 1, 2, or 7 where they pass. -/
def checkHeader (base : Nat) (h : List Byte) : Nat :=
  let n := fieldB h 8 4
  let entry (e : Nat) : Bool := e % 2 == 0 && decide (base + 0x100 ≤ e ∧ e < base + 0x100 + n)
  if fieldB h 0 4 ≠ 0x57465844 ∨ fieldB h 4 2 ≠ 1 ∨ fieldB h 6 2 ≠ 0 ∨ fieldB h 12 4 = 0xFFFFFFFF then 1
  else if n < 4 ∨ 392960 < n ∨ n % 4 ≠ 0 ∨ entry (fieldB h 0x14 4) = false ∨ entry (fieldB h 0x18 4) = false then 2
  else 7

/-- The verification of a slot whose header passes (R132, R1067). A poisoned byte fails the digest (Table 16.3). -/
def State.verifySlot (s : State) (b : Bool) (h : List Byte) : Nat × State :=
  let (img, s) := State.readMem (slotBase b + 0x100) (fieldB h 8 4) s
  let (top, s) := State.readMem (slotBase b) 32 s
  let minVer := countIdx 32 (fun i => otpBit s.boot.shadow (512 + i))
  let code :=
    if poisoned img || poisoned top || sha256 (bits top ++ bits img) != sliceB h 0x20 32 then 3
    else if otpBit s.boot.shadow 544 && sha256 (sliceB h 0x80 32) != leBytes 32 (otpField s.boot.shadow 256 256) then 4
    else if otpBit s.boot.shadow 544 && !edVerify (sliceB h 0x80 32) (sliceB h 0 64) (sliceB h 0x40 64) then 5
    else if fieldB h 0x10 4 < minVer then 6
    else 0
  (code, s)

/-- A slot's code recorded. -/
def State.slotCode (s : State) (b : Bool) (code : Nat) : State :=
  if b then s.wr SYS_BOOT_INFO_SLOT_B code else s.wr SYS_BOOT_INFO_SLOT_A code

/-- Firmware started from a slot (R133). A watchdog that STANDBY kept armed (R647, Table 14.8) stays armed: R133's watchdogs,
both disarmed, are those after a reset (DESIGN CHOICE, log entry 26). -/
def State.startFirmware (s : State) (b : Bool) (h : List Byte) : State :=
  let s := s.wr SYS_BOOT_INFO_SLOT_RUN (b2n b)
  let s := if s.rd SYS_STRAP_BOOT_SEL = 3 ∧ s.boot.stage = .rom then s.wr SYS_BOOT_INFO_PATH 4 else s
  let s := (s.wr SYS_RESTART_VEC_B_VECTOR (fieldB h 0x18 4 / 2)).wr SYS_RESTART_VEC_A_VECTOR (fieldB h 0x14 4 / 2)
  let s := ((s.up SYS_CORE_RUN_B).startCore 0 (fieldB h 0x14 4)).startCore 1 (fieldB h 0x18 4)
  { s.modBoot (fun x => { x with stage := .firmware, owner := none }) with ot := s.ot.lasting }

/-- The code recorded for a slot. -/
def State.slotInfo (s : State) (b : Bool) : Nat := if b then s.rd SYS_BOOT_INFO_SLOT_B else s.rd SYS_BOOT_INFO_SLOT_A

/-- R136: the target slot by the codes recorded and, where both slots are valid, their SEQUENCE; B where true. -/
def State.targetSlot (s : State) : State × Bool :=
  let bad (b : Bool) : Bool := s.slotInfo b != 0 && s.slotInfo b != 7
  if bad false then (s, false)
  else if bad true then (s, true)
  else
    let (ha, s) := State.readMem (slotBase false + 12) 4 s
    let (hb, s) := State.readMem (slotBase true + 12) 4 s
    (s, !decide (leVal (bits ha) < leVal (bits hb)))

/-- Rings 2 and 3 as recovery uses them (R135, Table 13.2): 32-byte entries, from the host to Core A and from Core A to the
Host Port. Where the Boot ROM places them is its own, and it gives each room for a whole message. WAKE_EN and its PD_AON copy
stay as they stand (R601). -/
def State.recoveryRings (s : State) : State :=
  let base := Config.recoveryRings % 8128
  let put (s : State) (id base who : Nat) : State :=
    s.setRing id { base := base, size := 2, esize := 1, consumer := who, en := true
                   wakeEn := (s.ring id).wakeEn, wakeCopy := (s.ring id).wakeCopy }
  put (put s 2 base 1) 3 (base + 32) 4

/-- Recovery entered (R135, R136): the target slot is chosen, the D+ pull-up is on and the DFU function attached, and the
mailbox rings and the Console UART are ready. DESIGN CHOICE (log entry 26): PATH reads 2 after a wake path too. -/
def State.enterRecovery (s : State) : State :=
  let s := ((s.wr HP_STATE_STATE 3).wr HP_STATE_DETAIL 0).wr SYS_BOOT_INFO_PATH 2
  let s := (((s.up USB_CTRL_PULLUP).up USB_CTRL_FN_ATTACH).wr (USB_PORT_STATUS 4) 257).portChange 4 0
  let s := ((s.up UART_CTRL_TX_EN).up UART_CTRL_RX_EN).recoveryRings
  let (s, b) := s.targetSlot
  s.modBoot (fun x => { x with stage := .recovery, owner := none, target := b, dfu := .idle })

/-- The slots tried in order; with `run` the first that verifies starts. -/
def State.trySlots (run : Bool) (ha hb : List Byte) : List Bool → State → State
  | [], s => s.enterRecovery
  | b :: bs, s =>
    let h := if b then hb else ha
    if s.slotInfo b = 7 then
      let (c, s) := s.verifySlot b h
      let s := s.slotCode b c
      if c = 0 ∧ run = true then s.startFirmware b h else State.trySlots run ha hb bs s
    else State.trySlots run ha hb bs s

/-- R132: both headers checked, then the slots verified in order. -/
def State.bootSelect (s : State) (run : Bool) : State :=
  let (pa, s) := State.readMem (slotBase false) 256 s
  let (pb, s) := State.readMem (slotBase true) 256 s
  let (ha, hb) := (bits pa, bits pb)
  let (ca, cb) := (checkHeader (slotBase false) ha, checkHeader (slotBase true) hb)
  let s := (s.slotCode false ca).slotCode true cb
  let order := if cb = 7 ∧ (ca ≠ 7 ∨ fieldB ha 12 4 < fieldB hb 12 4) then [true, false] else [false, true]
  State.trySlots run ha hb order s

/-- The Host Port configured and enabled, with STATE = BOOTING (R129, R149). -/
def State.enableHp (s : State) : State := ((s.wr HP_STATE_STATE 1).wr HP_STATE_DETAIL 0).up HP_CFG_ENABLE

/-- The Boot ROM stops with a FAULT detail. -/
def State.romFault (s : State) (detail : Nat) : State :=
  ((s.wr HP_STATE_STATE 4).wr HP_STATE_DETAIL detail).modBoot (fun x => { x with stage := .stopped })

/-- A self-test's results on the Console UART (R1078). The spec does not lay them out: their number and the bytes are free
values (log entry 3). -/
def State.tellSelftest (s : State) : State :=
  let (n, s) := s.draw
  let (l, s) := State.drawBytes n s
  (s.up UART_CTRL_TX_EN).uartSend l

/-- The code of SELFTEST: 0, or the failing memory's ID in Table 16.2 plus 1 (R709). -/
def selftestCode (test : Nat) : Nat := if test = 0 then 0 else (test - 1) % 13 + 1

/-- The Boot ROM from Core A's first fetch (R129, R1078): `fault` is a FAULT detail met on the way, `test` the failing
memory of a self-test, 0 for none and its ID plus 1 for one. -/
def State.bootRom (s : State) (fault test : Nat) : State :=
  let s := (((s.wipe 0x20000000 0x20080000).wipe 0x02100000 0x02108000).wipe 0x03100000 0x03108000).wipe 0x300E8000 0x300EC000
  let s := s.enableHp.clkSync
  let sel := s.rd SYS_STRAP_BOOT_SEL
  if fault ≠ 0 then s.romFault fault
  else if sel = 2 then
    ((s.wr SYS_BOOT_INFO_PATH 3).modCore 0 (fun c => { c with wfi := true })).modBoot (fun x => { x with stage := .debugHalt })
  else if sel = 3 then
    let s := s.ecc.foldl (fun (s : State) e =>
      if eccKey 12 0 ≤ e.1 ∧ e.1 < eccKey 13 0 then s.eccNote 12 (e.1 - eccKey 12 0) e.2 else s) s
    let s := (s.wr SYS_BOOT_INFO_SELFTEST (selftestCode test)).tellSelftest
    if test ≠ 0 then s.romFault 2 else s.bootSelect true
  else s.bootSelect (decide (sel ≠ 1))

/-- The Boot ROM's wake path (R149). -/
def State.bootWake (s : State) : State := ((s.enableHp).wr SYS_BOOT_INFO_PATH 1).bootSelect true

/-! ## Recovery -/

/-- A message's bytes on the Console UART: between 0x7E bytes, with 0x7E and 0x7D escaped (R136). -/
def uartFrame (m : List Byte) : List Byte :=
  [0x7E] ++ m.flatMap (fun b => if b = 0x7E ∨ b = 0x7D then [0x7D, b ^^^ 0x20] else [b]) ++ [0x7E]

/-- The bytes of a reply message (R136, R137). -/
def replyBytes (type seq status : Nat) (payload : List Byte) : List Byte :=
  let m := leBytes 1 type ++ leBytes 1 seq ++ leBytes 2 (payload.length + 1) ++ leBytes 1 status ++ payload
  m ++ leBytes 4 (crc32c m)

/-- A message sent on its transport (R136): as entries of ring 3 for the mailbox, framed for the UART. -/
def State.sendReply (s : State) (t : Transport) (m : List Byte) : State :=
  match t with
  | .hostPort => (msgEntries (m.length + 1) m).foldl (fun (s : State) e => s.post 3 e) s
  | .uart => s.uartSend (uartFrame m)
  | .usb => s

/-- A reply (R137). -/
def State.recoveryReply (s : State) (t : Transport) (type seq status : Nat) (payload : List Byte) : State :=
  let m := replyBytes type seq status payload
  (s.modBoot (fun x => { x with reply := m })).sendReply t m

/-- A request's bytes leave its transport: the entries of ring 2 up to its END, or the UART's received bytes. -/
def State.takeRequest (s : State) (t : Transport) : State :=
  match t with
  | .hostPort => dropMessage 2 (s.ring 2).count s
  | .uart => (s.modIo (fun i => { i with uartRx := [] })).uartSync
  | .usb => s

/-- The code that verification gives a slot now. -/
def State.slotResult (s : State) (b : Bool) : Nat × State :=
  let (p, s) := State.readMem (slotBase b) 256 s
  let c := checkHeader (slotBase b) (bits p)
  if c = 7 then s.verifySlot b (bits p) else (c, s)

/-- Bytes written to the target slot by the Boot ROM (R138). -/
def State.writeSlot (s : State) (off : Nat) (d : List Byte) : Bool × State :=
  if 393216 < off + d.length then (false, s)
  else (true, (s.masterWrite 0 false false (slotBase s.boot.target + off) (clean d)).2)

/-- HELLO's answer after its STATUS byte (Table 3.8). -/
def State.helloData (s : State) : List Byte :=
  let w (f : Fld) : List Byte := leBytes 4 (s.reg f.addr).toNat
  w SYS_ID_WORD ++ w SYS_REV_WORD ++ w SYS_BOOT_INFO_WORD ++ w SYS_STRAP_WORD
    ++ leBytes 1 (otpField s.boot.shadow 544 5) ++ leBytes 1 (b2n s.boot.target)

/-- Slots of the Almanac as the Boot ROM reads them through their code; a byte that is uncorrectable reads as it is stored. -/
def almSlots : List Nat → State → List Byte × State
  | [], s => ([], s)
  | i :: is, s =>
    let (b, s) := State.readMem (almSlotAddr i) 32 s
    let (l, s) := almSlots is s
    (bits b ++ l, s)

/-- A request served by its TYPE (Table 3.8, R137, R138, R140). BOOT's reply leaves before selection runs. DESIGN CHOICE (log
entry 26): an ALMANAC request goes on from slot 4095 to slot 0. -/
def State.recoveryServe (s : State) (type : Nat) (t : Transport) (seq : Nat) (d : List Byte) : State :=
  let say (s : State) (st : Nat) (p : List Byte) : State := s.recoveryReply t (type % 128 + 128) seq st p
  match type with
  | 1 => if d ≠ [] then say s 3 [] else say (s.modBoot (fun x => { x with owner := some t })) 0 s.helloData
  | 2 =>
    if d.length < 5 ∨ 1024 < d.length then say s 3 []
    else
      match s.writeSlot (fieldB d 0 4) (d.drop 4) with
      | (true, s) => say s 0 []
      | (false, s) => say s 3 []
  | 3 =>
    if d ≠ [] then say s 3 []
    else
      let (c, s) := s.slotResult s.boot.target
      say s (if c = 0 then 0 else 4) (leBytes 1 c)
  | 4 => if d ≠ [] then say s 3 [] else ((say s 0 []).modBoot (fun x => { x with owner := none })).bootSelect true
  | 5 =>
    let n := fieldB d 2 1
    if d.length ≠ 3 ∨ n = 0 ∨ 31 < n then say s 3 []
    else
      let (l, s) := almSlots ((List.range n).map (fun i => (fieldB d 0 2 + i) % 4096)) s
      say s 0 l
  | _ => say s 2 []

/-- A recovery message of TYPE `type` (R137, R139, R140): served where its transport may have it. A frame with a bad CRC on
the UART is answered with TYPE 0xFF and SEQ 0, whatever else holds. -/
def State.recoveryMsg (s : State) (type : Nat) (t : Transport) (seq : Byte) (good : Bool) (d : List Byte) : State :=
  if s.boot.stage ≠ .recovery then s
  else
    let s := s.takeRequest t
    let say (st : Nat) : State := s.recoveryReply t (type % 128 + 128) seq.toNat st []
    if good = false then (if t = .uart then s.recoveryReply t 0xFF 0 1 [] else say 1)
    else if t = .uart ∧ otpBit s.boot.shadow 547 = true then say 5
    else if s.boot.owner.isSome ∧ s.boot.owner ≠ some t then say 6
    else s.recoveryServe type t seq.toNat d

end Sys2Proof.Machine
end

