-- ==== Sys2Proof/Machine/Dfu.lean ====
section
/-! DEFINITION. The DFU function of recovery (R135, R140): its descriptors, its class requests and its downloads. What the
spec leaves to DFU 1.1 and USB 2.0 is PRESUMED (log entry 26). -/

namespace Sys2Proof.Machine
open Sys2Proof

/-- wTransferSize of the DFU function (R140). -/
def dfuTransferSize : Nat := 1024

/-- Whether USB may serve DFU: in recovery, and no other transport owns it (R140). DESIGN CHOICE (log entry 26): DFU carries
no STATUS 6, and a request while another transport owns recovery is answered with STALL. -/
def State.dfuOwn (s : State) : Bool :=
  s.boot.stage == .recovery && (s.boot.owner.isNone || s.boot.owner == some Transport.usb)

/-- The DFU state changed. -/
def State.setDfu (s : State) (d : Dfu) : State := s.modBoot (fun x => { x with dfu := d })

/-- Manifestation (R140): VERIFY runs; a valid slot is booted as BOOT boots it, and a failed one ends in dfuERROR with
errVERIFY. -/
def State.dfuManifest (s : State) : State :=
  match s.slotResult s.boot.target with
  | (0, s) => ((s.setDfu .idle).reply .ack []).bootSelect true
  | (_, s) => (s.setDfu .errVerify).reply .ack []

/-- A DFU_DNLOAD (R138, R140): a block, or with no data the start of manifestation. A block past the slot's end writes
nothing and is answered with STALL (DESIGN CHOICE, log entry 26); a block that is written starts a download anew after an
error. -/
def State.dfuDnload (s : State) (block : Nat) (d : List Byte) : State :=
  if s.dfuOwn = false ∨ dfuTransferSize < d.length then s.reply .stall []
  else if d = [] then s.dfuManifest
  else
    match s.writeSlot (block * dfuTransferSize) d with
    | (true, s) => (s.setDfu .dnload).reply .ack []
    | (false, s) => s.reply .stall []

/-- The function's device descriptor in recovery; its identity is the part's own. -/
def dfuDevice : List Byte := [18, 1, 0x00, 0x02, 0, 0, 0, 64] ++ (List.range 9).map Config.dfuByte ++ [1]

/-- The configuration of recovery (R140, Table 20.3): one DFU interface in DFU mode on EP0 alone, and its functional
descriptor with wTransferSize, able to download and not to upload. -/
def dfuConfiguration : List Byte :=
  [9, 2, 27, 0, 1, 1, 0, Config.dfuByte 9, Config.dfuByte 10, 9, 4, 0, 0, 0, 0xFE, 0x01, 0x02, Config.dfuByte 11]
    ++ [9, 0x21, (Config.dfuByte 12 &&& 0x0C) ||| 1, Config.dfuByte 13, Config.dfuByte 14]
    ++ leBytes 2 dfuTransferSize ++ [0x10, 0x01]

/-- bStatus and bState of DFU 1.1: dfuIDLE, dfuDNLOAD-IDLE, or dfuERROR with errVERIFY. -/
def Dfu.report : Dfu → Byte × Byte
  | .idle => (0, 2)
  | .dnload => (0, 5)
  | .errVerify => (7, 10)

/-- A control request to the function in recovery, which the Boot ROM answers. -/
def State.dfuRequest (s : State) (p out : List Byte) : State :=
  let type := fieldB p 0 1
  let req := fieldB p 1 1
  let value := fieldB p 2 2
  let s := s.setup p
  let give (d : List Byte) : State := s.reply .data (d.take (fieldB p 6 2))
  let (bStatus, bState) := s.boot.dfu.report
  if 1024 < out.length then s.reply .stall []
  else if type = 0x80 ∧ req = 6 then
    (if value = 0x0100 then give dfuDevice else if value = 0x0200 then give dfuConfiguration else s.reply .stall [])
  else if (type = 0 ∧ req = 9 ∧ value ≤ 1) ∨ (type = 1 ∧ req = 11 ∧ value = 0) then s.reply .ack []
  else if type = 0x80 ∧ req = 8 then give [1]
  else if type = 0x81 ∧ req = 10 then give [0]
  else if s.dfuOwn = false then s.reply .stall []
  else if type = 0x21 ∧ req = 1 then s.dfuDnload value out
  else if type = 0xA1 ∧ req = 3 then
    give ([bStatus, Config.dfuByte 15, Config.dfuByte 16, Config.dfuByte 17, bState, Config.dfuByte 18])
  else if type = 0xA1 ∧ req = 5 then give [bState]
  else if type = 0x21 ∧ (req = 4 ∨ req = 6) then (s.setDfu .idle).reply .ack []
  else s.reply .stall []

end Sys2Proof.Machine
end

