-- ==== Sys2Proof/Machine/AonOps.lean ====
section
/-! DEFINITION. Writes to AON-resident registers (R51, R601): one crosses at a time, the next waits for it. -/

namespace Sys2Proof.Machine
open Sys2Proof

/-- Whether a control core or the debug transport is stalled in a write that waits for a crossing (R51). -/
def State.aonStalled (s : State) (b : Nat) : Bool := s.pw.aonWait.any (fun e => e.1 == b)

/-- Whether a control core or the debug transport issues an access: the fabric's clock runs (R48), and the requester is not
stalled in a write to an AON-resident register (R51). -/
def State.mayIssue (s : State) (b : Nat) : Bool := !s.pw.lostLock.getLsbD 1 && !s.aonStalled b

/-- A write to an AON-resident register: it takes effect and is crossing from then on, or it stalls its writer behind the
one that is crossing (R51). A waiting write is kept as its requester, address and value; a stalled writer issues no
further one. -/
def State.aonWrite (s : State) (b addr v : Nat) (g : State → State) : State :=
  if s.aonStalled b then s
  else if s.flag PWR_STATE_AON_BUSY then s.modPw (fun p => { p with aonWait := p.aonWait ++ [(b, addr, v)] })
  else (g s).up PWR_STATE_AON_BUSY

/-- A write to QM_RING_CFG of ring `id`. Every descriptor write copies the wake-enable bit into PD_AON (R81); one that
changes it is AON-resident and copies it when it completes (R601). -/
def State.ringCfgAny (s : State) (b id w : Nat) : State :=
  if w.testBit 29 = (s.ring id).wakeEn then (s.ringCfgWrite id w).copyWake id
  else s.aonWrite b 0x30020014 w (fun s => (s.ringCfgWrite id w).modPw (fun p => { p with aonRing := some id }))

/-- The value a register read gives its reader. -/
def State.answer (s : State) (v : Nat) : State := { s with bus := { data := clean (leBytes 4 v) } }

end Sys2Proof.Machine
end

