-- ==== Sys2Proof/Machine/Power.lean ====
section
/-! DEFINITION. The meanings of chapter 2: clocks, sleep, Dusk and Dawn, and the Power Governor. -/

namespace Sys2Proof.Machine
open Sys2Proof

/-! ## Clocks -/

/-- XTAL32_SELECT (R45). -/
def execXtal32Select (s : State) : Host.Outcome State Fault Refusal := fin (s.down CLK_STATUS_AON_SRC)

/-- XTAL32_LOSS (R46). -/
def execXtal32Loss (s : State) : Host.Outcome State Fault Refusal :=
  fin (if s.flag CLK_STATUS_AON_SRC then s else (s.up CLK_STATUS_AON_SRC).pwrEvent 2)

/-- The CLK_STATUS bit of a PLL. -/
def pllBit (pll : Fin 5) : Fld := { CLK_STATUS_WORD with lo := pll.val, w := 1 }

/-- PLL_LOCK_LOSS (R48), of a PLL whose domain is on; without the LINE PLL every write gate is deasserted (R330, R331). -/
def execPllLockLoss (pll : Fin 5) (s : State) : Host.Outcome State Fault Refusal :=
  fin (if s.pw.lostLock.getLsbD pll || !s.pllNeeded pll then s
    else
      let s := ((s.modPw (fun p => { p with lostLock := p.lostLock ||| BitVec.ofNat 5 (2 ^ pll.val) })).down (pllBit pll)).pwrEvent 2
      if pll = 0 then s.eachPort (fun p s => s.dropWg p) else s)

/-- PLL_LOCK_RETURN (R48). -/
def execPllLockReturn (pll : Fin 5) (s : State) : Host.Outcome State Fault Refusal :=
  fin (if s.pw.lostLock.getLsbD pll then
      (s.modPw (fun p => { p with lostLock := p.lostLock &&& ~~~BitVec.ofNat 5 (2 ^ pll.val) })).put (pllBit pll) (s.pllNeeded pll)
    else s)

/-! ## IDLE -/

/-- Whether a formatter context counts as idle (R478): HALTED, or WAITING on REQ with no gate, DMA or timer. The wait's own
timeout counts as a timer too (DEDUCED, log entry 26). -/
def State.ctxIdle (s : State) (p : Fin 8) : Bool :=
  let f := s.fmt[p]
  s.rd (FMT_CTX_STATUS_STATE p) == 0
    || (s.rd (FMT_CTX_STATUS_STATE p) == 2 && f.waitSel == 4 && f.gates.isEmpty && f.dma.isNone
      && s.rd (FMT_CTX_TIMER_COUNT p) == 0 && s.rd (FMT_CTX_WTO_UNITS p) == 0)

/-- Whether the engines that R56 lists are idle. -/
def State.enginesIdle (s : State) : Bool :=
  s.hq.cur[(0 : Fin 2)].isNone && s.hq.cur[(1 : Fin 2)].isNone && (List.range 8).all (fun p => s.ctxIdle (fin8 p))
    && !s.flag AE_STATUS_BUSY && !s.flag MC_STATUS_BUSY && s.cip.inFlight.toList.all (· == 0) && s.cip.unloadWait.isNone
    && s.cip.reenc.isNone && s.cip.reencWait.isEmpty && s.lc.wcb.isEmpty

/-- IDLE_ENTRY (R56): both cores are in WFI. -/
def execIdleEntry (s : State) : Host.Outcome State Fault Refusal :=
  fin (if s.pw.sleep == .active && s.pw.goal == .none && s.on 1 && s.flag PWR_CTRL_IDLE_AUTO && s.enginesIdle
      && !s.irqPending 0 && !s.irqPending 1 then
    ((s.modPw (fun p => { p with sleep := .idle })).modCore 0 (fun c => { c with wfi := true })).modCore 1
      (fun c => { c with wfi := true })
  else s)

/-- IDLE_EXIT (R57, R63, R1074). -/
def execIdleExit (s : State) : Host.Outcome State Fault Refusal := fin s.leaveIdle

/-! ## Requests -/

/-- A refused request (R61). -/
def State.refuseSleep (s : State) (reason detail : Nat) : State :=
  ((s.wr PWR_REFUSE_REASON reason).wr PWR_REFUSE_DETAIL detail).pwrEvent 0

/-- Whether a port's spindle is not stopped; in FAULT it counts as stopped once R168's condition holds. -/
def State.turning (s : State) (p : Nat) : Bool :=
  s.rd (SPN_STATUS_STATE p) != 0 && !(s.rd (SPN_STATUS_STATE p) == 9 && s.spn[fin8 p].still)

/-- Whether the Array Engine counts as busy for R59: a command runs or ring 256 is not empty (R577). -/
def State.aeBusy (s : State) : Bool := s.flag AE_STATUS_BUSY || decide (0 < (s.ring 256).count)

/-- The first reason that fails a sleep request, with its detail (R59 to R61). -/
def State.sleepReason (s : State) (nadir : Bool) : Option (Nat × Nat) :=
  if s.hq.tags.toList.any (fun t => t.dataPhase) then some (1, 0)
  else if (List.range 8).any (fun p => s.rd (FMT_CTX_STATUS_STATE p) != 0) then some (2, 0)
  else if !s.idu.accepted.isEmpty || !s.idu.reissue.isEmpty || !s.idu.redisp.isEmpty || s.idu.running.toList.any Option.isSome then
    some (3, 0)
  else if s.aeBusy then some (4, 0)
  else if !s.lc.wcb.isEmpty then some (5, 0)
  else
    let late : Option (Nat × Nat) := if s.pw.phases != [] || s.pw.goal != .none then some (9, 0) else none
    if nadir = false then late
    else
      match lowestIdx 8 s.turning with
      | some p => some (6, p)
      | none =>
        match s.rings.find? (fun e => e.2.precious && decide (0 < e.2.count)) with
        | some e => some (7, e.1)
        | none =>
          match s.rings.find? (fun e => e.2.latch) with
          | some e => some (8, e.1)
          | none => late

/-- The domains that a transition switches off, in Dusk's order (Table 2.6). -/
def State.duskOrder (s : State) (nadir : Bool) : List Nat :=
  (if nadir then [10, 2, 3, 4, 5, 6, 7, 8, 9, 14, 12, 13, 1, 11, 0] else [10, 15, 1, 11]).filter (fun d => d == 15 || s.on d)

/-- The order in which domains come back. -/
def dawnOrder : List Nat := [0, 11, 1, 14, 13, 12, 10, 15, 2, 3, 4, 5, 6, 7, 8, 9]

/-- A sleep request (R58 to R61). A wake source that is deliverable at a STANDBY request is a wake event in its Dusk
(R85). -/
def State.sleepRequest (s : State) (nadir : Bool) : State :=
  match s.sleepReason nadir with
  | some (r, d) => s.refuseSleep r d
  | none =>
    let s := s.modPw (fun p => { p with
      goal := if nadir then .toNadir else .toStandby, todo := s.duskOrder nadir, done := [], wakePend := false,
      onBefore := s.rd PWR_DOMAIN_STATUS_ON })
    if !nadir && s.eventWake then s.ringsWake 3 (s.bit PWR_WAKE_EN_EN 3) else s

/-- STANDBY_REQUEST (R59): a PWR_CTRL write, which R51 may stall. -/
def execStandbyRequest (s : State) : Host.Outcome State Fault Refusal :=
  fin (s.aonWrite 0 PWR_CTRL_WORD.addr ((s.reg PWR_CTRL_WORD.addr).toNat + 512) (fun s => s.sleepRequest false))

/-- NADIR_REQUEST (R60). -/
def execNadirRequest (s : State) : Host.Outcome State Fault Refusal :=
  fin (s.aonWrite 0 PWR_CTRL_WORD.addr ((s.reg PWR_CTRL_WORD.addr).toNat + 768) (fun s => s.sleepRequest true))

/-! ## Dawn -/

/-- A domain's request bit. -/
def reqBit (d : Nat) : Fld := { PWR_DOMAIN_REQ_WORD with lo := d, w := 1 }

/-- Everything that NADIR takes from the domains other than PD_AON, at its entry and by the reset of its Dawn (R68, R69,
Table 2.12): what PD_RET's registers were given in between does not last (R44, R1076). -/
def State.nadirLose (s : State) : State :=
  { (s.fresh none).wr PWR_DOMAIN_STATUS_ON 0 with
    core := #v[{}, {}]
    pw := { s.pw with phases := [], aonWait := [], aonRing := none, afeOff := false, selfRefresh := false, lostLock := 0,
                      calm := 0, sat := {} } }

/-- The NADIR Dawn goes on with its domains once the rails are in range (Table 2.6, R68, R69). PWR_DOMAIN_REQ then asks for
PD_SERVO and for no port and no IDU; PD_HOSTP and PD_USB come back where it asks for them (log entry 26). -/
def State.nadirDomains (s : State) : State :=
  let s := s.nadirLose
  let s := ((s.up SYS_RESET_CAUSE_NADIR_DAWN).down OTP_STATUS_SHADOW_VALID).modBoot (fun b => { b with otpLoading := true })
  let s := ([2, 3, 4, 5, 6, 7, 8, 9, 10].foldl (fun (s : State) d => s.down (reqBit d)) s).up (reqBit 14)
  let asked (d : Nat) : Bool := (s.reg PWR_DOMAIN_REQ_WORD.addr).getLsbD d
  s.modPw (fun p => { p with railWait := false, todo := [0, 11, 1, 14] ++ [13, 12].filter asked })

/-- A Dawn begins from the sleep state (Table 2.6); from NADIR the PMIC_EN outputs come first. -/
def State.startDawn (s : State) : State :=
  match s.pw.sleep with
  | .standby => s.standbyDawn
  | .nadir =>
    let s := (s.wr PWR_PMIC_LEVEL 7).modPw (fun p => { p with goal := .fromNadir, wakePend := false, done := [], todo := [] })
    if s.rd PWR_PMIC_USE = 0 then s.nadirDomains else s.modPw (fun p => { p with railWait := true })
  | _ => s

/-- Whether a held doorbell starts a Dawn (R79): its ring is wake-enabled, and firmware has not switched its consumer's
domain off. -/
def State.doorbellWake (s : State) : Bool :=
  s.rings.any (fun e => e.2.latch && e.2.wakeCopy && s.agentAsked e.2.consumer)

/-- Whether a wake source occurs at all where it depends on the state (Table 2.5): a doorbell in STANDBY is held by a latch,
one in IDLE or in a device-level transition need not be, and neither doorbell nor event is a source of NADIR. -/
def State.wakeOccurs (s : State) (src : Nat) : Bool :=
  let deep := s.pw.goal == .none && s.pw.sleep == .nadir
  if src = 2 then !deep && (s.pw.sleep == .idle || s.rings.any (fun e => e.2.latch || (e.2.wakeCopy && s.pw.goal != .none)))
  else if src = 3 then !deep && s.eventWake
  else true

/-- A wake source of Table 2.5 (R63, R64, R79, R85, R96, R97, R869, R1074). A doorbell or event in the Dusk to NADIR is
recorded and starts nothing (R79, R85). -/
def State.wake (s : State) (src : Nat) : State :=
  let en := s.bit PWR_WAKE_EN_EN src
  let starts := en && (src != 2 || s.doorbellWake)
  if s.awake || !s.wakeOccurs src then s
  else
    let s := s.setBit PWR_WAKE_CAUSE_CAUSE src
    let hp (s : State) : State := if src = 0 ∧ s.on 13 = true then (s.inc HP_COUNT_WAKES).hpEvent 6 else s
    match s.pw.goal, s.pw.sleep with
    | .none, .idle => if en || decide (src ≤ 1) then s.leaveIdle else s
    | .none, _ => if starts then hp s.startDawn else s
    | .toStandby, _ => if starts then s.modPw (fun p => { p with wakePend := true }) else s
    | .toNadir, _ => if starts && src != 2 && src != 3 then s.modPw (fun p => { p with wakePend := true }) else s
    | _, _ => s

/-- WAKE_EVENT (R64). -/
def execWakeEvent (src : Fin 6) (s : State) : Host.Outcome State Fault Refusal := fin (s.wake src.val)

/-- WAKE_TIMER_EXPIRY (R103): the timer counts down outside ACTIVE. -/
def execWakeTimerExpiry (s : State) : Host.Outcome State Fault Refusal :=
  fin (if s.pw.sleep != .active && s.rd PWR_WAKE_TIMER_TICKS != 0 then (s.wr PWR_WAKE_TIMER_TICKS 0).wake 4 else s)

/-- PMIC_RAIL_WAIT_END (R93, R1066). -/
def execPmicRailWaitEnd (good : Bool) (s : State) : Host.Outcome State Fault Refusal :=
  fin (if s.pw.railWait = false then s
    else if good then s.nadirDomains
    else s.applyReset .pin SYS_RESET_CAUSE_POR_RAIL)

/-! ## Dusk -/

/-- A domain switched off. -/
def State.domainOff (s : State) (d : Nat) : State :=
  let s := s.loseDomain d
  (if d = 15 then s else s.clrBit PWR_DOMAIN_STATUS_ON d).clkSync

/-- The device has reached the sleep state of its transition: NADIR loses everything outside PD_AON, and the PMIC_EN
outputs in use fall. A bit being programmed stays in progress when PMIC_EN removes VDD_ANA so (R42, R1073): R1073 names a power-on
reset and no sleep (DESIGN CHOICE, log entry 26). -/
def State.asleepNow (s : State) : State :=
  if s.pw.goal = .toNadir then
    let s := s.nadirLose.wr PWR_PMIC_LEVEL (7 - s.rd PWR_PMIC_USE)
    (s.modPw (fun p => { p with sleep := .nadir, goal := .none, todo := [], done := [] })).clkSync
  else s.modPw (fun p => { p with sleep := .standby, goal := .none, todo := [], done := [] })

/-- A wake event latched in the Dusk, or a doorbell held at its end, starts the Dawn at once (R79, R85, R96). -/
def State.wakeAtOnce (s : State) : State :=
  if s.pw.wakePend then s.startDawn
  else if s.pw.sleep = .standby ∧ s.doorbellWake = true ∧ s.bit PWR_WAKE_EN_EN 2 = true then s.wake 2
  else s

/-- Whether a domain's own sequence of a kind is the next for it (R100, R101). -/
def State.phaseDue (s : State) (d : Nat) (k : Phase) : Bool :=
  match s.pw.phases.find? (fun e => e.1 == d) with
  | some e => e.2 == k
  | none => false

/-- A domain's own sequence ended. -/
def State.phaseEnd (s : State) (d : Nat) (k : Phase) : State :=
  s.modPw (fun p => { p with phases := p.phases.erase (d, k) })

/-- Whether any port domain is on. -/
def State.anyPort (s : State) : Bool := (List.range 8).any (fun p => s.on (2 + p))

/-- Whether the device-level transition is in its Dusk. -/
def State.falling (s : State) : Bool := s.pw.goal == .toStandby || s.pw.goal == .toNadir

/-- DUSK_COMPLETE (R71, R75, R101). -/
def execDuskComplete (d : Fin 16) (s : State) : Host.Outcome State Fault Refusal :=
  fin (if s.phaseDue d .dusk then
    (if d.val = 14 ∧ s.anyPort = true then s else (s.domainOff d).phaseEnd d .dusk)
  else if s.falling = true ∧ s.pw.todo.head? = some d.val then
    let s := (s.domainOff d).modPw (fun p => { p with todo := p.todo.tail, done := d.val :: p.done })
    if s.pw.todo = [] then s.asleepNow.wakeAtOnce else s
  else s)

/-- A port stays on: PD_SERVO, whose Dusk waits for the ports (R101), stays on with it. The spec does not say what becomes of
that Dusk: DESIGN CHOICE, log entry 26. -/
def State.servoStays (s : State) : State :=
  if s.pw.phases.contains (14, .dusk) then
    (s.modPw (fun p => { p with phases := p.phases.filter (fun e => e.1 != 14) })).up (reqBit 14)
  else s

/-- An aborted Dusk (R74, R80, R100). DESIGN CHOICE (log entry 26): an abort of the AFE data paths, to which Table 2.3 gives
no ID, records DOMAIN 15. -/
def State.duskAbort (s : State) (d step left : Nat) : State :=
  let note (s : State) : State :=
    ((((s.wr PWR_DUSK_FAIL_DOMAIN d).wr PWR_DUSK_FAIL_STEP step).wr PWR_DUSK_FAIL_OUTSTANDING left).pwrEvent 1).presentHeld d
  if s.phaseDue d .dusk && !(d == 14 && s.anyPort) then
    let s := (s.phaseEnd d .dusk).up (reqBit d)
    note (if 2 ≤ d ∧ d ≤ 9 then s.servoStays else s)
  else if s.falling = true ∧ s.pw.todo.head? = some d then
    let back := dawnOrder.filter (fun x => s.pw.done.contains x)
    note (s.modPw (fun p => { p with goal := if back = [] then .none else .back, todo := back, done := [], wakePend := false }))
  else s

/-- DUSK_STOP_TIMEOUT (R72). -/
def execDuskStopTimeout (d : Fin 16) (left : BitVec 16) (s : State) : Host.Outcome State Fault Refusal :=
  fin (s.duskAbort d.val 0 left.toNat)

/-- DUSK_DRAIN_TIMEOUT (R73). -/
def execDuskDrainTimeout (d : Fin 16) (left : BitVec 16) (s : State) : Host.Outcome State Fault Refusal :=
  fin (s.duskAbort d.val 1 left.toNat)

/-- A domain switched on (R76, R80, R708): a port meets SHOCK_N as it stands (R247), held doorbells are presented,
memories to initialise are noted, and the state block is written with the ticks that PD_CORE slept through (R992). -/
def State.domainOn (s : State) (d : Nat) (healthy : Bool) : State :=
  let s := if d = 15 then s.modPw (fun p => { p with afeOff := false }) else s.setBit PWR_DOMAIN_STATUS_ON d
  let due (i : Nat) (s : State) : State := { s with memDue := s.memDue ||| BitVec.ofNat 3 (2 ^ i) }
  let s := if d = 0 then due 1 s else if d = 1 then due 0 s else if d = 12 then due 2 s else s
  let s := if d = 11 then s.modPw (fun p => { p with selfRefresh := false }) else s
  let s := if d = 0 ∧ s.pw.goal = .fromNadir then s.drawMaster healthy else s
  let s := if d = 1 ∧ 0 < s.alm.ticks then s.writeState.modAlm (fun a => { a with ticks := 0 }) else s
  let s := if 2 ≤ d ∧ d ≤ 9 ∧ s.shockLow = true then s.shockLatch (fin8 (d - 2)) else s
  (s.presentHeld d).clkSync

/-- The device is ACTIVE again, its cores started where PD_CORE was switched on (R67 to R69). -/
def State.awakeNow (s : State) : State :=
  let last := match s.pw.goal with
    | .fromStandby => 2
    | .fromNadir => 3
    | _ => s.rd PWR_STATE_LAST_SLEEP
  let s := s.wr PWR_STATE_LAST_SLEEP last
  let s := if s.pw.done.contains 1 then s.startCores else s
  s.modPw (fun p => { p with sleep := .active, goal := .none, todo := [], done := [], wakePend := false })

/-- A device-level Dawn with no domain left ends; that of NADIR waits for the shadow load (R42). -/
def State.dawnEnd (s : State) : State :=
  if s.pw.todo = [] ∧ (s.pw.goal ≠ .fromNadir ∨ s.boot.otpLoading = false) then s.awakeNow else s

/-- Whether a domain is the next of a device-level Dawn; PD_IDU and the AFE data paths come together. -/
def State.dawnDue (s : State) (d : Nat) : Bool :=
  (s.pw.goal == .fromStandby || s.pw.goal == .fromNadir || s.pw.goal == .back) &&
    (s.pw.todo.head? == some d || (s.pw.todo.head? == some 10 && d == 15 && s.pw.todo.contains 15))

/-- Whether a port's Dawn may end: PD_SERVO is on and has no sequence of its own left (R101). -/
def State.servoUp (s : State) : Bool := s.on 14 && s.pw.phases.all (fun e => e.1 != 14)

/-- DAWN_COMPLETE (R76, R101). -/
def execDawnComplete (d : Fin 16) (healthy : Bool) (s : State) : Host.Outcome State Fault Refusal :=
  fin (if s.phaseDue d .dawn then
    (if 2 ≤ d.val ∧ d.val ≤ 9 ∧ s.servoUp = false then s else (s.domainOn d healthy).phaseEnd d .dawn)
  else if s.dawnDue d then
    ((s.domainOn d healthy).modPw (fun p => { p with todo := p.todo.erase d.val, done := d.val :: p.done })).dawnEnd
  else s)

/-! ## Domain requests -/

/-- Whether a domain holds outstanding work (R98, R102): its refusal reason. -/
def State.domainBusy (s : State) (d : Nat) : Option Nat :=
  let tags (usb : Bool) : Bool := allTags.any (fun t => s.tagState t != 0 && s.usbTag t == usb)
  if 2 ≤ d ∧ d ≤ 9 then (if s.turning (d - 2) then some 6 else none)
  else if d = 10 then
    (if s.freeSlots < 48 ∨ s.idu.running.toList.any Option.isSome = true then some 10 else none)
  else if d = 12 then (if tags true || (List.range 16).any (fun c => s.rd (USB_MSE_CTX_STATE c) != 0) then some 10 else none)
  else if d = 13 then (if tags false then some 10 else none)
  else none

/-- A PWR_DOMAIN_REQ write (R98, R100 to R102). -/
def State.domainRequest (s : State) (v : Word) : State :=
  let old := s.reg PWR_DOMAIN_REQ_WORD.addr
  let kept (d : Nat) : Option Nat := if old.getLsbD d && !v.getLsbD d then s.domainBusy d else none
  let anyP := getF v 2 8 ≠ 0
  let portStays := [2, 3, 4, 5, 6, 7, 8, 9].any (fun d => (kept d).isSome)
  let servoHeld := v.getLsbD 14 = false ∧ (anyP ∨ portStays = true)
  let new (d : Nat) : Bool :=
    if d = 14 then v.getLsbD 14 || decide anyP || portStays else v.getLsbD d || (kept d).isSome
  let all := [2, 3, 4, 5, 6, 7, 8, 9, 10, 12, 13, 14]
  let reasons := all.filterMap (fun d => (kept d).map (fun r => (r, if r = 6 then d - 2 else d)))
    ++ (if servoHeld then [(10, 14)] else [])
  let s1 := match reasons.find? (fun r => reasons.all (fun q => decide (r.1 < q.1 ∨ (r.1 = q.1 ∧ r.2 ≤ q.2)))) with
    | some (r, d) => s.refuseSleep r d
    | none => s
  let s2 := all.foldl (fun (s : State) d => s.put (reqBit d) (new d)) s1
  let ups := [14, 10, 2, 3, 4, 5, 6, 7, 8, 9, 12, 13].filter (fun d => !old.getLsbD d && new d)
  let downs := [2, 3, 4, 5, 6, 7, 8, 9, 10, 12, 13, 14].filter (fun d => old.getLsbD d && !new d)
  s2.modPw (fun p => { p with phases := p.phases ++ ups.map (fun d => (d, Phase.dawn)) ++ downs.map (fun d => (d, Phase.dusk)) })

/-- DOMAIN_REQUEST (R100): an AON-resident write. -/
def execDomainRequest (v : Word) (s : State) : Host.Outcome State Fault Refusal :=
  fin (s.aonWrite 0 PWR_DOMAIN_REQ_WORD.addr v.toNat (fun s => s.domainRequest v))

/-! ## The Power Governor -/

/-- One update of the Power Governor (R86 to R88, R1080), with the power die's telemetry of this update. DESIGN CHOICE (log
entry 26): OVER shows the inputs past their thresholds with ENABLE at 0 too, where the pseudocode returns before it
computes them. -/
def State.govUpdate (s : State) (tPower : BitVec 8) (vmot iVmot iCore : BitVec 16) : State :=
  let s := ((s.wr PS_TEMP_TEMP tPower.toNat).wr PS_VMOT_VOLTAGE vmot.toNat).wr PS_VMOT_CURRENT iVmot.toNat
  let lo : Nat := s.rd GOV_CTRL_LEVEL_MIN
  let hi : Nat := max lo (s.rd GOV_CTRL_LEVEL_MAX)
  let tl := s.rdI THERM_STATUS_TEMP
  let tp := s.rdI PS_TEMP_TEMP
  let (thL, thP, hy) := (s.rdI GOV_THRESH_T_T_LOGIC, s.rdI GOV_THRESH_T_T_POWER, (s.rd GOV_THRESH_T_HYST_T : Int))
  let thV := 32 * s.rd GOV_THRESH_I_I_VMOT
  let thC := 64 * s.rd GOV_THRESH_I_I_CORE
  let past := b2n (decide (thL < tl)) + 2 * b2n (decide (thP < tp)) + 4 * b2n (decide (thV < iVmot.toNat))
    + 8 * b2n (decide (thC < iCore.toNat))
  let quiet := decide (tl ≤ thL - hy) && decide (tp ≤ thP - hy) && decide (iVmot.toNat * 16 ≤ thV * 15)
    && decide (iCore.toNat * 16 ≤ thC * 15)
  let comp := s.rd GOV_STATUS_COMPUTED
  let pin := s.flag GOV_CTRL_PIN_EN
  let (want, calm) : Int × Nat :=
    if past ≠ 0 then ((comp : Int) - 1, 0)
    else if quiet then
      (if max 1 (s.rd GOV_HOLD_HOLD) ≤ s.pw.calm + 1 then ((comp : Int) + 1, 0) else (comp, s.pw.calm + 1))
    else (comp, 0)
  let on := s.flag GOV_CTRL_ENABLE
  let sat := on && !pin && (decide (want < lo) || decide ((hi : Int) < want))
  let comp' := if on then (clampInt lo hi want).toNat else comp
  let eff := if on then (if pin then s.rd GOV_CTRL_PIN_LEVEL else comp') else hi
  let (st, told) := s.pw.sat.update sat (s.rd GOV_CTRL_DWELL)
  let before := s.rd GOV_STATUS_EFFECTIVE
  let s := (((s.wr GOV_STATUS_COMPUTED comp').wr GOV_STATUS_EFFECTIVE eff).wr GOV_STATUS_OVER past).put GOV_STATUS_SATURATED sat
  let s := s.modPw (fun p => { p with calm := if on then calm else p.calm, sat := st })
  let s := if told then (s.up SYS_LOOP_SAT_GOV).pwrEvent 6 else s
  if eff ≠ before then s.pwrEvent 7 else s

/-- GOV_UPDATE, while PD_SERVO's logic runs (R48). -/
def execGovUpdate (tPower : BitVec 8) (vmot iVmot iCore : BitVec 16) (s : State) : Host.Outcome State Fault Refusal :=
  fin (s.when (s.runs 14) (fun s => s.govUpdate tPower vmot iVmot iCore))

end Sys2Proof.Machine
end

