-- ==== Sys2Proof/Machine/BootRows.lean ====
section
/-! DEFINITION. The meanings of chapter 3: resets, OTP, the Boot ROM and recovery. -/

namespace Sys2Proof.Machine
open Sys2Proof

/-- LOGIC_THERMAL_SHUTDOWN (R1071); under a reset that already runs it only holds the reset (R1072). -/
def execLogicThermalShutdown (s : State) : Host.Outcome State Fault Refusal :=
  let s := if s.boot.reset.isNone then (s.up SYS_PROTECT_THERM_LOGIC).pwrEvent 3 else s
  let s := s.applyReset .pin SYS_RESET_CAUSE_THERM_SHUTDOWN
  fin { s with pw := { s.pw with thermHold := true } }

/-- COLD_POWER_ON_RESET (R109): with VAON go the ticks that the state block does not hold, and a store to MRAM that it interrupts
is torn (R630). -/
def execColdPowerOnReset (s : State) : Host.Outcome State Fault Refusal :=
  fin (((s.tear.partBurn).modAlm (fun a => { a with ticks := 0 })).applyReset .cold SYS_RESET_CAUSE_POR_COLD)

/-- COLD_RESET_RELEASE (R112). -/
def execColdResetRelease (s : State) : Host.Outcome State Fault Refusal :=
  fin (if s.boot.coldHeld then s.modBoot (fun b => { b with coldHeld := false, otpLoading := true }) else s)

/-- RAIL_POWER_ON_RESET (R110, R111): ignored while the rail's PMIC_EN output is deasserted. It is a power-on, at which Otivo's
offline ports are tried again (R528), and a store to MRAM that it interrupts is torn (R630). -/
def execRailPowerOnReset (ana : Bool) (s : State) : Host.Outcome State Fault Refusal :=
  fin (if s.bit PWR_PMIC_LEVEL (b2n ana) = false then s
    else
      let s := s.tear
      let s := if ana then s.partBurn else s
      let s := s.applyReset .pin SYS_RESET_CAUSE_POR_RAIL
      let s := { s with ot := { s.ot with offline := 0, repaired := [] } }
      if ana then { s with pw := { s.pw with vddAnaGood := false } } else s)

/-- RESET_N_ASSERT (R115). -/
def execResetNAssert (s : State) : Host.Outcome State Fault Refusal :=
  fin (s.applyReset .pin SYS_RESET_CAUSE_RESET_N)

/-- OTP_SHADOW_LOAD_DONE (R113): a load waits for a bit being programmed (R1073). A NADIR Dawn that has waited for it
ends (R42). -/
def execOtpShadowLoadDone (s : State) : Host.Outcome State Fault Refusal :=
  fin (if s.boot.otpLoading && s.boot.otpBit.isNone then
      let s := s.loadShadow
      if s.pw.goal = .fromNadir ∧ s.pw.railWait = false then s.dawnEnd else s
    else s)

/-- INTERNAL_RESET_RELEASE (R114, R117, R123, R738, R993): the rails and RESET_N are good in the tick of this command. -/
def execInternalResetRelease (straps : BitVec 4) (healthy : Bool) (s : State) : Host.Outcome State Fault Refusal :=
  fin (match s.boot.reset with
    | none => s
    | some c =>
      if s.boot.coldHeld || s.boot.otpLoading || s.pw.thermHold then s
      else
        let s := if c = .system then s else s.latchStraps straps
        let s := s.drawMaster healthy
        let s := { s with pw := { s.pw with vddAnaGood := true } }
        let s := if c = .cold then s.almRestore else s
        let s := if s.shockLow then s.eachPort (fun p s => s.when (s.on (2 + p.val)) (fun s => s.shockLatch p)) else s
        (s.startCore 0 0).linkBack.modBoot (fun b => { b with reset := none, stage := .rom }))

/-- SOFTWARE_SYSTEM_RESET (R150): a SYS_RESET write with its key and SYSTEM = 1. -/
def execSoftwareSystemReset (v : Word) (s : State) : Host.Outcome State Fault Refusal :=
  fin (s.regCmd SYS_RESET_WORD (fun s => if getF v 16 16 = 0xA5C3 ∧ v.getLsbD 2 = true then s.applyReset .system SYS_RESET_CAUSE_SW_SYSTEM else s))

/-- A SYS_RESET write (R118, R150): its core resets. Both set their cause bits before either core restarts, since a restart
path may request a System reset. -/
def State.softCoreReset (s : State) (v : Word) : State :=
  if s.boot.reset.isSome then s
  else
    let s := if v.getLsbD 1 then s.coreMark 1 SYS_RESET_CAUSE_SW_CORE_B else s
    let s := if v.getLsbD 0 then s.coreMark 0 SYS_RESET_CAUSE_SW_CORE_A else s
    let s := if v.getLsbD 1 then s.coreGo 1 else s
    if v.getLsbD 0 ∧ s.boot.reset = none then s.coreGo 0 else s

/-- SOFTWARE_CORE_RESET (R118): a SYS_RESET write with its key and SYSTEM = 0. -/
def execSoftwareCoreReset (v : Word) (s : State) : Host.Outcome State Fault Refusal :=
  fin (s.regCmd SYS_RESET_WORD (fun s => if getF v 16 16 = 0xA5C3 ∧ v.getLsbD 2 = false then s.softCoreReset v else s))

/-- Core B released (R117, R118). -/
def State.releaseB (s : State) : State := if s.coreBRuns then s else (s.up SYS_CORE_RUN_B).restartCore 1

/-- CORE_B_RELEASE. -/
def execCoreBRelease (s : State) : Host.Outcome State Fault Refusal :=
  fin (s.regCmd SYS_CORE_RUN_WORD (fun s => s.releaseB))

/-- BOOT_ROM_START (R129, R132, R1078). -/
def execBootRomStart (fault test : BitVec 8) (s : State) : Host.Outcome State Fault Refusal :=
  fin (s.engine (fun s => if s.boot.stage = .rom ∧ s.boot.reset = none then s.bootRom fault.toNat test.toNat else s))

/-- BOOT_ROM_WAKE_PATH (R149). -/
def execBootRomWakePath (s : State) : Host.Outcome State Fault Refusal :=
  fin (s.engine (fun s => if s.boot.stage = .wakeRom ∧ s.boot.reset = none then s.bootWake else s))

/-- RECOVERY_HELLO (R140): the transport owns recovery. -/
def execRecoveryHello (t : Transport) (seq : Byte) (good : Bool) (payload : List Byte) (s : State) :
    Host.Outcome State Fault Refusal :=
  fin (s.engine (fun s => s.recoveryMsg 1 t seq good payload))

/-- RECOVERY_WRITE (R138). -/
def execRecoveryWrite (t : Transport) (seq : Byte) (good : Bool) (payload : List Byte) (s : State) :
    Host.Outcome State Fault Refusal :=
  fin (s.engine (fun s => s.recoveryMsg 2 t seq good payload))

/-- RECOVERY_VERIFY (R137), and a message of any TYPE that no other row names: VERIFY is TYPE 3, and a TYPE that Table 3.8
does not list is answered with STATUS 2. -/
def execRecoveryVerify (type : Byte) (t : Transport) (seq : Byte) (good : Bool) (payload : List Byte) (s : State) :
    Host.Outcome State Fault Refusal :=
  fin (s.engine (fun s => s.recoveryMsg type.toNat t seq good payload))

/-- RECOVERY_BOOT (R132, R140): the reply leaves, then selection runs from the start. -/
def execRecoveryBoot (t : Transport) (seq : Byte) (good : Bool) (payload : List Byte) (s : State) :
    Host.Outcome State Fault Refusal :=
  fin (s.engine (fun s => s.recoveryMsg 4 t seq good payload))

/-- RECOVERY_ALMANAC (R137). -/
def execRecoveryAlmanac (t : Transport) (seq : Byte) (good : Bool) (payload : List Byte) (s : State) :
    Host.Outcome State Fault Refusal :=
  fin (s.engine (fun s => s.recoveryMsg 5 t seq good payload))

/-- DFU_DNLOAD (R135, R138, R140). -/
def execDfuDnload (block : BitVec 16) (d : List Byte) (s : State) : Host.Outcome State Fault Refusal :=
  fin (s.usbCycle (s.fnLive && s.boot.stage == .recovery && s.runs 1) (fun s => s.dfuDnload block.toNat d))

/-- DFU_MANIFEST (R135, R140). -/
def execDfuManifest (s : State) : Host.Outcome State Fault Refusal :=
  fin (s.usbCycle (s.fnLive && s.boot.stage == .recovery && s.runs 1) (fun s =>
    if s.dfuOwn = false then s.reply .stall [] else s.dfuManifest))

/-- DFU_UPLOAD (R135). -/
def execDfuUpload (s : State) : Host.Outcome State Fault Refusal :=
  fin (s.usbCycle (s.fnLive && s.boot.stage == .recovery && s.runs 1) (fun s => s.reply .stall []))

/-- OTP_PROGRAM (R153). -/
def execOtpProgram (v : Word) (s : State) : Host.Outcome State Fault Refusal :=
  fin (s.regCmd OTP_PROG_WORD (fun s => s.otpProgram v))

/-- OTP_PROGRAM_DONE (R1073). -/
def execOtpProgramDone (s : State) : Host.Outcome State Fault Refusal := fin s.otpDone

end Sys2Proof.Machine
end

