-- ==== Sys2Proof/Machine/ChanOps.lean ====
section
/-! DEFINITION. What the channel shares with the servo and the formatter (chapter 7): preamp frames, the AGC's updates,
zone loads, and the closing of gates. -/

namespace Sys2Proof.Machine
open Sys2Proof

/-- a / b rounded to the nearest integer, a half away from zero. -/
def roundHalfAway (a : Int) (b : Nat) : Int :=
  let m : Int := ((2 * a.natAbs + b) / (2 * b) : Nat)
  if a < 0 then -m else m

/-- PA_STATUS and CH_STATUS.PA_FRAMES_PENDING brought up to the queue. -/
def State.paBits (s : State) (p : Fin 8) : State :=
  let c := s.ch[p]
  let cur (k : Nat → Bool) : Bool :=
    match c.current with
    | some f => k f.kind
    | none => false
  let s := s.put (PA_STATUS_BUSY p) (c.frames.any (fun f => decide (2 ≤ f.kind)) || cur (fun k => decide (2 ≤ k)))
  let s := s.put (PA_STATUS_HW_PENDING p) (c.frames.any (fun f => decide (f.kind < 2)))
  s.put (CH_STATUS_PA_FRAMES_PENDING p) (c.frames.any (fun f => f.kind == 1) || cur (fun k => k == 1))

/-- A frame queued for the preamp (R336). -/
def State.queueFrame (s : State) (p : Fin 8) (kind frame : Nat) : State :=
  (s.modCh p (fun c => { c with frames := c.frames ++ [{ kind := kind, frame := frame % 65536 }] })).paBits p

/-- Whether a frame of a formatter context is queued or in progress (R469). -/
def State.ctxFrame (s : State) (p : Fin 8) : Bool :=
  s.ch[p].frames.any (fun f => f.kind == 3) || s.ch[p].current.any (fun f => f.kind == 3)

/-- The head-select frame of head `h` (R337). -/
def State.headFrame (s : State) (p : Fin 8) (h : Nat) : Nat :=
  s.rd (PA_HS_ADDR p) * 256 + (s.rd (PA_HS_BASE p) ||| (h <<< s.rd (PA_HS_SHIFT p))) % 256

/-- Whether a zone load is pending on a port. -/
def State.loadPending (s : State) (p : Fin 8) : Bool := s.ch[p].held.isSome || s.ch[p].loading.isSome

/-- Whether a zone load or its frames are pending on a port (Table 10.4, ZONE_DONE). -/
def State.zonePending (s : State) (p : Fin 8) : Bool := s.loadPending p || s.flag (CH_STATUS_PA_FRAMES_PENDING p)

/-- An AGC update's saturation noted (R305). -/
def State.agcNote (s : State) (p : Fin 8) (sat : Bool) : State :=
  let (t, raise) := s.ch[p].satAgc.update sat (s.rd (AGC_CFG_DWELL p))
  let s := s.modCh p (fun c => { c with satAgc := t })
  if raise then (s.up (CH_EVENT_AGC_SAT p)).up SYS_LOOP_SAT_AGC else s

/-- The AGC's envelope on a VGA code (R301). -/
def State.agcClamp (s : State) (p : Fin 8) (v : Int) : Int :=
  let lo : Int := s.rd (AGC_ENV_GAIN_MIN p)
  clampInt lo (max lo (s.rd (AGC_ENV_GAIN_MAX p))) v

/-- A pinned AGC: V and VS are PIN_CODE and D is 0 (R304). -/
def State.agcPin (s : State) (p : Fin 8) : State :=
  if s.flag (AGC_ENV_PIN_EN p) then
    (((s.modCh p (fun c => { c with steps := [] })).wr (AGC_STATUS_V p) (s.rd (AGC_ENV_PIN_CODE p))).wr (AGC_STATUS_VS p) (s.rd (AGC_ENV_PIN_CODE p))).wr
      (AGC_STATUS_D p) 0
  else s

/-- The servo gain's update at the end of a wedge's preamble, on the mean `m` (R303). -/
def State.agcServo (s : State) (p : Fin 8) (m : Nat) : State :=
  if s.flag (AGC_ENV_PIN_EN p) then s
  else
    let ts := max 1 (s.rd (AGC_SERVO_TARGET_S p))
    let want := (s.rd (AGC_STATUS_VS p) : Int) + roundHalfAway (((ts : Int) - m) * 32) ts
    let v := s.agcClamp p want
    (s.wr (AGC_STATUS_VS p) v.toNat).agcNote p (decide (want ≠ v))

/-- The transfer of the digital gain into the VGA at the close of the read gate (R302). -/
def State.agcClose (s : State) (p : Fin 8) : State :=
  if s.flag (AGC_ENV_PIN_EN p) then s
  else
    let d := s.rdI (AGC_STATUS_D p)
    let v : Int := s.rd (AGC_STATUS_V p)
    let want := v + roundHalfAway d 64
    let nv := s.agcClamp p want
    ((s.wrI (AGC_STATUS_D p) (d - 64 * (nv - v))).wr (AGC_STATUS_V p) nv.toNat).agcNote p (decide (want ≠ nv))

/-- An equalizer tap given a value, which is its base as well (R297, R341). -/
def State.setTap (s : State) (p : Fin 8) (i v : Nat) : State :=
  let x := signedOf 12 v
  s.wr (EQ_TAP_WORD p i) (unsignedOf 16 x * 65536 + unsignedOf 16 x)

/-- A tap adapted, its base kept. -/
def State.adaptTap (s : State) (p : Fin 8) (i : Nat) (x : Int) : State := s.wr { EQ_TAP_WORD p i with lo := 0, w := 16 } (unsignedOf 16 x)

/-- A zone load taking effect (R297, R300): the active registers and the taps are copied, V and D and f set, and the LMS
loop's run of saturated updates starts anew. -/
def State.zoneLoad (s : State) (p : Fin 8) (z : Nat) : State :=
  let w (i : Nat) : Nat := s.rd (CH_ZMEM_WORD p z i)
  let s := [0, 1, 2, 3, 10, 11, 12, 13].foldl (fun s i => s.wr (CH_ACT_WORD p i) (w i)) s
  let s := (List.range 12).foldl (fun s i =>
    s.setTap p i (bitsOf (w (4 + i / 2)) (if i % 2 = 1 then 16 else 0) 12)) s
  let s := ((s.wr (AGC_STATUS_V p) (s.rd (CH_AFE_VGA_INIT p))).wr (AGC_STATUS_D p) 0).agcPin p
  let s := s.wr (TR_STATUS_FREQ p) 0
  ((s.wr (CH_ZONE_ZONE p) z).down (CH_STATUS_LOAD_PENDING p)).modCh p (fun c =>
    { c with loading := some z, held := none, satLms := {}, steps := [] })

/-- The end of a zone load: the entry's enabled preamp frames are queued in word order (R298). -/
def State.zoneDone (s : State) (p : Fin 8) : State :=
  match s.ch[p].loading with
  | none => s
  | some z =>
    let s := s.modCh p (fun c => { c with loading := none })
    [14, 15].foldl (fun s i =>
      let w := s.rd (CH_ZMEM_WORD p z i)
      if w.testBit 31 then s.queueFrame p 1 (w % 65536) else s) s

/-- A zone load with both gates closed: a load still under way ends first (log entry 24). -/
def State.zoneTake (s : State) (p : Fin 8) (z : Nat) : State := (s.zoneDone p).zoneLoad p z

/-- A held load takes effect once the gates are closed (R299). -/
def State.zoneDeferred (s : State) (p : Fin 8) : State :=
  match s.ch[p].held with
  | some z => if s.flag (CH_STATUS_RG p) || s.flag (CH_STATUS_WG p) then s else s.zoneTake p z
  | none => s

/-- A zone load requested (R297, R299): held while a gate is open. A load that an earlier gate held goes first (log entry
24). -/
def State.zoneRequest (s : State) (p : Fin 8) (z : Nat) : State :=
  if s.flag (CH_STATUS_RG p) || s.flag (CH_STATUS_WG p) then
    ((s.up (CH_STATUS_LOAD_PENDING p)).up (CH_EVENT_LOAD_DEFERRED p)).modCh p (fun c => { c with held := some z })
  else (s.zoneDeferred p).zoneTake p z

/-- The zone of a track (R407): the last of the strictly rising START_TRACK values at or below it. -/
def State.zoneOf (s : State) (p : Fin 8) (track : Int) : Nat :=
  ((List.range 31).foldl (fun (acc : Nat × Bool) i =>
    let z := i + 1
    let rises := decide (s.rd (FMT_ZFRAME0_START_TRACK p i) < s.rd (FMT_ZFRAME0_START_TRACK p z))
    if acc.2 && rises then
      (if (s.rd (FMT_ZFRAME0_START_TRACK p z) : Int) ≤ track then z else acc.1, true)
    else (acc.1, false)) (0, true)).1

/-- The first open gate of a context, read or write, given its result code. -/
def endOpen (write : Bool) (code bitsDone : Nat) : List Gate → List Gate
  | [] => []
  | g :: gs =>
    if g.isOpen && g.write == write && g.code.isNone then
      { g with isOpen := false, code := some code, bitsDone := bitsDone } :: gs
    else g :: endOpen write code bitsDone gs

/-- The input LLR of an equalizer output, none for an erasure (R323, R324). -/
def llrOf (scale : Nat) : Option Int → Int
  | none => 0
  | some y => clampInt (-15) 15 (roundHalfAway (y * scale) 256)

/-- One input LLR written in order to the gate's slot, while the slot is the port's and still FILLING (R323). -/
def State.putLlr (s : State) (p : Fin 8) (y : Option Int) : State :=
  let j := s.ch[p].slot
  if s.ch[p].llrs < codeBits (s.flag (CH_AFE_CODE p)) ∧ s.rd (IDU_SLOT_STATE j) = 1 ∧ s.rd (IDU_SLOT_OWNER j) = p.val then
    (s.putValue j 0 s.ch[p].llrs (llrOf (s.rd (CH_TARGET_LLR_SCALE p)) y)).modCh p (fun c => { c with llrs := c.llrs + 1 })
  else s

/-- The gate's slot FILLED once N input LLRs have been written to it (R359). -/
def State.fillSlot (s : State) (p : Fin 8) : State :=
  let j := s.ch[p].slot
  if codeBits (s.flag (CH_AFE_CODE p)) ≤ s.ch[p].llrs ∧ s.ch[p].llrDone = false ∧ s.rd (IDU_SLOT_STATE j) = 1
      ∧ s.rd (IDU_SLOT_OWNER j) = p.val then
    (s.setSlot j 2).modCh p (fun c => { c with llrDone := true })
  else s

/-- An open read gate closed (R302, R325, R340): its result is OK with the slot FILLED, SYNC_MISS, or CUT, and RG_CUT is
set where fewer than N input LLRs were written. -/
def State.closeRead (s : State) (p : Fin 8) : State :=
  if s.flag (CH_STATUS_RG p) then
    let s := s.fillSlot p
    let c := s.ch[p]
    let s := (s.down (CH_STATUS_RG p)).agcClose p
    let code := if c.llrDone then 0 else if c.missed then 1 else 2
    let s := if c.llrs < codeBits (s.flag (CH_AFE_CODE p)) then s.up (CH_EVENT_RG_CUT p) else s
    s.modFmt p (fun f => { f with gates := endOpen false code 0 f.gates })
  else s

/-- A write under way cut (R331): the gate off, the write data stopped after `bitsDone` codeword bits, WRITE_CUT with that
number, and the write log moved (R459). -/
def State.cutWrite (s : State) (p : Fin 8) (bitsDone : Nat) : State :=
  let s := ((s.down (CH_STATUS_WG p)).up (CH_EVENT_WRITE_CUT p)).modCh p (fun c =>
    { c with writing := false, cut := false, wgReq := false,
             wave := c.wave.take (8 * s.rd (CH_FRAME_PRE_LEN p) + 32 + bitsDone) })
  (s.modFmt p (fun f => { f with gates := endOpen true 2 bitsDone f.gates })).moveLog p s.srv[p].lastGood

end Sys2Proof.Machine
end

