-- ==== Sys2Proof/Machine/Channel.lean ====
section
/-! DEFINITION. The commands of the read and write channel (chapter 7). -/

namespace Sys2Proof.Machine
open Sys2Proof

/-- Whether a port's switched AFE data path runs: Timing Recovery, the equalizer and the LLR formation (R53). -/
def State.afeRuns (s : State) (p : Fin 8) : Bool := s.runs (2 + p.val) && !s.pw.afeOff

/-- ZONE_LOAD: CH_ZONE LOAD of an entry (R297, R299). -/
def execZoneLoad (p : Fin 8) (z : Fin 32) (s : State) : Host.Outcome State Fault Refusal :=
  fin (s.regCmd (CH_ZONE_WORD p) (fun s => s.zoneRequest p z.val))

/-- ZONE_LOAD_DEFERRED. -/
def execZoneLoadDeferred (p : Fin 8) (s : State) : Host.Outcome State Fault Refusal :=
  fin (s.when (s.runs (2 + p.val)) (fun s => s.zoneDeferred p))

/-- ZONE_LOAD_DONE. -/
def execZoneLoadDone (p : Fin 8) (s : State) : Host.Outcome State Fault Refusal :=
  fin (s.when (s.runs (2 + p.val)) (fun s => s.zoneDone p))

/-- AGC_WINDOW_UPDATE: the update at the end of a window, on its sum of |x| over the symbols that are no erasures (R301,
R306 to R310). A VGA step is requested at the present sample and takes effect 24 samples later. -/
def State.agcWindow (s : State) (p : Fin 8) (sum count : Nat) : State :=
  if s.flag (AGC_ENV_PIN_EN p) || count == 0 then s
  else
    let m : Int := ((sum / count : Nat) : Int)
    let found := s.flag (CH_STATUS_SYNC_FOUND p)
    let g := if found then s.rd (AGC_CFG_KG_TRK p) else s.rd (AGC_CFG_KG_ACQ p)
    let d0 := s.rdI (AGC_STATUS_D p)
    let d := clampInt (-1536) 1535 (d0 + (((s.rd (AGC_CFG_TARGET p) : Int) - m) * 256) / 2 ^ g)
    let fast := s.rd (AGC_CFG_FAST p)
    let allowed := (fast == 1 && !found) || fast == 2
    if allowed && decide (128 ≤ d.natAbs) then
      let v : Int := s.rd (AGC_STATUS_V p)
      let want := v + clampInt (-8) 8 (roundHalfAway d 64)
      let nv := s.agcClamp p want
      let s := s.wrI (AGC_STATUS_D p) (d - 64 * (nv - v))
      let s := if nv ≠ v then
          (((s.wr (AGC_STATUS_V p) nv.toNat).up (CH_EVENT_FA_STEP p)).inc (CH_COUNT_FA_STEP p)).modCh p (fun c =>
            { c with steps := c.steps ++ [(c.samples + 24, nv - v)] })
        else s
      s.agcNote p (decide (want ≠ nv))
    else (s.wrI (AGC_STATUS_D p) d).agcNote p false

/-- AGC_WINDOW_UPDATE, where a window of the open read gate has ended since the last update. -/
def execAgcWindowUpdate (p : Fin 8) (s : State) : Host.Outcome State Fault Refusal :=
  fin (s.when (s.afeRuns p && s.flag (CH_STATUS_RG p)) (fun s =>
    match s.ch[p].agcWin with
    | some (sum, count) => (s.agcWindow p sum count).modCh p (fun c => { c with agcWin := none })
    | none => s))

/-- Saturation to a signed byte. -/
def sat8 (i : Int) : Int := clampInt (-128) 127 i

/-- A tap's value. -/
def State.tap (s : State) (p : Fin 8) (i : Nat) : Int := s.rdI (EQ_TAP_VALUE p i)

/-- The equalizer's output for a symbol (R316). -/
def State.eqOut (s : State) (p : Fin 8) (k : Sym) : Int :=
  sat8 (((List.range 12).foldl (fun a i => a + s.tap p i * k.x.getD i 0) 0 + 512) / 1024)

/-- The ideal value of a symbol (R316). -/
def State.ideal (s : State) (p : Fin 8) (k : Sym) : Int :=
  let a (b : Bool) : Int := if b then 1 else -1
  32 * a k.a0 + (s.rdI (CH_TARGET_T1 p) * a k.a1 + s.rdI (CH_TARGET_T2 p) * a k.a2).tdiv 2

/-! ## The read path, sample by sample -/

/-- A fraction in 64ths of 1 (R311, R328). -/
def frac64 (n d : Nat) : Nat := 64 * n / d + (if 64 * n % d ≠ 0 ∧ Config.quantUp n d = true then 1 else 0)

/-- One symbol interpolated (R311): it falls `rest / inc` of a sample interval before sample `i`. The first symbol at or
after the sample of a VGA step is an erasure, with the symbol after it and the two before it (R308). -/
def Chan.emit (i rest inc : Nat) (c : Chan) : Chan :=
  let x := Config.interp (c.adc.getD 3 0) (c.adc.getD 2 0) (c.adc.getD 1 0) (c.adc.getD 0 0) (frac64 rest inc)
  let due (e : Nat × Int) : Bool := decide (e.1 < i ∨ (e.1 = i ∧ rest = 0))
  let c := if c.steps.any due then
      { c with steps := c.steps.filter (fun e => !due e), erase := 2
               xs := (c.xs.take 2).map (fun x => (x.1, true)) ++ c.xs.drop 2 }
    else c
  { c with xs := ((x, decide (0 < c.erase)) :: c.xs).take 20, erase := c.erase - 1, symbols := c.symbols + 1 }

/-- b to the power e, for e below 2^k. -/
def powBits : Nat → Nat → Nat → Nat
  | 0, _, _ => 1
  | k + 1, b, e => (if e % 2 = 1 then b else 1) * powBits k (b * b) (e / 2)

/-- How |x| after a gain of d / 256 dB, a factor of 10^(d/5120), compares with `n`: less where n is too large (R295). -/
def gainTest (d : Int) (x n : Nat) : Ordering :=
  compare (powBits 13 n 5120 * powBits 13 10 (-d).toNat) (powBits 13 x 5120 * powBits 13 10 d.toNat)

/-- The largest r below 2^k + r0 whose gain test holds, bit by bit. -/
def gainFloor (d : Int) (x : Nat) : Nat → Nat → Nat
  | 0, r => r
  | k + 1, r => gainFloor d x k (if gainTest d x (r + 2 ^ k) == .gt then r else r + 2 ^ k)

/-- An ADC sample after the digital gain of d / 256 dB, rounded to an integer beside it (R295). -/
def digitalGain (d x : Int) : Int :=
  let n := gainFloor d x.natAbs 10 0
  let n : Int := n + (if gainTest d x.natAbs n != .eq && Config.gainUp d x then 1 else 0 : Nat)
  if x < 0 then -n else n

/-- One ADC sample through the digital gain and the accumulator, which advances by `inc` = STEP + f, each wrap emitting a
symbol (R307, R311). Until a requested VGA step takes effect, the gain `d` lacks its compensation. -/
def Chan.sample (inc d : Int) (c : Chan) (a : Int) : Chan :=
  let i := c.samples
  let ahead : Int := ((c.steps.filter (fun e => decide (i < e.1))).map Prod.snd).sum
  let sum := c.acc + inc
  (List.range (sum / 16777216).toNat).foldl
    (fun c k => c.emit i (sum - 16777216 * ((k + 1 : Nat) : Int)).toNat inc.toNat)
    { c with adc := (digitalGain (d + 64 * ahead) a :: c.adc).take 4, samples := i + 1, acc := sum % 16777216 }

/-- The symbols that the `m` newest interpolated samples let the equalizer reach, in order, with their tentative decisions
from bit `n` of `dec` on: symbol k is equalized once x_{k+4} is there (R316). `a1` and `a2` are the two decisions
before. -/
def Chan.reach (c : Chan) (dec : Byte) : Nat → Nat → Bool → Bool → List Sym
  | 0, _, _, _ => []
  | m + 1, n, a1, a2 =>
    if c.symbols < m + 5 then c.reach dec m n a1 a2
    else
      let a := dec.getLsbD n
      { x := ((c.xs.drop m).take 12).map Prod.fst, a0 := a, a1 := a1, a2 := a2,
        erased := (c.xs.getD (m + 4) (0, false)).2 } :: c.reach dec m (n + 1) a a1

/-- A CHAN cycle's samples through the interpolator, and the symbols equalized in it. -/
def Chan.cycle (inc d : Int) (samples : List (BitVec 7)) (dec : Byte) (c : Chan) : Chan × List Sym :=
  let n := samples.foldl (fun c a => c.sample inc d a.toInt) c
  (n, n.reach dec (n.symbols - c.symbols) 0 (c.decs.getD 0 (false, false)).1 (c.decs.getD 1 (false, false)).1)

/-- A symbol counted in the AGC's window of `win` symbols, its |x| added where it is no erasure (R301); a full window
awaits its update. -/
def Chan.window (win : Nat) (k : Sym) (c : Chan) : Chan :=
  let sum := if k.erased then c.agcSum else c.agcSum + (k.x.getD 4 0).natAbs
  let count := if k.erased then c.agcCount else c.agcCount + 1
  if win ≤ c.agcSyms + 1 then { c with agcSum := 0, agcCount := 0, agcSyms := 0, agcWin := some (sum, count) }
  else { c with agcSum := sum, agcCount := count, agcSyms := c.agcSyms + 1 }

/-- How many of the last 32 tentative decisions differ from a pattern, the newest standing against bit 0 and an erasure
counting as differing (R321). -/
def syncDiff (pat : Nat) (decs : List (Bool × Bool)) : Nat :=
  countIdx 32 (fun i => (decs.getD i (false, true)).1 != pat.testBit i || (decs.getD i (false, true)).2)

/-- Whether the sync mark starts at symbol `start`, inside the window and with few enough decisions differing (R321). -/
def State.syncHit (s : State) (p : Fin 8) (start : Nat) : Bool :=
  let mid := 8 * s.rd (CH_FRAME_PRE_LEN p)
  let win := s.rd (CH_FRAME_SYNC_WIN p)
  decide (mid ≤ start + win ∧ start ≤ mid + win
    ∧ syncDiff (s.rd (CH_SYNC_PATTERN p)) s.ch[p].decs ≤ s.rd (CH_FRAME_SYNC_TOL p))

/-- One equalized symbol of an open read gate: its decision noted, the AGC's window advanced, and before the sync mark
the mark looked for, after it an input LLR formed (R301, R321, R323). -/
def State.takeSym (s : State) (p : Fin 8) (k : Sym) : State :=
  let i := s.ch[p].equalized
  let s := s.modCh p (fun c =>
    { c.window (8 * 2 ^ s.rd (AGC_CFG_WIN p)) k with
      decs := ((k.a0, k.erased) :: c.decs).take 32, equalized := i + 1 })
  match s.ch[p].syncAt with
  | some _ => s.putLlr p (if k.erased then none else some (s.eqOut p k))
  | none =>
    if decide (31 ≤ i) && !s.ch[p].missed && s.syncHit p (i - 31) then
      s.modCh p (fun c => { c with syncAt := some (i - 31) })
    else s

/-- The phase error of a cycle's symbols after the symbol with output `y` and ideal value `r` (R313), and the last one's
output and ideal value. -/
def State.phaseError (s : State) (p : Fin 8) (y r : Int) (syms : List Sym) : Int × Int × Int :=
  syms.foldl (fun (acc : Int × Int × Int) k =>
    let y := s.eqOut p k
    let r := s.ideal p k
    (if k.erased then acc.1 else acc.1 + (y * acc.2.2 - acc.2.1 * r), y, r)) (0, y, r)

/-- The timing loop's update on one CHAN cycle's equalized symbols (R313, R315). -/
def State.timing (s : State) (p : Fin 8) (syms : List Sym) : State :=
  let (pe, y1, r1) := s.phaseError p s.ch[p].lastY s.ch[p].lastR syms
  let found := s.flag (CH_STATUS_SYNC_FOUND p)
  let kp := if found then s.rd (TR_GAINS_KP_TRK p) else s.rd (TR_GAINS_KP_ACQ p)
  let ki := if found then s.rd (TR_GAINS_KI_TRK p) else s.rd (TR_GAINS_KI_ACQ p)
  let pin := s.flag (TR_PIN_PIN_EN p)
  let want := s.rdI (TR_STATUS_FREQ p) + pe / 2 ^ ki
  let lim : Int := s.rd (TR_CFG_FREQ_LIM p)
  let f := if pin then s.rdI (TR_PIN_PIN_FREQ p) else clampInt (-lim) lim want
  let s := s.wrI (TR_STATUS_FREQ p) f
  let s := s.modCh p (fun c => { c with acc := (c.acc + pe / 2 ^ kp) % 16777216, lastY := y1, lastR := r1 })
  let (t, raise) := s.ch[p].satTr.update (!pin && decide (f ≠ want)) (s.rd (TR_CFG_DWELL p))
  let s := s.modCh p (fun c => { c with satTr := t })
  if raise then (s.up (CH_EVENT_TR_SAT p)).up SYS_LOOP_SAT_TIMING else s

/-- TIMING_LOOP_UPDATE: one CHAN cycle of the read path. The interpolator runs always; its symbols count, and the loops
update, while the read gate is open. -/
def State.chanCycle (s : State) (p : Fin 8) (samples : List (BitVec 7)) (dec : Byte) : State :=
  let inc : Int := (s.rd (CH_NCO_STEP p) : Int) + s.rdI (TR_STATUS_FREQ p)
  let (c, syms) := s.ch[p].cycle inc (s.rdI (AGC_STATUS_D p)) samples dec
  let s := s.modCh p (fun _ => c)
  if s.flag (CH_STATUS_RG p) then
    let s := syms.foldl (fun s k => s.takeSym p k) s
    (s.modCh p (fun c => { c with lastSym := (syms.filter (fun k => !k.erased)).getLast? })).timing p syms
  else s

/-- TIMING_LOOP_UPDATE. -/
def execTimingLoopUpdate (p : Fin 8) (samples : List (BitVec 7)) (dec : Byte) (s : State) :
    Host.Outcome State Fault Refusal :=
  fin (s.when (s.afeRuns p) (fun s => s.chanCycle p samples dec))

/-- The LMS loop's update on a symbol that is no erasure (R317 to R320). -/
def State.lms (s : State) (p : Fin 8) (k : Sym) : State :=
  let e := s.eqOut p k - s.ideal p k
  let dev : Int := s.rd (EQ_CFG_DEV p)
  let freeze := s.flag (EQ_CFG_FREEZE p)
  let (s, sat) := (List.range 12).foldl (fun (acc : State × Bool) i =>
    if freeze || s.bit (EQ_CFG_PIN p) i then acc
    else
      let want := acc.1.tap p i - (e * k.x.getD i 0) / 2 ^ s.rd (EQ_CFG_MU_SHIFT p)
      let base := s.rdI (EQ_TAP_BASE p i)
      let v := clampInt (max (-2048) (base - dev)) (min 2047 (base + dev)) want
      (acc.1.adaptTap p i v, acc.2 || decide (v ≠ want))) (s, false)
  let (t, raise) := s.ch[p].satLms.update sat (s.rd (EQ_DWELL_DWELL p))
  let s := s.modCh p (fun c => { c with satLms := t })
  if raise then (s.up (CH_EVENT_EQ_SAT p)).up SYS_LOOP_SAT_LMS else s

/-- LMS_UPDATE: after the sync mark, on the last symbol of the last CHAN cycle that is no erasure, once. -/
def execLmsUpdate (p : Fin 8) (s : State) : Host.Outcome State Fault Refusal :=
  fin (s.when (s.afeRuns p && s.flag (CH_STATUS_RG p) && s.flag (CH_STATUS_SYNC_FOUND p)) (fun s =>
    match s.ch[p].lastSym with
    | some k => (s.lms p k).modCh p (fun c => { c with lastSym := none })
    | none => s))

/-- SYNC_DETECT: a start has been accepted in the open read gate (R321). -/
def execSyncDetect (p : Fin 8) (s : State) : Host.Outcome State Fault Refusal :=
  fin (s.when (s.afeRuns p && s.flag (CH_STATUS_RG p) && s.ch[p].syncAt.isSome) (fun s =>
    s.up (CH_STATUS_SYNC_FOUND p)))

/-- Whether the sync window of an open read gate has passed with no start accepted (R321, R322). -/
def State.syncPassed (s : State) (p : Fin 8) : Bool :=
  s.flag (CH_STATUS_RG p) && s.ch[p].syncAt.isNone && !s.ch[p].missed
    && decide (8 * s.rd (CH_FRAME_PRE_LEN p) + s.rd (CH_FRAME_SYNC_WIN p) + 32 ≤ s.ch[p].equalized)

/-- SYNC_MISS (R322). -/
def execSyncMiss (p : Fin 8) (s : State) : Host.Outcome State Fault Refusal :=
  fin (s.when (s.afeRuns p && s.syncPassed p) (fun s =>
    ((s.up (CH_EVENT_SYNC_MISS p)).inc (CH_COUNT_SYNC_MISS p)).modCh p (fun c => { c with missed := true })))

/-- LLR_SLOT_FILLED (R359). -/
def execLlrSlotFilled (p : Fin 8) (s : State) : Host.Outcome State Fault Refusal :=
  fin (s.when (s.afeRuns p) (fun s => s.fillSlot p))

/-- READ_GATE_CLOSE (R302, R325). -/
def execReadGateClose (p : Fin 8) (s : State) : Host.Outcome State Fault Refusal :=
  fin (s.when (s.runs (2 + p.val)) (fun s => s.closeRead p))

/-- The first started gate of a context that has no result and is not open. -/
def startedGate (write : Bool) (l : List Gate) : Option Gate :=
  l.find? (fun g => g.started && !g.isOpen && g.code.isNone && g.write == write)

/-- That gate changed. -/
def mapStarted (write : Bool) (f : Gate → Gate) : List Gate → List Gate
  | [] => []
  | g :: gs =>
    if g.started && !g.isOpen && g.code.isNone && g.write == write then f g :: gs else g :: mapStarted write f gs

/-- READ_GATE_OPEN: WG_SETUP symbols after the slot's start the read gate opens with an LLR slot, or ends NO_SLOT
(R452, R455). -/
def State.openRead (s : State) (p : Fin 8) : State :=
  match startedGate false s.fmt[p].gates with
  | none => s
  | some _ =>
    match s.portAlloc p with
    | (some j, s) =>
      let s := (s.up (CH_STATUS_RG p)).down (CH_STATUS_SYNC_FOUND p)
      let s := s.modCh p (fun c => 
        { c with slot := j, llrs := 0, llrDone := false, missed := false, syncAt := none, symbols := 0, equalized := 0,
                 lastSym := none, agcSum := 0, agcCount := 0, agcSyms := 0, agcWin := none })
      s.modFmt p (fun f => { f with gates := mapStarted false (fun g => { g with isOpen := true, llr := some j }) f.gates })
    | (none, s) =>
      s.modFmt p (fun f => { f with gates := mapStarted false (fun g => { g with code := some 3 }) f.gates })

/-- READ_GATE_OPEN. -/
def execReadGateOpen (p : Fin 8) (s : State) : Host.Outcome State Fault Refusal :=
  fin (s.when (s.runs (2 + p.val)) (fun s => s.openRead p))

/-- Whether Pn_PA_WG may be asserted (R330), the formatter's request apart. -/
def State.writeMay (s : State) (p : Fin 8) : Bool :=
  !s.flag (SRV_STATUS_WI_LATCH p) && !s.srv[p].gateOpen && !s.flag (CH_STATUS_FLT p)
    && !s.flag (CH_STATUS_PA_FRAMES_PENDING p) && s.flag CLK_STATUS_LINE_LOCK

/-- The bits of a written sector (R326): preamble, sync mark, codeword and pad. -/
def State.sectorBits (s : State) (p : Fin 8) (block : List Byte) : List Bool :=
  let pre := 8 * s.rd (CH_FRAME_PRE_LEN p)
  let pat := s.rd (CH_SYNC_PATTERN p)
  let p0011 (n : Nat) : List Bool := (List.range n).map (fun i => decide (2 ≤ i % 4))
  p0011 pre ++ (List.range 32).map (fun i => pat.testBit (31 - i))
    ++ ldpcEncode (s.flag (CH_AFE_CODE p)) (bytesToBits block) ++ p0011 (s.rd (CH_FRAME_PAD p))

/-- The bits of a write with their transitions, from bit `k` on (R327 to R329): `b2` and `b1` are the two bits before, and
a neighbour that the write does not have makes no transition. -/
def waveFrom (step : Nat) (pc : Nat → Nat) : Nat → Option Bool → Option Bool → List Bool → List WBit
  | _, _, _, [] => []
  | k, b2, b1, b :: bs =>
    let flips (x y : Option Bool) : Bool := x.isSome && y.isSome && x != y
    let idx := 2 * b2n (flips b2 b1) + b2n (flips bs.head? (some b))
    { level := b, edge := if flips b1 (some b) then some (frac64 (k * 16777216) step + pc idx) else none }
      :: waveFrom step pc (k + 1) b1 (some b) bs

/-- What a written sector puts on Pn_WDP (R326 to R329). -/
def State.waveOf (s : State) (p : Fin 8) (block : List Byte) : List WBit :=
  waveFrom (s.rd (CH_NCO_STEP p)) (fun i => s.rd (CH_WRITE_PC p i)) 0 none none (s.sectorBits p block)

/-- WRITE_GATE_OPEN: the gate is asserted and the write logged where R330 holds, else the request is reported as cut with
no bits written (R330, R332, R458). -/
def State.openWrite (s : State) (p : Fin 8) : State :=
  match startedGate true s.fmt[p].gates with
  | none => s
  | some g =>
    if s.writeMay p then
      let s := (s.up (CH_STATUS_WG p)).modCh p (fun c =>
        { c with writing := true, cut := false, wgReq := true, wave := s.waveOf p (bits g.data) })
      s.modFmt p (fun f => { f with
        gates := mapStarted true (fun g => { g with isOpen := true }) f.gates
        wlog := f.wlog ++ [{ slot := g.slot, frame := g.frame, sidx := g.sidx, buf := g.buf }] })
    else
      ((s.up (CH_EVENT_WRITE_CUT p)).modCh p (fun c => { c with wgReq := false })).modFmt p (fun f =>
        { f with gates := mapStarted true (fun g => { g with code := some 2, bitsDone := 0 }) f.gates })

/-- WRITE_GATE_OPEN. -/
def execWriteGateOpen (p : Fin 8) (s : State) : Host.Outcome State Fault Refusal :=
  fin (s.when (s.runs (2 + p.val)) (fun s => s.openWrite p))

/-- WRITE_CUT: a condition of R330 has failed during a write, with the codeword bits written by then (R331). -/
def execWriteCut (p : Fin 8) (bitsDone : Nat) (s : State) : Host.Outcome State Fault Refusal :=
  fin (if s.ch[p].writing && (s.ch[p].cut || !s.writeMay p) then s.cutWrite p bitsDone else s)

/-- WRITE_GATE_END: the last pad bit has been written (R333). -/
def State.endWrite (s : State) (p : Fin 8) : State :=
  if s.ch[p].writing && !s.ch[p].cut then
    let n := codeBits (s.flag (CH_AFE_CODE p))
    let s := (s.down (CH_STATUS_WG p)).modCh p (fun c => { c with writing := false, wgReq := false })
    s.modFmt p (fun f => { f with gates := endOpen true 0 n f.gates })
  else s

/-- WRITE_GATE_END. -/
def execWriteGateEnd (p : Fin 8) (s : State) : Host.Outcome State Fault Refusal :=
  fin (s.when (s.runs (2 + p.val)) (fun s => s.endWrite p))

/-- PA_COMMAND: a PA_CMD write (R338). -/
def State.paCommand (s : State) (p : Fin 8) (frame : BitVec 16) : State :=
  if s.flag (PA_STATUS_BUSY p) then s.up (CH_EVENT_PA_REFUSED p) else s.queueFrame p 2 frame.toNat

/-- PA_COMMAND. -/
def execPaCommand (p : Fin 8) (frame : BitVec 16) (s : State) : Host.Outcome State Fault Refusal :=
  fin (s.regCmd (PA_CMD_WORD p) (fun s => s.paCommand p frame))

/-- PA_FRAME_START: the next frame, head-select before zone-load before firmware (R336). -/
def State.paStart (s : State) (p : Fin 8) : State :=
  let c := s.ch[p]
  if c.current.isSome then s
  else
    let pick := match c.frames.find? (fun f => f.kind == 0) with
      | some f => some f
      | none =>
        match c.frames.find? (fun f => f.kind == 1) with
        | some f => some f
        | none => c.frames.head?
    match pick with
    | some f => (s.modCh p (fun c => { c with frames := c.frames.erase f, current := some f })).paBits p
    | none => s

/-- PA_FRAME_START. -/
def execPaFrameStart (p : Fin 8) (s : State) : Host.Outcome State Fault Refusal :=
  fin (s.when (s.portRuns p) (fun s => s.paStart p))

/-- PA_FRAME_END, with the bits that the preamp drove in a read frame (R335, R338). -/
def State.paEnd (s : State) (p : Fin 8) (data : Byte) : State :=
  match s.ch[p].current with
  | none => s
  | some f =>
    let s := (s.modCh p (fun c => { c with current := none })).paBits p
    let s := if f.kind = 2 then s.up (CH_EVENT_PA_DONE p) else s
    if 2 ≤ f.kind ∧ f.frame.testBit 15 = true then (s.wr (PA_RDATA_DATA p) data.toNat).up (PA_RDATA_VALID p) else s

/-- PA_FRAME_END. -/
def execPaFrameEnd (p : Fin 8) (data : Byte) (s : State) : Host.Outcome State Fault Refusal :=
  fin (s.when (s.portRuns p) (fun s => s.paEnd p data))

/-- PREAMP_FAULT: the filtered Pn_PA_FLT_N falls (R339). -/
def execPreampFault (p : Fin 8) (s : State) : Host.Outcome State Fault Refusal :=
  fin (s.when (s.portRuns p) (fun s => ((s.up (CH_STATUS_FLT p)).up (CH_EVENT_PA_FAULT p)).dropWg p))

/-- PREAMP_FAULT_CLEAR: it rises (R339). -/
def execPreampFaultClear (p : Fin 8) (s : State) : Host.Outcome State Fault Refusal :=
  fin (s.when (s.portRuns p) (fun s => s.down (CH_STATUS_FLT p)))

/-- EQ_TAP_WRITE: the value replaces the tap and its base, and is an envelope write (R320, R341). -/
def State.eqTapWrite (s : State) (p : Fin 8) (i : Fin 12) (v : BitVec 12) : State :=
  (s.setTap p i v.toNat).modCh p (fun c => { c with satLms := {} })

/-- EQ_TAP_WRITE. -/
def execEqTapWrite (p : Fin 8) (i : Fin 12) (v : BitVec 12) (s : State) : Host.Outcome State Fault Refusal :=
  fin (s.regCmd (EQ_TAP_WORD p i) (fun s => s.eqTapWrite p i v))

end Sys2Proof.Machine
end

