-- ==== Sys2Proof/Machine/Ciphers.lean ====
section
/-! DEFINITION. The meanings of chapter 17: region commands of the Buffer Cipher, and key-band commands of the Media
Cipher. -/

namespace Sys2Proof.Machine
open Sys2Proof

/-! ## Regions -/

/-- REENCRYPTION_DONE (R747, R751): the one under way ends, and the next starts, while the memory's clock runs (R48). -/
def execReencryptionDone (s : State) : Host.Outcome State Fault Refusal :=
  fin (s.engine (fun s => if s.cip.reenc.isSome && s.runs 11 then s.nextReenc else s))

/-- R749: what a region command waits for. -/
def State.settleReenc (s : State) : State := State.finishAll (s.cip.reencWait.length + 1) s

/-- The regions' table entries written 0 (R753, R755). -/
def State.unwrite (s : State) (first count : Nat) : State :=
  s.wipe (majorAddr first) (majorAddr (first + count))

/-- One region of a REKEY command, counting the lines that failed (R752). A region that is unwritten or in a window whose
cipher is off is left (R746). -/
def State.rekeyOne (s : State) (x bad : Nat) : Nat × State :=
  if s.major x = 0 ∨ s.windowOn (64 * x) = false then (bad, s)
  else
    let n := countIdx 64 (fun i => (s.checkLine (64 * x + i)).2 != 0)
    let s := s.wr BC_STATUS_REKEY_REGION x
    let s := s.reencRegion x
    (bad + n, pulse 108 (s.inc BC_COUNT_REKEY))

/-- A region command at the head of ring 322, with the operation that row `op` runs (Table 17.3, R752 to R754). A
command whose operation is reserved, or whose entry is poisoned, is taken by the row of REKEY. A command waits while
ring 323 refuses its completion. -/
def State.regionCommand (s : State) (op : Nat) : State :=
  match s.headEntry 322 with
  | none => s
  | some h =>
    let hop := fieldB h 2 1
    if (s.ring 322).consumer ≠ 10 ∨ (hop ≠ op ∧ ¬(op = 1 ∧ hop ≠ 2)) then s
    else if s.enqTest 323 ≠ .ok then s.post 323 []
    else
      match s.dequeue 322 with
      | (none, s) => s
      | (some e, s) =>
        if poisoned e then pulse 108 (s.up BC_STATUS_POISON_SEEN)
        else
          let e := bits e
          let first := fieldB e 8 4
          let count := fieldB e 12 4
          let ok := (hop == 1 || hop == 2) && fieldB e 3 5 == 0 && fieldB e 24 8 == 0 && count != 0
            && decide (first + count ≤ 229376)
          let done (s : State) (st det : Nat) : State :=
            s.post 323 (leBytes 2 (fieldB e 0 2) ++ leBytes 1 st ++ zerosB 1 ++ leBytes 4 det ++ sliceB e 16 8)
          if ok = false then done s 1 0
          else
            let s := s.settleReenc
            if hop = 2 then done (s.unwrite first count) 0 0
            else
              let (bad, s) := (List.range count).foldl
                (fun (t : Nat × State) i => t.2.rekeyOne (first + i) t.1) (0, s)
              done s (if bad = 0 then 0 else 2) bad

/-- BC_REKEY. -/
def execBcRekey (s : State) : Host.Outcome State Fault Refusal := fin (s.engine (fun s => s.regionCommand 1))

/-- BC_DISCARD. -/
def execBcDiscard (s : State) : Host.Outcome State Fault Refusal := fin (s.engine (fun s => s.regionCommand 2))

/-- A write to BC_CTRL (R755, R762): the windows whose bit changes become unwritten. -/
def State.windowWrite (s : State) (v : Word) : State :=
  if s.flag BC_LOCK_LOCK then s
  else
    let old := s.rd BC_CTRL_WINDOW_EN
    let new := getF v 0 14
    let s := if old = new then s else s.settleReenc
    let s := (List.range 14).foldl
      (fun (s : State) w => if old.testBit w = new.testBit w then s else s.unwrite (16384 * w) 16384) s
    s.wr BC_CTRL_WINDOW_EN new

/-- WINDOW_ENABLE_WRITE. -/
def execWindowEnableWrite (v : Word) (s : State) : Host.Outcome State Fault Refusal :=
  fin (s.regCmd BC_CTRL_WORD (fun s => s.windowWrite v))

/-! ## The key store -/

/-- Where a copy of a band's record lies. -/
def keyAddr (b c : Nat) : Nat := 0x100F0000 + 0x200 * b + 0x100 * c

/-- Whether 256 bytes are a valid copy of band `b` (R767). -/
def keyValid (b : Nat) (r : List Byte) : Bool :=
  fieldB r 0 4 == 0x4D434B42 && fieldB r 4 2 == 1 && fieldB r 6 1 == b && fieldB r 252 4 == crc32c (sliceB r 0 252)

/-- What the key store holds of a band: its record with the copy that holds it, whether the two copies differ, and
whether a copy failed with a poisoned byte (R767, R777). -/
structure BandView where
  record : Option (List Byte)
  copy : Nat
  differ : Bool
  poison : Bool

/-- A band's two copies read (R767). -/
def State.readBand (s : State) (b : Nat) : BandView × State :=
  let (o0, s) := s.dmaRead 16 (keyAddr b 0) 256
  let (o1, s) := s.dmaRead 16 (keyAddr b 1) 256
  let r0 := bits o0.data
  let r1 := bits o1.data
  let v0 := !o0.bad && keyValid b r0
  let v1 := !o1.bad && keyValid b r1
  let c := if v0 && v1 then (if fieldB r0 8 4 < fieldB r1 8 4 then 1 else 0) else if v1 then 1 else 0
  ({ record := if v0 || v1 then some (if c = 0 then r0 else r1) else none, copy := c
     differ := decide (r0 ≠ r1) || o0.bad || o1.bad, poison := poisoned o0.data || poisoned o1.data }, s)

/-- A record with SEQ and CRC filled in. -/
def sealRecord (r : List Byte) (seq : Nat) : List Byte :=
  let r := spliceB r 8 (leBytes 4 seq)
  spliceB r 252 (leBytes 4 (crc32c (sliceB r 0 252)))

/-- A new record written into the copy that does not hold the band's record, then into the other (R769). The first record
of a band carries SEQ 1 in copy 0 first (log entry 12). -/
def State.writeBand (s : State) (b : Nat) (v : BandView) (r : List Byte) : State :=
  let (seq, c) := match v.record with
    | some o => (fieldB o 8 4 + 1, 1 - v.copy)
    | none => (1, 0)
  let r := sealRecord r seq
  let s := (s.dmaWrite 16 (keyAddr b c) (clean r)).2
  (s.dmaWrite 16 (keyAddr b (1 - c)) (clean r)).2

/-- R770: a copy that differs is overwritten with the band's record. -/
def State.healBand (s : State) (b : Nat) (v : BandView) : State :=
  match v.record with
  | some r => if v.differ then (s.dmaWrite 16 (keyAddr b (1 - v.copy)) (clean r)).2 else s
  | none => s

/-- The key-encryption key of a band (R768). -/
def bandKek (root : List Byte) (b gen : Nat) (salt : List Byte) (cred : Option (List Byte)) : List Byte :=
  let k := kdf root "KEK" (beBytes 1 b ++ zerosB 3 ++ beBytes 4 gen ++ zerosB 4)
  match cred with
  | some c => xorB k (sha256 (salt ++ c))
  | none => k

/-- A record of a KEYED band before it is sealed (Table 17.4). -/
def keyedRecord (b gen : Nat) (cred : Bool) (user salt wrapped : List Byte) : List Byte :=
  leBytes 4 0x4D434B42 ++ leBytes 2 1 ++ leBytes 1 b ++ leBytes 1 1 ++ zerosB 4 ++ leBytes 4 gen
    ++ leBytes 1 (b2n cred) ++ zerosB 15 ++ sliceB user 0 8 ++ sliceB salt 0 16 ++ sliceB wrapped 0 72 ++ zerosB 128

/-- A slot loaded or cleared, with MC_STATUS.LOADED. -/
def State.setBand (s : State) (b : Nat) (k : Option KeySlot) : State :=
  let s := s.modCip (fun c => { c with slots := c.slots.set (keyBand b) k })
  if k.isSome then s.setBit MC_STATUS_LOADED b else s.clrBit MC_STATUS_LOADED b

/-- A credential read from the Buffer DRAM: none where the read is poisoned or blocked (R778). -/
def State.readCred (s : State) (a : Nat) : Option (List Byte) × State :=
  let (o, s) := s.dmaRead 16 a 32
  (if o.bad then none else some (bits o.data), s)

/-- A credential that a command gives, where its flag says so: (failed, credential). -/
def State.givenCred (s : State) (given : Bool) (a : Nat) : Bool × Option (List Byte) × State :=
  if given then
    let (c, s) := s.readCred a
    (c.isNone, c, s)
  else (false, none, s)

/-- Whether the part holds no root key (R773). -/
def State.noRoot (s : State) : Bool := s.cip.root.all (fun b => b == 0)

/-- The outcome of an entropy health test noted in MC_STATUS. -/
def State.noteHealth (s : State) (healthy : Bool) : State :=
  let s := s.put MC_STATUS_ENTROPY_OK healthy
  if healthy then s else s.up MC_EVENT_ENTROPY_FAIL

/-- The completion of a key-band command (Table 17.5), with the band's fields as they are after it. -/
def State.keyDone (s : State) (e : List Byte) (status : Nat) : State :=
  let b := fieldB e 3 1
  let (r, s) := if b < 16 then (let (v, s) := s.readBand b; (v.record.getD [], s)) else ([], s)
  s.post 321 (leBytes 2 (fieldB e 0 2) ++ leBytes 1 status ++ sliceB r 7 1 ++ sliceB r 12 4 ++ sliceB r 32 8)

/-- Whether a command has a reserved value, a BAND above 15 or an unaligned credential address (R778). -/
def keyBad (e : List Byte) : Bool :=
  let op := fieldB e 2 1
  let fl := fieldB e 4 1
  op == 0 || decide (8 < op) || decide (15 < fieldB e 3 1) || decide (3 < fl) || fieldB e 5 3 != 0
    || (fl.testBit 0 && fieldB e 16 4 % 64 != 0) || (fl.testBit 1 && fieldB e 20 4 % 64 != 0)

/-- The wrong credential's hold (R772). -/
def State.authFail (s : State) (e : List Byte) : State :=
  let s := ((s.inc MC_COUNT_AUTH_FAIL).up MC_EVENT_AUTH_FAIL).up MC_STATUS_BUSY
  (s.modCip (fun c => { c with authHold := true })).keyDone e 3

/-- A new key under a new salt written as the band's record, and loaded where `load` says so. -/
def State.storeKey (s : State) (e : List Byte) (v : BandView) (gen : Nat) (cred : Option (List Byte))
    (user key : List Byte) (load : Bool) : State :=
  let b := fieldB e 3 1
  let (salt, s) := State.drawBytes 16 s
  let w := keyWrap (bandKek s.cip.root b gen salt cred) key
  let s := s.writeBand b v (keyedRecord b gen cred.isSome user salt w)
  let s := if load then s.setBand b (some { key := key }) else s
  s.keyDone e 0

/-- GENERATE (Table 17.6). -/
def State.keyGenerate (s : State) (e : List Byte) (v : BandView) (healthy : Bool) : State :=
  let empty := match v.record with
    | some r => fieldB r 7 1 != 1
    | none => true
  if empty = false then s.keyDone e 4
  else if s.noRoot then s.keyDone e 2
  else
    match s.givenCred ((fieldB e 4 1).testBit 1) (fieldB e 20 4) with
    | (true, _, s) => s.keyDone e 3
    | (false, cred, s) =>
      let s := s.noteHealth healthy
      if healthy = false then s.keyDone e 6
      else
        let (key, s) := State.drawBytes 64 s
        s.storeKey e v 1 cred (sliceB e 8 8) key true

/-- The key of a KEYED band unwrapped, under the credential a command gives where the record asks for one: a status, or
the key (R771 to R773, R778). -/
def State.unwrapBand (s : State) (e r : List Byte) : (Nat ⊕ List Byte) × State :=
  let b := fieldB e 3 1
  let cred := (fieldB r 16 1).testBit 0
  let given := (fieldB e 4 1).testBit 0
  if fieldB r 7 1 ≠ 1 ∨ (cred && !given) then (.inl 4, s)
  else if s.noRoot then (.inl 2, s)
  else
    match s.givenCred cred (fieldB e 16 4) with
    | (true, _, s) => (.inl 3, s)
    | (false, c, s) =>
      match keyUnwrap (bandKek s.cip.root b (fieldB r 12 4) (sliceB r 40 16) c) (sliceB r 56 72) with
      | none => (.inl 8, s)
      | some k => (.inr k, s)

/-- A command that ends with a status of `unwrapBand`. -/
def State.keyFail (s : State) (e : List Byte) (status : Nat) : State :=
  if status = 8 then s.authFail e else s.keyDone e status

/-- LOAD (R772). -/
def State.keyLoad (s : State) (e : List Byte) (v : BandView) : State :=
  match s.unwrapBand e (v.record.getD []) with
  | (.inl st, s) => s.keyFail e st
  | (.inr k, s) => (s.setBand (fieldB e 3 1) (some { key := k })).keyDone e 0

/-- ERASE (R774). -/
def State.keyErase (s : State) (e : List Byte) (v : BandView) (healthy : Bool) : State :=
  let r := v.record.getD []
  if fieldB r 7 1 ≠ 1 then s.keyDone e 4
  else if s.noRoot then s.keyDone e 2
  else
    let s := s.noteHealth healthy
    if healthy = false then s.keyDone e 6
    else
      let (key, s) := State.drawBytes 64 s
      s.storeKey e v ((fieldB r 12 4 + 1) % 2 ^ 32) none (sliceB e 8 8) key true

/-- DELETE (R774). -/
def State.keyDelete (s : State) (e : List Byte) (v : BandView) : State :=
  let r := v.record.getD []
  if fieldB r 7 1 ≠ 1 then s.keyDone e 4
  else
    let r := spliceB (spliceB r 7 (zerosB 1)) 40 (zerosB 88)
    ((s.writeBand (fieldB e 3 1) v r).setBand (fieldB e 3 1) none).keyDone e 0

/-- REWRAP (R772). -/
def State.keyRewrap (s : State) (e : List Byte) (v : BandView) (healthy : Bool) : State :=
  let r := v.record.getD []
  match s.unwrapBand e r with
  | (.inl st, s) => s.keyFail e st
  | (.inr k, s) =>
    match s.givenCred ((fieldB e 4 1).testBit 1) (fieldB e 20 4) with
    | (true, _, s) => s.keyDone e 3
    | (false, cred, s) =>
      let s := s.noteHealth healthy
      if healthy = false then s.keyDone e 6
      else s.storeKey e v (fieldB r 12 4) cred (sliceB r 32 8) k false

/-- ROOT_PROGRAM (R775). The precondition reads the fuses; programming needs VDD_ANA in range (R153). -/
def State.rootProgram (s : State) (e : List Byte) (healthy : Bool) : State :=
  if otpField s.boot.fuses 0 256 ≠ 0 ∨ s.otpLocked = true ∨ s.pw.vddAnaGood = false then s.keyDone e 7
  else
    let s := s.noteHealth healthy
    if healthy = false then s.keyDone e 6
    else
      let (k, s) := State.drawBytes 32 s
      let s := (s.burnBytes 0 k).modCip (fun c => { c with root := k })
      (s.put MC_STATUS_ROOT_SET (!s.noRoot)).keyDone e 0

/-- UNLOAD (R783): at once, or once the units started with the slot have finished. -/
def State.keyUnload (s : State) (e : List Byte) (poison : Bool) : State :=
  let b := fieldB e 3 1
  if s.cip.inFlight[keyBand b] = 0 then
    let s := (s.modCip (fun c => { c with unloadWait := none })).down MC_STATUS_BUSY
    (s.setBand b none).keyDone e (if poison then 5 else 0)
  else (s.modCip (fun c => { c with unloadWait := some e })).up MC_STATUS_BUSY

/-- A command taken from ring 320 and run (R770, R771, R777, R778). -/
def State.keyRun (s : State) (e : List Byte) (healthy : Bool) : State :=
  if keyBad e then s.keyDone e 1
  else
    let op := fieldB e 2 1
    let b := fieldB e 3 1
    if op = 7 then s.rootProgram e healthy
    else
      let (v, s) := s.readBand b
      let lost := v.record.isNone && v.poison
      let s := if lost then s.up MC_EVENT_KEY_POISON else s
      if op = 3 then s.keyUnload e lost
      else if lost then s.keyDone e 5
      else
        let s := if op = 2 ∨ op = 4 ∨ op = 5 ∨ op = 6 then s.healBand b v else s
        match op with
        | 1 => s.keyGenerate e v healthy
        | 2 => s.keyLoad e v
        | 4 => s.keyErase e v healthy
        | 5 => s.keyDelete e v
        | 6 => s.keyRewrap e v healthy
        | _ => s.keyDone e 0

/-- The Media Cipher takes the command at the head of ring 320 where it is row `op`'s; the row of GENERATE takes the
reserved operations as well. It takes none while one waits or is held (R772, R783), or while ring 321 refuses its
completion (log entry 11). A poisoned entry is consumed without running. -/
def State.keyCommand (s : State) (op : Nat) (healthy : Bool) : State :=
  if s.cip.authHold then s
  else
    match s.cip.unloadWait with
    | some e => if op = 3 then s.keyUnload e false else s
    | none =>
      match s.headEntry 320 with
      | none => s
      | some h =>
        let hop := fieldB h 2 1
        if (s.ring 320).consumer ≠ 9 ∨ (hop ≠ op ∧ ¬(op = 1 ∧ (hop = 0 ∨ 8 < hop))) then s
        else if s.enqTest 321 ≠ .ok then s.post 321 []
        else
          match s.dequeue 320 with
          | (none, s) => s
          | (some e, s) => if poisoned e then s else s.keyRun (bits e) healthy

/-- KEY_GENERATE. -/
def execKeyGenerate (healthy : Bool) (s : State) : Host.Outcome State Fault Refusal :=
  fin (s.engine (fun s => s.keyCommand 1 healthy))

/-- KEY_LOAD. -/
def execKeyLoad (s : State) : Host.Outcome State Fault Refusal :=
  fin (s.engine (fun s => s.keyCommand 2 true))

/-- KEY_UNLOAD. -/
def execKeyUnload (s : State) : Host.Outcome State Fault Refusal :=
  fin (s.engine (fun s => s.keyCommand 3 true))

/-- KEY_ERASE. -/
def execKeyErase (healthy : Bool) (s : State) : Host.Outcome State Fault Refusal :=
  fin (s.engine (fun s => s.keyCommand 4 healthy))

/-- KEY_DELETE. -/
def execKeyDelete (s : State) : Host.Outcome State Fault Refusal :=
  fin (s.engine (fun s => s.keyCommand 5 true))

/-- KEY_REWRAP. -/
def execKeyRewrap (healthy : Bool) (s : State) : Host.Outcome State Fault Refusal :=
  fin (s.engine (fun s => s.keyCommand 6 healthy))

/-- ROOT_PROGRAM. -/
def execRootProgram (healthy : Bool) (s : State) : Host.Outcome State Fault Refusal :=
  fin (s.engine (fun s => s.keyCommand 7 healthy))

/-- KEY_STATUS. -/
def execKeyStatus (s : State) : Host.Outcome State Fault Refusal :=
  fin (s.engine (fun s => s.keyCommand 8 true))

/-- AUTH_HOLD_END (R772). -/
def execAuthHoldEnd (s : State) : Host.Outcome State Fault Refusal :=
  fin (s.engine (fun s =>
    if s.cip.authHold then (s.modCip (fun c => { c with authHold := false })).down MC_STATUS_BUSY else s))

end Sys2Proof.Machine
end

