-- ==== Sys2Proof/Machine/SceOps.lean ====
section
/-! DEFINITION. The datapath of the Servo Control Engine (R255 to R286): roles, gain scheduling, one update of a context
in its number formats, and the request queue. Contexts are numbered 3n + k (R255). -/

namespace Sys2Proof.Machine
open Sys2Proof

/-- Saturation to a signed 24-bit value (R263). -/
def sat24 (i : Int) : Int := clampInt (-8388608) 8388607 i

/-- Saturation to a signed 48-bit value (R263). -/
def sat48 (i : Int) : Int := clampInt (-140737488355328) 140737488355327 i

/-- One section's output: b0 × in + s1, rounded at bit 20, a half towards plus infinity (R262). -/
def sceSec (b0 s1 x : Int) : Int := sat24 ((b0 * x + s1 + 524288) / 1048576)

/-- A context's mode index (Table 6.2, R266). -/
def State.modeIdx (s : State) (c : Fin 24) : Nat :=
  let p := ctxPort c
  let st := s.rd (SRV_STATUS_STATE p)
  if ctxKind c = 2 then (if s.rd (SPN_STATUS_STATE p) = 5 then 1 else 0)
  else if st = 5 then 0
  else if st = 4 then 2
  else if st = 7 ∧ s.srv[p].guided then 3
  else 1

/-- The band of a quantity (R267). -/
def State.bandOf (s : State) (c : Fin 24) (q0 : Nat) : Nat :=
  let q := min q0 65535
  let t1 := s.rd (CTX_BAND0_T1 c)
  let t2 := s.rd (CTX_BAND0_T2 c)
  let t3 := s.rd (CTX_BAND1_T3 c)
  let h := s.rd (CTX_BAND1_HYST c)
  let r := b2n (decide (t1 < q)) + b2n (decide (t2 < q)) + b2n (decide (t3 < q))
  let rh := b2n (decide (t1 - h < q)) + b2n (decide (t2 - h < q)) + b2n (decide (t3 - h < q))
  let prev := s.rd (CTX_STATUS_BAND c)
  if prev ≤ r then r else min prev rh

/-- The radial band of a context (R268). -/
def State.radialOf (s : State) (c : Fin 24) : Nat :=
  if ctxKind c = 2 then 0
  else
    let track := s.rdI (SRV_POS_POS (ctxPort c)) / 256
    countIdx 7 (fun b => decide ((s.rd (SCE_RADIAL_TRACK (ctxPort c) b) : Int) ≤ track))

/-- The set a context selects in an update outside a blend (R269). -/
def State.selectSet (s : State) (c : Fin 24) (mode band radial : Nat) : Nat :=
  if s.flag (CTX_PIN_PIN_EN c) then s.rd (CTX_PIN_PIN_SET c)
  else s.rd (SCE_SELECT_ENTRY c (mode * 32 + band * 8 + radial))

/-- A coefficient of a set, signed Q4.20 (R263, Table 6.8). -/
def State.coef (s : State) (c : Fin 24) (set w : Nat) : Int := s.rdI (SCE_COEF_COEF c set w)

/-- Milliamperes as VCM command LSBs: floor(mA × 1024 / 25) (R274). -/
def maLsb (ma : Nat) : Int := ((ma * 1024 / 25 : Nat) : Int)

/-- The seek current limit of R233, in mA. -/
def State.seekMa (s : State) (p : Fin 8) : Nat := min 800 (s.rd (SRV_SEEK_ILIM_ILIM p)) * (s.srv[p].accel + 1) / 16

/-- The bounds that a limit in mA sets on a VCM command, within 16 bits (R191, R274). -/
def maBounds (ma : Nat) : Int × Int := (max (-maLsb ma) (-32768), min (maLsb ma) 32767)

/-- The bounds that VCM_CTRL.ILIM sets on a port's VCM command (R192); above 800 it acts as 800. -/
def State.ilimBounds (s : State) (p : Fin 8) : Int × Int := maBounds (min 800 (s.rd (VCM_CTRL_ILIM p)))

/-- The clamp of a context but for VCM_CTRL.ILIM: its own envelope, and in modes 0 and 3 the seek current limit
(R274 to R276). -/
def State.ownClamp (s : State) (c : Fin 24) (mode : Nat) : Int × Int :=
  let p := ctxPort c
  if ctxKind c = 2 then
    let lo := s.rd (SPN_DUTY_ENV_DUTY_MIN p)
    (lo, max lo (s.rd (SPN_DUTY_ENV_DUTY_MAX p)))
  else
    let lo := s.rdI (CTX_CLAMP_OUT_MIN c)
    let hi := max lo (s.rdI (CTX_CLAMP_OUT_MAX c))
    if mode = 0 ∨ mode = 3 then
      let b := maBounds (s.seekMa p)
      (max lo b.1, min hi b.2)
    else (lo, hi)

/-- The effective clamp of a context (R274 to R276). -/
def State.ctxClamp (s : State) (c : Fin 24) (mode : Nat) : Int × Int :=
  let own := s.ownClamp c mode
  if ctxKind c = 2 then own
  else
    let b := s.ilimBounds (ctxPort c)
    (max own.1 b.1, min own.2 b.2)

/-- A VCM command clamped by VCM_CTRL.ILIM and applied, CLAMPED telling whether the clamp changed it (R192); ignored
while FAULT_OC is 1 (R194) or the power die holds the stage (R201). -/
def State.vcmDrive (s : State) (p : Fin 8) (i : Int) : State :=
  if s.flag (VCM_STATUS_FAULT_OC p) || s.dieHeld then s
  else
    let b := s.ilimBounds p
    let v := clampInt b.1 b.2 i
    (s.modSrv p (fun x => { x with cmd := v, hiZ := false })).put (VCM_STATUS_CLAMPED p) (decide (v ≠ i))

/-- The forward pass of one set over the states (R262): the outputs of notch 1, notch 2 and the main section. -/
def State.forward (s : State) (c : Fin 24) (set : Nat) (x : Int) : Int × Int × Int :=
  let t := s.sce.ctx[c]
  let v1 := if s.flag (SCE_SETCFG_N1_EN c set) then sceSec (s.coef c set 8) t.p1 x else x
  let v2 := if s.flag (SCE_SETCFG_N2_EN c set) then sceSec (s.coef c set 13) t.q1 v1 else v1
  (v1, v2, sceSec (s.coef c set 0) t.m1 v2)

/-- The states after a driving update (R262, R265). -/
def State.nextStates (s : State) (c : Fin 24) (set : Nat) (x v1 v2 yf : Int) (t : SceCtx) : SceCtx :=
  let n1 := s.flag (SCE_SETCFG_N1_EN c set)
  let n2 := s.flag (SCE_SETCFG_N2_EN c set)
  let o3 := s.flag (SCE_SETCFG_ORDER3 c set)
  let k := s.coef c set
  { t with
    p1 := if n1 then sat48 (k 9 * x - k 11 * v1 + t.p2) else 0
    p2 := if n1 then sat48 (k 10 * x - k 12 * v1) else 0
    q1 := if n2 then sat48 (k 14 * v1 - k 16 * v2 + t.q2) else 0
    q2 := if n2 then sat48 (k 15 * v1 - k 17 * v2) else 0
    m1 := sat48 (k 1 * v2 - k 4 * yf + t.m2)
    m2 := sat48 (k 2 * v2 - k 5 * yf + t.m3)
    m3 := if o3 then sat48 (k 3 * v2 - k 6 * yf) else 0 }

/-- A pending CLEAR_STATES taken before an update starts (R292). -/
def State.takeClear (s : State) (c : Fin 24) : State :=
  if s.sce.ctx[c].clear then
    s.modCtx c (fun t => { t with m1 := 0, m2 := 0, m3 := 0, p1 := 0, p2 := 0, q1 := 0, q2 := 0, clear := false })
  else s

/-- The band quantity of a context (Table 6.1). -/
def State.bandQty (s : State) (c : Fin 24) (x : Int) : Nat :=
  if ctxKind c = 2 then x.natAbs else (s.rdI (SRV_ERR_ERR (ctxPort c))).natAbs

/-- The radial band, mode, role and set that an update reports. -/
def State.report (s : State) (c : Fin 24) (role mode radial set : Nat) : State :=
  (((s.wr (CTX_STATUS_ROLE c) role).wr (CTX_STATUS_MODE c) mode).wr
    (CTX_STATUS_RADIAL c) radial).wr (CTX_STATUS_SET c) set

/-- A tracking update (R258): a set selected without a blend, and the states preset. The count of saturated updates, the
blend counter and the last band stay (R281); R273 ends a blend that was running at the next driving update. -/
def State.trackUpdate (s : State) (c : Fin 24) (x u : Int) : State :=
  let s := s.takeClear c
  let mode := s.modeIdx c
  let radial := s.radialOf c
  let s := s.report c 2 mode radial (s.selectSet c mode (s.bandOf c (s.bandQty c x)) radial)
  (s.modCtx c (fun t => { t with tracked := true })).preset c u

/-- The saturation of an update noted: the run, and the event once per episode (R172, R277, R278). -/
def State.noteSat (s : State) (c : Fin 24) (sat : Bool) : State :=
  let p := ctxPort c
  let dwell := if ctxKind c = 2 then s.rd (SPN_DUTY_PIN_DWELL p) else s.rd (CTX_CFG_DWELL c)
  let (t, raise) := s.sce.ctx[c].sat.update sat dwell
  let s := (s.modCtx c (fun x => { x with sat := t })).put (CTX_STATUS_SATURATED c) sat
  if raise then
    if ctxKind c = 2 then (s.up (SPN_EVENT_SAT p)).up SYS_LOOP_SAT_SPINDLE
    else (s.setBit SCE_SAT_SAT (2 * p.val + ctxKind c)).up SYS_LOOP_SAT_SCE_GAIN
  else s

/-- A driving update of a context on an input (R262, R265, R267 to R273, R277). A set other than the active one starts a
blend, but in the first driving update after a tracking update (R270, R273). -/
def State.driveUpdate (s : State) (c : Fin 24) (xin : Int) : State :=
  let p := ctxPort c
  let s := s.takeClear c
  let t := s.sce.ctx[c]
  let x := sat24 ((if s.flag (CTX_CFG_NEG c) then -xin else xin) * 2 ^ s.rd (CTX_CFG_IN_SHL c))
  let mode := s.modeIdx c
  let band := s.bandOf c (s.bandQty c xin)
  let radial := s.radialOf c
  let active := s.rd (CTX_STATUS_SET c)
  let blend := s.rd (CTX_CFG_BLEND_M1 c) + 1
  let running := s.flag (CTX_STATUS_BLENDING c) && !t.tracked
  let sel := if running then active else s.selectSet c mode band radial
  let starts := !running && !t.tracked && sel != active
  let old := if starts then active else s.rd (CTX_STATUS_OLD_SET c)
  let k := if starts then 1 else t.k
  let blending := (starts || running) && decide (k < blend)
  let (v1, v2, ym) := s.forward c sel x
  let (_, _, ymOld) := s.forward c old x
  let y := if blending then ymOld + ((ym - ymOld) * (k : Int)).tdiv blend else ym
  let (lo, hi) := s.ctxClamp c mode
  let yf := clampInt lo hi y
  let clamped := decide (yf ≠ y)
  let own := s.ownClamp c mode
  let s := if ctxKind c = 2 then s.modSpn p (fun z => { z with duty := yf.toNat }) else s.vcmDrive p (clampInt own.1 own.2 y)
  let s := s.modCtx c (fun z => s.nextStates c sel x v1 v2 yf { z with tracked := false, k := if blending then k + 1 else 0 })
  let s := (s.report c 1 mode radial sel).wr (CTX_STATUS_BAND c) band
  let s := ((s.put (CTX_STATUS_BLENDING c) blending).wr (CTX_STATUS_BLEND_K c) (if blending then k - 1 else 0)).wr
    (CTX_STATUS_OLD_SET c) (if blending then old else 0)
  let s := ((s.put (CTX_STATUS_CLAMPED c) clamped).wrI (CTX_IN_X c) x).wrI (CTX_OUT_Y c) yf
  s.noteSat c (clamped && (if ctxKind c = 2 then true else !s.flag (CTX_PIN_PIN_EN c)))

/-- An input queued for a context (R282, R286): it replaces a pending one and sets the context's OVERRUN bit. A context
whose ENABLE is 0 discards it (R261), and an idle one receives none (R259). -/
def State.sceAdd (s : State) (c : Fin 24) (age : Nat) (x : Int) : State :=
  if s.flag (CTX_CFG_ENABLE c) && s.role c != 0 then
    let dup := s.sce.queue.any (fun r => r.ctx == c.val)
    let q := s.sce.queue.filter (fun r => r.ctx != c.val) ++ [{ ctx := c.val, age := age, x := x }]
    let s := if dup then s.setBit SCE_OVERRUN_CTX c.val else s
    ({ s with sce := { s.sce with queue := q } }).wr SCE_STATUS_QUEUE q.length
  else s

/-- Inputs that become valid in one SERVO cycle queued with one age. -/
def State.sceQueue (s : State) (l : List (Fin 24 × Int)) : State :=
  let a := s.sce.age
  let s := l.foldl (fun s e => s.sceAdd e.1 a e.2) s
  { s with sce := { s.sce with age := a + 1 } }

/-- The class of a request now (R283): 0 driving VCM, 1 spindle, 2 tracking, 3 one that is discarded, its context being
idle or its ENABLE 0 (R259, R261). -/
def State.reqClass (s : State) (r : SceReq) : Nat :=
  let c := ctxOf r.ctx
  match (if s.flag (CTX_CFG_ENABLE c) then s.role c else 0) with
  | 1 => if ctxKind c = 2 then 1 else 0
  | 2 => 2
  | _ => 3

/-- The request the engine would start within a class: the oldest, the lowest context among equals (R283). -/
def State.pickReq (s : State) (cls : Nat) : Option SceReq :=
  (s.sce.queue.filter (fun r => s.reqClass r == cls)).foldl (fun (b : Option SceReq) r =>
    match b with
    | none => some r
    | some o => if r.age < o.age ∨ (r.age = o.age ∧ r.ctx < o.ctx) then some r else some o) none

/-- A request taken from the queue. -/
def State.takeReq (s : State) (r : SceReq) : State :=
  let q := s.sce.queue.filter (fun x => x.ctx != r.ctx)
  ({ s with sce := { s.sce with queue := q } }).wr SCE_STATUS_QUEUE q.length

/-- Requests of contexts that are idle or disabled now are discarded. -/
def State.dropIdle (s : State) : State :=
  let q := s.sce.queue.filter (fun r => s.reqClass r != 3)
  ({ s with sce := { s.sce with queue := q } }).wr SCE_STATUS_QUEUE q.length

/-- R41 and R279: a loop's run of saturated updates starts from zero and its episode ends. -/
def State.envelope (s : State) (c : Fin 24) : State := s.modCtx c (fun t => { t with sat := {} })

end Sys2Proof.Machine
end

