-- ==== Sys2Proof/Machine/Servo.lean ====
section
/-! DEFINITION. Servo wedges, seeking and head handling (chapter 5). Port states are the numbers of SRV_STATUS.STATE. -/

namespace Sys2Proof.Machine
open Sys2Proof

/-- The integer square root by bisection on bits: the largest r with r² ≤ n, for n below 2^(2k). -/
def isqrt : Nat → Nat → Nat → Nat
  | 0, _, r => r
  | k + 1, n, r => if (r + 2 ^ k) * (r + 2 ^ k) ≤ n then isqrt k n (r + 2 ^ k) else isqrt k n r

/-- floor(sqrt(n)) for the numbers this chapter takes roots of, all below 2^96. -/
def sqrtFloor (n : Nat) : Nat := isqrt 48 n 0

/-- A Gray-coded number of `w` bits as the number it stands for (R210). -/
def ungray (w g : Nat) : Nat := (List.range w).foldl (fun a k => a ^^^ ((g % 2 ^ w) >>> k)) 0

/-- Wedges per revolution. -/
def State.wedges (s : State) (p : Fin 8) : Nat := max 1 (s.rd (SRV_FMT_WEDGES p))

/-- The nominal wedge period P_w (R213). -/
def State.nominalWedge (s : State) (p : Fin 8) : Nat :=
  s.rd (SPN_TARGET_PERIOD p) * s.rd (SPN_CTRL_POLE_PAIRS p) / s.wedges p

/-- The bits that `n` dibits of cells spell from cell `off` on, most significant first: 10 for a 1 and 01 for a 0; none
where a dibit reads 00 or 11 (R209 to R211). -/
def dibits (cells : List Bool) (off n : Nat) : Option Nat :=
  (List.range n).foldl (fun (acc : Option Nat) i =>
    let a := cells.getD (off + 2 * i) false
    let b := cells.getD (off + 2 * i + 1) false
    match acc with
    | some v => if a == b then none else some (2 * v + b2n a)
    | none => none) (some 0)

/-- How many of a wedge's SAM cells differ from PATTERN, whose first cell is its highest compared bit (R215). -/
def State.samDiff (s : State) (p : Fin 8) (cells : List Bool) : Nat :=
  let n := s.rd (SRV_SAM_SAM_LEN p)
  countIdx n (fun i => cells.getD i false != (s.rd (SRV_SAM_PATTERN p)).testBit (n - 1 - i))

/-- The Gray field of a wedge, still in Gray code (R208, R210). -/
def State.grayField (s : State) (p : Fin 8) (cells : List Bool) : Option Nat :=
  dibits cells (s.rd (SRV_SAM_SAM_LEN p)) (s.rd (SRV_FMT_G_BITS p))

/-- The wedge index (R208, R211). -/
def State.indexField (s : State) (p : Fin 8) (cells : List Bool) : Option Nat :=
  dibits cells (s.rd (SRV_SAM_SAM_LEN p) + 2 * s.rd (SRV_FMT_G_BITS p)) (s.rd (SRV_FMT_W_BITS p))

/-- The samples of the first `n` cells, CELL of each: the ADC samples once per LINE cycle (R208, R294). -/
def State.cellSamples (s : State) (p : Fin 8) (n : Nat) (cells : List (List Int)) : List Int :=
  (cells.take n).flatMap (fun c => c.take (s.rd (SRV_CELLS_CELL p)))

/-- The mean |x| over the last 64 cells of a wedge's preamble, truncated as R301 truncates it (R303); none without a
sample. -/
def State.preMean (s : State) (p : Fin 8) (pre : List (List Int)) : Option Nat :=
  let cells := pre.take (s.rd (SRV_CELLS_PRE p))
  let x := s.cellSamples p 64 (cells.drop (cells.length - 64))
  if x.isEmpty then none else some (x.foldl (fun a v => a + v.natAbs) 0 / x.length)

/-- A sum in 32 bits: the spec does not say what a sum beyond them gives, which is then a free value (log entry 23). -/
def State.sum32 (s : State) (v : Int) : Int × State :=
  if -2147483648 ≤ v ∧ v ≤ 2147483647 then (v, s)
  else
    let (x, s) := s.draw
    (signedOf 32 x, s)

/-- π in 2^-48ths. -/
def piFix : Nat := 884279719003555

/-- cos(π n / c) in 2^-48ths where 2 n ≤ c: twelve terms of its series. -/
def cosQuarter (n c : Nat) : Int :=
  let x := piFix * n / c
  let xx := x * x / 2 ^ 48
  ((List.range 12).foldl (fun (a : Int × Nat) k =>
    (a.1 + (if k % 2 = 0 then 1 else -1) * a.2, a.2 * xx / 2 ^ 48 / ((2 * k + 1) * (2 * k + 2)))) (0, 2 ^ 48)).1

/-- cos(π n / c) in 2^-48ths. -/
def cosFix (n c : Nat) : Int :=
  let m := n % (2 * c)
  let m := if c < m then 2 * c - m else m
  if c < 2 * m then -cosQuarter (c - m) c else cosQuarter m c

/-- The weight cos(π n / c) in the DFT's scale, rounded to an integer beside it (R220). -/
def dftWeight (n c : Nat) : Int :=
  let v := Config.dftScale * cosFix n c
  v / 2 ^ 48 + (if v % 2 ^ 48 ≠ 0 ∧ Config.dftUp (n % (2 * c)) c = true then 1 else 0)

/-- The cosine that sample `i` is multiplied with, at the bin of one cycle per two cells of `cell` samples (R220). -/
def dftCos (cell i : Nat) : Int := dftWeight i (max 1 cell)

/-- The sine of the same bin: the cosine a quarter of a cycle later. -/
def dftSin (cell i : Nat) : Int := dftWeight (2 * i + 3 * max 1 cell) (2 * max 1 cell)

/-- The sum of samples times a table of weights (R220). -/
def dftSum (w : Nat → Int) (x : List Int) : Int :=
  (x.foldl (fun (a : Int × Nat) v => (a.1 + v * w a.2, a.2 + 1)) (0, 0)).1

/-- A burst's amplitude from its two sums (R220). -/
def burstAmp (shift : Nat) (iq : Int × Int) : Nat :=
  min (sqrtFloor (iq.1.natAbs * iq.1.natAbs + iq.2.natAbs * iq.2.natAbs) / 2 ^ shift) 0xFFFF

/-- Burst `k` of a wedge demodulated (R220). -/
def State.burst (s : State) (p : Fin 8) (w : Wedge) (k : Nat) : Nat × State :=
  let cell := s.rd (SRV_CELLS_CELL p)
  let x := s.cellSamples p (s.rd (SRV_CELLS_BURST p)) (w.bursts.getD k [])
  let (i, s) := s.sum32 (dftSum (dftCos cell) x)
  let (q, s) := s.sum32 (dftSum (dftSin cell) x)
  (burstAmp (s.rd (SRV_CELLS_SHIFT p)) (i, q), s)

/-- The four bursts of a wedge, demodulated and shown in SRV_BURST_AB and SRV_BURST_CD. -/
def State.readBursts (s : State) (p : Fin 8) (w : Wedge) : (Nat × Nat × Nat × Nat) × State :=
  let (a, s) := s.burst p w 0
  let (b, s) := s.burst p w 1
  let (c, s) := s.burst p w 2
  let (d, s) := s.burst p w 3
  ((a, b, c, d), (((s.wr (SRV_BURST_AB_A p) a).wr (SRV_BURST_AB_B p) b).wr (SRV_BURST_CD_C p) c).wr (SRV_BURST_CD_D p) d)

/-- The position of R221 from the half-track number, the bursts' differences and their sum; `open0` stands for f where
the sum is 0 and R221's division has no value. -/
def position (g : Nat) (n q : Int) (t : Nat) (open0 : Int) : Int :=
  let f : Int :=
    if t = 0 then open0
    else if 0 ≤ q then (64 * n) / t
    else if 0 ≤ n then (128 * t - 64 * n) / t
    else (-128 * t - 64 * n) / t
  let f := if f = 128 then -128 else f
  let trk : Int := ((g / 2 : Nat) : Int) + (if g % 2 = 1 ∧ f < 0 then 1 else 0)
  256 * trk + f

/-- The position that a seek or an unload makes for (R231, R243): the target with the head's offset, or the unload
track. -/
def State.goal (s : State) (p : Fin 8) : Int :=
  if s.rd (SRV_STATUS_STATE p) = 7 then 256 * (s.rd (SRV_UNLOAD_UNLOAD_TRACK p) : Int)
  else s.rdI (SRV_TARGET_TARGET p) + s.rdI (SRV_HEAD_OFS_OFS p (s.rd (SRV_STATUS_HEAD p)))

/-- The velocity reference of R231 at distance `d`. -/
def State.vRef (s : State) (p : Fin 8) (d : Nat) : Nat :=
  let acc := s.rd (SRV_SEEK_ACC p) * (s.srv[p].accel + 1) / 16
  min (s.rd (SRV_SEEK_VMAX p)) (sqrtFloor (2 * acc * d / 256))

/-- The inputs of the port's two VCM contexts after a good wedge (R282, Table 6.1): err, and v − v_des. -/
def State.vcmInputs (s : State) (p : Fin 8) : State :=
  let err := s.rdI (SRV_ERR_ERR p)
  let e := s.rdI (SRV_POS_POS p) - s.goal p
  let vr : Int := s.vRef p e.natAbs
  let vd := if e < 0 then vr else -vr
  s.sceQueue [(ctxOf (3 * p.val), err), (ctxOf (3 * p.val + 1), sat24 (s.srv[p].vel - vd))]

/-- Whether a port is in a load that has not acquired servo yet; from LOST nothing loads (R227, R241). -/
def State.loadingHeads (s : State) (p : Fin 8) : Bool :=
  s.srv[p].loadPending && (s.rd (SRV_STATUS_STATE p) == 1 || s.rd (SRV_STATUS_STATE p) == 2)

/-- Servo acquired (R226, R227, R241): SETTLE towards the unchanged target, or in a load towards the acquired track on head
0; the drive of a load ends, and a retract's goes on (R200). -/
def State.acquire (s : State) (p : Fin 8) (track : Int) : State :=
  let s := if s.loadingHeads p then (s.wrI (SRV_TARGET_TARGET p) (256 * track)).wr (SRV_STATUS_HEAD p) 0
    else s.up (SRV_EVENT_REACQ p)
  (s.srvState p 3).modSrv p (fun v => { v with
    badRun := 0, readRun := 0, writeRun := 0, acqRun := 0, swLeft := 0
    drive := if s.flag (VCM_STATUS_RETRACTING p) then v.drive else [] })

/-- The write-inhibit latch and WRITE_OK at a good wedge (R237, R245, R248): the latch clears while no condition of R245 to
R247 holds, among them SHOCK_N low or in its hold, and a spindle that has lost lock. -/
def State.wedgeWrite (s : State) (p : Fin 8) (err : Int) : State :=
  let lim := s.rd (SRV_WI_LIMIT p)
  let tol := min lim (s.rd (SRV_ONTRACK_WRITE_TOL p))
  let run := if err.natAbs ≤ tol then s.srv[p].writeRun + 1 else 0
  let s := s.modSrv p (fun v => { v with writeRun := run })
  if lim < err.natAbs then s.inhibit p
  else if s.rd (SRV_STATUS_STATE p) = 4 ∧ max 1 (s.rd (SRV_ONTRACK_WRITE_N p)) ≤ run ∧ s.srv[p].shockHeld = false
      ∧ s.shockLow = false ∧ s.spn[p].unlocked = false then
    (s.down (SRV_STATUS_WI_LATCH p)).up (SRV_STATUS_WRITE_OK p)
  else s

/-- The port's state at a good wedge (R234, R235, R241, R243). -/
def State.wedgeState (s : State) (p : Fin 8) (err : Int) : State :=
  let d := (s.rdI (SRV_POS_POS p) - s.goal p).natAbs
  match s.rd (SRV_STATUS_STATE p) with
  | 5 =>
    if d ≤ s.rd (SRV_SEEK2_SETTLE_DIST p) then (s.srvState p 3).modSrv p (fun v => { v with readRun := 0 }) else s
  | 3 =>
    let run := if err.natAbs ≤ s.rd (SRV_ONTRACK_READ_TOL p) then s.srv[p].readRun + 1 else 0
    let s := s.modSrv p (fun v => { v with readRun := run })
    if max 1 (s.rd (SRV_ONTRACK_READ_N p)) ≤ run then
      let s := ((s.srvState p 4).up (SRV_STATUS_READ_OK p)).up (SRV_EVENT_SEEK_DONE p)
      let s := if s.srv[p].loadPending then s.up (SRV_EVENT_LOAD_DONE p) else s
      let s := if s.srv[p].seeking then s.seekEnds p true else s
      s.modSrv p (fun v => { v with seeking := false, loadPending := false })
    else s
  | 7 =>
    if s.srv[p].guided && decide (d ≤ s.rd (SRV_SEEK2_SETTLE_DIST p)) then
      (s.modSrv p (fun v => { v with guided := false })).backEmfUnload p
    else s
  | _ => s

/-- A bad wedge (R217, R224, R239, R246). -/
def State.badWedge (s : State) (p : Fin 8) : State :=
  let s := (s.inc (SRV_COUNT_BAD_WEDGE p)).inhibit p
  s.modSrv p (fun v => { v with readRun := 0, writeRun := 0, badRun := if v.swLeft = 0 then v.badRun + 1 else v.badRun })

/-- A position taken from a wedge, with the velocity it gives (R221, R232). -/
def State.takePos (s : State) (p : Fin 8) (pos : Int) : State :=
  let v := s.srv[p]
  let old := s.rdI (SRV_POS_POS p)
  (s.wrI (SRV_POS_POS p) pos).modSrv p (fun x => { x with vel := if v.posSeen then pos - old else 0, posSeen := true })

/-- The position error of R222 against the present target and head. -/
def State.posErr (s : State) (p : Fin 8) : Int :=
  sat24 (s.rdI (SRV_POS_POS p) - (s.rdI (SRV_TARGET_TARGET p) + s.rdI (SRV_HEAD_OFS_OFS p (s.rd (SRV_STATUS_HEAD p)))))

/-- The formatter's automatic zone load at the close of a good wedge's servo gate (R466). -/
def State.autoZone (s : State) (p : Fin 8) (pos : Int) : State :=
  let z := s.zoneOf p (pos / 256)
  if s.flag (FMT_CTX_CFG_AUTO_ZONE p) && z != s.rd (CH_ZONE_ZONE p) && s.on 1 then s.zoneRequest p z else s

/-- A good wedge with its position and index (R222, R232, R282). -/
def State.goodWedge (s : State) (p : Fin 8) (pos : Int) (index : Nat) : State :=
  let s := (s.takePos p pos).modSrv p (fun x => { x with badRun := 0 })
  let err := s.posErr p
  let s := s.wrI (SRV_ERR_ERR p) err
  let s := (s.wedgeState p err).wedgeWrite p err
  let s := s.modSrv p (fun x => { x with lastGood := index })
  let s := if s.flag (SRV_STATUS_WI_LATCH p) then s
    else s.modFmt p (fun f => { f with wlog := if s.ch[p].writing then f.wlog.drop (f.wlog.length - 1) else [] })
  (s.vcmInputs p).autoZone p pos

/-- Whether the servo gate is held open for the whole wedge period: in LOADING, ACQUIRE and LOST (R226). -/
def State.gateHeld (s : State) (p : Fin 8) : Bool :=
  s.rd (SRV_STATUS_STATE p) == 1 || s.rd (SRV_STATUS_STATE p) == 2 || s.rd (SRV_STATUS_STATE p) == 6

/-- The end of a wedge, where the servo gate closes unless it is held open: the WEDGE and FRAME latches of the port's
context (R443), and a head switch that waits for it (R238, R239). -/
def State.gateCloses (s : State) (p : Fin 8) (index : Nat) : State :=
  let want := (s.rd (FMT_CTX_CNT1_FRAME p) + fieldB s.fmt[p].req 12 2 % 512) % s.wedges p
  let s := s.modFmt p (fun f => { f with wedgeLatch := true, frameLatch := f.frameLatch || index == want })
  let s := s.modSrv p (fun v => { v with gateOpen := s.gateHeld p, swLeft := v.swLeft - 1, shockLeft := v.shockLeft - 1 })
  match s.srv[p].pendHead with
  | some h =>
    ((s.wr (SRV_STATUS_HEAD p) h).modSrv p (fun v => { v with pendHead := none, swLeft := 2 })).queueFrame p 0 (s.headFrame p h)
  | none => s

/-- A good wedge's error in ACQUIRE or LOST: it goes to SRV_ERR, sets the latch beyond LIMIT (R245), and queues the SCE's
inputs (R282); the wedge is the last good one from then on. -/
def State.acqGood (s : State) (p : Fin 8) (index : Nat) : State :=
  let s := s.wrI (SRV_ERR_ERR p) (s.posErr p)
  let s := if s.rd (SRV_WI_LIMIT p) < (s.posErr p).natAbs then s.inhibit p else s
  (s.modSrv p (fun v => { v with lastGood := index })).vcmInputs p

/-- A wedge in LOADING, ACQUIRE or LOST (R226, R227, R241): its index is the one read, so it is not bad by its index
(R217). Where it acquires servo, its gate closes and the zone is compared (R466). -/
def State.acqWedge (s : State) (p : Fin 8) (accepted inWin good : Bool) (g index : Option Nat) (pos track : Int) : State :=
  let v := s.srv[p]
  let valid := accepted && g.isSome && index.isSome
  let run := if valid then (if inWin || v.acqRun = 0 then v.acqRun + 1 else 1) else 0
  let s := s.modSrv p (fun v => { v with acqRun := run, expected := (index.getD v.expected + 1) % s.wedges p })
  let s := if good then s.takePos p pos else s.badWedge p
  let s := if valid && decide (max 1 (s.rd (SRV_LOAD_ACQ_N p)) ≤ run) then s.acquire p track else s
  if good then
    let s := s.acqGood p (index.getD 0)
    if s.gateHeld p then s else s.autoZone p pos
  else s

/-- SERVO_WEDGE: one wedge closes (R208 to R227, R234 to R249). In UNLOADED no wedge is read. -/
def State.servoWedge (s : State) (p : Fin 8) (w : Wedge) : State :=
  let st := s.rd (SRV_STATUS_STATE p)
  if st = 0 then s
  else
    let s := match s.preMean p w.pre with
      | some m => s.agcServo p m
      | none => s
    let v : Servo := s.srv[p]
    let acq := st == 1 || st == 2 || st == 6
    let win := (if v.swLeft = 0 then 1 else 4) * s.rd (SRV_GATE_SAM_WIN p)
    let found : Option Int := w.start.filter (fun _ => decide (s.samDiff p w.cells ≤ s.rd (SRV_SAM_ERR_TOL p)))
    let inWin := found.any (fun (o : Int) => decide (o.natAbs ≤ win))
    let accepted := inWin || (acq && found.isSome)
    let s := if inWin then
        s.wr (SRV_PERIOD_PREDICTED p) (((s.rd (SRV_PERIOD_PREDICTED p) : Int) + (found.getD 0).tdiv 8).toNat)
      else s
    let ((a, b, c, d), s) := s.readBursts p w
    let g := if accepted then (s.grayField p w.cells).map (ungray (s.rd (SRV_FMT_G_BITS p))) else none
    let index := if accepted then s.indexField p w.cells else none
    let s := if g.isSome then s.wr (SRV_GRAY_G p) (g.getD 0) else s
    let n : Int := (a : Int) - b
    let q : Int := (c : Int) - d
    let t := n.natAbs + q.natAbs
    let expected := v.expected
    let (o, s') := s.draw
    let s := if t = 0 then s' else s
    let pos := position (g.getD 0) n q t (signedOf 8 o)
    let s := if v.seeking then s.modSrv p (fun v => { v with seekWedges := v.seekWedges + 1 }) else s
    let bad := !accepted || g.isNone || index.isNone || (!acq && index != some expected)
      || decide (s.rd (SRV_MAXTRACK_MAX_TRACK p) < (g.getD 0) / 2) || decide (t < s.rd (SRV_LOSS_BURST_MIN p))
    if acq then
      (s.acqWedge p accepted inWin (!bad) g index pos (if t = 0 then ((g.getD 0) / 2 : Nat) else (pos + 128) / 256)).gateCloses p
        (index.getD expected)
    else
      let s := s.modSrv p (fun v => { v with expected := (expected + 1) % s.wedges p })
      (if bad then s.badWedge p else s.goodWedge p pos expected).gateCloses p expected

/-- SERVO_WEDGE. -/
def execServoWedge (p : Fin 8) (w : Wedge) (s : State) : Host.Outcome State Fault Refusal :=
  fin (s.when (s.runs (2 + p.val)) (fun s => s.servoWedge p w))

/-- The servo gate opens: an open read gate closes and the write gate is held off (R214, R219, R340). -/
def State.openGate (s : State) (p : Fin 8) : State :=
  ((s.closeRead p).dropWg p).modSrv p (fun v => { v with gateOpen := true })

/-- SERVO_GATE_OPEN, in every state but UNLOADED. -/
def State.gateOpens (s : State) (p : Fin 8) : State := if s.rd (SRV_STATUS_STATE p) = 0 then s else s.openGate p

/-- SERVO_GATE_OPEN. -/
def execServoGateOpen (p : Fin 8) (s : State) : Host.Outcome State Fault Refusal :=
  fin (s.when (s.portRuns p) (fun s => s.gateOpens p))

/-- SERVO_LOSS (R225): MISS_LIMIT consecutive bad wedges. LOST opens the servo gate for good, which closes an open read gate
(R226, R340). In the guided phase of an unload the back-EMF profile follows at once. -/
def State.servoLoss (s : State) (p : Fin 8) : State :=
  let st := s.rd (SRV_STATUS_STATE p)
  if s.srv[p].badRun < max 1 (s.rd (SRV_LOSS_MISS_LIMIT p)) then s
  else if st = 7 then
    if s.srv[p].guided then (s.modSrv p (fun v => { v with guided := false, badRun := 0 })).backEmfUnload p else s
  else if st = 3 ∨ st = 4 ∨ st = 5 then
    let s := (((s.srvState p 6).inhibit p).up (SRV_EVENT_LOST p)).openGate p
    let s := if s.srv[p].seeking then s.seekEnds p false else s
    s.modSrv p (fun v => { v with badRun := 0, acqRun := 0, cmd := if st = 5 then 0 else v.cmd })
  else s

/-- SERVO_LOSS. -/
def execServoLoss (p : Fin 8) (s : State) : Host.Outcome State Fault Refusal :=
  fin (s.when (s.portRuns p) (fun s => s.servoLoss p))

/-- SERVO_RECOVERY_TIMEOUT (R228): LOSS_FAIL, and the heads unload by the back-EMF profile. -/
def State.recoveryTimeout (s : State) (p : Fin 8) : State :=
  if s.rd (SRV_STATUS_STATE p) = 6 then ((s.up (SRV_EVENT_LOSS_FAIL p)).fmtFault p 5).unload p else s

/-- SERVO_RECOVERY_TIMEOUT. -/
def execServoRecoveryTimeout (p : Fin 8) (s : State) : Host.Outcome State Fault Refusal :=
  fin (s.when (s.portRuns p) (fun s => s.recoveryTimeout p))

/-- SRV_LOAD (R213, R240, R253): LOADING passes to ACQUIRE at once, with the power die driving the VCM off the ramp. The servo
gate opens for the whole wedge period, which closes an open read gate (R226, R340). -/
def State.srvLoad (s : State) (p : Fin 8) : State :=
  if s.rd (SRV_STATUS_STATE p) = 0 ∧ s.rd (SPN_STATUS_STATE p) = 5 ∧ s.dieHeld = false ∧ 1666 ≤ s.nominalWedge p then
    let s := ((s.openGate p).srvState p 2).wr (SRV_PERIOD_PREDICTED p) (min (s.nominalWedge p) 0xFFFF)
    (s.modSrv p (fun v => { v with loaded := true, loadPending := true, acqRun := 0, badRun := 0, posSeen := false,
                                   seeking := false })).runDrive p (s.loadDrive p)
  else s.up (SRV_EVENT_CMD_REFUSED p)

/-- SRV_LOAD. -/
def execSrvLoad (p : Fin 8) (s : State) : Host.Outcome State Fault Refusal :=
  fin (s.regCmd (SRV_CMD_WORD p) (fun s => s.srvLoad p))

/-- SRV_UNLOAD (R253, R254). -/
def execSrvUnload (p : Fin 8) (s : State) : Host.Outcome State Fault Refusal :=
  let st := s.rd (SRV_STATUS_STATE p)
  fin (s.regCmd (SRV_CMD_WORD p) (fun s => if st = 0 ∨ st = 7 then s.up (SRV_EVENT_CMD_REFUSED p) else s.unload p))

/-- Whether a SEEK to `head` is accepted now (R253). SRV_FMT.HEADS holds the number of heads less one ("Heads − 1, so 0 to 15
gives 1 to 16 heads"), so a head is refused from that number of heads on: DEDUCED, log entry 22. -/
def State.seekOk (s : State) (p : Fin 8) (head : Nat) : Bool :=
  let st := s.rd (SRV_STATUS_STATE p)
  !s.ch[p].wgReq && decide (3 ≤ st ∧ st ≤ 5)
    && decide (s.rdI (SRV_TARGET_TARGET p) / 256 ≤ (s.rd (SRV_MAXTRACK_MAX_TRACK p) : Int))
    && decide (head ≤ s.rd (SRV_FMT_HEADS p))

/-- SRV_SEEK to SRV_TARGET on a head, with a requested acceleration (R229, R230, R238, R252, R253). -/
def State.srvSeek (s : State) (p : Fin 8) (head accel : Nat) : State :=
  if s.seekOk p head then
    let lvl := s.govLevel
    let s := if lvl < accel then s.inc GOV_CLIP_SEEK_COUNT else s
    let dist := (s.rdI (SRV_TARGET_TARGET p) - s.rdI (SRV_POS_POS p)).natAbs
    let s := s.srvState p (if s.rd (SRV_SEEK2_SHORT_DIST p) < dist then 5 else 3)
    let s := s.modFmt p (fun f => { f with seekEnd := false, seekOk := false })
    s.modSrv p (fun v => { v with
      accel := min accel lvl, seekWedges := 0, seekTold := false, seeking := true, readRun := 0
      pendHead := if head = s.rd (SRV_STATUS_HEAD p) then none else some head })
  else s.up (SRV_EVENT_CMD_REFUSED p)

/-- SRV_SEEK. -/
def execSrvSeek (p : Fin 8) (head accel : Fin 16) (s : State) : Host.Outcome State Fault Refusal :=
  fin (s.regCmd (SRV_CMD_WORD p) (fun s => s.srvSeek p head.val accel.val))

/-- SEEK_TIMEOUT (R236): told once for a seek that has not reached FOLLOW in time. -/
def State.seekTimeout (s : State) (p : Fin 8) : State :=
  let v := s.srv[p]
  if v.seeking && !v.seekTold && decide (s.rd (SRV_SEEK2_SEEK_TIMEOUT p) ≤ v.seekWedges) then
    (s.up (SRV_EVENT_SEEK_TIMEOUT p)).modSrv p (fun v => { v with seekTold := true })
  else s

/-- SEEK_TIMEOUT. -/
def execSeekTimeout (p : Fin 8) (s : State) : Host.Outcome State Fault Refusal :=
  fin (s.when (s.portRuns p) (fun s => s.seekTimeout p))

/-- LOAD_TIMEOUT (R242): LOAD_FAIL, and the back-EMF profile. -/
def State.loadTimeout (s : State) (p : Fin 8) : State :=
  let st := s.rd (SRV_STATUS_STATE p)
  if (st = 1 ∨ st = 2) ∧ s.srv[p].loadPending = true then (s.up (SRV_EVENT_LOAD_FAIL p)).unload p else s

/-- LOAD_TIMEOUT. -/
def execLoadTimeout (p : Fin 8) (s : State) : Host.Outcome State Fault Refusal :=
  fin (s.when (s.portRuns p) (fun s => s.loadTimeout p))

/-- UNLOAD_DONE: the back-EMF profile ends (R243). A retract that has taken the VCM over ends by RETRACT_PROFILE_END. -/
def State.unloadEnd (s : State) (p : Fin 8) : State :=
  if s.rd (SRV_STATUS_STATE p) = 7 ∧ s.srv[p].guided = false ∧ s.flag (VCM_STATUS_RETRACTING p) = false then s.unloaded p else s

/-- UNLOAD_DONE. -/
def execUnloadDone (p : Fin 8) (s : State) : Host.Outcome State Fault Refusal :=
  fin (s.when (s.portRuns p) (fun s => s.unloadEnd p))

/-- SHOCK_N_ASSERT: every port's latch is held set (R247). -/
def execShockNAssert (s : State) : Host.Outcome State Fault Refusal :=
  fin (({ s with shockLow := true }).eachPort (fun p s => s.shockLatch p))

/-- SHOCK_N_RELEASE: each port counts SHOCK_HOLD of its wedges (R247). -/
def execShockNRelease (s : State) : Host.Outcome State Fault Refusal :=
  fin (({ s with shockLow := false }).eachPort (fun p s =>
    s.modSrv p (fun v => { v with shockLeft := s.rd (SRV_WI_SHOCK_HOLD p) })))

/-- SHOCK_HOLD_END: SHOCK_HOLD wedges have passed, and the latch may clear at its next chance (R247, R248). -/
def execShockHoldEnd (p : Fin 8) (s : State) : Host.Outcome State Fault Refusal :=
  fin (if s.shockLow = false ∧ s.srv[p].shockLeft = 0 then s.modSrv p (fun v => { v with shockHeld := false }) else s)

end Sys2Proof.Machine
end

