-- ==== Sys2Proof/Machine/FmtOps.lean ====
section
/-! DEFINITION. The Formatter Engine's datapath (chapter 10): microwords and nanowords, conditions, the actions of a word,
and the stopping of a context. Context n serves port n. -/

namespace Sys2Proof.Machine
open Sys2Proof

/-- A nanoword's bits. -/
abbrev Nano := BitVec 128

/-- `n` bits of a nanoword from bit `lo`. -/
def Nano.f (w : Nano) (lo n : Nat) : Nat := (w.extractLsb' lo n).toNat

/-- R439: a value that Table 10.3 does not list, or a 1 in bits [73:0]. -/
def Nano.illegal (w : Nano) : Bool :=
  decide (3 < w.f 120 3) || decide (3 < w.f 115 3) || decide (4 < w.f 112 3) || w.f 110 2 == 3 || w.f 108 2 == 3
    || w.f 105 2 == 3 || decide (3 < w.f 100 3) || w.f 94 2 == 3 || w.f 92 2 == 3 || decide (1 < w.f 90 2)
    || decide (4 < w.f 87 3) || w.f 0 74 != 0

/-- A microword as fetched: its sequencing, its nanoword and its argument, or none where a fetch was poisoned. -/
structure Micro where
  seq : Nat
  nano : Nano
  arg : Nat

/-- The microword at an address with its nanoword (R434, R435), each byte through its code. -/
def State.fetchMicro (s : State) (pc : Nat) : Option Micro × State :=
  let (w, s) := State.readMem (0x30088000 + 4 * (pc % 8192)) 3 s
  let m := leVal (bits w)
  let n := bitsOf m 10 10
  if poisoned w then (none, s)
  else if n = 0 then (some { seq := bitsOf m 20 4, nano := 0, arg := bitsOf m 0 10 }, s)
  else
    let (d, s) := State.readMem (0x30084000 + 16 * n) 16 s
    if poisoned d then (none, s)
    else (some { seq := bitsOf m 20 4, nano := BitVec.ofNat 128 (leVal (bits d)), arg := bitsOf m 0 10 }, s)

/-- The request registers' fields (Table 10.6). -/
def State.req (s : State) (p : Fin 8) (off n : Nat) : Nat := fieldB s.fmt[p].req off n

/-- A bit of REQ.FLAGS. -/
def State.reqFlag (s : State) (p : Fin 8) (i : Nat) : Bool := (s.req p 3 1).testBit i

/-- K of the active zone. -/
def State.zoneK (s : State) (p : Fin 8) : Nat := s.rd (FMT_ZFRAME0_K p (s.rd (CH_ZONE_ZONE p)))

/-- The context's ring numbers. -/
def reqRing (p : Fin 8) : Nat := 64 + 16 * p.val

/-- Whether a ring holds an entry to take. -/
def State.ringAvail (s : State) (id : Nat) : Bool := (s.ring id).en && decide (0 < (s.ring id).count)

/-- Whether an enqueue to a ring would be taken now. -/
def State.ringRoom (s : State) (id : Nat) : Bool := s.enqTest id == .ok

/-- The result code of the current gate result. -/
def FmtCtx.code (f : FmtCtx) : Option Nat := f.cur.bind (fun g => g.code)

/-- The conditions of Table 10.5. -/
def State.cond (s : State) (p : Fin 8) (c : Nat) : Bool :=
  let f := s.fmt[p]
  match c with
  | 0 => true
  | 1 => s.rd (FMT_CTX_CNT0_SC p) == 0
  | 2 => s.rd (FMT_CTX_CNT0_LC p) == 0
  | 3 => s.rd (FMT_CTX_CNT1_SLOT p) + 1 == s.zoneK p
  | 4 => f.code == some 0
  | 5 => f.code == some 4
  | 6 => f.code == some 1
  | 7 => f.code == some 2
  | 8 => f.code == some 3
  | 9 => !f.results.isEmpty
  | 10 => f.gates.any (fun g => g.code.isNone)
  | 11 => fieldB f.compl 3 1 == 0
  | 12 => s.ringAvail (200 + p.val)
  | 13 => f.pi == 0
  | 14 => f.dma.isSome
  | 15 => s.ringAvail (reqRing p)
  | 16 => !f.rwq.isEmpty
  | 17 => s.flag (SRV_STATUS_READ_OK p)
  | 18 => s.flag (SRV_STATUS_WRITE_OK p)
  | 19 => f.seekOk
  | 20 => f.waitTimeout
  | 21 => f.waitInt
  | 22 => f.poison
  | 23 => s.zonePending p
  | 24 => s.ctxFrame p
  | 25 => s.bit (FMT_CTX_FLAGS_F p) 0
  | 26 => s.bit (FMT_CTX_FLAGS_F p) 1
  | 31 => s.reqFlag p 7
  | _ => s.bit (FMT_CTX_FLAGS_INT p) (c - 27)

/-- Whether a WAIT's event is pending (Table 10.4). -/
def State.waitEvent (s : State) (p : Fin 8) (sel : Nat) : Bool :=
  let f := s.fmt[p]
  match sel with
  | 0 => f.wedgeLatch
  | 1 => f.frameLatch
  | 2 => !f.results.isEmpty
  | 3 => s.ringAvail (200 + p.val)
  | 4 => s.ringAvail (reqRing p)
  | 5 => f.dma.isNone
  | 6 => f.seekEnd
  | 7 => !s.ctxFrame p
  | 8 => !s.zonePending p
  | 9 => s.ringRoom (reqRing p + 1)
  | 10 => !f.rwq.isEmpty
  | _ => s.rd (FMT_CTX_TIMER_COUNT p) == 0

/-- Why a word stalls (R448 to R450, R456, R462, R465, R469): 0 not at all, 1 on a ring write, 2 on anything else. -/
def State.stalls (s : State) (p : Fin 8) (w : Nano) : Nat :=
  let f := s.fmt[p]
  let q := w.f 87 3
  let gate := w.f 120 3
  if (q = 2 ∧ s.ringRoom (reqRing p + 1) = false) ∨ (w.f 100 3 = 1 ∧ s.ringRoom (192 + p.val) = false) then 1
  else if (q = 1 ∧ s.ringAvail (reqRing p) = false) ∨ (q = 3 ∧ s.ringAvail (200 + p.val) = false)
      ∨ (q = 4 ∧ f.results.isEmpty = true) ∨ ((gate = 1 ∨ gate = 2) ∧ 2 ≤ f.gates.length)
      ∨ (w.f 104 1 = 1 ∧ f.dma.isSome = true) ∨ (w.f 94 2 ≠ 0 ∧ s.ctxFrame p = true) then 2
  else 0

/-- A context's stack set. -/
def State.setStack (s : State) (p : Fin 8) (l : List (Nat × Bool)) : State :=
  (s.modFmt p (fun f => { f with stack := l })).wr (FMT_CTX_STATUS_DEPTH p) l.length

/-- Stopping a context (R476): LOST_POST where its word was stalled on a ring write. An open write gate is cut by R331; how
many codeword bits were out by then is the channel's timing, so the count is a free value of 0 to all of them. -/
def State.ctxStop (s : State) (p : Fin 8) : State :=
  let lost := s.rd (FMT_CTX_STATUS_STATE p) == 3 && s.fmt[p].onRing
  let open' := s.fmt[p].gates.find? (fun g => g.isOpen && !g.write && g.code.isNone)
  let s := s.closeRead p
  let s := match open'.bind (fun g => g.llr) with
    | some j => s.portRelease p j
    | none => s
  let s := if s.ch[p].writing then
      let (v, s) := s.draw
      s.cutWrite p (v % (codeBits (s.flag (CH_AFE_CODE p)) + 1))
    else s.modCh p (fun c => { c with wgReq := false })
  let left := s.fmt[p].results ++ s.fmt[p].gates.filter (fun g => g.code.isSome)
  let s := left.foldl (fun s g =>
    match g.llr with
    | some j => if open'.any (fun o => o.llr == some j) then s else s.portRelease p j
    | none => s) s
  let s := s.modFmt p (fun f => { f with gates := [], results := [] })
  let s := if lost then s.up (FMT_CTX_STATUS_LOST_POST p) else s
  (s.wr (FMT_CTX_STATUS_STATE p) 0).up (FMT_CTX_EVENT_HALTED p)

/-- A hard fault (R475): its cause is recorded and the context stops. A ring write that was stalled is abandoned. -/
def State.hardFault (s : State) (p : Fin 8) (cause : Nat) : State :=
  ((s.wr (FMT_CTX_STATUS_HARD_CAUSE p) cause).up (FMT_CTX_EVENT_FAULT p)).ctxStop p

/-! ## The actions of a word, in the order of R440 -/

/-- Q (R447, R448, R456, R463, Table 10.7). -/
def State.actQ (s : State) (p : Fin 8) (w : Nano) : State :=
  match w.f 87 3 with
  | 1 =>
    match s.dequeue (reqRing p) with
    | (some e, s) =>
      if poisoned e then (s.inc (FMT_CTX_COUNT_POISON p)).modFmt p (fun f => { f with poison := true })
      else
        let b := sliceB (bits e) 0 32
        (s.wr (FMT_CTX_BUF_ADDR p) (fieldB b 28 4 / 64)).modFmt p (fun f =>
          { f with req := b, done := 0, failIdx := 0xFFFF, poison := false })
    | (none, s) => s
  | 2 =>
    let f := s.fmt[p]
    let bitsDone := match f.cur with
      | some g => g.bitsDone
      | none => 0
    let e := sliceB f.req 0 2 ++ leBytes 1 (w.f 83 4) ++ leBytes 1 (f.code.getD 0) ++ leBytes 2 f.done
      ++ leBytes 2 f.failIdx ++ leBytes 4 f.wgen ++ sliceB f.compl 3 1 ++ leBytes 1 f.pi ++ leBytes 2 (min bitsDone 0xFFFF)
    (s.enqueue (reqRing p + 1) e).2
  | 3 =>
    match s.dequeue (200 + p.val) with
    | (some e, s) =>
      if poisoned e then (s.inc (FMT_CTX_COUNT_POISON p)).modFmt p (fun f => { f with poison := true })
      else s.modFmt p (fun f => { f with compl := sliceB (bits e) 0 16, poison := false })
    | (none, s) => s
  | 4 => s.modFmt p (fun f => { f with cur := f.results.head?, results := f.results.drop 1 })
  | _ => s

/-- GATE (R450, R451, R454): a gate armed with the registers as Q left them, or armed gates cancelled. -/
def State.actGate (s : State) (p : Fin 8) (w : Nano) : State :=
  let g := w.f 120 3
  if g = 1 ∨ g = 2 then
    let sidx := s.rd (FMT_CTX_CNT1_SIDX p)
    let gate : Gate :=
      { write := g == 2, slot := s.rd (FMT_CTX_CNT1_SLOT p), frame := s.rd (FMT_CTX_CNT1_FRAME p), sidx := sidx,
        buf := s.rd (FMT_CTX_BUF_ADDR p) * 64, bypass := w.f 103 1 == 1 || !s.reqFlag p 2, raw := s.reqFlag p 5,
        band := s.req p 14 1 % 16, wlba := (s.req p 16 8 + sidx) % 2 ^ 64, wgen := s.req p 24 4, data := [],
        ready := false, bad := false, started := false, isOpen := false, llr := none, code := none, bitsDone := 0,
        skew := s.req p 12 2 % 512 }
    s.modFmt p (fun f => { f with gates := f.gates ++ [gate] })
  else if g = 3 then
    s.modFmt p (fun f => { f with gates := f.gates.map (fun g =>
      if g.started || g.code.isSome then g else { g with code := some 7 }) })
  else s

/-- IDU (R457, R462). A gate result without an LLR slot names none: the entry's SLOT is then a free value. -/
def State.actIdu (s : State) (p : Fin 8) (w : Nano) : State :=
  let f := s.fmt[p]
  match w.f 100 3 with
  | 1 =>
    let (v, s') := s.draw
    let (slot, s) := match f.cur.bind (fun g => g.llr) with
      | some j => (j, s)
      | none => (v % 64, s')
    let g (h : Gate → Nat) : Nat := match f.cur with
      | some c => h c
      | none => 0
    let sjd := s.reqFlag p 4
    let head := s.rd (SRV_STATUS_HEAD p)
    let e := leBytes 2 (g (fun c => c.sidx)) ++ leBytes 1 slot
      ++ leBytes 1 (b2n (s.flag (CH_AFE_CODE p)) + (if sjd then 6 else 0)) ++ leBytes 1 (s.rd (FMT_CTX_CFG_MAX_ITER p))
      ++ leBytes 1 0 ++ leBytes 1 (s.rd (CH_TARGET_T1 p)) ++ leBytes 1 (s.rd (CH_TARGET_T2 p))
      ++ leBytes 1 (s.rd (CH_TARGET_LLR_SCALE p)) ++ leBytes 1 (s.rd (FMT_NOISE_OF p head)) ++ zerosB 6
      ++ leBytes 4 (g (fun c => c.buf)) ++ leBytes 2 (g (fun c => c.frame % 4096 + 4096 * (c.slot % 16))) ++ zerosB 10
    (s.enqueue (192 + p.val) e).2
  | 2 => s.portRelease p (fieldB f.compl 2 1)
  | 3 =>
    match f.cur.bind (fun g => g.llr) with
    | some j => s.portRelease p j
    | none => s
  | _ => s

/-- DMA (R464, R465): the transfer is launched with the request as Q left it. -/
def State.actDma (s : State) (p : Fin 8) (w : Nano) : State :=
  if w.f 104 1 = 1 then
    let f := s.fmt[p]
    let bypass := w.f 103 1 == 1 || !s.reqFlag p 2
    let d : FmtDma :=
      { slot := fieldB f.compl 2 1, buf := fieldB f.compl 8 4 / 64 * 64, raw := s.reqFlag p 5, bypass := bypass,
        band := s.req p 14 1 % 16, wlba := (s.req p 16 8 + fieldB f.compl 0 2) % 2 ^ 64, mode := s.req p 3 1 % 4
        key := s.cip.slots[keyBand (s.req p 14 1)] }
    let s := if bypass || d.key.isNone then s else s.flight d.band (· + 1)
    s.modFmt p (fun f => { f with dma := some d })
  else s

/-- SEEK, CH, PA and EVT (R467 to R469). A seek that is refused ends at once. -/
def State.actOut (s : State) (p : Fin 8) (w : Nano) (imm : Nat) : State :=
  let s :=
    if w.f 90 2 = 1 then
      let s := s.wrI (SRV_TARGET_TARGET p) (256 * (s.req p 4 3 : Int))
      let head := s.req p 7 1 % 16
      if s.seekOk p head then s.srvSeek p head (s.rd (FMT_CTX_CFG_ACCEL p))
      else (s.srvSeek p head (s.rd (FMT_CTX_CFG_ACCEL p))).seekEnds p false
    else s
  let s := match w.f 92 2 with
    | 1 => s.zoneRequest p (s.rd (FMT_CTX_ZONE_ZONE p))
    | 2 => s.zoneRequest p (imm % 32)
    | _ => s
  let s := match w.f 94 2 with
    | 1 => s.queueFrame p 3 (s.rd (FMT_CTX_PA0_FRAME p))
    | 2 => s.queueFrame p 3 (s.rd (FMT_CTX_PA1_FRAME p))
    | _ => s
  if w.f 99 1 = 1 then s.setBit (FMT_CTX_EVENT_SW p) (w.f 96 3) else s

/-- The stride of BUF_ADDR (R442). -/
def State.stride (s : State) (p : Fin 8) : Nat := if s.reqFlag p 5 then 4160 else 4096

/-- The counter, flag, ACK and TIMER updates, reading their operands from the state `o` at the start of the word (R440 to
R442, R461). -/
def State.actCount (s o : State) (p : Fin 8) (w : Nano) (imm : Nat) : State :=
  let sc := o.rd (FMT_CTX_CNT0_SC p)
  let slot := o.rd (FMT_CTX_CNT1_SLOT p)
  let frame := o.rd (FMT_CTX_CNT1_FRAME p)
  let s := match w.f 115 3 with
    | 1 => s.wr (FMT_CTX_CNT0_SC p) (o.req p 10 2)
    | 2 => s.wr (FMT_CTX_CNT0_SC p) imm
    | 3 => s.wr (FMT_CTX_CNT0_SC p) (sc - 1)
    | _ => s
  let s := match w.f 108 2 with
    | 1 => s.wr (FMT_CTX_CNT0_LC p) imm
    | 2 => s.wr (FMT_CTX_CNT0_LC p) sc
    | _ => s
  let s := match w.f 105 2 with
    | 1 => s.wr (FMT_CTX_CNT1_SIDX p) 0
    | 2 => s.wr (FMT_CTX_CNT1_SIDX p) (o.rd (FMT_CTX_CNT1_SIDX p) + 1)
    | _ => s
  let s := if w.f 107 1 = 1 then s.wr (FMT_CTX_BUF_ADDR p) ((o.rd (FMT_CTX_BUF_ADDR p) * 64 + o.stride p) / 64) else s
  let s := match w.f 112 3 with
    | 1 => (s.wr (FMT_CTX_CNT1_SLOT p) (o.req p 8 2 / 4096)).wr (FMT_CTX_CNT1_FRAME p) (o.req p 8 2 % 512)
    | 2 =>
      if slot + 1 = o.zoneK p then
        (s.wr (FMT_CTX_CNT1_SLOT p) 0).wr (FMT_CTX_CNT1_FRAME p) ((frame + 1) % o.wedges p)
      else s.wr (FMT_CTX_CNT1_SLOT p) (slot + 1)
    | 3 => s.wr (FMT_CTX_CNT1_SLOT p) (imm % 16)
    | 4 =>
      match o.fmt[p].rwq with
      | r :: _ =>
        let s := (((s.wr (FMT_CTX_CNT1_SLOT p) r.slot).wr (FMT_CTX_CNT1_FRAME p) r.frame).wr
          (FMT_CTX_CNT1_SIDX p) r.sidx).wr (FMT_CTX_BUF_ADDR p) (r.buf / 64)
        let rs := s.fmt[p].rwq.drop 1
        (s.modFmt p (fun f => { f with rwq := rs })).wr (FMT_CTX_RWQ_LEN_ENTRIES p) rs.length
      | [] => s
    | _ => s
  let s := match w.f 110 2 with
    | 1 => s.wr (FMT_CTX_CNT1_FRAME p) ((frame + 1) % o.wedges p)
    | 2 => s.wr (FMT_CTX_CNT1_FRAME p) (imm % 512)
    | _ => s
  let s := s.modFmt p (fun f => { f with
    failIdx := if w.f 75 1 = 1 ∧ o.fmt[p].failIdx = 0xFFFF then fieldB o.fmt[p].compl 0 2 else f.failIdx
    done := if w.f 74 1 = 1 then (o.fmt[p].done + 1) % 65536 else f.done
    wedgeLatch := f.wedgeLatch && !(w.f 118 1 == 1)
    frameLatch := f.frameLatch && !(w.f 119 1 == 1) })
  let fl := o.rd (FMT_CTX_FLAGS_F p)
  let s := s.wr (FMT_CTX_FLAGS_F p) ((fl ||| w.f 81 2) &&& (3 - w.f 79 2))
  let s := if w.f 77 1 = 1 then (s.down (FMT_CTX_FLAGS_FAULT p)).wr (FMT_CTX_FLAGS_ASYNC_CAUSE p) 0 else s
  let s := if w.f 78 1 = 1 then s.wr (FMT_CTX_FLAGS_INT p) 0 else s
  if w.f 76 1 = 1 then s.wr (FMT_CTX_TIMER_COUNT p) (o.rd (FMT_CTX_TIMER_LOAD p)) else s

/-- All of a nanoword's actions (R440). -/
def State.actions (s : State) (p : Fin 8) (w : Nano) (imm : Nat) : State :=
  ((((((s.actQ p w).actGate p w).actIdu p w).actDma p w).actOut p w imm)).actCount s p w imm

/-- The context goes on at an address. -/
def State.goto (s : State) (p : Fin 8) (pc : Nat) : State :=
  (s.wr (FMT_CTX_STATUS_PC p) (pc % 8192)).wr (FMT_CTX_STATUS_STATE p) 1

/-- A push and a jump; on a full stack hard fault 4 (R438). -/
def State.pushGo (s : State) (p : Fin 8) (ret : Nat) (vec : Bool) (pc : Nat) : State :=
  (s.setStack p ((ret % 8192, vec) :: s.fmt[p].stack)).goto p pc

/-- The hard fault that a word takes before any of its actions, 0 for none (Table 10.10). -/
def State.wordFault (s : State) (p : Fin 8) (m : Micro) : Nat :=
  let depth := s.fmt[p].stack.length
  let f := s.flag (FMT_CTX_FLAGS_FAULT p)
  let int := s.rd (FMT_CTX_FLAGS_INT p) != 0
  let vec := s.fmt[p].stack.any (fun e => e.2)
  if 12 ≤ m.seq then 1
  else if m.nano.illegal then 9
  else if m.seq = 7 ∧ 11 < m.arg then 2
  else if m.seq = 5 ∧ 64 ≤ m.arg then 2
  else if (m.seq = 4 ∨ m.seq = 5 ∨ m.seq = 10) ∧ 4 ≤ depth then 4
  else if m.seq = 9 ∧ (f || int) ∧ vec = false ∧ s.flag (FMT_CTX_FLAGS_HALT_REQ p) = false ∧ 4 ≤ depth then 4
  else if m.seq = 6 ∧ depth = 0 then 5
  else 0

/-- Where the context goes after a word's actions, decided on the state `o` at the start of the word (R437, R438, R470,
R471, Table 10.2). -/
def State.sequence (s o : State) (p : Fin 8) (m : Micro) : State :=
  let pc := o.rd (FMT_CTX_STATUS_PC p)
  let page := pc / 1024 * 1024 + m.arg
  let c := o.cond p (m.nano.f 123 5)
  match m.seq with
  | 1 => s.goto p page
  | 2 => s.goto p (if c then page else pc + 1)
  | 3 => s.goto p (if c then pc + 1 else page)
  | 4 => s.pushGo p (pc + 1) false page
  | 5 => s.pushGo p (pc + 1) false (o.rd (FMT_ENTRY_ADDR (m.arg % 64)))
  | 6 =>
    match o.fmt[p].stack with
    | e :: es => (s.setStack p es).goto p e.1
    | [] => s
  | 7 => (s.modFmt p (fun f => { f with waitSel := m.arg })).wr (FMT_CTX_STATUS_STATE p) 2
  | 8 =>
    let lc := o.rd (FMT_CTX_CNT0_LC p)
    let s := if m.nano.f 108 2 = 0 then s.wr (FMT_CTX_CNT0_LC p) (lc - 1) else s
    s.goto p (if 1 < lc then page else pc + 1)
  | 9 =>
    let s := s.modFmt p (fun f => { f with since := 0 })
    if o.flag (FMT_CTX_FLAGS_HALT_REQ p) then (s.goto p (pc + 1)).ctxStop p
    else if o.fmt[p].stack.any (fun e => e.2) then s.goto p (pc + 1)
    else if o.flag (FMT_CTX_FLAGS_FAULT p) then s.pushGo p (pc + 1) true (o.rd (FMT_ENTRY_ADDR 0))
    else if o.rd (FMT_CTX_FLAGS_INT p) ≠ 0 then s.pushGo p (pc + 1) true (o.rd (FMT_ENTRY_ADDR 1))
    else s.goto p (pc + 1)
  | 10 => s.pushGo p (pc + 1) false (o.rd (FMT_ENTRY_ADDR (16 + o.req p 2 1 % 16)))
  | 11 => s.ctxStop p
  | _ => s.goto p (pc + 1)

/-- A fetched word tried: a hard fault, a stall, or its actions and its sequencing. -/
def State.tryWord (s : State) (p : Fin 8) (m : Micro) : State :=
  match s.wordFault p m with
  | 0 =>
    let why := s.stalls p m.nano
    if why = 0 then
      let imm := if m.seq = 0 ∨ m.seq = 9 then m.arg else 0
      (s.actions p m.nano imm).sequence s p m
    else (s.modFmt p (fun f => { f with onRing := why == 1 })).wr (FMT_CTX_STATUS_STATE p) 3
  | c => s.hardFault p c

/-- Whether a context would issue a word now, were it its turn: it is READY, or STALLED on a word that can complete
(R432). -/
def State.canIssue (s : State) (p : Fin 8) : Bool :=
  match s.rd (FMT_CTX_STATUS_STATE p) with
  | 1 => decide (s.fmt[p].since < 1024)
  | 3 =>
    match (s.fetchMicro (s.rd (FMT_CTX_STATUS_PC p))).1 with
    | some m => s.stalls p m.nano == 0
    | none => true
  | _ => false

/-- Whether the round robin has come to a context (R431): none that would issue lies between the one that issued last and
it. -/
def State.turn (s : State) (p : Fin 8) : Bool :=
  (List.range (p - s.fmtLast - 1 : Fin 8).val).all (fun k => !s.canIssue (s.fmtLast + 1 + Fin.ofNat 8 k))

/-- A READY context whose turn it is issues the microword at its PC, if its SEQ is `seq` (R431, R433, R473). A poisoned
fetch is hard fault 6. -/
def State.issue (s : State) (p : Fin 8) (seq : Nat → Bool) : State :=
  if s.runs 1 = true ∧ s.rd (FMT_CTX_STATUS_STATE p) = 1 ∧ s.fmt[p].since < 1024 ∧ s.turn p = true then
    match s.fetchMicro (s.rd (FMT_CTX_STATUS_PC p)) with
    | (none, s') => { s' with fmtLast := p }.hardFault p 6
    | (some m, s') =>
      if seq m.seq then ({ s' with fmtLast := p }.modFmt p (fun f => { f with since := f.since + 1 })).tryWord p m else s
  else s

end Sys2Proof.Machine
end

