-- ==== Sys2Proof/Machine/Formatter.lean ====
section
/-! DEFINITION. The commands of the Formatter Engine (chapter 10). -/

namespace Sys2Proof.Machine
open Sys2Proof

/-- The end of a WAIT (R436a): by its event, by its timeout, or by the fault flag, an INT bit or a HALT request. -/
def State.endWait (s : State) (p : Fin 8) (timeout : Bool) : State :=
  let ev := s.waitEvent p s.fmt[p].waitSel
  let int := s.flag (FMT_CTX_FLAGS_FAULT p) || s.flag (FMT_CTX_FLAGS_INT p) || s.flag (FMT_CTX_FLAGS_HALT_REQ p)
  let late := timeout && s.flag (FMT_CTX_WTO_UNITS p)
  if ev || int || late then
    (s.modFmt p (fun f => { f with waitTimeout := !ev && !int && late, waitInt := !ev && int })).goto p
      (s.rd (FMT_CTX_STATUS_PC p) + 1)
  else s

/-- MICRO_NEXT: a NEXT word, or a WAIT word, is issued; of a WAITING context the wait ends where it may, `timeout` saying
that FMT_CTX_WTO has run out. -/
def execMicroNext (p : Fin 8) (timeout : Bool) (s : State) : Host.Outcome State Fault Refusal :=
  fin (s.engine (fun s =>
    if s.rd (FMT_CTX_STATUS_STATE p) = 2 then s.endWait p timeout else s.issue p (fun q => q == 0 || q == 7)))

def execMicroJump (p : Fin 8) (s : State) : Host.Outcome State Fault Refusal := fin (s.issue p (· == 1))

def execMicroJcc (p : Fin 8) (s : State) : Host.Outcome State Fault Refusal := fin (s.issue p (· == 2))

def execMicroJnc (p : Fin 8) (s : State) : Host.Outcome State Fault Refusal := fin (s.issue p (· == 3))

def execMicroCall (p : Fin 8) (s : State) : Host.Outcome State Fault Refusal := fin (s.issue p (· == 4))

def execMicroCallv (p : Fin 8) (s : State) : Host.Outcome State Fault Refusal := fin (s.issue p (· == 5))

def execMicroRet (p : Fin 8) (s : State) : Host.Outcome State Fault Refusal := fin (s.issue p (· == 6))

def execMicroLoop (p : Fin 8) (s : State) : Host.Outcome State Fault Refusal := fin (s.issue p (· == 8))

def execMicroPoll (p : Fin 8) (s : State) : Host.Outcome State Fault Refusal := fin (s.issue p (· == 9))

def execMicroDispatch (p : Fin 8) (s : State) : Host.Outcome State Fault Refusal := fin (s.issue p (· == 10))

def execMicroHalt (p : Fin 8) (s : State) : Host.Outcome State Fault Refusal := fin (s.issue p (· == 11))

/-- ILLEGAL_SEQ: hard fault 1 (R475). -/
def execIllegalSeq (p : Fin 8) (s : State) : Host.Outcome State Fault Refusal := fin (s.issue p (fun q => decide (12 ≤ q)))

/-- STALLED_WORD_COMPLETE: a stalled word is issued again when its turn comes (R432, R448). -/
def State.retryWord (s : State) (p : Fin 8) : State :=
  if s.rd (FMT_CTX_STATUS_STATE p) = 3 ∧ s.turn p = true then
    match s.fetchMicro (s.rd (FMT_CTX_STATUS_PC p)) with
    | (none, s') => { s' with fmtLast := p }.hardFault p 6
    | (some m, s') => { s' with fmtLast := p }.tryWord p m
  else s

/-- STALLED_WORD_COMPLETE. -/
def execStalledWordComplete (p : Fin 8) (s : State) : Host.Outcome State Fault Refusal :=
  fin (s.engine (fun s => s.retryWord p))

/-- RING_STALL_TIMEOUT (R449): fault cause 2 and RING_OVF; the word goes on stalling. -/
def execRingStallTimeout (p : Fin 8) (s : State) : Host.Outcome State Fault Refusal :=
  fin (s.engine (fun s => if s.rd (FMT_CTX_STATUS_STATE p) = 3 ∧ s.fmt[p].onRing = true then (s.fmtFault p 2).up (FMT_CTX_EVENT_RING_OVF p) else s))

/-- CONTEXT_TIMER_EXPIRY (R445). -/
def execContextTimerExpiry (p : Fin 8) (s : State) : Host.Outcome State Fault Refusal :=
  fin (s.engine (fun s => s.wr (FMT_CTX_TIMER_COUNT p) 0))

/-- The first armed gate that has not started changed. -/
def mapArmed (f : Gate → Gate) : List Gate → List Gate
  | [] => []
  | g :: gs => if !g.started && g.code.isNone then f g :: gs else g :: mapArmed f gs

/-- The physical frame under the head: the one that follows the wedge passed last. -/
def State.frameNow (s : State) (p : Fin 8) : Nat := (s.srv[p].expected + s.wedges p - 1) % s.wedges p

/-- GATE_SLOT_START: the slot of the oldest armed gate comes under the head, in the frame that follows its target wedge
(R451); in any other frame that slot is not the gate's. `early` says that the slot starts less than ZSG cycles
after the close of a servo gate that began a zone load (R453 to R455). -/
def State.slotStart (s : State) (p : Fin 8) (early : Bool) : State :=
  match s.fmt[p].gates.find? (fun g => !g.started && g.code.isNone) with
  | none => s
  | some g =>
    if (g.frame + g.skew) % s.wedges p ≠ s.frameNow p then s
    else
    let ok := if g.write then s.flag (SRV_STATUS_WRITE_OK p) else s.flag (SRV_STATUS_READ_OK p)
    let fail : Option Nat :=
      if s.zoneK p ≤ g.slot then some 8
      else if ok = false ∨ s.loadPending p = true ∨ early = true then some 4
      else if g.write = true ∧ g.ready = false then some 5
      else if g.write = true ∧ g.bad = true then some 6
      else none
    let s := s.modFmt p (fun f => { f with gates := mapArmed (fun g => { g with started := true, code := fail }) f.gates })
    if g.write && fail.isNone then s.modCh p (fun c => { c with wgReq := true }) else s

/-- GATE_SLOT_START. -/
def execGateSlotStart (p : Fin 8) (early : Bool) (s : State) : Host.Outcome State Fault Refusal :=
  fin (s.engine (fun s => s.slotStart p early))

/-- The first write gate still waiting for its data changed. -/
def mapPrefetch (f : Gate → Gate) : List Gate → List Gate
  | [] => []
  | g :: gs => if g.write && !g.ready && g.code.isNone then f g :: gs else g :: mapPrefetch f gs

/-- WRITE_PREFETCH_DONE (R454, R764): the block is read, enciphered unless bypassed, and given its protection
information. -/
def State.prefetchDone (s : State) (p : Fin 8) : State :=
  match s.fmt[p].gates.find? (fun g => g.write && !g.ready && g.code.isNone) with
  | none => s
  | some g =>
    let (o, s) := s.dmaRead (6 + p.val) g.buf (if g.raw then 4112 else 4096)
    let d := o.data.take 4096
    let (d, s) := if g.bypass then (d, s) else s.mediaUnit true s.cip.slots[keyBand g.band] g.wlba d
    let tail := if g.raw then o.data.drop 4096 else clean (piBytes (bits d) g.wlba g.wgen)
    let bad := o.bad || poisoned d
    s.modFmt p (fun f => { f with gates := mapPrefetch (fun g => { g with data := d ++ tail, ready := true, bad := bad }) f.gates })

/-- WRITE_PREFETCH_DONE. -/
def execWritePrefetchDone (p : Fin 8) (s : State) : Host.Outcome State Fault Refusal :=
  fin (s.engine (fun s => s.prefetchDone p))

/-- GATE_END: the oldest ended gate places its result in the result queue of two (R456). -/
def State.gateEnd (s : State) (p : Fin 8) : State :=
  let f := s.fmt[p]
  match f.gates.find? (fun g => g.code.isSome) with
  | some g =>
    if f.results.length < 2 then
      let s := s.modFmt p (fun f => { f with gates := f.gates.erase g, results := f.results ++ [g] })
      if g.code = some 4 then s.inc (FMT_CTX_COUNT_SKIPPED p) else s
    else s
  | none => s

/-- GATE_END. -/
def execGateEnd (p : Fin 8) (s : State) : Host.Outcome State Fault Refusal := fin (s.engine (fun s => s.gateEnd p))

/-- FMT_DMA_DONE (R398, R464, R465, R764). -/
def State.dmaDone (s : State) (p : Fin 8) : State :=
  match s.fmt[p].dma with
  | none => s
  | some d =>
    let (block, s) := s.decBytes d.slot
    let pi := piCheck d.mode d.wlba block
    let data := clean (block.take 4096)
    let (data, s) := if d.bypass then (data, s) else s.mediaUnit false d.key d.wlba data
    let s := if d.bypass || d.key.isNone then s else s.flight d.band (· - 1)
    let out := if d.raw then data ++ clean (block.drop 4096) ++ clean (zerosB 48) else data
    let (o, s) := s.dmaWrite (6 + p.val) d.buf out
    let bad := poisoned data || o.blocked || o.error
    let s := if bad then s.fmtFault p 4 else s
    s.modFmt p (fun f => { f with dma := none, pi := if bad then 1 else pi, wgen := fieldB block 4104 4 })

/-- FMT_DMA_DONE. -/
def execFmtDmaDone (p : Fin 8) (s : State) : Host.Outcome State Fault Refusal := fin (s.engine (fun s => s.dmaDone p))

/-- SAFE_POINT_LIMIT (R473). -/
def execSafePointLimit (p : Fin 8) (s : State) : Host.Outcome State Fault Refusal :=
  fin (s.engine (fun s => if s.rd (FMT_CTX_STATUS_STATE p) ≠ 0 ∧ 1024 ≤ s.fmt[p].since then s.hardFault p 3 else s))

/-- FMT_START (R472, R477). -/
def State.fmtStart (s : State) (p : Fin 8) (clr : Bool) : State :=
  if s.rd (FMT_CTX_STATUS_STATE p) = 0 ∧ s.flag FMT_CTRL_STORE_VALID = true then
    let s := s.setStack p []
    let s := ((((s.down (FMT_CTX_FLAGS_FAULT p)).wr (FMT_CTX_FLAGS_ASYNC_CAUSE p) 0).wr (FMT_CTX_FLAGS_INT p) 0).down
      (FMT_CTX_FLAGS_HALT_REQ p)).wr (FMT_CTX_FLAGS_F p) 0
    let s := if clr then
        (s.modFmt p (fun f => { f with wlog := [], rwq := [] })).wr (FMT_CTX_RWQ_LEN_ENTRIES p) 0
      else s
    (s.modFmt p (fun f => { f with since := 0, waitTimeout := false, waitInt := false })).goto p (s.rd (FMT_CTX_PC_START_PC p))
  else s.up (FMT_CTX_EVENT_CMD_REFUSED p)

/-- FMT_START. -/
def execFmtStart (p : Fin 8) (clr : Bool) (s : State) : Host.Outcome State Fault Refusal :=
  fin (s.regCmd (FMT_CTX_CMD_WORD p) (fun s => s.fmtStart p clr))

/-- FMT_HALT: the context stops at its next POLL (R470). -/
def execFmtHalt (p : Fin 8) (s : State) : Host.Outcome State Fault Refusal :=
  fin (s.regCmd (FMT_CTX_CMD_WORD p) (fun s => s.up (FMT_CTX_FLAGS_HALT_REQ p)))

/-- FMT_STOP: hard fault 7 at once (R476); a halted context has nothing to stop. -/
def execFmtStop (p : Fin 8) (s : State) : Host.Outcome State Fault Refusal :=
  fin (s.regCmd (FMT_CTX_CMD_WORD p) (fun s => if s.rd (FMT_CTX_STATUS_STATE p) = 0 then s
    else s.hardFault p 7))

/-- FMT_FAULT: the fault flag with cause 1 (R470). -/
def execFmtFault (p : Fin 8) (s : State) : Host.Outcome State Fault Refusal :=
  fin (s.regCmd (FMT_CTX_CMD_WORD p) (fun s => s.fmtFault p 1))

/-- NANOWORD_COMMIT: the word at +0xC takes effect with the staged words of its nanoword (R435, R479); a word of it that was not
staged is not written (R706). -/
def State.nanoCommit (s : State) (i : Fin 1024) (w3 : Word) : State :=
  let a := 0x30084000 + 16 * i.val
  let put (s : State) (e : Nat × Word) : State := s.store e.1 (leBytes 4 e.2.toNat)
  let mine := s.nanoStage.filter (fun e => decide (a ≤ e.1 ∧ e.1 < a + 12))
  let s := { s with nanoStage := s.nanoStage.filter (fun e => !decide (a ≤ e.1 ∧ e.1 < a + 16)) }
  if i.val = 0 then s else (mine ++ [(a + 12, w3)]).foldl put s

/-- NANOWORD_COMMIT. -/
def execNanowordCommit (i : Fin 1024) (w3 : Word) (s : State) : Host.Outcome State Fault Refusal :=
  fin (s.regCmd { addr := 0x3008400C + 16 * i.val, lo := 0, w := 32 } (fun s => s.nanoCommit i w3))

end Sys2Proof.Machine
end

