-- ==== Sys2Proof/Machine/HostQueue.lean ====
section
/-! DEFINITION. The meanings of chapter 18: the host command queue. -/

namespace Sys2Proof.Machine
open Sys2Proof

/-- HQE_DOORBELL (R787, R788). -/
def execHqeDoorbell (usb : Bool) (tag : Fin 32) (s : State) : Host.Outcome State Fault Refusal :=
  fin (s.engine (fun s => (s.hqDoorbell usb (s.sbTag tag && !usb) tag).2))

/-- The HQE takes the descriptor at the head of ring 7; a poisoned one is discarded and raises HQE_POISON (log entry
13). -/
def State.transferDescriptor (s : State) : State :=
  if (s.ring 7).consumer = 3 then
    match s.dequeue 7 with
    | (none, s) => s
    | (some e, s) => (if poisoned e then s.setBit HQE_EVENT_EV 5 else s.takeDesc (bits e)).hqDone
  else s

/-- TRANSFER_DESCRIPTOR (R797). -/
def execTransferDescriptor (s : State) : Host.Outcome State Fault Refusal := fin (s.engine State.transferDescriptor)

/-- TRANSFER_DONE (R799, R823). -/
def execTransferDone (usb : Bool) (s : State) : Host.Outcome State Fault Refusal :=
  fin (s.engine (fun s => s.transferDone (trOf usb)))

/-- FAST_PATH_DONE (R818). -/
def execFastPathDone (usb : Bool) (s : State) : Host.Outcome State Fault Refusal :=
  fin (s.engine (fun s => s.fastDone (trOf usb)))

/-- A completion from firmware (R800, R814): its tag must be FIRMWARE, known to firmware and of its generation. -/
def State.fwCompletion (s : State) (d : List Byte) : State :=
  let t := tagOf (fieldB d 4 1)
  let x := s.hq.tags[t]
  if s.tagState t ≠ 3 ∨ x.unposted = true ∨ x.fwDone = true ∨ s.tagGen t ≠ fieldB d 15 1 / 32 then s.hqError 4 t.val
  else
    let s := s.modTag t (fun x => { x with fwDone := true })
    let e := sliceB d 0 15 ++ zerosB 1
    if fieldB x.slot 0 1 = 4 ∧ fieldB d 8 1 ≠ 3 then
      (s.modTag t (fun x => { x with entry := some e })).modHq (fun h => { h with holds := h.holds ++ [t.val] })
    else s.complete t e

/-- The HQE takes the completion at the head of ring 1. -/
def State.firmwareCompletion (s : State) : State :=
  if (s.ring 1).consumer = 3 then
    match s.dequeue 1 with
    | (none, s) => s
    | (some e, s) => (if poisoned e then s.setBit HQE_EVENT_EV 5 else s.fwCompletion (bits e)).hqDone
  else s

/-- FIRMWARE_COMPLETION (R800). -/
def execFirmwareCompletion (s : State) : Host.Outcome State Fault Refusal := fin (s.engine State.firmwareCompletion)

/-- POSTING_RELEASE (R802). -/
def execPostingRelease (usb : Bool) (s : State) : Host.Outcome State Fault Refusal :=
  fin (s.engine (fun s => (s.postWaiting (trOf usb)).hqDone))

/-- MAP_SYNC (R821): the Hit Fast Path transfers under way are those to wait for. -/
def execMapSync (s : State) : Host.Outcome State Fault Refusal :=
  fin (s.regCmd HQE_MAP_SYNC_WORD (fun s => (s.modHq (fun h => { h with sync := h.live })).up HQE_STATUS_SYNC_BUSY))

/-- MAP_SYNC_DONE (R821). -/
def execMapSyncDone (s : State) : Host.Outcome State Fault Refusal :=
  fin (s.engine (fun s => if s.hq.sync.isEmpty then s.down HQE_STATUS_SYNC_BUSY else s))

/-- A write to HQE_TAG_SPLIT (R785, R14). -/
def State.splitWrite (s : State) (v : Word) : State :=
  if allTags.any (fun t => s.tagState t != 0) then s.hqError 5 0
  else if 32 < getF v 0 6 then s
  else s.wr HQE_TAG_SPLIT_SPLIT (getF v 0 6)

/-- TAG_SPLIT_WRITE. -/
def execTagSplitWrite (v : Word) (s : State) : Host.Outcome State Fault Refusal :=
  fin (s.regCmd HQE_TAG_SPLIT_WORD (fun s => s.splitWrite v))

end Sys2Proof.Machine
end

