-- ==== Sys2Proof/Machine/Idu.lean ====
section
/-! DEFINITION. The IDU Pool (chapter 8): slots, jobs, dispatch, the iteration governor, fencing and tests. -/

namespace Sys2Proof.Machine
open Sys2Proof

/-- SLOT_ALLOC_READ (R358): the number, or 0xFF, is what IDU_SLOT_ALLOC shows. -/
def State.fwAlloc (s : State) : State :=
  match s.lowestFree with
  | some j => (s.giveSlot j 9).wr IDU_SLOT_ALLOC_SLOT j
  | none => s.wr IDU_SLOT_ALLOC_SLOT 0xFF

def execSlotAllocRead (s : State) : Host.Outcome State Fault Refusal :=
  fin (s.regAsk IDU_SLOT_ALLOC_WORD (fun s => s.fwAlloc))

/-- A job entry taken from ring 192 + n, or 208 (R360, R361, R389). -/
def State.acceptJob (s : State) (n : Fin 9) : State :=
  let ring := if n.val = 8 then 208 else 192 + n.val
  match s.dequeue ring with
  | (none, s) => s
  | (some e, s) =>
    if poisoned e then ((s.inc IDU_COUNT_POISON).wr IDU_POISON_RING_RING ring).setBit IDU_EVENT_EV 4
    else
      let b := bits e
      let j := jobOf ring b
      let bad := !s.jobSlotOk ring j.slot || jobReserved b
        || (j.mirror && (!s.jobSlotOk ring j.slot2 || j.slot == j.slot2)) || (j.usePrior && j.mirror)
      if bad then s.completeJob j 4 0 0 0
      else
        let j := { j with held1 := s.rd (IDU_SLOT_STATE j.slot) == 6
                          held2 := j.mirror && s.rd (IDU_SLOT_STATE j.slot2) == 6 }
        let s := j.slots.foldl (fun s x => (s.setSlot x.1 3).wr (IDU_SLOT_JOB_ID x.1) j.id) s
        let s := s.modSlot (slotOf j.slot) (fun x => { x with params := some (j.code, j.p1) })
        let s := if j.mirror then s.modSlot (slotOf j.slot2) (fun x => { x with params := some (j.code, j.p2) }) else s
        s.modIdu (fun u => { u with accepted := u.accepted ++ [j] })

/-- IDU_JOB_ACCEPT. -/
def execIduJobAccept (n : Fin 9) (s : State) : Host.Outcome State Fault Refusal := fin (s.when (s.runs 10) (fun s => s.acceptJob n))

/-- The byte of an IDU's internal memory that a job's start writes first and its end reads (Table 16.2, ID 7): the one that an armed
injection strikes (R731). -/
def iduLoc (i : Fin 6) : Nat := i.val * 2 ^ 24

/-- A job started on an IDU with its limit (R361, R369 to R371): min(F, eff_b) requested at the first dispatch and F at the
re-dispatch, while a re-issue keeps both the request and the limit (R375). -/
def State.startJob (s : State) (i : Fin 6) (j : Job) : State :=
  let c := s.iterCeiling
  let f := s.jobF j
  let req := if j.again then j.req else if j.redone then f else min f (s.rd IDU_GOV_STATUS_EFF_B)
  let lim := if j.again then j.limit else min req c
  let s := if c < req then s.inc GOV_CLIP_ITER_COUNT else s
  let s := j.slots.foldl (fun s x => s.setSlot x.1 4) s
  (s.modIdu (fun u => { u with
    running := u.running.set i (some { j with limit := lim, idu := i.val, req := req, again := false }) })).writeEcc 7 (iduLoc i) false

/-- IDU_DISPATCH to IDU `i` (R366); with every IDU fenced the job completes NO_IDU (R379). -/
def State.dispatch (s : State) (i : Fin 6) : State :=
  let s := s.poolEmpty
  if s.allFenced then
    match s.nextJob with
    | (some j, s) => (s.endSlots j).completeJob j 3 0 0 0
    | (none, s) => s
  else if s.fenced i || s.idu.running[i].isSome || s.idu.kat[i] != 0 || s.idu.katDue.getLsbD i.val
      || s.idu.katLate.getLsbD i.val then s
  else
    match s.nextJob with
    | (some j, s) => s.startJob i j
    | (none, s) => s

/-- IDU_DISPATCH. -/
def execIduDispatch (i : Fin 6) (s : State) : Host.Outcome State Fault Refusal :=
  fin (s.when (s.runs 10) (fun s => s.dispatch i))

/-- The decoder's outcome on a job run for up to `limit` iterations (R350, R362), with the errors that its reads of IN
and PRIOR meet noted. -/
def State.runDecoder (s : State) (j : Job) (limit : Nat) : DecEnd × State :=
  let prior := if j.usePrior then s.readMsgs j.slot 1 else []
  let ins := (detPar j.p1, s.readIn j.slot) :: (if j.mirror then [(detPar j.p2, s.readIn j.slot2)] else [])
  let n := (codeBits j.code * 5 + 7) / 8
  let s := j.slots.foldl (fun s e => s.llrNote e.1 0 n) s
  (runJob j.code (s.rd IDU_DEC_OFFSET) limit prior ins, if j.usePrior then s.llrNote j.slot 1 65536 else s)

/-- The first slot of a job with an uncorrectable error in the part of IN that its code reads (R387). -/
def State.lostIn (s : State) (j : Job) : Option Nat :=
  (j.slots.find? (fun e => (s.llrBad e.1 0).any (fun b => decide (b * 8 < codeBits j.code * 5)))).map Prod.fst

/-- A slot LOST: its state, the event, and the end of every job that names it, without a fence (R387). -/
def State.loseSlot (s : State) (j : Nat) : State :=
  let s := (s.setSlot j 7).setBit IDU_EVENT_EV 2
  let mine (x : Job) : Bool := x.slots.any (fun e => e.1 == j)
  let u := s.idu
  let jobs := (u.accepted ++ u.reissue ++ u.redisp ++ u.running.toList.filterMap id).filter mine
  let s := s.modIdu (fun u => { u with
    accepted := u.accepted.filter (fun x => !mine x), reissue := u.reissue.filter (fun x => !mine x)
    redisp := u.redisp.filter (fun x => !mine x)
    running := u.running.map (fun r => if r.any mine then none else r) })
  let s := (List.finRange 6).foldl (fun s i => s.katFree i) s
  jobs.foldl (fun s x => x.released.foldl (fun s k => if k = j then s else s.freeSlot k)
    ((s.endSlots x).completeJob x 2 0 0 0)) s

/-- IDU_JOB_END: the job on an IDU decodes to its end by R350 to R353. An uncorrectable error in IN makes its slot LOST
(R387), one in PRIOR makes the message 0, and one in DEC makes the status SLOT_LOST (R388). One in the IDU's own memory
fences it (R372). -/
def State.jobEnd (s : State) (i : Fin 6) : State :=
  match s.idu.running[i] with
  | none => s
  | some j =>
    if j.withdrawn then s
    else if eccClass (s.eccOf 7 (iduLoc i)) == .uncorr then (s.eccNote 7 (iduLoc i) (s.eccOf 7 (iduLoc i))).fence i 2
    else
      let s := s.eccNote 7 (iduLoc i) (s.eccOf 7 (iduLoc i))
      let dec := !(s.llrBad j.slot 3).isEmpty
      let lost := s.lostIn j
      let (d, s) := s.runDecoder j j.limit
      match lost with
      | some k => s.loseSlot k
      | none =>
        if dec then
          ((((s.llrNote j.slot 3 65536).idle i).putResult j d).endSlots j).completeJob j 2 d.iters d.unsat 0
        else s.jobEnded i j d

/-- IDU_JOB_END. -/
def execIduJobEnd (i : Fin 6) (s : State) : Host.Outcome State Fault Refusal :=
  fin (s.when (s.runs 10) (fun s => s.jobEnd i))

/-- COMPL_OVERFLOW: a completion has been held for 4096 CHAN cycles (R390). -/
def execComplOverflow (s : State) : Host.Outcome State Fault Refusal :=
  fin (if s.idu.held.isEmpty || !s.runs 10 then s else s.setBit IDU_EVENT_EV 5)

/-- The held completions tried again in order; one whose ring still refuses stays, with those behind it of its ring. -/
def retryHeld : List (Nat × List Byte) → List Nat → State → List (Nat × List Byte) × State
  | [], _, s => ([], s)
  | e :: es, full, s =>
    if full.contains e.1 then
      let (r, s) := retryHeld es full s
      (e :: r, s)
    else
      match (s.takenWake e.1).enqueue e.1 e.2 with
      | (.ok, s) => retryHeld es full s
      | (_, s) =>
        let (r, s) := retryHeld es (e.1 :: full) s
        (e :: r, s)

/-- COMPLETION_RETRY (R390). -/
def execCompletionRetry (s : State) : Host.Outcome State Fault Refusal :=
  fin (s.when (s.runs 10) (fun s =>
    let (h, s) := retryHeld s.idu.held [] s
    s.modIdu (fun u => { u with held := h })))

/-- IDU_SLOT_RELEASE by firmware (R364, R365). -/
def execIduSlotRelease (slot : Fin 64) (s : State) : Host.Outcome State Fault Refusal :=
  fin (s.regCmd IDU_SLOT_RELEASE_WORD (fun s => s.releaseSlot slot.val))

/-- JOB_WITHDRAWN (R365): the withdrawn job of a slot stops, completes RELEASED, and its released slots become FREE. One
that an IDU runs stops at the end of its present global iteration, the `iters`-th, of which the spec does not say which it
is. An uncorrectable error that it has met in IN makes its slot LOST first, and a LOST slot that is released becomes
FREE (R387). -/
def State.jobWithdrawn (s : State) (slot : Fin 48) (iters : Nat) : State :=
  let mine (j : Job) : Bool := j.released.contains slot.val
  let u := s.idu
  let finish (s : State) (j : Job) (it unsat : Nat) : State :=
    j.released.foldl (fun s k => s.freeSlot k) ((s.endSlots j).completeJob j 5 it unsat 0)
  match (List.finRange 6).find? (fun i => u.running[i].any mine) with
  | some i =>
    match u.running[i] with
    | some j =>
      let lost := s.lostIn j
      let (d, s) := s.runDecoder j (max 1 (min iters j.limit))
      match lost with
      | some k => j.released.foldl (fun s k => s.freeSlot k) (s.loseSlot k)
      | none => finish ((s.idle i).putResult j d) j d.iters d.unsat
    | none => s
  | none =>
    match (u.accepted ++ u.reissue ++ u.redisp).find? mine with
    | none => s
    | some j =>
      finish (s.modIdu (fun u => { u with
        accepted := u.accepted.filter (fun x => !mine x), reissue := u.reissue.filter (fun x => !mine x)
        redisp := u.redisp.filter (fun x => !mine x) })) j 0 0

/-- JOB_WITHDRAWN. -/
def execJobWithdrawn (slot : Fin 48) (iters : Fin 16) (s : State) : Host.Outcome State Fault Refusal :=
  fin (s.when (s.runs 10) (fun s => s.jobWithdrawn slot iters.val))

/-- IDU_GOV_UPDATE: one update of the iteration governor (R367, R368). -/
def State.iduGov (s : State) : State :=
  let b : Int := s.rd IDU_GOV_STATUS_B
  let q := s.idu.accepted.length + s.idu.reissue.length + s.idu.redisp.length
  let want : Int :=
    if s.rd IDU_GOV_HI_Q < q then b - 1
    else if q ≤ s.rd IDU_GOV_LO_Q ∧ s.idu.starved = true then b + 1
    else b
  let lo : Int := s.rd IDU_ITER_ITER_MIN
  let hi : Int := max lo (s.rd IDU_ITER_ITER_MAX)
  let pin := s.flag IDU_ITER_PIN_EN
  let sat := !pin && decide (want < lo ∨ hi < want)
  let b' := clampInt lo hi want
  let eff : Nat := if pin then max 1 (s.rd IDU_ITER_PIN_ITER) else b'.toNat
  let (t, raise) := s.idu.sat.update sat (s.rd IDU_ITER_DWELL)
  let s := ((s.wr IDU_GOV_STATUS_B b'.toNat).wr IDU_GOV_STATUS_EFF_B eff).put IDU_GOV_STATUS_SATURATED sat
  let s := s.modIdu (fun u => { u with sat := t, starved := false })
  if raise then (s.setBit IDU_EVENT_EV 3).up SYS_LOOP_SAT_IDU_ITER else s

/-- IDU_GOV_UPDATE. -/
def execIduGovUpdate (s : State) : Host.Outcome State Fault Refusal :=
  fin (s.when (s.runs 10) State.iduGov)

/-- JOB_TIMEOUT: a job has run beyond JOB_TIMEOUT (R372). -/
def execJobTimeout (i : Fin 6) (s : State) : Host.Outcome State Fault Refusal :=
  fin (if s.idu.running[i].isSome && s.runs 10 then s.fence i 1 else s)

/-- IDU_MEMORY_ERROR at a byte of an IDU's internal memory (R372): counted and captured as Table 16.2 lays out. -/
def execIduMemoryError (i : Fin 6) (byte : Fin 65536) (s : State) : Host.Outcome State Fault Refusal :=
  fin (s.when (s.runs 10) (fun s => (s.eccNote 7 (i.val * 2 ^ 24 + byte.val) 3).fence i 2))

/-- IDU_FENCE by firmware, with cause 3 (R375). -/
def execIduFence (i : Fin 6) (s : State) : Host.Outcome State Fault Refusal :=
  fin (s.regCmd IDU_CMD_WORD (fun s => s.fence i 3))

/-- A known-answer test asked for on an IDU. It starts where the IDU is free, and else is due when it becomes free. -/
def State.askKat (s : State) (i : Fin 6) (kind : Nat) : State :=
  if s.idu.kat[i] != 0 then s
  else if s.idu.running[i].isSome then s.modIdu (fun u => { u with katDue := u.katDue ||| (1#6 <<< i.val) })
  else s.modIdu (fun u => { u with kat := u.kat.set i kind, katDue := u.katDue &&& ~~~(1#6 <<< i.val) })

/-- IDU_UNFENCE starts the test of a fenced IDU (R377). -/
def execIduUnfence (i : Fin 6) (s : State) : Host.Outcome State Fault Refusal :=
  fin (s.regCmd IDU_CMD_WORD (fun s => if s.fenced i then s.askKat i 2 else s))

/-- IDU_RUN_KAT (R373). -/
def execIduRunKat (i : Fin 6) (s : State) : Host.Outcome State Fault Refusal :=
  fin (s.regCmd IDU_CMD_WORD (fun s => s.askKat i 1))

/-- The periodic test of the IDU whose turn it is asked for (R373, R374). -/
def State.katTake (s : State) : State :=
  match s.idu.katTurn with
  | i :: _ => s.askKat i 1
  | [] => s

/-- KAT_PERIOD: with PERIOD non-zero the test runs on each IDU in turn, fenced ones too (R373). IDUs that an earlier period
left to test come first. -/
def execKatPeriod (s : State) : Host.Outcome State Fault Refusal :=
  fin (s.when (s.runs 10 && s.rd IDU_KAT_PERIOD != 0) (fun s =>
    (s.modIdu (fun u => { u with
      katTurn := u.katTurn ++ (List.finRange 6).filter (fun i => !u.katTurn.contains i) })).katTake))

/-- KAT_WAIT_TIMEOUT: an IDU whose test is due gets no new job until the test has run (R374). -/
def execKatWaitTimeout (i : Fin 6) (s : State) : Host.Outcome State Fault Refusal :=
  fin (s.when (s.runs 10 && s.idu.katDue.getLsbD i.val) (fun s =>
    s.modIdu (fun u => { u with katLate := u.katLate ||| (1#6 <<< i.val) })))

/-- KAT_DONE with its result (R372, R373, R377, R378), and the periodic test's turn passes on. -/
def State.katDone (s : State) (i : Fin 6) (pass : Bool) : State :=
  let kind := s.idu.kat[i]
  if kind = 0 then s
  else
    let s := s.modIdu (fun u => { u with
      kat := u.kat.set i 0, katDue := u.katDue &&& ~~~(1#6 <<< i.val), katLate := u.katLate &&& ~~~(1#6 <<< i.val)
      katTurn := u.katTurn.filter (fun k => k != i)
      katPass := if pass then u.katPass ||| (1#6 <<< i.val) else u.katPass &&& ~~~(1#6 <<< i.val) })
    let s :=
      if pass then
        if kind = 2 then
          let c := s.rd IDU_FENCE_CAUSE
          let s := (s.clrBit IDU_FENCE_FENCED i.val).wr IDU_FENCE_CAUSE (c - bitsOf c (3 * i.val) 3 * 2 ^ (3 * i.val))
          (s.put IDU_FENCE_POOL_DEGRADED (s.flag IDU_FENCE_FENCED)).poolEmpty
        else s
      else s.fence i 3
    s.katTake

/-- KAT_DONE. -/
def execKatDone (i : Fin 6) (pass : Bool) (s : State) : Host.Outcome State Fault Refusal :=
  fin (s.when (s.runs 10) (fun s => s.katDone i pass))

/-- SLOT_LOST: an uncorrectable error found at a byte of a slot's IN area (R387). -/
def State.slotLost (s : State) (slot : Fin 48) (byte : Fin 65536) : State :=
  if s.rd (IDU_SLOT_STATE slot) = 0 then s else (s.eccNote 6 (llrLoc slot 0 byte.val) 3).loseSlot slot.val

/-- SLOT_LOST. -/
def execSlotLost (slot : Fin 48) (byte : Fin 65536) (s : State) : Host.Outcome State Fault Refusal :=
  fin (s.when (s.runs 10) (fun s => s.slotLost slot byte))

/-- LLR_WIN_ADDR.INDEX moved on by one. A value beyond the area is reserved, so that INDEX stays at an area's last value
(R14; log entry 25). -/
def State.winNext (s : State) : State :=
  if s.rd LLR_WIN_ADDR_INDEX + 1 < areaSize (s.rd LLR_WIN_ADDR_AREA) then
    s.wr LLR_WIN_ADDR_INDEX (s.rd LLR_WIN_ADDR_INDEX + 1)
  else s

/-- LLR_WINDOW_WRITE (R391). -/
def State.llrWrite (s : State) (v : Word) : State :=
  let j := s.rd LLR_WIN_ADDR_SLOT
  let st := s.rd (IDU_SLOT_STATE j)
  if j < 48 ∧ (st = 2 ∨ st = 6) ∧ s.rd (IDU_SLOT_OWNER j) = 9 then
    (s.putValue j (s.rd LLR_WIN_ADDR_AREA) (s.rd LLR_WIN_ADDR_INDEX) v.toInt).winNext
  else s

/-- LLR_WINDOW_WRITE. -/
def execLlrWindowWrite (v : Word) (s : State) : Host.Outcome State Fault Refusal :=
  fin (s.regCmd LLR_WIN_DATA_WORD (fun s => s.llrWrite v))

/-- LLR_WINDOW_READ: LLR_WIN_DATA shows the value read, 0 where an uncorrectable error touches it, and INDEX moves on (R388,
R391). In IN such an error makes the slot LOST (R387), and the value shown is a free value (log entry 3). -/
def State.llrRead (s : State) : State :=
  let j := s.rd LLR_WIN_ADDR_SLOT
  let a := s.rd LLR_WIN_ADDR_AREA
  let i := s.rd LLR_WIN_ADDR_INDEX
  if j < 48 then
    let v := llrValue (s.llrOff j a) (s.llrBad j a) a i (s.idu.slots[slotOf j].value a i)
    let s := ((s.llrOff j a).filter (fun e => hitBy [e.1] a i)).foldl (fun s e => s.eccNote 6 (llrLoc j a e.1) e.2) s
    if a = 0 ∧ hitBy (s.llrBad j a) a i = true ∧ s.rd (IDU_SLOT_STATE j) ≠ 0 then
      let (x, s) := s.draw
      ((s.loseSlot j).wrI LLR_WIN_DATA_VALUE ((x % 31 : Nat) - 15 : Int)).winNext
    else (s.wrI LLR_WIN_DATA_VALUE v).winNext
  else (s.wrI LLR_WIN_DATA_VALUE 0).winNext

/-- LLR_WINDOW_READ. -/
def execLlrWindowRead (s : State) : Host.Outcome State Fault Refusal :=
  fin (s.regAsk LLR_WIN_DATA_WORD (fun s => s.llrRead))

end Sys2Proof.Machine
end

