-- ==== Sys2Proof/Machine/LineCache.lean ====
section
/-! DEFINITION. The meanings of chapter 15: reads, writes, fills and drains of the Line Cache, and its maintenance
operations. -/

namespace Sys2Proof.Machine
open Sys2Proof

/-- Whether an address lies in the Buffer DRAM, in either view. -/
def inDram (a : Nat) : Bool := regionAt a == .dram || regionAt a == .uncachedWin

/-- A read of up to one line by a master (R663 to R665, R678, R695): a hit is delivered, a miss leaves a fill in
flight. -/
def State.lcRead (s : State) (req : Nat) (instr hint : Bool) (a n : Nat) : State :=
  if inDram a then
    let n := min n (64 - a % 64)
    match s.gate req false a false with
    | (.error, s) => { s with bus := { data := clean (zerosB n), error := true } }
    | (.blocked, s) => { s with bus := { data := clean (zerosB n), blocked := true } }
    | (.pass, s) =>
      match s.beginRead req instr (regionAt a == .uncachedWin) hint (dramOff a / 64) a n with
      | (.inl d, s) => { s with bus := { data := (d.drop (a % 64)).take n } }
      | (.inr _, s) => s
  else s

/-- LC_READ. -/
def execLcRead (req : Fin 17) (instr hint : Bool) (a : Word) (n : Fin 65) (s : State) :
    Host.Outcome State Fault Refusal :=
  fin (s.engine (fun s => s.lcRead req.val instr hint a.toNat n.val))

/-- A write by a master through either view (R666, R668, R669). -/
def State.lcWrite (s : State) (req : Nat) (hint : Bool) (a : Nat) (d : List Byte) : State :=
  if inDram a && d != [] then
    let (o, s) := s.masterWrite req false hint a (clean d)
    { s with bus := o }
  else s

/-- LC_WRITE. -/
def execLcWrite (req : Fin 17) (hint : Bool) (a : Word) (d : List Byte) (s : State) :
    Host.Outcome State Fault Refusal :=
  fin (s.engine (fun s => s.lcWrite req.val hint a.toNat d))

/-- A fill returns (R696, R702): its line is written into its way and the bytes asked for are delivered, to the reads
that joined it too (R703). -/
def State.lcFillDone (s : State) (k : Nat) : State :=
  match s.lc.fills[k]? with
  | none => s
  | some f =>
    let (d, s) := ({ s with lc := { s.lc with fills := s.lc.fills.eraseIdx k } }).endFill f
    { s with bus := {
        data := (d.drop (f.addr % 64)).take f.len
        joined := f.more.map (fun r => (r.1, (d.drop (r.2.1 % 64)).take r.2.2)) } }

/-- What moves between the cache and the Buffer DRAM: nothing while PD_CORE or PD_MEM is held stopped (R48). -/
def State.memPath (s : State) (g : State → State) : State := s.when (s.runs 1 && s.runs 11) g

/-- LC_FILL_DONE. -/
def execLcFillDone (k : Nat) (s : State) : Host.Outcome State Fault Refusal := fin (s.memPath (fun s => s.lcFillDone k))

/-- An entry of the WCB starts to drain (R670, R671): its write goes to the memory path, unless an older entry of its line or
an older one that is draining has still to go first. -/
def State.wcbDrain (s : State) (k : Nat) : State :=
  let s := { s with lc := { s.lc with wcb := s.lc.wcb.modify k (fun e => { e with draining := true }) } }
  match s.lc.wcb[k]? with
  | none => s
  | some e =>
    if e.sent || (s.lc.wcb.take k).any (fun o => !o.sent && (o.line == e.line || o.draining)) then s
    else
      let s := s.drainWrite e
      { s with lc := { s.lc with wcb := s.lc.wcb.modify k (fun e => { e with sent := true }) } }

/-- WCB_DRAIN. -/
def execWcbDrain (k : Fin 16) (s : State) : Host.Outcome State Fault Refusal := fin (s.memPath (fun s => s.wcbDrain k.val))

/-- The memory path has accepted a drained write, and its entry is free (R672). -/
def State.wcbDone (s : State) (k : Nat) : State :=
  match s.lc.wcb[k]? with
  | none => s
  | some e => if e.sent then { s with lc := { s.lc with wcb := s.lc.wcb.eraseIdx k } } else s

/-- WCB_DRAIN_DONE. -/
def execWcbDrainDone (k : Fin 16) (s : State) : Host.Outcome State Fault Refusal :=
  fin (s.memPath (fun s => s.wcbDone k.val))

/-- STREAM_DETECTOR_UPDATE (R681). -/
def execStreamDetectorUpdate (s : State) : Host.Outcome State Fault Refusal := fin (s.engine State.streamUpdate)

/-! ## Maintenance operations -/

/-- The reason for which R688 refuses an operation, in the order of LC_OP_FAILED.REFUSE; 0 where it starts. -/
def State.lcRefuse (s : State) (op : Nat) (mode : Bool) (ways : Nat) : Nat :=
  let a := s.rd LC_OP_ADDR_ADDR * 64
  let e := a + 64 * s.rd LC_OP_LINES_LINES
  let oneView := (decide (0x80000000 ≤ a) && decide (e ≤ 0xB8000000)) || (decide (0xC0000000 ≤ a) && decide (e ≤ 0xF8000000))
  if s.flag LC_STATUS_OP_BUSY then 1
  else if decide (op ≤ 5) && !mode && !oneView then 2
  else if op = 4 ∧ ways = 0 then 3
  else if op = 4 ∧ mode = true then 4
  else 0

/-- A line made invalid, by R687 where its way is locked. -/
def State.invalidateWay (s : State) (i : Nat) : State := if (s.way i).valid then s.dropWay i else s

/-- A way's lock bit changed. -/
def State.lockWay (s : State) (i : Nat) (b : Bool) : State := s.setWay i { s.way i with lock := b }

/-- A line filled into a chosen way for a preload (R684, R685, R678). -/
def State.preloadFill (s : State) (req i l : Nat) : State :=
  let s := (s.checkTags (lineSet l)).age (lineSet l)
  let s := match s.findWay l with
    | some j => if j = i then s else s.invalidateWay j
    | none => s
  let s := s.invalidateWay i
  let (d, s) := (s.drainLine l).lineRead l req
  if poisoned d then s else (s.takeWay i l true false).fillData i d

/-- PRELOAD_LOCK of one line (R684). While the cache is off nothing is filled or locked. -/
def State.preloadLine (s : State) (req ways l : Nat) : State :=
  let s := s.checkTags (lineSet l)
  let fail := s.wr LC_OP_FAILED_LINES (s.rd LC_OP_FAILED_LINES + 1)
  let take : Option Nat :=
    (lowestIdx 16 (fun w => ways.testBit w && !(s.way (wayIdx (lineSet l) w)).lock)).map (wayIdx (lineSet l))
  let fill : State := match take with
    | none => fail
    | some i => (s.preloadFill req i l).lockWay i true
  if s.lcOn = false then fail
  else
    match s.findWay l with
    | some i =>
      if (s.way i).lock then s else if ways.testBit (i % 16) then s.lockWay i true else fill
    | none => fill

/-- An operation's effect on one line, by address (Table 15.2), once its fills in flight have ended (R691). -/
def State.lcLine (s : State) (op req ways l : Nat) : State :=
  let s := (s.awaitFills l).checkTags (lineSet l)
  let inval (s : State) : State := match s.findWay l with
    | some i => s.invalidateWay i
    | none => s
  match op with
  | 1 => s.drainLine l
  | 2 => inval s
  | 3 => inval (s.drainLine l)
  | 4 => s.preloadLine req ways l
  | 5 => match s.findWay l with
    | some i => s.lockWay i false
    | none => s
  | _ => s

/-- An operation's effect on one set and way (Table 15.2, R686, R689), once its fills in flight have ended (R691). -/
def State.lcSetWay (s : State) (op i : Nat) : State :=
  let s := s.checkTags (i / 16)
  let s := if (s.way i).pend then s.awaitFills (heldLine i (s.way i)) else s
  let drain (s : State) : State := if (s.way i).valid then s.drainLine (heldLine i (s.way i)) else s
  match op with
  | 1 => drain s
  | 2 => s.invalidateWay i
  | 3 => (drain s).invalidateWay i
  | 5 => s.lockWay i false
  | _ => s

/-- A write to LC_OP (R688): the operation's effects, with OP_BUSY set until LC_OP_DONE, or its refusal. -/
def State.lcOp (s : State) (op req ways : Nat) (mode : Bool) : State :=
  match s.lcRefuse op mode ways with
  | 0 =>
    let a := s.rd LC_OP_ADDR_ADDR * 64
    let n := s.rd LC_OP_LINES_LINES
    let sw := wayIdx (s.rd LC_OP_SETWAY_SET) (s.rd LC_OP_SETWAY_WAY)
    let o : LcOpSt := { op := op, mode := b2n mode, ways := ways, addr := a, lines := n, setway := sw }
    let s := { ((s.up LC_STATUS_OP_BUSY).wr LC_OP_DONE_LINES 0).wr LC_OP_FAILED_LINES 0 with lc := { s.lc with op := some o } }
    if op = 6 then s.drainAll
    else if op = 7 then s.dropAllWays true
    else if op = 8 then
      s.lc.lines.foldl (fun (s : State) (e : Nat × Line) => s.lockWay e.1 false) s
    else if mode then s.lcSetWay op sw
    else (List.range n).foldl (fun (s : State) i => s.lcLine op req ways (dramOff a / 64 + i)) s
  | r => (s.up LC_EVENT_OP_REFUSED).wr LC_OP_FAILED_REFUSE r

/-- LC_CLEAN. -/
def execLcClean (mode : Bool) (s : State) : Host.Outcome State Fault Refusal :=
  fin (s.regCmd LC_OP_WORD (fun s => s.lcOp 1 0 0 mode))

/-- LC_INVALIDATE. -/
def execLcInvalidate (mode : Bool) (s : State) : Host.Outcome State Fault Refusal :=
  fin (s.regCmd LC_OP_WORD (fun s => s.lcOp 2 0 0 mode))

/-- LC_CLEAN_INVALIDATE. -/
def execLcCleanInvalidate (mode : Bool) (s : State) : Host.Outcome State Fault Refusal :=
  fin (s.regCmd LC_OP_WORD (fun s => s.lcOp 3 0 0 mode))

/-- LC_PRELOAD_LOCK. -/
def execLcPreloadLock (req : Fin 3) (mode : Bool) (ways : BitVec 16) (s : State) :
    Host.Outcome State Fault Refusal :=
  fin (s.regCmdBy req.val LC_OP_WORD (fun s => s.lcOp 4 req.val ways.toNat mode))

/-- LC_UNLOCK. -/
def execLcUnlock (mode : Bool) (s : State) : Host.Outcome State Fault Refusal :=
  fin (s.regCmd LC_OP_WORD (fun s => s.lcOp 5 0 0 mode))

/-- LC_DRAIN_ALL. -/
def execLcDrainAll (s : State) : Host.Outcome State Fault Refusal := fin (s.regCmd LC_OP_WORD (fun s => s.lcOp 6 0 0 false))

/-- LC_INVALIDATE_ALL. -/
def execLcInvalidateAll (s : State) : Host.Outcome State Fault Refusal :=
  fin (s.regCmd LC_OP_WORD (fun s => s.lcOp 7 0 0 false))

/-- LC_UNLOCK_ALL. -/
def execLcUnlockAll (s : State) : Host.Outcome State Fault Refusal :=
  fin (s.regCmd LC_OP_WORD (fun s => s.lcOp 8 0 0 false))

/-- The end of an operation (R692). How many lines an operation without a range has processed is a free value (log
entry 3). -/
def State.lcOpDone (s : State) : State :=
  match s.lc.op with
  | none => s
  | some o =>
    let (v, s') := s.draw
    let (n, s) := if 6 ≤ o.op then (v % 2 ^ 24, s') else if o.mode = 1 then (1, s) else (o.lines, s)
    let s := ((s.wr LC_OP_DONE_LINES n).down LC_STATUS_OP_BUSY).up LC_EVENT_OP_DONE
    let s := if o.op = 4 ∧ s.rd LC_OP_FAILED_LINES ≠ 0 then s.up LC_EVENT_PRELOAD_FAIL else s
    { s with lc := { s.lc with op := none } }

/-- LC_OP_DONE. -/
def execLcOpDone (s : State) : Host.Outcome State Fault Refusal := fin (s.engine State.lcOpDone)

/-- Fills in flight from now on allocate nothing. -/
def State.bypassFills (s : State) : State :=
  { s with lc := { s.lc with fills := s.lc.fills.map (fun (f : FillReq) => { f with way := none }) } }

/-- The cache clears itself and is initialised (R693). -/
def State.lcInit (s : State) : State :=
  let s := (s.dropAllWays false).bypassFills
  ({ s with lc := { s.lc with acc := [] } }).up LC_STATUS_INIT_DONE

/-- LC_INIT_DONE. -/
def execLcInitDone (s : State) : Host.Outcome State Fault Refusal := fin (s.engine State.lcInit)

/-- A write to LC_CTRL (R694). -/
def State.lcCtrlWrite (s : State) (v : Word) : State :=
  let s := (s.wr LC_CTRL_AGE_PERIOD (getF v 8 8)).wr LC_CTRL_ENABLE (getF v 0 1)
  if getF v 0 1 = 0 then (s.dropAllWays false).bypassFills else s

/-- LC_DISABLE. -/
def execLcDisable (v : Word) (s : State) : Host.Outcome State Fault Refusal :=
  fin (s.regCmd LC_CTRL_WORD (fun s => s.lcCtrlWrite v))

end Sys2Proof.Machine
end

