-- ==== Sys2Proof/Machine/Integrity.lean ====
section
/-! DEFINITION. The meanings of chapter 16: the retry of a failing line, error injection and initialisation. -/

namespace Sys2Proof.Machine
open Sys2Proof

/-- A line whose first read failed on the read path (R722, R723): with DRAM_RETRY at 1 it is read once more and
delivered clean where the stored line passes; otherwise it is delivered poisoned and captured. -/
def State.retryRead (s : State) (req a : Nat) : State :=
  if inDram a then
    let l := dramOff a / 64
    let s := (s.drainLine l).regionReady (l / 64)
    if s.major (l / 64) = 0 then { s with bus := { data := clean (zerosB 64) } }
    else
      let (d, c) := s.checkLine l
      if s.flag INT_CTRL_DRAM_RETRY && c == 0 then
        let s := (s.inc INT_DRAM_COUNT_TRANSIENT).up INT_DRAM_STATUS_TRANSIENT
        { s with bus := { data := clean d } }
      else { s.dramFail l (if c = 0 then 1 else c) req with bus := { data := d.map (fun b => (b, true)) } }
  else s

/-- DRAM_RETRY_READ. -/
def execDramRetryRead (req : Fin 17) (a : Word) (s : State) : Host.Outcome State Fault Refusal :=
  fin (s.when (s.runs 11) (fun s => s.retryRead req.val a.toNat))

/-- A write to INT_INJECT (R731); a reserved MEM leaves that field unchanged (R14). -/
def State.injectWrite (s : State) (v : Word) : State :=
  if getF v 24 8 = 0xC9 then
    let s := (s.wr INT_INJECT_FLIP (getF v 16 5)).wr INT_INJECT_ARM (getF v 0 1)
    if 14 ≤ getF v 8 4 then s else s.wr INT_INJECT_MEM (getF v 8 4)
  else s

/-- ERROR_INJECT_ARM. -/
def execErrorInjectArm (v : Word) (s : State) : Host.Outcome State Fault Refusal :=
  fin (s.regCmd INT_INJECT_WORD (fun s => s.injectWrite v))

/-- MEMORY_INIT_DONE (R708). -/
def execMemoryInitDone (m : Fin 3) (s : State) : Host.Outcome State Fault Refusal := fin (s.initMem m)

/-- REGION_TABLE_INIT_DONE (R737). -/
def execRegionTableInitDone (s : State) : Host.Outcome State Fault Refusal :=
  fin (s.when (s.runs 11 && !s.flag BC_STATUS_INIT_DONE) State.regionTableInit)

end Sys2Proof.Machine
end

