-- ==== Sys2Proof/Machine/Queue.lean ====
section
/-! DEFINITION. The meanings of chapter 13: rings, doorbells and events. -/

namespace Sys2Proof.Machine
open Sys2Proof

/-- QM_DOORBELL (R586, R587): RING in bits 25 to 16, the new PI in bits 15 to 0. -/
def execQmDoorbell (v : Word) (s : State) : Host.Outcome State Fault Refusal :=
  fin (s.regCmd QM_DOORBELL_WORD (fun s => s.doorbell (getF v 16 10) (getF v 0 16)))

/-- QM_CONSUME (R594). -/
def execQmConsume (v : Word) (s : State) : Host.Outcome State Fault Refusal :=
  fin (s.regCmd QM_CONSUME_WORD (fun s => s.consume (getF v 16 10) (getF v 0 16)))

/-- QM_STAGED_ENQUEUE (R589): the write to QM_ENQ_RING of a requester. -/
def execQmStagedEnqueue (b : Fin 3) (v : Word) (s : State) : Host.Outcome State Fault Refusal :=
  fin (s.when (s.mayIssue b.val) (fun s =>
    s.regCmdBy b.val QM_ENQ_RING_WORD (fun s => s.stagedEnqueue b.val (getF v 0 10))))

/-- QM_HARDWARE_ENQUEUE (R591): a producer's entry is written, or refused with FULL_SEEN. In IDLE the CORE clock returns
(R1074); while the CORE clock is lost the Queue Manager stands still (R48). -/
def execQmHardwareEnqueue (ring : Fin 1024) (e : List Byte) (s : State) : Host.Outcome State Fault Refusal :=
  fin (s.when (!s.pw.lostLock.getLsbD 1) (fun s => (s.enqWake ring.val).post ring.val e))

/-- A hardware consumer takes the entry at its ring's head (R604); it receives the entry's bytes with their marks.
Rings of NONE, CORE_A and CORE_B have no hardware consumer. -/
def State.hardwareTake (s : State) (id : Nat) : State :=
  if 3 ≤ (s.ring id).consumer then
    match s.dequeue id with
    | (some e, s) => { s with bus := { data := e } }
    | (none, s) => s
  else s

/-- QM_HARDWARE_DEQUEUE (R604). -/
def execQmHardwareDequeue (ring : Fin 1024) (s : State) : Host.Outcome State Fault Refusal :=
  fin (s.when (!s.pw.lostLock.getLsbD 1) (fun s => s.hardwareTake ring.val))

/-- The ring that a requester's QM_RING_SEL names. -/
def State.selRing (s : State) (b : Nat) : Nat := s.rd (banked QM_RING_SEL_RING b)

/-- QM_RING_CONFIG_WRITE (R581, R582, R601): a write to QM_RING_CFG or QM_RING_BASE of the selected ring. -/
def execQmRingConfigWrite (b : Fin 3) (cfg : Bool) (v : Word) (s : State) : Host.Outcome State Fault Refusal :=
  fin (s.when (s.mayIssue b.val) (fun s => s.regCmdBy b.val (if cfg then QM_RING_CFG_WORD else QM_RING_BASE_WORD) (fun s =>
    if cfg then s.ringCfgAny b.val (s.selRing b.val) v.toNat
    else (s.ringBaseWrite (s.selRing b.val) v.toNat).copyWake (s.selRing b.val))))

/-- QM_RING_RESET (R618). -/
def execQmRingReset (b : Fin 3) (s : State) : Host.Outcome State Fault Refusal :=
  fin (s.when (s.mayIssue b.val) (fun s =>
    s.regCmdBy b.val QM_RING_CMD_WORD (fun s => s.ringReset (s.selRing b.val))))

/-- A write to QM_ERR_INFO (R1079): a non-zero CODE clears CODE, RING and VALUE together. -/
def State.errInfoClear (s : State) (v : Word) : State :=
  if getF v 28 4 = 0 then s
  else ((s.wr QM_ERR_INFO_CODE 0).wr QM_ERR_INFO_RING 0).wr QM_ERR_INFO_VALUE 0

/-- QM_ERR_INFO_CLEAR (R1079). -/
def execQmErrInfoClear (v : Word) (s : State) : Host.Outcome State Fault Refusal :=
  fin (s.regCmd QM_ERR_INFO_WORD (fun s => s.errInfoClear v))

/-- An input asserts or rises (R606, R607). The inputs of sources 95 and 127 are held low; an input that a register
holds asserted follows that register. -/
def State.eventInput (s : State) (i : Nat) : State :=
  if i = 95 ∨ i = 127 ∨ s.levels.any (fun e => e.1 == i) then s else pulse i s

/-- EVENT_INPUT (R606). -/
def execEventInput (i : Fin 128) (s : State) : Host.Outcome State Fault Refusal := fin (s.eventInput i.val)

/-- A read of a core's EVC_CLAIM (R609): the source, or 0xFF; an edge source's pending bit clears, except at a read by
the debug transport. -/
def State.claim (s : State) (c : Nat) (dbg : Bool) : State :=
  let s := settleEvc s
  match s.claimable c with
  | none => s.answer 0xFF
  | some i =>
    let s := s.answer i
    if !dbg && s.flag (EVC_SRC_CFG_MODE i) then { s with evc := { s.evc with pend := s.evc.pend &&& ~~~srcBit i } }
    else s

/-- EVC_CLAIM (R609), read by the core itself or by the debug transport. -/
def execEvcClaim (c : Fin 2) (dbg : Bool) (s : State) : Host.Outcome State Fault Refusal :=
  fin (s.when (s.mayIssue (if dbg then 2 else c.val)) (fun s =>
    s.regAsk (EVC_CLAIM_WORD c) (fun s => s.claim c.val dbg)))

/-- EVC_SW changed (R615). -/
def State.setSw (s : State) (w : BitVec 8) : State := { s with evc := { s.evc with sw := w } }

/-- EVC_SW_SET (R615). -/
def execEvcSwSet (v : Word) (s : State) : Host.Outcome State Fault Refusal :=
  fin (s.regCmd EVC_SW_SET_WORD (fun s => s.setSw (s.evc.sw ||| v.setWidth 8)))

/-- EVC_SW_CLR (R615). -/
def execEvcSwClr (v : Word) (s : State) : Host.Outcome State Fault Refusal :=
  fin (s.regCmd EVC_SW_CLR_WORD (fun s => s.setSw (s.evc.sw &&& ~~~v.setWidth 8)))

/-- A write to EVC_SRC_CFG of a source (R605, R619, R1070). The pending bit of a source changed to edge mode is its
input at the change. -/
def State.srcConfig (s : State) (i : Nat) (v : Word) : State :=
  if i = 95 ∨ i = 127 then s
  else
    let s := settleEvc s
    (((s.wr (EVC_SRC_CFG_WAKE i) (getF v 8 1)).wr (EVC_SRC_CFG_TARGET i) (getF v 6 2)).wr
      (EVC_SRC_CFG_PRIO i) (getF v 3 3)).wr (EVC_SRC_CFG_MODE i) (getF v 0 1)

/-- EVC_SOURCE_CONFIG (R1070). -/
def execEvcSourceConfig (i : Fin 128) (v : Word) (s : State) : Host.Outcome State Fault Refusal :=
  fin (s.regCmd (EVC_SRC_CFG_WORD i) (fun s => s.srcConfig i.val v))

end Sys2Proof.Machine
end

