-- ==== Sys2Proof/Machine/Sce.lean ====
section
/-! DEFINITION. The commands of the Servo Control Engine (chapter 6). -/

namespace Sys2Proof.Machine
open Sys2Proof

/-- An update of the engine runs while PD_SERVO's logic does (R48): requests of contexts that compute nothing are dropped
first. -/
def State.sceRun (s : State) (g : State → State) : State := if s.runs 14 then g s.dropIdle else s

/-- The highest class that holds a request (R283). -/
def State.topClass (s : State) : Option Nat := lowestIdx 3 (fun k => (s.pickReq k).isSome)

/-- SCE_DRIVING_UPDATE: the engine runs the driving VCM request it would start next (R262, R282 to R284). -/
def execSceDrivingUpdate (s : State) : Host.Outcome State Fault Refusal :=
  fin (s.sceRun (fun s =>
    match s.pickReq 0 with
    | some r => (s.takeReq r).driveUpdate (ctxOf r.ctx) r.x
    | none => s))

/-- SCE_SPINDLE_UPDATE: the spindle request it would start next, which latches a new duty (R172, R259). -/
def execSceSpindleUpdate (s : State) : Host.Outcome State Fault Refusal :=
  fin (s.sceRun (fun s =>
    match s.topClass, s.pickReq 1 with
    | some 1, some r => (s.takeReq r).driveUpdate (ctxOf r.ctx) r.x
    | _, _ => s))

/-- SCE_TRACKING_UPDATE: the tracking request it would start next, with the VCM current sensed in its first cycle (R258,
R259). -/
def execSceTrackingUpdate (sense : Word) (s : State) : Host.Outcome State Fault Refusal :=
  fin (s.sceRun (fun s =>
    match s.topClass, s.pickReq 2 with
    | some 2, some r =>
      let c := ctxOf r.ctx
      let p := ctxPort c
      let s := s.takeReq r
      if ctxKind c = 2 then s.trackUpdate c r.x (s.rd (SPN_DUTY_PIN_PIN_DUTY p))
      else
        let i := signedOf 16 sense.toNat
        (s.wrI (VCM_ISENSE_CURRENT p) i).trackUpdate c r.x i
    | _, _ => s))

/-- Every entry of the SCE's memories zeroed (R288). -/
def State.sceClear (s : State) : State :=
  { s with
    regs := smDrop (fun a => decide (0x300B0000 ≤ a ∧ a < 0x300BC600)) s.regs
    sce := { s.sce with ctx := Vector.replicate 24 {} } }

/-- The clearing of the memories ends (R288): once after each reset release of PD_SERVO. -/
def State.sceReady (s : State) : State :=
  if s.flag SCE_STATUS_INIT_DONE then s else s.sceClear.up SCE_STATUS_INIT_DONE

/-- SCE_INIT_DONE (R288). -/
def execSceInitDone (s : State) : Host.Outcome State Fault Refusal := fin (if s.runs 14 then s.sceReady else s)

/-- CLEAR_STATES (R292): taken before the context's next update starts. -/
def execClearStates (c : Fin 24) (s : State) : Host.Outcome State Fault Refusal :=
  fin (s.regCmd (CTX_CMD_WORD c) (fun s => s.modCtx c (fun t => { t with clear := true })))

/-- COEFFICIENT_WRITE: word `w` of set `set` of a context (R290). A write before INIT_DONE stalls until the memories have
been cleared (R288). -/
def State.coefWrite (s : State) (c : Fin 24) (set : Fin 16) (w : Fin 32) (v : Word) : State :=
  let s := s.sceReady
  let live := decide (w.val < 18) && s.role c == 1 && (s.rd (CTX_STATUS_SET c) == set.val
    || (s.flag (CTX_STATUS_BLENDING c) && s.rd (CTX_STATUS_OLD_SET c) == set.val))
  let s :=
    if w.val = 7 then s.wr (SCE_COEF_WORD c set w) (v.toNat % 8)
    else if w.val < 18 then s.wr (SCE_COEF_WORD c set w) (unsignedOf 32 (signedOf 24 v.toNat))
    else s
  if live then s.setBit SCE_LIVE_WRITE_CTX c.val else s

/-- COEFFICIENT_WRITE. -/
def execCoefficientWrite (c : Fin 24) (set : Fin 16) (w : Fin 32) (v : Word) (s : State) :
    Host.Outcome State Fault Refusal := fin (s.regCmd (SCE_COEF_WORD c set w) (fun s => s.coefWrite c set w v))

/-- The state that CTX_STATE_IDX names: the main section's three, then each notch's two. -/
def SceCtx.pick (t : SceCtx) (i : Nat) : Int :=
  [t.m1, t.m2, t.m3, t.p1, t.p2, t.q1, t.q2].getD i 0

/-- Whether an address lies in the SCE memories whose accesses wait for INIT_DONE (R288): the coefficient sets, the selector
tables and the view of the states. -/
def sceMem (a : Nat) : Bool :=
  (decide (0x300B0000 ≤ a ∧ a < 0x300BC600))
    || (decide (0x300BD000 ≤ a ∧ a < 0x300BD600) && (a % 64 == 0x28 || a % 64 == 0x2C))

/-- STATE_CAPTURE_READ: CTX_STATE_LO shows the low half of the selected state and CTX_STATE_HI the rest of the value
captured (R293). -/
def State.captureState (s : State) (c : Fin 24) : State :=
  let s := s.sceReady
  let v := s.sce.ctx[c].pick (s.rd (CTX_STATE_IDX_IDX c))
  let u := unsignedOf 64 v
  ((s.wr (CTX_STATE_LO_LO c) u).wr (CTX_STATE_HI_WORD c) (u / 2 ^ 32)).modCtx c (fun t => { t with captured := v })

/-- STATE_CAPTURE_READ. -/
def execStateCaptureRead (c : Fin 24) (s : State) : Host.Outcome State Fault Refusal :=
  fin (s.regAsk (CTX_STATE_LO_WORD c) (fun s => s.captureState c))

end Sys2Proof.Machine
end

