-- ==== Sys2Proof/Machine/Spindle.lean ====
section
/-! DEFINITION. The spindles and the power die (chapter 4). Spindle states are the numbers of Table 4.3. -/

namespace Sys2Proof.Machine
open Sys2Proof

/-- The next state of a stop by STOP_MODE (R184), as STOP_MODE stands when STOP is written (DESIGN CHOICE, log
entry 22). -/
def State.stopTo (s : State) (p : Fin 8) : Nat := if s.flag (SPN_CTRL_STOP_MODE p) then 8 else 6

/-- START (R174, R183). An ignored command changes nothing (R201). A START in COAST joins the flying restart with the
last period measured. -/
def State.spnStart (s : State) (p : Fin 8) : State :=
  if s.dieHeld then s
  else
    match s.rd (SPN_STATUS_STATE p) with
    | 0 => (((s.spnState p 1).down (SPN_STATUS_RETRY_USED p)).noPeriod p).modSpn p (fun x => { x with clipTold := false })
    | 6 =>
      let s := s.down (SPN_STATUS_RETRY_USED p)
      if s.spn[p].fly then s
      else s.modSpn p (fun x => { x with fly := true, retryWait := false, zc := 0, revZc := 0, revTicks := 0 })
    | 9 => s.up (SPN_EVENT_CMD_REFUSED p)
    | _ => s

/-- SPN_START. -/
def execSpnStart (p : Fin 8) (s : State) : Host.Outcome State Fault Refusal :=
  fin (s.regCmd (SPN_CMD_WORD p) (fun s => s.spnStart p))

/-- STOP (R184); it ends a flying restart and a pending retry. In the UNLOADING of a flying restart it sets where the
port goes when the heads are parked ("STOP is written during a flying restart"); in every other UNLOADING and in BRAKE, of
which R184 says nothing, it has no effect. STOP_MODE is the one at the time of the write. DESIGN CHOICE, log entry 22. -/
def State.spnStop (s : State) (p : Fin 8) : State :=
  if s.dieHeld then s
  else
    let st := s.rd (SPN_STATUS_STATE p)
    if st = 1 then s.spnState p 0
    else if st = 7 ∧ s.spn[p].after = 4 then s.modSpn p (fun x => { x with after := s.stopTo p })
    else if 2 ≤ st ∧ st ≤ 6 then
      (s.modSpn p (fun x => { x with fly := false, retryWait := false })).spnAfterUnload p (s.stopTo p)
    else s

/-- SPN_STOP. -/
def execSpnStop (p : Fin 8) (s : State) : Host.Outcome State Fault Refusal :=
  fin (s.regCmd (SPN_CMD_WORD p) (fun s => s.spnStop p))

/-- MEASURE (R195): accepted in STOPPED, and refused in every other state. The rule does not say what a START or a second
MEASURE during a measurement does: each is taken, and the measurement goes on to its end (DESIGN CHOICE, log
entry 22). -/
def State.spnMeasure (s : State) (p : Fin 8) : State :=
  if s.dieHeld then s
  else if s.rd (SPN_STATUS_STATE p) = 0 then s.up (SPN_STATUS_MEASURE_BUSY p)
  else s.up (SPN_EVENT_CMD_REFUSED p)

/-- SPN_MEASURE. -/
def execSpnMeasure (p : Fin 8) (s : State) : Host.Outcome State Fault Refusal :=
  fin (s.regCmd (SPN_CMD_WORD p) (fun s => s.spnMeasure p))

/-- The measurement ends with its four results in 10 mΩ units (R195, R196). -/
def State.measureDone (s : State) (p : Fin 8) (uv vw wu vcm : Nat) : State :=
  if s.flag (SPN_STATUS_MEASURE_BUSY p) then
    let m (v : Nat) : Nat := min v 0xFFFF
    ((((((s.wr (SPN_RES_A_UV p) (m uv)).wr (SPN_RES_A_VW p) (m vw)).wr (SPN_RES_B_WU p) (m wu)).wr
      (SPN_RES_B_VCM p) (m vcm)).wr (VCM_COIL_RES_RES p) (m vcm))).down (SPN_STATUS_MEASURE_BUSY p)
  else s

/-- MEASURE_DONE. -/
def execMeasureDone (p : Fin 8) (uv vw wu vcm : Nat) (s : State) : Host.Outcome State Fault Refusal :=
  fin (s.measureDone p uv vw wu vcm)

/-- CLEAR_FAULT (R168); `still` is the stopped condition as the observer and the back-EMF sense find it at the write. It
holds in FAULT once SPINDLE_STOPPED has found it there, and not in a closed loop. With no fault latched in a stopped port
there is nothing to clear. -/
def State.spnClearFault (s : State) (p : Fin 8) (still : Bool) : State :=
  if s.dieHeld then s
  else
    let st := s.rd (SPN_STATUS_STATE p)
    if st ≠ 4 ∧ st ≠ 5 ∧ (still = true ∨ (st = 9 ∧ s.spn[p].still = true)) then
      if st = 9 then (((s.spnState p 0).wr (SPN_STATUS_FAULT_CAUSE p) 0).noPeriod p).modSpn p (fun x => { x with still := false })
      else s
    else s.up (SPN_EVENT_CMD_REFUSED p)

/-- SPN_CLEAR_FAULT. -/
def execSpnClearFault (p : Fin 8) (still : Bool) (s : State) : Host.Outcome State Fault Refusal :=
  fin (s.regCmd (SPN_CMD_WORD p) (fun s => s.spnClearFault p still))

/-- A both-on command at half-bridge `half` (R162 to R166): the interlock's count and events, and the fault at the third
action within a span of 6 consecutive commutation steps. A latched fault ends the span: actions before it do not count with
later ones (DESIGN CHOICE, log entry 22). -/
def State.shootThrough (s : State) (p : Fin 8) (half : Fin 3) : State :=
  let s := ((s.inc (SPN_SHOOT_COUNT_COUNT p)).up (SPN_EVENT_INTERLOCK p)).up SYS_PROTECT_SHOOT_THROUGH
  let x := s.spn[p]
  let hits := ((x.stepCount :: x.hits).take 3)
  let third :=
    match hits with
    | [a, _, c] => decide (a - c < 6)
    | _ => false
  let s := s.modSpn p (fun x => { x with hits := hits, heldOff := x.heldOff ||| (1#3 <<< half.val) })
  if third && s.rd (SPN_STATUS_STATE p) != 9 then
    (s.modSpn p (fun x => { x with hits := [] })).spindleFault p 1
  else s

/-- SHOOT_THROUGH_INTERLOCK. -/
def execShootThroughInterlock (p : Fin 8) (half : Fin 3) (s : State) : Host.Outcome State Fault Refusal :=
  fin (s.shootThrough p half)

/-- SPINDLE_OVERCURRENT: fault cause 2 (R167). A fault that is latched keeps its cause. -/
def execSpindleOvercurrent (p : Fin 8) (s : State) : Host.Outcome State Fault Refusal :=
  let s := s.up SYS_PROTECT_OVERCURRENT
  fin (if s.rd (SPN_STATUS_STATE p) = 9 then s else s.spindleFault p 2)

/-- CURRENT_LIMIT_CHOP: a sensed phase current in mA beyond ILIM turns the high side off for the rest of the period
(R160); ILIM above 1500 acts as 1500. -/
def execCurrentLimitChop (p : Fin 8) (ma : Nat) (s : State) : Host.Outcome State Fault Refusal :=
  fin (if min 1500 (s.rd (SPN_PWM_ILIM p)) < ma then s.modSpn p (fun x => { x with chopped := true }) else s)

/-- How many spin-ups are under way (R178). -/
def State.spinups (s : State) : Nat := countIdx 8 (fun q => s.spn[fin8 q].underWay)

/-- The sum of I_BUDGET over the spin-ups under way. -/
def State.spinBudget (s : State) : Nat :=
  (List.range 8).foldl (fun a q => if s.spn[fin8 q].underWay then a + s.rd (SPN_BUDGET_I_BUDGET q) else a) 0

/-- The Power Governor's spin-up ceiling (Table 2.8). -/
def State.spinCeiling (s : State) : Nat := s.govLevel / 2 + 1

/-- One waiting port tried for admission (R175, R176); a spin-up held only by the ceiling is counted once (R92). -/
def State.admitOne (s : State) (p : Fin 8) : State :=
  if s.rd (SPN_STATUS_STATE p) = 1 then
    let n := s.spinups
    let own := s.rd (SPN_BUDGET_I_BUDGET p)
    let cap := s.rd PS_SPIN_VMOT_BUDGET
    let slots := decide (n < s.rd PS_SPIN_SPIN_SLOTS)
    let ceil := decide (n < s.spinCeiling)
    let budget := decide (s.spinBudget + own ≤ cap) || (decide (cap < own) && decide (n = 0))
    if slots && ceil && budget then
      (((s.spnState p 2).noPeriod p).modSpn p (fun x =>
        { x with underWay := true, clipTold := false, heldOff := 0 })).countSpinups
    else if slots && budget && !s.spn[p].clipTold then
      (s.inc GOV_CLIP_SPIN_COUNT).modSpn p (fun x => { x with clipTold := true })
    else s
  else s

/-- SPINUP_ADMIT: waiting ports are admitted in ascending order, each admission counting for the next (R175 to R177).
None is while the power die ignores commands (R201) or PD_SERVO's logic is stopped (R48). -/
def execSpinupAdmit (s : State) : Host.Outcome State Fault Refusal :=
  fin (if s.dieHeld || !s.runs 14 then s else s.eachPort (fun p s => s.admitOne p))

/-- ALIGN_END: RAMP follows ALIGN (R179). -/
def execAlignEnd (p : Fin 8) (s : State) : Host.Outcome State Fault Refusal :=
  fin (if s.rd (SPN_STATUS_STATE p) = 2 ∧ s.dieHeld = false ∧ s.portRuns p = true then
    (s.spnState p 3).modSpn p (fun x => { x with zc := 0, duty := s.rd (SPN_RAMP_DUTY_DUTY p) }) else s)

/-- The state whose drive a port's bridges have: UNLOADING leaves them as they were (Table 4.3). -/
def State.bridgeState (s : State) (p : Fin 8) : Nat :=
  let st := s.rd (SPN_STATUS_STATE p)
  if st = 7 then s.spn[p].before else st

/-- The duty the port's state calls for (Table 4.3, R172). When PIN_EN clears, the loop's last duty holds again until its next
update (DESIGN CHOICE, log entry 22). -/
def State.dutyWanted (s : State) (p : Fin 8) : Nat :=
  let closed : Nat :=
    if s.flag (SPN_DUTY_PIN_PIN_EN p) then s.rd (SPN_DUTY_PIN_PIN_DUTY p) else s.spn[p].duty
  let of (n : Nat) : Nat :=
    if n = 2 then s.rd (SPN_ALIGN_DUTY p)
    else if n = 3 then s.rd (SPN_RAMP_DUTY_DUTY p)
    else if n = 4 ∨ n = 5 then closed
    else 0
  of (s.bridgeState p)

/-- The speed error of R171, truncated towards zero and saturated to 24 bits. -/
def speedErr (period target : Nat) : Int := sat24 ((((period : Int) - target) * 1048576).tdiv target)

/-- The tolerance of R173 in SERVO cycles. -/
def State.speedTol (s : State) (p : Fin 8) : Nat := s.rd (SPN_TARGET_PERIOD p) * s.rd (SPN_LOCK_SPEED_TOL p) / 65536

/-- The AT_SPEED and SPEED_DEV rules of R173 after a new period. -/
def State.speedState (s : State) (p : Fin 8) : State :=
  let d := ((s.rd (SPN_PERIOD_MEASURED p) : Int) - s.rd (SPN_TARGET_PERIOD p)).natAbs
  let need := max 1 (s.rd (SPN_LOCK_LOCK_REVS p))
  match s.rd (SPN_STATUS_STATE p) with
  | 4 =>
    let run := if d ≤ s.speedTol p then s.spn[p].tolRun + 1 else 0
    let s := s.modSpn p (fun x => { x with tolRun := run })
    if need ≤ run then
      ((((s.spnState p 5).up (SPN_EVENT_AT_SPEED p)).down (SPN_STATUS_RETRY_USED p)).modSpn p (fun x =>
        { x with tolRun := 0, devRun := 0 })).endSpinup p
    else s
  | 5 =>
    let run := if 4 * s.speedTol p < d then s.spn[p].devRun + 1 else 0
    let s := s.modSpn p (fun x => { x with devRun := run })
    if need ≤ run then (s.toAccel p (s.dutyWanted p)).up (SPN_EVENT_SPEED_DEV p) else s
  | _ => s

/-- Six consecutive crossings make a period (R169), its error goes to the spindle context (R171), and the speed rules
follow. -/
def State.revolution (s : State) (p : Fin 8) : State :=
  let s := s.wr (SPN_PERIOD_MEASURED p) (min s.spn[p].revTicks 0xFFFFFF)
  let s := s.modSpn p (fun x => { x with revZc := 0, revTicks := 0, pLast := s.rd (SPN_PERIOD_MEASURED p) })
  let e := speedErr (s.rd (SPN_PERIOD_MEASURED p)) (s.rd (SPN_TARGET_PERIOD p))
  let s := s.when (s.runs 14) (fun s => s.sceQueue [(ctxOf (3 * p.val + 2), e)])
  s.speedState p

/-- Whether the last measured speed is below FLY_MIN percent of the target (R189). -/
def State.belowFlyMin (s : State) (p : Fin 8) : Bool :=
  decide (s.rd (SPN_TARGET_PERIOD p) * 100 < s.rd (SPN_PERIOD_MEASURED p) * s.rd (SPN_LOCK_FLY_MIN p))

/-- R189: after resynchronisation the port drives again, through UNLOADING below FLY_MIN percent of the target speed;
FLY_OK is set as it re-enters ACCEL. -/
def State.flyResync (s : State) (p : Fin 8) : State :=
  let s := s.modSpn p (fun x => { x with fly := false })
  if s.belowFlyMin p && s.srv[p].loaded then s.spnAfterUnload p 4 else s.flyAccel p

/-- The observer's runs after a crossing within or beyond ±30° of its prediction (R169, R170, R186): an accepted crossing
counts on, one beyond starts the counts anew and is a phase error of its step. A step without a crossing leaves the counts
of R169 and R180 as they are (DESIGN CHOICE, log entry 22). A crossing ends FAULT's stopped condition (R168). -/
def Spindle.cross (x : Spindle) (ok : Bool) (ticks : Nat) : Spindle :=
  let x := { x with crossed := true, errStep := !ok, missRun := 0, still := false }
  if ok then { x with zc := x.zc + 1, revZc := x.revZc + 1, revTicks := x.revTicks + ticks }
  else { x with zc := 0, revZc := 0, revTicks := 0 }

/-- A zero crossing `ticks` SERVO cycles after the one before, `off` degrees electrical from its prediction: accepted
within ±30° (R170), it counts towards handover (R180), the period (R169) and a flying restart (R188). The observer listens
in every state but STOPPED, WAIT, ALIGN and BRAKE. No state that drives is entered while the power die ignores
commands (R201). -/
def State.zeroCrossing (s : State) (p : Fin 8) (ticks : Nat) (off : Int) : State :=
  let st := s.rd (SPN_STATUS_STATE p)
  if (3 ≤ st ∧ st ≤ 7) ∨ st = 9 then
    let ok := decide (off.natAbs ≤ 30)
    let s := s.modSpn p (fun x => x.cross ok ticks)
    if ok then
      let s := if s.spn[p].revZc = 6 then s.revolution p else s
      if s.dieHeld then s
      else if st = 3 ∧ max 1 (s.rd (SPN_RAMP_DUTY_HANDOVER_ZC p)) ≤ s.spn[p].zc then
        s.toAccel p (s.rd (SPN_RAMP_DUTY_DUTY p))
      else if st = 6 ∧ s.spn[p].fly = true ∧ 6 ≤ s.spn[p].zc then s.flyResync p
      else s
    else s
  else s

/-- ZERO_CROSSING. -/
def execZeroCrossing (p : Fin 8) (ticks : Nat) (off : Int) (s : State) : Host.Outcome State Fault Refusal :=
  fin (s.when (s.portRuns p) (fun s => s.zeroCrossing p ticks off))

/-- Whether the observer declares loss of lock (R186): two expected crossings in a row missing, or a phase error beyond 30° at
six commutations in a row. -/
def Spindle.lockLost (x : Spindle) : Bool := decide (2 ≤ x.missRun) || decide (6 ≤ x.errRun)

/-- LOSS_OF_LOCK (R186, R187): in ACCEL and AT_SPEED the phases go high-Z, the write gate drops with its rewrite, and the
port coasts listening for a flying restart. -/
def State.lossOfLock (s : State) (p : Fin 8) : State :=
  let st := s.rd (SPN_STATUS_STATE p)
  if (st = 4 ∨ st = 5) ∧ s.spn[p].lockLost = true then
    let s := (((s.inhibit p).up (SPN_EVENT_LOCK_LOST p)).coast p).noPeriod p
    s.modSpn p (fun x => { x with fly := true, retryWait := false, missRun := 0, errRun := 0, unlocked := true })
  else s

/-- LOSS_OF_LOCK. -/
def execLossOfLock (p : Fin 8) (s : State) : Host.Outcome State Fault Refusal :=
  fin (s.when (s.portRuns p) (fun s => s.lossOfLock p))

/-- FLY_RESTART_TIMEOUT (R190): any loaded head is unloaded and the port follows R182. -/
def State.flyTimeout (s : State) (p : Fin 8) : State :=
  if s.rd (SPN_STATUS_STATE p) = 6 ∧ s.spn[p].fly = true then
    let s := (s.up (SPN_EVENT_FLY_FAIL p)).modSpn p (fun x => { x with fly := false })
    ((if s.srv[p].loaded then s.unload p else s).spinFailed p)
  else s

/-- FLY_RESTART_TIMEOUT. -/
def execFlyRestartTimeout (p : Fin 8) (s : State) : Host.Outcome State Fault Refusal :=
  fin (s.when (s.portRuns p) (fun s => s.flyTimeout p))

/-- SPINUP_FAIL (R181, R182): no handover, or AT_SPEED not reached within SPINUP_TIMEOUT of the admission, of a spin-up that
is under way (R178) and has not failed yet: also in the coast of a STOP or of a retract. -/
def execSpinupFail (p : Fin 8) (s : State) : Host.Outcome State Fault Refusal :=
  fin (if s.spn[p].underWay && !s.spn[p].retryWait && s.portRuns p then s.spinFailed p else s)

/-- SPINDLE_STOPPED (R168, R182, R185): the stopped condition met in COAST or BRAKE, and in FAULT, where the port counts as
stopped from then on. A flying restart under way keeps the port listening; a pending retry takes it to WAIT, and its failed
spin-up is under way no longer (DESIGN CHOICE, log entry 22). -/
def State.spindleStopped (s : State) (p : Fin 8) : State :=
  let st := s.rd (SPN_STATUS_STATE p)
  if st = 9 then (s.noPeriod p).modSpn p (fun x => { x with still := true, pLast := 0 })
  else if (st = 6 ∨ st = 8) ∧ s.spn[p].fly = false then
    let s := ((s.noPeriod p).modSpn p (fun x => { x with pLast := 0 })).endSpinup p
    if s.spn[p].retryWait then (s.spnState p 1).modSpn p (fun x => { x with retryWait := false })
    else (s.spnState p 0).up (SPN_EVENT_STOPPED p)
  else s

/-- SPINDLE_STOPPED. -/
def execSpindleStopped (p : Fin 8) (s : State) : Host.Outcome State Fault Refusal :=
  fin (s.when (s.portRuns p) (fun s => s.spindleStopped p))

/-- VCM_OVERCURRENT (R193): FAULT_OC, and the retract profile on that port alone, its drive limited to I_BREAK. -/
def State.vcmOvercurrent (s : State) (p : Fin 8) : State :=
  let s := (s.up (VCM_STATUS_FAULT_OC p)).up SYS_PROTECT_OVERCURRENT
  let s := (s.up (VCM_STATUS_RETRACTING p)).inhibit p
  ((s.modSrv p (fun v => { v with cmd := 0 })).runDrive p (s.ownProfile p)).fmtFault p 5

/-- VCM_OVERCURRENT. -/
def execVcmOvercurrent (p : Fin 8) (s : State) : Host.Outcome State Fault Refusal := fin (s.vcmOvercurrent p)

/-- EMERGENCY_RETRACT with its trigger: 1 VMOT, 2 VDD_CORE, 3 PWRFAIL_N, 4 temperature (R197). -/
def execEmergencyRetract (cause : Fin 4) (s : State) : Host.Outcome State Fault Refusal :=
  fin (s.startRetract (cause.val + 1))

/-- LINK_LOSS: the retract with cause 5 (R198). -/
def execLinkLoss (s : State) : Host.Outcome State Fault Refusal :=
  fin ((s.down PS_STATUS_LINK_OK).startRetract 5)

/-- RETRACT_PROFILE_END: the profile of the emergency retract ends (R200, R201, R207), `vret` telling whether VRET has
lasted; or that of port `own` after an over-current on it alone (R193). -/
def State.profileEnd (s : State) (own : Option (Fin 8)) (vret : Bool) : State :=
  match own with
  | none => s.endRetract vret
  | some p => s.endOwnRetract p

/-- RETRACT_PROFILE_END. -/
def execRetractProfileEnd (own : Option (Fin 8)) (vret : Bool) (s : State) : Host.Outcome State Fault Refusal :=
  fin (s.profileEnd own vret)

/-- Whether the cause of the latched retract still holds (R204); `holds` says so for VDD_CORE, PWRFAIL_N and the link. -/
def State.causeHolds (s : State) (holds : Bool) : Bool :=
  match s.rd PS_STATUS_RETRACT_CAUSE with
  | 1 => !s.flag PS_STATUS_VMOT_OK
  | 4 => s.flag PS_STATUS_THERM_SHUTDOWN
  | _ => holds

/-- RETRACT_CLEAR (R204). The spec does not say when LINK_OK returns after a loss of the link: here it shows 1 again once
RETRACTED has been cleared, whatever the cause that was latched (DESIGN CHOICE, log entry 22), and not while a
boundary-scan instruction holds it lost. -/
def execRetractClear (holds : Bool) (s : State) : Host.Outcome State Fault Refusal :=
  fin (s.regCmd PS_RETRACT_CLR_WORD (fun s => if s.flag PS_STATUS_RETRACTED && !s.causeHolds holds then
    let t := (s.down PS_STATUS_RETRACTED).linkBack
    t.eachPort (fun p u => u.redriven s p)
  else s))

/-- POWER_DIE_COOLED (R204). -/
def execPowerDieCooled (s : State) : Host.Outcome State Fault Refusal := fin (s.down PS_STATUS_THERM_SHUTDOWN)

/-- VMOT_RETURN (R157): VMOT is present again and charges VRET. -/
def execVmotReturn (s : State) : Host.Outcome State Fault Refusal :=
  fin ({ s.up PS_STATUS_VMOT_OK with die := { s.die with vret := true } })

/-- Whether a port's bridges commutate: in RAMP, ACCEL and AT_SPEED, and in an unload that keeps their drive. -/
def State.commutes (s : State) (p : Fin 8) : Bool :=
  s.bridgeState p == 3 || s.bridgeState p == 4 || s.bridgeState p == 5

/-- COMMUTATION (R158, R161): the six-step drive advances one step, and held-off half-bridges take their next commands
(R163). In ACCEL and AT_SPEED a step that has had no crossing counts as a missing one, and one whose crossing lay beyond
30° as a phase error (R186). -/
def State.commutation (s : State) (p : Fin 8) : State :=
  let st := s.rd (SPN_STATUS_STATE p)
  if s.commutes p && !s.dieHeld then
    s.modSpn p (fun x => { x with
      step := (x.step + (if s.flag (SPN_CTRL_DIR p) then 5 else 1)) % 6, stepCount := x.stepCount + 1, heldOff := 0
      missRun := if (st = 4 ∨ st = 5) ∧ x.crossed = false then x.missRun + 1 else x.missRun
      errRun := if (st = 4 ∨ st = 5) ∧ x.crossed = true ∧ x.errStep = true then x.errRun + 1 else 0
      crossed := false, errStep := false })
  else s

/-- COMMUTATION. -/
def execCommutation (p : Fin 8) (s : State) : Host.Outcome State Fault Refusal :=
  fin (s.when (s.portRuns p) (fun s => s.commutation p))

/-- PWM_PERIOD_BOUNDARY: a new duty takes effect with its on-time (R158, R159), a chopped switch may turn on again
(R160), and half-bridges that the interlock holds off take their next commands (R163). A held power stage drives
nothing (R201). -/
def State.pwmBoundary (s : State) (p : Fin 8) : State :=
  let d := if s.dieHeld then 0 else s.dutyWanted p
  s.modSpn p (fun x =>
    { x with dutyNow := d, onTime := d * s.rd (SPN_PWM_PERIOD p) / 65536, chopped := false, heldOff := 0 })

/-- PWM_PERIOD_BOUNDARY. -/
def execPwmPeriodBoundary (p : Fin 8) (s : State) : Host.Outcome State Fault Refusal :=
  fin (s.when (s.portRuns p) (fun s => s.pwmBoundary p))

/-! ## The half-bridges (R158, R160, R162, Table 4.3) -/

/-- What a half-bridge does: nothing, both switches held off by the interlock, its high side pulse-width modulated with an
on-time in SERVO cycles, its low side on, its low side on and chopped at ILIM, the phase's back-EMF rectified onto VRET,
or the measuring current of R195. -/
inductive HalfBridge
  | highZ | heldOff
  | pwm (onTime : Nat)
  | lowOn | lowChopped | rectify | measure
  deriving DecidableEq, Repr

/-- The phases of the six steps in U-V-W order: the one driven high and the one driven low, 0 for U, 1 for V and 2 for W;
the third floats (R158). The steps' numbers are the model's own; with DIR at 1 they are taken backwards, which is the
order U-W-V (DEDUCED, log entry 22). -/
def sixStep (step : Nat) : Nat × Nat :=
  match step % 6 with
  | 0 => (0, 1) | 1 => (0, 2) | 2 => (1, 2) | 3 => (1, 0) | 4 => (2, 0) | _ => (2, 1)

/-- Which of the four drives of a measurement runs (R195): phase pairs UV, VW and WU, then the VCM coil; none where none
runs. The time each has taken is no command's, so which one it is is a free value (log entry 9). -/
def State.measuring (s : State) (p : Fin 8) : Option Nat :=
  if s.rd (SPN_STATUS_STATE p) = 0 ∧ s.flag (SPN_STATUS_MEASURE_BUSY p) = true ∧ s.dieHeld = false then
    some (Config.progress s.freeCtr % 4)
  else none

/-- What half-bridge `h` (0 U, 1 V, 2 W) of a port does now. -/
def State.halfBridge (s : State) (p : Fin 8) (h : Fin 3) : HalfBridge :=
  let x := s.spn[p]
  let st := s.bridgeState p
  if s.die.cause ≠ 0 then .rectify
  else if s.dieHeld then .highZ
  else if x.heldOff.getLsbD h.val then .heldOff
  else if st = 8 then (if x.chopped then .highZ else .lowChopped)
  else if 2 ≤ st ∧ st ≤ 5 then
    let (hi, lo) := sixStep x.step
    if h.val = hi then (if x.chopped then .highZ else .pwm x.onTime) else if h.val = lo then .lowOn else .highZ
  else
    match s.measuring p with
    | some k => if k < 3 ∧ (h.val = k ∨ h.val = (k + 1) % 3) then .measure else .highZ
    | none => .highZ

/-- What a port's VCM output does (R192, R200, R240, R243): high-Z, a drive of the power die, or the command in LSBs. -/
inductive VcmOut
  | highZ
  | drive (d : VcmPhase)
  | command (lsb : Int)
  deriving DecidableEq, Repr

/-- The VCM output of a port now: the phase of a drive that its oscillator has come to, which is a free value (log entry 9);
the 100 mA of a measurement (R195); or the command. -/
def State.vcmOut (s : State) (p : Fin 8) : VcmOut :=
  let ds := s.srv[p].drive
  match ds[Config.progress s.freeCtr % ds.length]? with
  | some d => .drive d
  | none =>
    if s.measuring p = some 3 then .drive (.current 1000 100)
    else if s.dieHeld || s.flag (VCM_STATUS_FAULT_OC p) || !s.flag (VCM_CTRL_ENABLE p) || s.srv[p].hiZ then .highZ
    else .command s.srv[p].cmd

end Sys2Proof.Machine
end

