-- ==== Sys2Proof/Machine/Timers.lean ====
section
/-! DEFINITION. The meanings of chapter 14's timers, watchdogs, Console UART, GPIO and thermal output. -/

namespace Sys2Proof.Machine
open Sys2Proof

/-- A timer that has reached 0 raises its source, and reloads or stops (R641). -/
def State.timerExpire (s : State) (n : Fin 4) : State :=
  if s.io.timerDue.getLsbD n then
    let s := pulse n.val (s.modIo (fun i => { i with timerDue := i.timerDue &&& ~~~BitVec.ofNat 4 (2 ^ n.val) }))
    if s.flag (TIMER_CTRL_PERIODIC n) then s.wr (TIMER_COUNT_COUNT n) (s.rd (TIMER_LOAD_LOAD n)) else s.down (TIMER_CTRL_EN n)
  else s

/-- A count of milliseconds, of which 0 acts as 1. -/
def atLeast1 (n : Nat) : Nat := max 1 n

/-- The source of a watchdog's first stage (R643). -/
def wdtSource (c : Nat) : Nat := 125 + c

/-- A watchdog whose first stage has run out raises its source and counts its second (R643). -/
def State.wdtStage1 (s : State) (c : Fin 2) : State :=
  if s.flag (WDT_CTRL_ARM c) && s.rd (WDT_STATUS_STAGE c) == 0 && s.rd (WDT_STATUS_COUNT c) == 0 then
    pulse (wdtSource c) ((s.up (WDT_STATUS_STAGE c)).wr (WDT_STATUS_COUNT c) (atLeast1 (s.rd (WDT_TIME_STAGE2 c))))
  else s

/-- A watchdog whose second stage has run out resets its core (R643). -/
def State.wdtStage2 (s : State) (c : Fin 2) : State :=
  if s.flag (WDT_CTRL_ARM c) && s.rd (WDT_STATUS_STAGE c) == 1 && s.rd (WDT_STATUS_COUNT c) == 0 then
    (s.down (WDT_STATUS_STAGE c)).coreReset c (if c = 0 then SYS_RESET_CAUSE_WDT_A else SYS_RESET_CAUSE_WDT_B)
  else s

/-- Whether a core stands in WFI in this millisecond: in IDLE and in the Boot ROM's wait it does; elsewhere that lies with the
core's program, which no command shows, and is a free value (log entry 3). -/
def State.inWfi (s : State) (c : Fin 2) : Bool × State :=
  if s.core[c].wfi || !s.flag (WDT_CTRL_PAUSE_WFI c) || !s.coreOn c || s.core[c].debug then (s.core[c].wfi, s)
  else
    let (n, s) := s.draw
    (n.testBit 0, s)

/-- Whether a watchdog's count holds (R646), its core standing in WFI or not. -/
def State.wdtPaused (s : State) (c : Fin 2) (wfi : Bool) : Bool :=
  !s.on 1 || (s.flag (WDT_CTRL_PAUSE_WFI c) && wfi && !s.irqPending c) || (s.flag (WDT_CTRL_PAUSE_DEBUG c) && s.core[c].debug)

/-- One millisecond of a watchdog; an expiry that the last one reached comes first. -/
def State.wdtTick (s : State) (c : Fin 2) : State :=
  let s := s.wdtStage1 c
  if s.flag (WDT_CTRL_ARM c) then
    let (w, s) := s.inWfi c
    if s.wdtPaused c w then s else s.wr (WDT_STATUS_COUNT c) (s.rd (WDT_STATUS_COUNT c) - 1)
  else s

/-- One tick of a timer. -/
def State.timerTick (s : State) (n : Fin 4) : State :=
  let s := s.timerExpire n
  let k := s.rd (TIMER_COUNT_COUNT n)
  if s.flag (TIMER_CTRL_EN n) && decide (0 < k) then
    let s := s.wr (TIMER_COUNT_COUNT n) (k - 1)
    if k = 1 then s.modIo (fun i => { i with timerDue := i.timerDue ||| BitVec.ofNat 4 (2 ^ n.val) }) else s
  else s

/-- One tick of MTIME with its timers, and every thousandth with the watchdogs (R638, R641, R643). -/
def State.mtimeTick (s : State) : State :=
  let s := s.modIo (fun i => { i with mtime := (i.mtime + 1) % 2 ^ 64 })
  let s := (((s.timerTick 0).timerTick 1).timerTick 2).timerTick 3
  if s.io.mtime % 1000 = 0 then (s.wdtTick 0).wdtTick 1 else s

/-- MTIME_TICK. -/
def execMtimeTick (s : State) : Host.Outcome State Fault Refusal := fin (if s.on 0 then s.mtimeTick else s)

/-- TIMER_EXPIRY (R641). -/
def execTimerExpiry (n : Fin 4) (s : State) : Host.Outcome State Fault Refusal := fin (s.timerExpire n)

/-- A TIMERn_LOAD write (R642). -/
def State.timerLoad (s : State) (n : Fin 4) (v : Word) : State :=
  let s := s.wr (TIMER_LOAD_LOAD n) v.toNat
  if s.flag (TIMER_CTRL_EN n) then s else s.wr (TIMER_COUNT_COUNT n) v.toNat

/-- TIMER_LOAD_WRITE. -/
def execTimerLoadWrite (n : Fin 4) (v : Word) (s : State) : Host.Outcome State Fault Refusal :=
  fin (s.regCmd (TIMER_LOAD_WORD n) (fun s => s.timerLoad n v))

/-- A TIMERn_CTRL write (R642). -/
def State.timerCtrl (s : State) (n : Fin 4) (v : Word) : State :=
  let s := (s.put (TIMER_CTRL_PERIODIC n) (v.getLsbD 1)).put (TIMER_CTRL_EN n) (v.getLsbD 0)
  if v.getLsbD 0 && s.rd (TIMER_COUNT_COUNT n) == 0 then s.wr (TIMER_COUNT_COUNT n) (s.rd (TIMER_LOAD_LOAD n)) else s

/-- TIMER_CTRL_WRITE. -/
def execTimerCtrlWrite (n : Fin 4) (v : Word) (s : State) : Host.Outcome State Fault Refusal :=
  fin (s.regCmd (TIMER_CTRL_WORD n) (fun s => s.timerCtrl n v))

/-- A read of MTIME_LO (R640): MTIME_HI keeps the upper half of what is captured. -/
def State.mtimeCapture (s : State) : State := s.wr MTIME_HI_TIME (s.io.mtime / 2 ^ 32)

/-- MTIME_CAPTURE_READ. -/
def execMtimeCaptureRead (s : State) : Host.Outcome State Fault Refusal :=
  fin (s.regAsk MTIME_LO_WORD (fun s => s.mtimeCapture.answer (s.io.mtime % 2 ^ 32)))

/-- WDT_STAGE1_EXPIRY. -/
def execWdtStage1Expiry (c : Fin 2) (s : State) : Host.Outcome State Fault Refusal := fin (s.wdtStage1 c)

/-- WDT_STAGE2_EXPIRY. -/
def execWdtStage2Expiry (c : Fin 2) (s : State) : Host.Outcome State Fault Refusal := fin (s.wdtStage2 c)

/-- A WDT_x_KICK write (R644, R645). -/
def State.wdtKick (s : State) (c : Fin 2) (v : Word) : State :=
  if getF v 0 16 = 0x6D1A then (s.wr (WDT_STATUS_COUNT c) (atLeast1 (s.rd (WDT_TIME_STAGE1 c)))).down (WDT_STATUS_STAGE c)
  else s.inc (WDT_STATUS_BAD_KICKS c)

/-- WDT_KICK. -/
def execWdtKick (c : Fin 2) (v : Word) (s : State) : Host.Outcome State Fault Refusal :=
  fin (s.regCmd (WDT_KICK_WORD c) (fun s => s.wdtKick c v))

/-- A WDT_x_CTRL write (R647): once armed it changes nothing. -/
def State.wdtCtrl (s : State) (c : Fin 2) (v : Word) : State :=
  if s.flag (WDT_CTRL_ARM c) then s
  else
    let s := (s.put (WDT_CTRL_PAUSE_DEBUG c) (v.getLsbD 2)).put (WDT_CTRL_PAUSE_WFI c) (v.getLsbD 1)
    if v.getLsbD 0 then
      ((s.up (WDT_CTRL_ARM c)).wr (WDT_STATUS_COUNT c) (atLeast1 (s.rd (WDT_TIME_STAGE1 c)))).down (WDT_STATUS_STAGE c)
    else s

/-- WDT_ARM. -/
def execWdtArm (c : Fin 2) (v : Word) (s : State) : Host.Outcome State Fault Refusal :=
  fin (s.regCmd (WDT_CTRL_WORD c) (fun s => s.wdtCtrl c v))

/-! ## Console UART -/

/-- UART_RX_BYTE (R654). -/
def execUartRxByte (b : Byte) (stop : Bool) (s : State) : Host.Outcome State Fault Refusal :=
  fin (if s.runs 1 && s.flag UART_CTRL_RX_EN then
    let s := if stop then s else s.up UART_STATUS_FRAMING
    if 16 ≤ s.io.uartRx.length then s.up UART_STATUS_OVERRUN
    else (s.modIo (fun i => { i with uartRx := i.uartRx ++ [b] })).uartSync
  else s)

/-- A UART_DATA write; a full FIFO drops it. -/
def State.uartWrite (s : State) (v : Word) : State :=
  if 16 ≤ s.io.uartTx.length then s
  else (s.modIo (fun i => { i with uartTx := i.uartTx ++ [BitVec.ofNat 8 (getF v 0 8)] })).uartSync

/-- UART_TX_WRITE (R653). -/
def execUartTxWrite (v : Word) (s : State) : Host.Outcome State Fault Refusal :=
  fin (s.regCmd UART_DATA_WORD (fun s => s.uartWrite v))

/-- A UART_DATA read: the oldest byte, 0 where there is none. -/
def State.uartRead (s : State) : Nat × State :=
  match s.io.uartRx with
  | [] => (0, s)
  | b :: r => (b.toNat, (s.modIo (fun i => { i with uartRx := r })).uartSync)

/-- UART_RX_READ (R654). -/
def execUartRxRead (s : State) : Host.Outcome State Fault Refusal :=
  fin (s.regAsk UART_DATA_WORD (fun s =>
    let (v, s) := s.uartRead
    s.answer v))

/-- UART_TX_BYTE_SENT (R655). -/
def execUartTxByteSent (s : State) : Host.Outcome State Fault Refusal :=
  fin (if s.runs 1 && s.flag UART_CTRL_TX_EN then (s.modIo (fun i => { i with uartTx := i.uartTx.tail })).uartFeed else s)

/-! ## GPIO -/

/-- The levels of the sixteen pins (R656). -/
def State.gpioLevel (s : State) : BitVec 16 :=
  let oe := BitVec.ofNat 16 (s.rd GPIO_OE_OE)
  (BitVec.ofNat 16 (s.rd GPIO_OUT_OUT) &&& oe) ||| (s.io.gpioPins &&& ~~~oe)

/-- The enabled edges since the pins had other levels (R657): GPIO_STAT, and the wake source of pins 0 to 3. -/
def State.gpioFollow (s : State) (before : BitVec 16) : State :=
  let now := s.gpioLevel
  let rise := now &&& ~~~before &&& BitVec.ofNat 16 (s.rd GPIO_EDGE_RISE_EN)
  let fall := before &&& ~~~now &&& BitVec.ofNat 16 (s.rd GPIO_EDGE_FALL_EN)
  let e := (rise ||| fall).toNat
  let s := if s.on 1 then s.wr GPIO_STAT_STAT (s.rd GPIO_STAT_STAT ||| e) else s
  if e % 16 = 0 then s else s.wake 5

/-- GPIO_EDGE (R657). -/
def execGpioEdge (pin : Fin 16) (level : Bool) (s : State) : Host.Outcome State Fault Refusal :=
  let b := BitVec.ofNat 16 (2 ^ pin.val)
  fin ((s.modIo (fun i => { i with gpioPins := if level then i.gpioPins ||| b else i.gpioPins &&& ~~~b })).gpioFollow s.gpioLevel)

/-! ## Thermal output -/

/-- Whether THERM_N is asserted (R658). -/
def State.thermN (s : State) : Bool :=
  decide (s.rdI THERM_CFG_THRESH ≤ s.rdI THERM_STATUS_TEMP) || s.flag PS_STATUS_THERM_SHUTDOWN

/-- LOGIC_TEMP_UPDATE (R658, R1071): below 100 degrees a thermal shutdown is no longer held. -/
def execLogicTempUpdate (t : BitVec 8) (s : State) : Host.Outcome State Fault Refusal :=
  let s := (s.wr THERM_STATUS_TEMP t.toNat).modIo (fun i => { i with tLogic := t.toInt })
  fin (if t.toInt < 100 then s.modPw (fun p => { p with thermHold := false }) else s)

end Sys2Proof.Machine
end

