-- ==== Sys2Proof/Machine/Usb.lean ====
section
/-! DEFINITION. The meanings of chapter 20: the USB hub and storage function. -/

namespace Sys2Proof.Machine
open Sys2Proof

/-- HUB_STANDARD_REQUEST (R876). -/
def execHubStandardRequest (setup : Vector Byte 8) (s : State) : Host.Outcome State Fault Refusal :=
  fin (s.usbCycle s.hubLive (fun s => s.hubRequest setup.toList))

/-- HUB_GET_STATUS (R876): local power is good and there is no over-current of the hub as a whole. -/
def execHubGetStatus (s : State) : Host.Outcome State Fault Refusal :=
  fin (s.usbCycle s.hubLive (fun s => s.reply .data (zerosB 4)))

/-- GET_PORT_STATUS (R876). -/
def execGetPortStatus (n : Fin 5) (s : State) : Host.Outcome State Fault Refusal :=
  fin (s.usbCycle s.hubLive (fun s =>
    s.reply .data (leBytes 2 (s.rd (USB_PORT_STATUS n)) ++ leBytes 2 (s.rd (USB_PORT_CHANGE n)))))

/-- SET_PORT_FEATURE (R877). -/
def execSetPortFeature (n : Fin 5) (f : BitVec 8) (s : State) : Host.Outcome State Fault Refusal :=
  fin (s.usbCycle s.hubLive (fun s => s.setPortFeature n f.toNat))

/-- CLEAR_PORT_FEATURE (R877). -/
def execClearPortFeature (n : Fin 5) (f : BitVec 8) (s : State) : Host.Outcome State Fault Refusal :=
  fin (s.usbCycle s.hubLive (fun s => s.clearPortFeature n f.toNat))

/-- CLEAR_TT_BUFFER (R876, R879). -/
def execClearTtBuffer (i : Fin 4) (s : State) : Host.Outcome State Fault Refusal :=
  fin (s.usbCycle s.hubLive (fun s =>
    (s.modUsb (fun u => { u with ttBusy := u.ttBusy &&& ~~~BitVec.ofNat 4 (2 ^ i.val) })).reply .ack []))

/-- RESET_TT (R876, R879). -/
def execResetTt (s : State) : Host.Outcome State Fault Refusal :=
  fin (s.usbCycle s.hubLive (fun s => (s.modUsb (fun u => { u with ttBusy := 0 })).reply .ack []))

/-- HUB_UNSUPPORTED_REQUEST (R876). -/
def execHubUnsupportedRequest (s : State) : Host.Outcome State Fault Refusal :=
  fin (s.usbCycle s.hubLive (fun s => s.reply .stall []))

/-- DOWNSTREAM_OVERCURRENT (R878, R933). -/
def execDownstreamOvercurrent (n : Fin 4) (s : State) : Host.Outcome State Fault Refusal :=
  fin (if s.runs 12 then ((s.portKeep n 0).setBit (USB_PORT_STATUS n) 3).portChange n 3 else s)

/-- STATUS_CHANGE_POLL (R880). The hub as a whole has no change to report. -/
def execStatusChangePoll (s : State) : Host.Outcome State Fault Refusal :=
  fin (s.usbCycle s.hubLive (fun s =>
    let m := maskOf 5 (fun n => s.rd (USB_PORT_CHANGE n) != 0)
    if s.usb.hubHalt then s.reply .stall [] else if m = 0 then s.reply .nak [] else s.reply .data (leBytes 1 (2 * m))))

/-- DOWNSTREAM_PORT_CHANGE (R880): a powered port sees a device come or go. -/
def execDownstreamPortChange (n : Fin 4) (connect : Bool) (speed : UsbSpeed) (s : State) :
    Host.Outcome State Fault Refusal :=
  fin (if s.runs 12 && s.bit (USB_PORT_STATUS n) 8 then
    let st : Nat := if connect then
        1 + (match speed with | .full => 0 | .low => 512 | .high => 1024)
      else 0
    (s.wr (USB_PORT_STATUS n) ((s.rd (USB_PORT_STATUS n) &&& 0x0108) ||| st)).portChange n 0
  else s)

/-- DOWNSTREAM_RESUME (R927): upstream where the hub is suspended and its remote wake is enabled, else the port leaves
its own suspend. -/
def execDownstreamResume (n : Fin 4) (s : State) : Host.Outcome State Fault Refusal :=
  fin (if s.hubLive = false then s
    else if s.flag USB_STATUS_SUSPENDED then
      (if s.flag USB_STATUS_RWE_HUB then s.modUsb (fun u => { u with driving := true }) else s)
    else s.portResume n)

/-- FN_SET_ADDRESS (R884). -/
def execFnSetAddress (a : BitVec 7) (s : State) : Host.Outcome State Fault Refusal :=
  fin (s.usbCycle s.fnLive (fun s =>
    ((s.setup ([0, 5] ++ leBytes 2 a.toNat ++ zerosB 4)).wr USB_STATUS_FN_ADDR a.toNat).reply .ack []))

/-- FN_GET_STATUS (R884, R921): the function is self-powered. -/
def execFnGetStatus (r : Recipient) (s : State) : Host.Outcome State Fault Refusal :=
  fin (s.usbCycle s.fnLive (fun s =>
    match r with
    | .device => (s.setup [0x80, 0, 0, 0, 0, 0, 2, 0]).reply .data [BitVec.ofNat 8 (1 + 2 * s.rd USB_STATUS_RWE_FN), 0]
    | .interface => (s.setup [0x81, 0, 0, 0, 0, 0, 2, 0]).reply .data [0, 0]
    | .endpoint e => (s.setup [0x82, 0, 0, 0, 0, 0, 2, 0]).reply .data [BitVec.ofNat 8 (s.rd (USB_EP_CTL_HALT e)), 0]))

/-- FN_SET_FEATURE (R893, R884). -/
def execFnSetFeature (f : FnFeature) (s : State) : Host.Outcome State Fault Refusal :=
  fin (s.usbCycle s.fnLive (fun s =>
    match f with
    | .endpointHalt e => ((s.setup [2, 3, 0, 0, 0, 0, 0, 0]).up (USB_EP_CTL_HALT e)).reply .ack []
    | .remoteWakeup => ((s.setup [0, 3, 1, 0, 0, 0, 0, 0]).up USB_STATUS_RWE_FN).reply .ack []
    | .testMode k => ((s.setup [0, 3, 2, 0, 0, k, 0, 0]).modUsb (fun u => { u with test := k.toNat })).reply .ack []))

/-- FN_CLEAR_FEATURE (R893, R897): EP1 and EP2 stay halted after an invalid CBW. TEST_MODE is not cleared so. -/
def execFnClearFeature (f : FnFeature) (s : State) : Host.Outcome State Fault Refusal :=
  fin (s.usbCycle s.fnLive (fun s =>
    match f with
    | .endpointHalt e =>
      let s := (s.setup [2, 1, 0, 0, 0, 0, 0, 0]).down (USB_EP_CTL_TOGGLE e)
      (if s.usb.badCbw && (e == 1 || e == 2) then s else s.down (USB_EP_CTL_HALT e)).reply .ack []
    | .remoteWakeup => ((s.setup [0, 1, 1, 0, 0, 0, 0, 0]).down USB_STATUS_RWE_FN).reply .ack []
    | .testMode k => (s.setup [0, 1, 2, 0, 0, k, 0, 0]).reply .stall []))

/-- A request that the block does not answer itself: in recovery the Boot ROM answers it (R140), else it is posted for
firmware (R885). -/
def State.fnRequest (s : State) (p out : List Byte) : State :=
  if s.boot.stage = .recovery ∧ s.runs 1 = true then s.dfuRequest p out else s.postRequest p out

/-- CONTROL_REQUEST_POST (R885, R887, R888). A request that R884 has the block answer is not one of these. -/
def execControlRequestPost (setup : Vector Byte 8) (out : List Byte) (s : State) : Host.Outcome State Fault Refusal :=
  fin (s.usbCycle (s.fnLive && !s.ownRequest setup.toList) (fun s => s.fnRequest setup.toList out))

/-- EP0_SEND (R886, R887). -/
def execEp0Send (v : Word) (s : State) : Host.Outcome State Fault Refusal :=
  fin (s.regCmd USB_EP0_CTL_WORD (fun s => s.ep0Answer 1 v))

/-- EP0_ACK (R886, R887). -/
def execEp0Ack (v : Word) (s : State) : Host.Outcome State Fault Refusal :=
  fin (s.regCmd USB_EP0_CTL_WORD (fun s => s.ep0Answer 2 v))

/-- EP0_STALL (R886, R887). -/
def execEp0Stall (v : Word) (s : State) : Host.Outcome State Fault Refusal :=
  fin (s.regCmd USB_EP0_CTL_WORD (fun s => s.ep0Answer 3 v))

/-- DEBUG_READ_REQUEST (R890, R891): posted like any other request while DBG_EN is 0. -/
def execDebugReadRequest (setup : Vector Byte 8) (s : State) : Host.Outcome State Fault Refusal :=
  fin (s.usbCycle s.fnLive (fun s =>
    if s.flag USB_CTRL_DBG_EN = false then s.fnRequest setup.toList []
    else
      let s := s.setup setup.toList
      match debugWords setup.toList with
      | none => s.reply .stall []
      | some as =>
        match debugRead as [] s with
        | (some d, s) => s.reply .data d
        | (none, s) => s.reply .stall []))

/-- DEBUG_WRITE_REQUEST (R890, R891). -/
def execDebugWriteRequest (setup : Vector Byte 8) (out : List Byte) (s : State) : Host.Outcome State Fault Refusal :=
  fin (s.usbCycle s.fnLive (fun s =>
    if s.flag USB_CTRL_DBG_EN = false then s.fnRequest setup.toList out
    else
      let s := s.setup setup.toList
      match debugWords setup.toList with
      | none => s.reply .stall []
      | some as =>
        match debugWrite as out s with
        | (true, s) => s.reply .ack []
        | (false, s) => s.reply .stall []))

/-- CBW_RECEIVED (R896, R897): a transfer on EP2 in BOT. -/
def execCbwReceived (pkt : List Byte) (s : State) : Host.Outcome State Fault Refusal :=
  fin (s.usbCycle (s.fnLive && !s.flag USB_MSE_CFG_UAS && s.flag (USB_EP_CFG_EN 2)) (fun s => s.cbw pkt))

/-- UAS_COMMAND_IU (R898). -/
def execUasCommandIu (pkt : List Byte) (s : State) : Host.Outcome State Fault Refusal :=
  fin (s.usbCycle (s.fnLive && s.flag (USB_EP_CFG_EN 4)) (fun s => (s.uasIu (sliceB ([1] ++ pkt.drop 1) 0 32)).usbDone))

/-- UAS_TASK_MANAGEMENT_IU (R898). -/
def execUasTaskManagementIu (pkt : List Byte) (s : State) : Host.Outcome State Fault Refusal :=
  fin (s.usbCycle (s.fnLive && s.flag (USB_EP_CFG_EN 4)) (fun s => (s.uasIu (sliceB ([5] ++ pkt.drop 1) 0 16)).usbDone))

/-- MSE_START_HQE (R899, R901). -/
def execMseStartHqe (v : Word) (s : State) : Host.Outcome State Fault Refusal :=
  fin (s.regCmd USB_MSE_START_WORD (fun s => s.mseStart 0 v))

/-- MSE_START_BUFFER (R901). -/
def execMseStartBuffer (v : Word) (s : State) : Host.Outcome State Fault Refusal :=
  fin (s.regCmd USB_MSE_START_WORD (fun s => s.mseStart 1 v))

/-- MSE_START_NO_DATA (R901). -/
def execMseStartNoData (v : Word) (s : State) : Host.Outcome State Fault Refusal :=
  fin (s.regCmd USB_MSE_START_WORD (fun s => s.mseStart 2 v))

/-- MSE_START_TM_RESPONSE (R900). -/
def execMseStartTmResponse (v : Word) (s : State) : Host.Outcome State Fault Refusal :=
  fin (s.regCmd USB_MSE_START_WORD (fun s => s.mseStart 3 v))

/-- DATA_PHASE_START (R904, R903). -/
def execDataPhaseStart (s : State) : Host.Outcome State Fault Refusal := fin s.phaseStart

/-- The packet on a data-in token: the phase's next, or in BOT a waiting CSW (R905, R908). -/
def State.ep1In (s : State) (ack : Bool) : State :=
  match s.usb.cur with
  | some c =>
    if s.usb.ctx[c].toHost && !s.iuWaits && s.epHeld 1 != 0 then
      let n := min (s.rd (USB_EP_CFG_MAXPKT 1)) (s.epHeld 1)
      let kind0 := s.usb.ctx[c].kind == 0
      s.sendPacket 1 n ack (fun s =>
        let s := s.modMse c (fun x => { x with moved := x.moved + n })
        (if kind0 && (s.ctxXfer c).isSome then s.modCur 1 (fun x => { x with given := x.given + n }) else s).usbDone)
    else s.reply .nak []
  | none =>
    match s.usb.out, s.flag USB_MSE_CFG_UAS with
    | i :: _, false => s.reply .data i.bytes
    | _, _ => s.reply .nak []

/-- The packet on a UAS status token; an IU that is no context's status leaves with the host's acknowledgement. -/
def State.ep3In (s : State) (ack : Bool) : State :=
  match s.usb.out, s.flag USB_MSE_CFG_UAS with
  | i :: r, true =>
    (if ack && i.ctx.isNone then ((s.modUsb (fun u => { u with out := r })).flip 3).usbDone else s).reply .data i.bytes
  | _, _ => s.reply .nak []

/-- The packet on a vendor pipe token (R918). -/
def State.ep6In (s : State) (ack : Bool) : State :=
  let m := s.rd (USB_EP_CFG_MAXPKT 6)
  if m ≤ s.epHeld 6 then s.sendPacket 6 m ack id
  else if s.usb.vendorEnd then
    s.sendPacket 6 (s.epHeld 6) ack (fun s => s.modUsb (fun u => { u with vendorEnd := false }))
  else s.reply .nak []

/-- USB_IN_TOKEN (R905, R892). -/
def execUsbInToken (e : Fin 7) (ack : Bool) (s : State) : Host.Outcome State Fault Refusal :=
  fin (s.usbCycle (s.fnLive && s.flag (USB_EP_CFG_EN e) && (e == 0 || s.flag (USB_EP_CFG_DIR e))) (fun s =>
    if e = 0 then s.ep0In ack
    else if s.halted e then s.reply .stall []
    else if e = 1 then s.ep1In ack
    else if e = 3 then s.ep3In ack
    else if e = 6 then s.ep6In ack
    else s.reply .nak []))

/-- A packet of the data phase from the host (R906): bytes beyond what the phase takes are not kept. -/
def State.ep2Out (s : State) (c : Fin 16) (d : List Byte) : State :=
  let x := s.usb.ctx[c]
  if s.iuWaits || x.toHost || s.usb.passDue || decide (s.epRoom 2 < d.length) || decide (x.len ≤ x.filled) then s.reply .nak []
  else
    let k := d.take (x.len - x.filled)
    let s := ((s.epPut 2 (clean k)).flip 2).modMse c (fun x => { x with filled := x.filled + k.length })
    let due := decide (x.len ≤ x.filled + k.length) || decide (d.length < s.rd (USB_EP_CFG_MAXPKT 2))
      || decide (s.epRoom 2 < s.rd (USB_EP_CFG_MAXPKT 2))
    let s := s.accepted 2
    (s.modUsb (fun u => { u with passDue := due })).usbDone

/-- A packet of the vendor pipe put into EP5's buffer (R917). -/
def State.ep5Out (s : State) (d : List Byte) : State :=
  if s.epRoom 5 < d.length then s.reply .nak []
  else
    let short := decide (d.length < s.rd (USB_EP_CFG_MAXPKT 5))
    (((s.epPut 5 (clean d)).flip 5).modUsb (fun u => { u with pkts := u.pkts ++ [(d.length, short)] })).accepted 5

/-- USB_OUT_PACKET (R906, R892). A packet longer than the endpoint's maximum is not answered. -/
def execUsbOutPacket (e : Fin 7) (d : List Byte) (s : State) : Host.Outcome State Fault Refusal :=
  fin (s.usbCycle (s.fnLive && s.flag (USB_EP_CFG_EN e) && (e == 0 || !s.flag (USB_EP_CFG_DIR e))
      && decide (d.length ≤ s.rd (USB_EP_CFG_MAXPKT e))) (fun s =>
    if e = 0 then s.ep0Out
    else if s.halted e then s.reply .stall []
    else if e = 2 then
      match s.usb.cur with
      | some c => s.ep2Out c d
      | none => if s.flag USB_MSE_CFG_UAS then s.reply .nak [] else s.cbw d
    else if e = 4 then (s.uasIu d).usbDone
    else if e = 5 then s.ep5Out d
    else s.reply .nak []))

/-- MSE_COMPLETION (R907 to R909). -/
def execMseCompletion (s : State) : Host.Outcome State Fault Refusal := fin s.takeCompletion

/-- MSE_FINISH (R909): the status of a HELD context. -/
def execMseFinish (v : Word) (s : State) : Host.Outcome State Fault Refusal :=
  let c : Fin 16 := ⟨getF v 0 4 % 16, Nat.mod_lt _ (by decide)⟩
  fin (s.regCmd USB_MSE_FINISH_WORD (fun s => if s.ctxState c = 4 then (s.sendStatus c (s.reg USB_MSE_SENSE_WORD.addr).toNat).usbDone else s))

/-- STATUS_ACKNOWLEDGED (R911): the status at the head of its endpoint, which is not halted. -/
def execStatusAcknowledged (c : Fin 16) (s : State) : Host.Outcome State Fault Refusal :=
  let e : Fin 7 := if s.flag USB_MSE_CFG_UAS then 3 else 1
  fin (match s.usb.out with
    | i :: r =>
      if i.ctx = some c ∧ s.halted e = false ∧ s.fnLive = true then
        (((s.modUsb (fun u => { u with out := r })).flip e).setCtx c 0).usbDone
      else s
    | [] => s)

/-- BULK_ONLY_RESET (R912). -/
def execBulkOnlyReset (s : State) : Host.Outcome State Fault Refusal :=
  fin (s.usbCycle s.fnLive (fun s =>
    let p : List Byte := [0x21, 0xFF, 0, 0, 0, 0, 0, 0]
    (((s.setup p).mseReset).postControl p false true 0).reply .ack []))

/-- UAS_MODE_WRITE (R912): the UAS bit of a word written to USB_MSE_CFG. -/
def execUasModeWrite (v : Word) (s : State) : Host.Outcome State Fault Refusal :=
  fin (s.regCmd USB_MSE_CFG_WORD (fun s => if s.flag USB_MSE_CFG_UAS = v.getLsbD 0 then s else (s.put USB_MSE_CFG_UAS (v.getLsbD 0)).mseReset))

/-- The bytes of EP5's buffer up to the end of the first transfer, and whether that end is there. -/
def transferAvail : List (Nat × Bool) → Nat × Bool
  | [] => (0, false)
  | (n, true) :: _ => (n, true)
  | (n, false) :: r => let (m, e) := transferAvail r; (n + m, e)

/-- The packets left after `n` bytes of the first transfer; its end goes with its last byte. -/
def dropBytes : Nat → List (Nat × Bool) → List (Nat × Bool)
  | _, [] => []
  | n, (k, e) :: r => if k ≤ n then (if e then r else dropBytes (n - k) r) else (k - n, e) :: r

/-- VENDOR_PIPE_OUT (R917): one ring 5 entry, once 30 bytes with more to follow or a transfer's end is there. -/
def execVendorPipeOut (s : State) : Host.Outcome State Fault Refusal :=
  let (m, ends) := transferAvail s.usb.pkts
  let n := min 30 m
  let last := ends && decide (m ≤ 30)
  fin (if last = false ∧ m ≤ 30 then s
    else
      match s.enqTest 5 with
      | .ok =>
        let (d, s) := State.epBytes 5 s.usb.ep[(5 : Fin 7)].lo n s
        let e := (BitVec.ofNat 8 n, false) :: (if last then 1 else 0, false) :: d
        ((s.push 5 e).epTake 5 n).modUsb (fun u => { u with pkts := dropBytes n u.pkts })
      | _ => (s.enqueueP 5 []).2)

/-- VENDOR_PIPE_IN (R918): one ring 6 entry into EP6's buffer. -/
def execVendorPipeIn (s : State) : Host.Outcome State Fault Refusal :=
  fin (if s.usb.vendorEnd || decide (s.epRoom 6 < 30) || (s.ring 6).consumer != 5 then s
    else
      match s.dequeue 6 with
      | (none, s) => s
      | (some e, s) =>
        let n := min 30 (fieldB (bits e) 0 1)
        (s.epPut 6 ((e.drop 2).take n)).modUsb (fun u => { u with vendorEnd := (fieldB (bits e) 1 1).testBit 0 }))

/-- USB_SUSPEND (R920, R922): the ports that were enabled are suspended with the hub. -/
def execUsbSuspend (s : State) : Host.Outcome State Fault Refusal :=
  fin (if s.hubLive && !s.flag USB_STATUS_SUSPENDED then
    let m := maskOf 5 (fun n => s.bit (USB_PORT_STATUS n) 1 && !s.bit (USB_PORT_STATUS n) 2)
    (((s.up USB_STATUS_SUSPENDED).up USB_STATUS_FN_SUSPENDED).modUsb (fun u =>
      { u with globalSuspended := BitVec.ofNat 5 m })).usbEvent 1
  else s)

/-- USB_RESUME (R925). -/
def execUsbResume (s : State) : Host.Outcome State Fault Refusal :=
  fin (if s.hubLive && s.flag USB_STATUS_SUSPENDED then
    let s := (s.down USB_STATUS_SUSPENDED).put USB_STATUS_FN_SUSPENDED (s.bit (USB_PORT_STATUS 4) 2)
    (s.modUsb (fun u => { u with globalSuspended := 0, driving := false, rwakeWait := none })).usbEvent 2
  else s)

/-- REMOTE_WAKE_REQUEST (R926): the RWAKE bit of a word written to USB_CTRL. -/
def execRemoteWakeRequest (v : Word) (s : State) : Host.Outcome State Fault Refusal :=
  let all := s.flag USB_STATUS_SUSPENDED
  fin (s.regCmd USB_CTRL_WORD (fun s => if v.getLsbD 2 = false then s
    else if s.flag USB_STATUS_FN_SUSPENDED && s.flag USB_STATUS_RWE_FN && (!all || s.flag USB_STATUS_RWE_HUB) then
      s.modUsb (fun u => { u with rwakeWait := some all })
    else s.usbError 8))

/-- REMOTE_WAKE_START (R927). -/
def execRemoteWakeStart (s : State) : Host.Outcome State Fault Refusal :=
  fin (match s.usb.rwakeWait with
    | some true => s.modUsb (fun u => { u with rwakeWait := none, driving := true })
    | some false => (s.modUsb (fun u => { u with rwakeWait := none })).portResume 4
    | none => s)

/-- USB_BUS_RESET (R928, R874). -/
def execUsbBusReset (chirp : Bool) (s : State) : Host.Outcome State Fault Refusal :=
  fin (if s.hubLive then s.usbReset (chirp && !s.flag USB_CTRL_FS_ONLY) else s)

/-- VBUS_LOSS (R930). -/
def execVbusLoss (s : State) : Host.Outcome State Fault Refusal :=
  fin (if s.runs 12 && s.flag USB_STATUS_VBUS then ((s.down USB_STATUS_VBUS).usbReset false).usbEvent 6 else s)

/-- VBUS_ARRIVAL (R929). -/
def execVbusArrival (s : State) : Host.Outcome State Fault Refusal := fin (if s.runs 12 then s.up USB_STATUS_VBUS else s)

/-- FN_ATTACH_WRITE (R881): the FN_ATTACH bit of a word written to USB_CTRL. -/
def execFnAttachWrite (v : Word) (s : State) : Host.Outcome State Fault Refusal :=
  fin (s.regCmd USB_CTRL_WORD (fun s => if s.flag USB_CTRL_FN_ATTACH = v.getLsbD 1 then s
    else ((s.put USB_CTRL_FN_ATTACH (v.getLsbD 1)).wr (USB_PORT_STATUS 4) (256 + b2n (v.getLsbD 1))).portChange 4 0))

end Sys2Proof.Machine
end

