-- ==== Sys2Proof/Machine/RegWrite.lean ====
section
/-! DEFINITION. Writes to the register pages: the access codes (R13 to R20), and what a write to a register does
beyond its fields. A writer is 0 Core A, 1 Core B, 2 the debug transport. -/

namespace Sys2Proof.Machine
open Sys2Proof

/-! ## Plain fields -/

/-- Whether a value is not reserved for a field (R14). -/
def FSpec.ok (f : FSpec) (n : Nat) : Bool := f.legal.isEmpty || f.legal.any (fun r => decide (r.1 ≤ n ∧ n ≤ r.2))

/-- A field of a written word placed by its access code (Table 0.5, R14, R20). -/
def FSpec.place (f : FSpec) (locked : Bool) (v old : Word) : Word :=
  let n := getF v f.lo f.w
  let o := getF old f.lo f.w
  match f.acc with
  | .rw => if f.ok n then putF old f.lo f.w n else old
  | .rwl => if locked || !f.ok n then old else putF old f.lo f.w n
  | .w1c => putF old f.lo f.w (o &&& (2 ^ f.w - 1 - n))
  | .w1s => putF old f.lo f.w (o ||| n)
  | _ => old

/-- The LOCK bit of the block that a register belongs to (R152, R762, PWR_LOCK). -/
def State.regLocked (s : State) (a : Nat) : Bool :=
  if 0x30000100 ≤ a ∧ a < 0x30000140 then s.flag PWR_LOCK_LOCK
  else if 0x30000200 ≤ a ∧ a < 0x30000240 then s.flag SYS_VEC_LOCK_LOCK
  else if 0x30050000 ≤ a ∧ a < 0x30060000 then s.flag BC_LOCK_LOCK
  else false

/-- A register's fields written by their access codes. -/
def State.plainWrite (s : State) (a : Nat) (v : Word) : State :=
  match regAt a with
  | some (r, _) => s.setReg a (r.fields.foldl (fun w f => f.place (s.regLocked a) v w) (s.reg a))
  | none => s

/-- The state after a command's meaning, from outside its own arm; the command around it is still the one that runs. -/
def State.via (s : State) (g : State → Host.Outcome State Fault Refusal) : State :=
  match g s with
  | .next t => { t with mram := { now := t.mram.last, last := s.mram.last } }
  | _ => s

/-! ## What a write does beyond its fields

A hook takes the writer, the indices of the register in its array, the word written, the state after the plain write and
the state before it. -/

/-- What a write to a register does. -/
abbrev Hook := Nat → List Nat → Word → State → State → State

/-- The port of a port register. -/
def portOf (is : List Nat) : Fin 8 := fin8 (is.getD 0 0)

/-- A register of the governor's envelope (R41). -/
def hookGov : Hook := fun _ _ _ p _ => p.modPw (fun x => { x with sat := {} })

/-- PWR_CTRL: its fields, and a sleep request (R59, R60). -/
def hookPwrCtrl : Hook := fun _ _ v p _ =>
  match getF v 8 2 with
  | 2 => p.sleepRequest false
  | 3 => p.sleepRequest true
  | _ => p

/-- SYS_RESET (R118, R150). -/
def hookSysReset : Hook := fun _ _ v _ s => (s.via (execSoftwareSystemReset v)).via (execSoftwareCoreReset v)

/-- Clearing VALID clears the whole of SYS_BUS_ERR. -/
def hookBusErr : Hook := fun _ _ v _ s => if v.getLsbD 31 then s.setReg SYS_BUS_ERR_WORD.addr 0 else s

/-- System Control. -/
def hooksSys : List (Nat × Hook) :=
  [ (PWR_CTRL_WORD.addr, hookPwrCtrl)
  , (PWR_DOMAIN_REQ_WORD.addr, fun _ _ v _ s => s.domainRequest v)
  , (GOV_CTRL_WORD.addr, hookGov), (GOV_THRESH_T_WORD.addr, hookGov)
  , (GOV_THRESH_I_WORD.addr, hookGov), (GOV_HOLD_WORD.addr, hookGov)
  , (SYS_RESET_WORD.addr, hookSysReset)
  , (SYS_CORE_RUN_WORD.addr, fun _ _ v _ s => if v.getLsbD 1 then s.releaseB else s)
  , (OTP_PROG_WORD.addr, fun _ _ v _ s => s.otpProgram v)
  , (SYS_BUS_ERR_WORD.addr, hookBusErr) ]

/-- A write of ones to the bits of one word of EVC_PEND clears edge sources' pending bits (R606). -/
def hookPend : Hook := fun _ is v _ s =>
  let s := settleEvc s
  let m := (v.setWidth 128 <<< (32 * is.getD 0 0)) &&& s.edgeMask
  { s with evc := { s.evc with pend := s.evc.pend &&& ~~~m } }

/-- A write of ones to the bits of one word of EVC_COALESCED clears them. -/
def hookCoal : Hook := fun _ is v _ s =>
  { s with evc := { s.evc with coal := s.evc.coal &&& ~~~(v.setWidth 128 <<< (32 * is.getD 0 0)) } }

/-- The Event Controller. -/
def hooksEvc : List (Nat × Hook) :=
  [ (EVC_SW_SET_WORD.addr, fun _ _ v _ s => s.setSw (s.evc.sw ||| v.setWidth 8))
  , (EVC_SW_CLR_WORD.addr, fun _ _ v _ s => s.setSw (s.evc.sw &&& ~~~v.setWidth 8))
  , ((EVC_PEND_WORD 0).addr, hookPend)
  , ((EVC_COALESCED_WORD 0).addr, hookCoal)
  , ((EVC_SRC_CFG_WORD 0).addr, fun _ is v _ s => s.srcConfig (is.getD 0 0) v) ]

/-- The Queue Manager; QM_RING_SEL and QM_ENQ_DATA are the writer's own copies. -/
def hooksQm : List (Nat × Hook) :=
  [ (QM_DOORBELL_WORD.addr, fun _ _ v _ s => s.doorbell (getF v 16 10) (getF v 0 16))
  , (QM_CONSUME_WORD.addr, fun _ _ v _ s => s.consume (getF v 16 10) (getF v 0 16))
  , (QM_RING_SEL_WORD.addr, fun b _ v _ s => s.wr (banked QM_RING_SEL_RING b) (getF v 0 10))
  , (QM_RING_BASE_WORD.addr, fun b _ v _ s => (s.ringBaseWrite (s.selRing b) v.toNat).copyWake (s.selRing b))
  , (QM_RING_CFG_WORD.addr, fun b _ v _ s => s.ringCfgAny b (s.selRing b) v.toNat)
  , (QM_RING_WM_WORD.addr, fun b _ v _ s => (s.ringWmWrite (s.selRing b) v.toNat).copyWake (s.selRing b))
  , (QM_RING_STATUS_WORD.addr, fun b _ v _ s => s.ringStatusWrite (s.selRing b) v.toNat)
  , (QM_RING_CMD_WORD.addr, fun b _ v _ s => if getF v 0 4 = 1 then s.ringReset (s.selRing b) else s)
  , ((QM_ENQ_DATA_WORD 0).addr, fun b is v _ s => s.wr (banked (QM_ENQ_DATA_DATA (is.getD 0 0)) b) v.toNat)
  , (QM_ENQ_RING_WORD.addr, fun b _ v _ s => s.stagedEnqueue b (getF v 0 10))
  , (QM_ERR_INFO_WORD.addr, fun _ _ v _ s => s.errInfoClear v) ]

/-- The streaming detector's envelope (R41, R682). -/
def hookStream : Hook := fun _ _ _ p _ => { p with lc := { p.lc with sat := {} } }

/-- LC_OP (Table 15.2): codes 0 and 9 to 15 have no effect. -/
def hookLcOp : Hook := fun b _ v _ s =>
  let op := getF v 0 4
  if 1 ≤ op ∧ op ≤ 8 then s.lcOp op b (getF v 16 16) (v.getLsbD 8) else s

/-- The Line Cache, the integrity logic and the Buffer Cipher. -/
def hooksMem : List (Nat × Hook) :=
  [ (LC_CTRL_WORD.addr, fun _ _ v _ s => s.lcCtrlWrite v)
  , (LC_OP_WORD.addr, hookLcOp)
  , (LC_STREAM_CFG_WORD.addr, hookStream), (LC_STREAM_ENV_WORD.addr, hookStream)
  , (INT_INJECT_WORD.addr, fun _ _ v _ s => s.injectWrite v)
  , (BC_CTRL_WORD.addr, fun _ _ v _ s => s.windowWrite v) ]

/-- FMT_CTX_CMD (R470, R476, R477). -/
def hookFmtCmd : Hook := fun _ is v _ s =>
  let p := portOf is
  match getF v 0 4 with
  | 1 => s.fmtStart p (v.getLsbD 8)
  | 2 => s.via (execFmtHalt p)
  | 3 => s.via (execFmtStop p)
  | 4 => s.via (execFmtFault p)
  | _ => s

/-- IDU_CMD; an IDU number above 5 names no IDU. -/
def hookIduCmd : Hook := fun _ _ v _ s =>
  let i := iduOf (getF v 4 3)
  if 6 ≤ getF v 4 3 then s
  else
    match getF v 0 4 with
    | 1 => s.via (execIduUnfence i)
    | 2 => s.via (execIduFence i)
    | 3 => s.via (execIduRunKat i)
    | _ => s

/-- The iteration governor's envelope (R41, R368). -/
def hookIter : Hook := fun _ _ _ p _ => p.modIdu (fun u => { u with sat := {} })

/-- IDU_QUOTA: a MIN that makes the sum of MIN exceed 48 is reserved (R14). -/
def hookQuota : Hook := fun _ is _ p s =>
  let sum := (List.range 8).foldl (fun a n => a + p.rd (IDU_QUOTA_MIN n)) 0
  let p := if 48 < sum then p.wr (IDU_QUOTA_MIN (is.getD 0 0)) (s.rd (IDU_QUOTA_MIN (is.getD 0 0))) else p
  p.slotCounts

/-- LLR_WIN_ADDR: an index beyond the area is reserved (R14). -/
def hookWinAddr : Hook := fun _ _ _ p s =>
  if areaSize (p.rd LLR_WIN_ADDR_AREA) ≤ p.rd LLR_WIN_ADDR_INDEX then p.wr LLR_WIN_ADDR_INDEX (s.rd LLR_WIN_ADDR_INDEX) else p

/-- The Formatter Engine, the IDU Pool and the Array Engine. -/
def hooksData : List (Nat × Hook) :=
  [ ((FMT_CTX_CMD_WORD 0).addr, hookFmtCmd)
  , (IDU_ITER_WORD.addr, hookIter), (IDU_GOV_WORD.addr, hookIter)
  , (IDU_CMD_WORD.addr, hookIduCmd)
  , (IDU_SLOT_RELEASE_WORD.addr, fun _ _ v _ s => s.releaseSlot (getF v 0 6))
  , ((IDU_QUOTA_WORD 0).addr, hookQuota)
  , (LLR_WIN_ADDR_WORD.addr, hookWinAddr)
  , (LLR_WIN_DATA_WORD.addr, fun _ _ v _ s => s.llrWrite v)
  , (AE_SWSET_WORD.addr, fun _ _ v _ s => s.wr AE_EVENT_EV (s.rd AE_EVENT_EV ||| (16 * getF v 4 4))) ]

/-- A word of a coefficient set, or of a selector table (R288, R290). -/
def hookCoef : Hook := fun _ is v _ s =>
  s.coefWrite (ctxOf (is.getD 0 0)) ⟨is.getD 1 0 % 16, Nat.mod_lt _ (by decide)⟩ ⟨is.getD 2 0 % 32, Nat.mod_lt _ (by decide)⟩ v

/-- A selector word written before INIT_DONE stalls until the memories have been cleared (R288). -/
def hookSelect : Hook := fun _ is v _ s =>
  s.sceReady.plainWrite (SCE_SELECT_WORD (is.getD 0 0) (is.getD 1 0)).addr v

/-- CTX_CLAMP and CTX_PIN: envelope writes of a VCM context (R41, R279). A spindle context's envelope is its port's
SPN_DUTY_ENV and SPN_DUTY_PIN (R276). -/
def hookCtxEnv : Hook := fun _ is _ p _ =>
  let c := ctxOf (is.getD 0 0)
  if ctxKind c = 2 then p else p.envelope c

/-- CTX_CFG: a context whose ENABLE is 0 now has its request discarded (R261). -/
def hookCtxCfg : Hook := fun _ _ _ p _ => p.dropIdle

/-- SPN_DUTY_ENV and SPN_DUTY_PIN: the spindle loop's envelope (R41, R172). A pin let go makes the loop driving again
(R259, R280). -/
def hookSpnEnv : Hook := fun _ is _ p s =>
  (p.envelope (ctxOf (3 * (portOf is).val + 2))).redriven s (portOf is)

/-- With SRC at 1 the VCM command is VCM_DIRECT's (R192). -/
def hookDirect : Hook := fun _ is _ p _ =>
  let n := portOf is
  if p.flag (VCM_CTRL_SRC n) then p.vcmDrive n (p.rdI (VCM_DIRECT_CMD n)) else p

/-- VCM_CTRL: ILIM is in the envelope of the port's VCM contexts (R279); SRC and ENABLE decide whether they drive (R257,
R280). -/
def hookVcm : Hook := fun b is v p s =>
  let n := portOf is
  let p := ((p.envelope (ctxOf (3 * n.val))).envelope (ctxOf (3 * n.val + 1))).redriven s n
  hookDirect b is v p s

/-- VCM_STATUS: FAULT_OC clears only after the retract has ended (R194). With SRC at 1 the VCM stays high-Z until the next
write of VCM_DIRECT or VCM_CTRL (DESIGN CHOICE, log entry 22). -/
def hookVcmStatus : Hook := fun _ is _ p s =>
  if s.flag (VCM_STATUS_RETRACTING (portOf is)) then s else p.redriven s (portOf is)

/-- SPN_CMD. Whether the spindle is stopped at a CLEAR_FAULT is known where the observer has told it: in FAULT, COAST, BRAKE and
UNLOADING (R168, R185). In the other states it is a free value (log entry 3). -/
def hookSpnCmd : Hook := fun _ is v _ s =>
  let p := portOf is
  match getF v 0 4 with
  | 1 => s.spnStart p
  | 2 => s.spnStop p
  | 3 => s.spnMeasure p
  | 4 =>
    let (x, s) := s.draw
    s.spnClearFault p (decide (s.rd (SPN_STATUS_STATE p) < 4) && x.testBit 0)
  | _ => s

/-- PS_RETRACT_CLR (R204). Whether an outside cause still holds is a free value (log entry 3). -/
def hookRetractClr : Hook := fun _ _ v _ s =>
  if v.getLsbD 0 then
    let (x, s) := s.draw
    s.via (execRetractClear (x.testBit 0))
  else s

/-- SRV_CMD. -/
def hookSrvCmd : Hook := fun _ is v _ s =>
  let p := portOf is
  match getF v 0 4 with
  | 1 => s.srvLoad p
  | 2 => s.via (execSrvUnload p)
  | 3 => s.srvSeek p (getF v 4 4) (getF v 8 4)
  | _ => s

/-- The SCE, the power stage and the servo. -/
def hooksMotion : List (Nat × Hook) :=
  [ ((SCE_COEF_WORD 0 0 0).addr, hookCoef), ((SCE_SELECT_WORD 0 0).addr, hookSelect)
  , ((CTX_CFG_WORD 0).addr, hookCtxCfg), ((CTX_PIN_WORD 0).addr, hookCtxEnv), ((CTX_CLAMP_WORD 0).addr, hookCtxEnv)
  , ((CTX_CMD_WORD 0).addr, fun _ is v _ s => if getF v 0 2 = 1 then s.via (execClearStates (ctxOf (is.getD 0 0))) else s)
  , (PS_RETRACT_CLR_WORD.addr, hookRetractClr)
  , ((SRV_CMD_WORD 0).addr, hookSrvCmd)
  , ((SPN_CMD_WORD 0).addr, hookSpnCmd)
  , ((SPN_DUTY_ENV_WORD 0).addr, hookSpnEnv), ((SPN_DUTY_PIN_WORD 0).addr, hookSpnEnv)
  , ((VCM_CTRL_WORD 0).addr, hookVcm), ((VCM_DIRECT_WORD 0).addr, hookDirect)
  , ((VCM_STATUS_WORD 0).addr, hookVcmStatus) ]

/-- A word of the AGC's envelope (R41, R304). -/
def hookAgc : Hook := fun _ is _ p _ => (p.agcPin (portOf is)).modCh (portOf is) (fun c => { c with satAgc := {} })

/-- A word of the timing loop's envelope (R41, R315). -/
def hookTr : Hook := fun _ is _ p _ => p.modCh (portOf is) (fun c => { c with satTr := {} })

/-- A word of the LMS loop's envelope (R41, R320). -/
def hookEq : Hook := fun _ is _ p _ => p.modCh (portOf is) (fun c => { c with satLms := {} })

/-- Zone word `4 + k`: two taps, each followed by copies of its sign bit. -/
def hookTaps (k : Nat) : Hook := fun _ is v _ s =>
  s.wr (CH_ZMEM_WORD (is.getD 0 0) (is.getD 1 0) (4 + k))
    (unsignedOf 16 (signedOf 12 (getF v 16 12)) * 65536 + unsignedOf 16 (signedOf 12 (getF v 0 12)))

/-- The read/write channel. -/
def hooksChan : List (Nat × Hook) :=
  [ ((CH_ZONE_WORD 0).addr, fun _ is v _ s => if v.getLsbD 31 then s.zoneRequest (portOf is) (getF v 16 5) else s)
  , ((AGC_CFG_WORD 0).addr, hookAgc), ((AGC_ENV_WORD 0).addr, hookAgc)
  , ((TR_CFG_WORD 0).addr, hookTr), ((TR_PIN_WORD 0).addr, hookTr), ((EQ_CFG_WORD 0).addr, hookEq)
  , ((EQ_TAP_WORD 0 0).addr, fun _ is v _ s =>
      s.eqTapWrite (portOf is) ⟨is.getD 1 0 % 12, Nat.mod_lt _ (by decide)⟩ (v.setWidth 12))
  , ((CH_ZMEM_WORD 0 0 4).addr, hookTaps 0), ((CH_ZMEM_WORD 0 0 5).addr, hookTaps 1)
  , ((CH_ZMEM_WORD 0 0 6).addr, hookTaps 2), ((CH_ZMEM_WORD 0 0 7).addr, hookTaps 3)
  , ((CH_ZMEM_WORD 0 0 8).addr, hookTaps 4), ((CH_ZMEM_WORD 0 0 9).addr, hookTaps 5)
  , ((PA_CMD_WORD 0).addr, fun _ is v _ s => s.paCommand (portOf is) (v.setWidth 16)) ]

/-- A ones-clear write to HQE_ERR_INFO clears CODE and TAG together. -/
def hookHqErr : Hook := fun _ _ v _ s => if getF v 28 4 = 0 then s else s.setReg HQE_ERR_INFO_WORD.addr 0

/-- USB_CTRL: its fields, the attach bit's connection (R881) and a remote wake request (R926). -/
def hookUsbCtrl : Hook := fun _ _ v p s =>
  let q := (p.put USB_CTRL_FN_ATTACH (s.flag USB_CTRL_FN_ATTACH)).via (execFnAttachWrite v)
  q.via (execRemoteWakeRequest v)

/-- USB_MSE_CFG: a change of UAS resets the MSE (R912). -/
def hookMseCfg : Hook := fun _ _ v p s => (p.put USB_MSE_CFG_UAS (s.flag USB_MSE_CFG_UAS)).via (execUasModeWrite v)

/-- USB_EP0_CTL. -/
def hookEp0 : Hook := fun _ _ v _ s => if getF v 0 2 = 0 then s else s.ep0Answer (getF v 0 2) v

/-- ALM_CMD (R1010 to R1012). -/
def hookAlm : Hook := fun _ _ v _ s =>
  if getF v 24 8 = 0x7A ∧ getF v 0 4 = 1 then s.via execAlmErase
  else if getF v 24 8 = 0x7A ∧ getF v 0 4 = 2 then s.via execAlmClearDropped
  else s.almError 4

/-- The HQE, the Host Port, the USB Block and the Almanac. -/
def hooksHost : List (Nat × Hook) :=
  [ (HQE_TAG_SPLIT_WORD.addr, fun _ _ v _ s => s.splitWrite v)
  , (HQE_MAP_SYNC_WORD.addr, fun _ _ v _ s => if v.getLsbD 0 then s.via execMapSync else s)
  , (HQE_EVENT_WORD.addr, fun _ _ v _ s => s.plainWrite HQE_EVENT_WORD.addr (v &&& ~~~8))
  , (HQE_SWSET_WORD.addr, fun _ _ v _ s => s.wr HQE_EVENT_EV (s.rd HQE_EVENT_EV ||| (64 * getF v 6 2)))
  , (HQE_ERR_INFO_WORD.addr, hookHqErr)
  , (HP_CFG_WORD.addr, fun _ _ v _ s => s.hpCfgWrite v)
  , (USB_CTRL_WORD.addr, hookUsbCtrl)
  , (USB_EP0_CTL_WORD.addr, hookEp0)
  , (USB_MSE_CFG_WORD.addr, hookMseCfg)
  , (USB_MSE_START_WORD.addr, fun _ _ v _ s => s.mseStart (getF v 28 2) v)
  , (USB_MSE_FINISH_WORD.addr, fun _ _ v _ s => s.via (execMseFinish v))
  , (USB_EVENT_WORD.addr, fun _ _ v _ s => s.plainWrite USB_EVENT_WORD.addr (v &&& ~~~16))
  , (USB_EP_EVENT_WORD.addr, fun _ _ _ p _ => p.wr { USB_EVENT_EV with lo := 4, w := 1 } (b2n (p.flag USB_EP_EVENT_WORD)))
  , (ALM_CMD_WORD.addr, hookAlm) ]

/-- A GPIO register: the pins may change level (R657). -/
def hookGpio : Hook := fun _ _ _ p s => p.gpioFollow s.gpioLevel

/-- Timers, watchdogs, UART and GPIO. -/
def hooksIo : List (Nat × Hook) :=
  [ ((TIMER_CTRL_WORD 0).addr, fun _ is v _ s => s.timerCtrl ⟨is.getD 0 0 % 4, Nat.mod_lt _ (by decide)⟩ v)
  , ((TIMER_LOAD_WORD 0).addr, fun _ is v _ s => s.timerLoad ⟨is.getD 0 0 % 4, Nat.mod_lt _ (by decide)⟩ v)
  , ((WDT_CTRL_WORD 0).addr, fun _ is v _ s => s.wdtCtrl ⟨is.getD 0 0 % 2, Nat.mod_lt _ (by decide)⟩ v)
  , ((WDT_TIME_WORD 0).addr, fun _ is _ p s => if s.flag (WDT_CTRL_ARM (is.getD 0 0)) then s else p)
  , ((WDT_KICK_WORD 0).addr, fun _ is v _ s => s.wdtKick ⟨is.getD 0 0 % 2, Nat.mod_lt _ (by decide)⟩ v)
  , (UART_DATA_WORD.addr, fun _ _ v _ s => s.uartWrite v)
  , (GPIO_OUT_WORD.addr, hookGpio), (GPIO_OE_WORD.addr, hookGpio), (GPIO_EDGE_WORD.addr, hookGpio) ]

/-- Every register whose write does more than set its fields, by the address of its first copy. -/
def hooks : List (Nat × Hook) :=
  hooksSys ++ hooksEvc ++ hooksQm ++ hooksMem ++ hooksData ++ hooksMotion ++ hooksChan ++ hooksHost ++ hooksIo

/-- A register written, its domain being on. -/
def State.regStore (s : State) (b a : Nat) (v : Word) : State :=
  match regAt a with
  | none => s
  | some (r, is) =>
    let p := s.plainWrite a v
    match hooks.lookup r.addr with
    | some h => h b is v p s
    | none => p

/-! ## The pages -/

/-- Whether a register is AON-resident (R51). -/
def aonResident (a : Nat) : Bool :=
  (decide (0x30000104 ≤ a ∧ a < 0x30000130) && a != PWR_DOMAIN_STATUS_ON.addr) || a == 0x3000013C || (decide (0x30000204 ≤ a ∧ a < 0x30000210))
    || a == GPIO_EDGE_WORD.addr || a == IO_CFG_WORD.addr

/-- A word written into the Nanostore (R435, R479): staged, or with the word at +0xC the nanoword takes effect. -/
def State.nanoWrite (s : State) (a : Nat) (v : Word) : State :=
  if a % 16 = 12 then s.nanoCommit ⟨(a - 0x30084000) / 16 % 1024, Nat.mod_lt _ (by decide)⟩ v
  else { s with nanoStage := (s.nanoStage.filter (fun e => e.1 != a)) ++ [(a, v)] }

/-- A word written at an address of a page whose domain is on. -/
def State.pageStore (s : State) (b a : Nat) (v : Word) : State :=
  if 0x300E8000 ≤ a ∧ a < 0x300EC000 then s.store a (leBytes 4 v.toNat)
  else if 0x30084000 ≤ a ∧ a < 0x30088000 then s.nanoWrite a v
  else if 0x30088000 ≤ a ∧ a < 0x30090000 then s.store a (leBytes 4 (v.toNat % 2 ^ 24))
  else if aonResident a then s.aonWrite b a v.toNat (fun s => s.regStore b a v)
  else s.regStore b a v

/-- A word written to a register page (R12, R634): a register whose domain is off takes nothing. -/
def State.pageWrite (s : State) (b a : Nat) (v : Word) : State :=
  if s.regOn a then s.pageStore b a v else s.busError 3 b a true

/-- REGISTER_WRITE: a write to a register that has no row of its own, by Core A, Core B, the debug transport or (3) the
host, whose address is an HP_A. In IDLE the CORE clock returns first (R1074). -/
def execRegisterWrite (b : Fin 4) (a v : Word) (s : State) : Host.Outcome State Fault Refusal :=
  fin (if b = 3 then s.hwWrite a.toNat (v.setWidth 16)
    else if s.mayIssue b.val = false then s
    else
      match s.leaveIdle.gate b.val false a.toNat true with
      | (.pass, s) => if regionAt a.toNat = .page ∧ a.toNat % 4 = 0 then s.pageWrite b.val a.toNat v else s
      | (_, s) => s)

/-- A write that has waited for the crossing before it. -/
def State.aonNext (s : State) : State :=
  match s.pw.aonWait with
  | [] => s
  | (b, a, v) :: r =>
    let s := { s with pw := { s.pw with aonWait := r } }
    if a = QM_RING_CFG_WORD.addr then s.ringCfgAny b (s.selRing b) v else s.pageWrite b a (BitVec.ofNat 32 v)

/-- AON_WRITE_CROSSED (R51, R601): the crossing ends, and the next write goes on. -/
def execAonWriteCrossed (s : State) : Host.Outcome State Fault Refusal :=
  fin ((s.down PWR_STATE_AON_BUSY).syncWake.aonNext)

end Sys2Proof.Machine
end

