-- ==== Sys2Proof/Machine/RegRead.lean ====
section
/-! DEFINITION. Reads of the register pages: what a register shows that is not kept among its fields, and what a read does
(R15, R634, R652). A reader is 0 Core A, 1 Core B, 2 the debug transport. -/

namespace Sys2Proof.Machine
open Sys2Proof

/-- What a read of a register gives, and the state after it: a view takes the reader and the register's indices. -/
abbrev View := Nat → List Nat → State → Nat × State

/-- The value a command has left for its reader. -/
def State.given (s : State) : Nat := leVal (bits s.bus.data)

/-- One word of 128 source bits. -/
def word128 (x : BitVec 128) (is : List Nat) : Nat := bitsOf x.toNat (32 * is.getD 0 0) 32

/-- OTP_RDATA: a row of the shadow; the rows of ROOT_KEY read 0 (R155). -/
def viewOtp : View := fun _ _ s =>
  let r := s.rd OTP_RADDR_ROW
  (if r < 8 then 0 else (otpRow s.boot.shadow r).toNat, s)

/-- EVC_CLAIM (R609). -/
def viewClaim : View := fun b is s =>
  let s := s.claim (is.getD 0 0) (b == 2)
  (s.given, s)

/-- System Control and the Event Controller. -/
def viewsSys : List (Nat × View) :=
  [ (OTP_RDATA_WORD.addr, viewOtp)
  , ((EVC_CLAIM_WORD 0).addr, viewClaim)
  , (EVC_SW_SET_WORD.addr, fun _ _ s => (s.evc.sw.toNat, s)), (EVC_SW_CLR_WORD.addr, fun _ _ s => (s.evc.sw.toNat, s))
  , ((EVC_PEND_WORD 0).addr, fun _ is s => (word128 (settleEvc s).evc.pend is, s))
  , ((EVC_COALESCED_WORD 0).addr, fun _ is s => (word128 (settleEvc s).evc.coal is, s))
  , ((EVC_RAW_WORD 0).addr, fun _ is s => (word128 s.rawNow is, s)) ]

/-- A word of the selected ring. -/
def viewRing (off : Nat) : View := fun b _ s => ((s.ring (s.selRing b)).word off, s)

/-- The Queue Manager. -/
def viewsQm : List (Nat × View) :=
  [ (QM_RING_SEL_WORD.addr, fun b _ s => (s.selRing b, s))
  , (QM_RING_BASE_WORD.addr, viewRing 0x10), (QM_RING_CFG_WORD.addr, viewRing 0x14)
  , (QM_RING_WM_WORD.addr, viewRing 0x18), (QM_RING_IDX_WORD.addr, viewRing 0x1C)
  , (QM_RING_STATUS_WORD.addr, viewRing 0x20)
  , ((QM_ENQ_DATA_WORD 0).addr, fun b is s => (s.rd (banked (QM_ENQ_DATA_DATA (is.getD 0 0)) b), s))
  , (QM_ENQ_RESULT_WORD.addr, fun b _ s => (s.rd (banked QM_ENQ_RESULT_RESULT b), s))
  , ((QM_GROUP_FIRST_WORD 0).addr, fun _ is s => ((s.groupRings (is.getD 0 0)).head?.getD 0xFFFF, s))
  , (QM_GROUP_STATUS_WORD.addr, fun _ _ s => (maskOf 16 (fun g => s.groupRings g != []), s))
  , ((QM_LATCH_WORD 0).addr, fun _ is s => (maskOf 32 (fun i => (s.ring (32 * is.getD 0 0 + i)).latch), s)) ]

/-- LC_STATUS with the write-combining buffer's level. -/
def viewLcStatus : View := fun _ _ s =>
  ((putF (s.reg LC_STATUS_WORD.addr) 8 5 s.lc.wcb.length).toNat, s)

/-- LC_PROBE_DATA: the way that LC_PROBE names. -/
def viewProbe : View := fun _ _ s =>
  let w := s.way (wayIdx (s.rd LC_PROBE_SET) (s.rd LC_PROBE_WAY))
  (b2n w.valid * 2 ^ 31 + b2n w.lock * 2 ^ 30 + b2n w.nru * 2 ^ 29 + b2n w.strm * 2 ^ 28 + w.tag % 2 ^ 15, s)

/-- MC_RNG: a fresh entropy word, or 0 with ENTROPY_FAIL set where the health test fails; word and outcome are free
values (log entry 3). -/
def viewRng : View := fun _ _ s =>
  let (x, s) := s.draw
  let (ok, s) := s.draw
  if ok.testBit 0 then (x % 2 ^ 32, s.noteHealth true) else (0, s.noteHealth false)

/-- HP_XFER: XSTAT and the level of the data FIFO. -/
def viewXfer : View := fun _ _ s => (256 * s.hp.fifo.length + s.hpXstat % 256, s)

/-- IDU_SLOT_ALLOC (R358). -/
def viewAlloc : View := fun _ _ s =>
  let s := s.fwAlloc
  (s.rd IDU_SLOT_ALLOC_SLOT, s)

/-- LLR_WIN_DATA (R391). -/
def viewLlr : View := fun _ _ s =>
  let s := s.llrRead
  (s.rd LLR_WIN_DATA_VALUE, s)

/-- CTX_STATE_LO (R293). -/
def viewState : View := fun _ is s =>
  let c := ctxOf (is.getD 0 0)
  let s := s.captureState c
  (s.rd (CTX_STATE_LO_LO c), s)

/-- The other pages. -/
def viewsRest : List (Nat × View) :=
  [ (LC_STATUS_WORD.addr, viewLcStatus), (LC_PROBE_DATA_WORD.addr, viewProbe)
  , (MC_RNG_WORD.addr, viewRng), (HP_XFER_WORD.addr, viewXfer)
  , (IDU_SLOT_ALLOC_WORD.addr, viewAlloc), (LLR_WIN_DATA_WORD.addr, viewLlr)
  , ((CTX_STATE_LO_WORD 0).addr, viewState)
  , (MTIME_LO_WORD.addr, fun _ _ s => (s.io.mtime % 2 ^ 32, s.mtimeCapture))
  , (UART_DATA_WORD.addr, fun _ _ s => s.uartRead)
  , (GPIO_IN_WORD.addr, fun _ _ s => (s.gpioLevel.toNat, s)) ]

/-- Every register that shows more than its fields, by the address of its first copy. -/
def views : List (Nat × View) := viewsSys ++ viewsQm ++ viewsRest

/-- RC fields cleared to their reset values by a read (Table 0.5). -/
def FSpec.readClear (f : FSpec) (w : Word) : Word := if f.acc = .rc then putF w f.lo f.w f.reset else w

/-- A register read, its domain being on. -/
def State.regLoad (s : State) (b a : Nat) : Nat × State :=
  match regAt a with
  | none => (0, s)
  | some (r, is) =>
    match views.lookup r.addr with
    | some g => g b is s
    | none => ((s.reg a).toNat, s.setReg a (r.fields.foldl (fun w f => f.readClear w) (s.reg a)))

/-- A word read at an address of a page whose domain is on. A read of the SCE's memories before INIT_DONE stalls until they
have been cleared (R288). -/
def State.pageLoad (s : State) (b a : Nat) : List PByte × State :=
  let s := if sceMem a then s.sceReady else s
  if 0x300E8000 ≤ a ∧ a < 0x300EC000 ∨ 0x30084000 ≤ a ∧ a < 0x30090000 then State.readMem a 4 s
  else
    let (v, s) := s.regLoad b a
    (clean (leBytes 4 v), s)

/-- A word read from a register page (R12, R634): a register whose domain is off reads 0. -/
def State.pageRead (s : State) (b a : Nat) : List PByte × State :=
  if s.regOn a then s.pageLoad b a else (clean (zerosB 4), s.busError 3 b a false)

/-- RC_REGISTER_READ: a read of a register by Core A, Core B or the debug transport. In IDLE the CORE clock returns first
(R1074). -/
def execRcRegisterRead (b : Fin 3) (a : Word) (s : State) : Host.Outcome State Fault Refusal :=
  fin (if s.mayIssue b.val = false then s
  else
    match s.leaveIdle.gate b.val false a.toNat false with
    | (.pass, s) =>
      if regionAt a.toNat = .page ∧ a.toNat % 4 = 0 then
        let (d, s) := s.pageRead b.val a.toNat
        { s with bus := { data := d } }
      else s
    | (_, s) => s)

end Sys2Proof.Machine
end

