-- ==== Sys2Proof/Machine/Csr.lean ====
section
/-! DEFINITION. A control core's CSRs, its modes, and its triggers (R620, R648). Their encodings are those of the RISC-V
privileged architecture and of External Debug Support 0.13.2, which chapter 14 names (PRESUMED, log entry 18). -/

namespace Sys2Proof.Machine
open Sys2Proof

/-! ## Modes -/

/-- mstatus with only the bits of a core with machine and user modes: MIE, MPIE, MPP, MPRV and TW. MPP takes 0 or 3 alone. -/
def mstatusOf (old v : Word) : Word :=
  let m := v &&& 0x00221888
  if getF v 11 2 = 0 ∨ getF v 11 2 = 3 then m else putF m 11 2 (getF old 11 2)

/-- Whether MPRV makes loads and stores those of the mode in MPP; in Debug Mode only where dcsr.mprven is 1. -/
def CoreSt.mprv (k : CoreSt) : Bool := (k.csrAt 0x300).getLsbD 17 && (!k.debug || (k.csrAt 0x7B0).getLsbD 4)

/-- Whether an access has user mode's rights: `bit` is 0 for a load, 1 for a store, 2 for a fetch. Debug Mode has machine
mode's. -/
def CoreSt.asUser (k : CoreSt) (bit : Nat) : Bool :=
  if bit ≠ 2 ∧ k.mprv = true then getF (k.csrAt 0x300) 11 2 == 0 else k.user && !k.debug

/-- A core enters Debug Mode, with dcsr's cause and the mode it leaves, dpc at `pc`, and its wait for an interrupt ended. -/
def CoreSt.enterDebug (k : CoreSt) (cause : Nat) (pc : Word) : CoreSt :=
  ({ k with debug := true, wfi := false, dpc := pc }).setCsr 0x7B0
    (putF (putF (k.csrAt 0x7B0) 6 3 cause) 0 2 (if k.user then 0 else 3))

/-! ## Counters -/

/-- The cycles that a core's access takes, and what its program has run since its last access: mcycle moves on by one at
least and minstret by no more; how far both go is a free value (log entries 3 and 9). A core that accesses waits for no
interrupt. -/
def State.coreCount (s : State) (c : Fin 2) : State :=
  let (n, s) := s.draw
  let (m, s) := s.draw
  s.modCore c (fun k => { k with
    wfi := false, mcycle := (k.mcycle + n + 1) % 2 ^ 64, minstret := (k.minstret + m % (n + 2)) % 2 ^ 64 })

/-! ## Triggers -/

/-- What tdata1 keeps of a word written: type mcontrol; an action of Debug Mode only with dmode; of the matches, equal, NAPOT,
at or above, and below; no chain, no data match and no timing after. -/
def mcontrolOf (v : Word) : Word :=
  let m := putF (v &&& 0x0803004F) 28 4 2
  let m := if v.getLsbD 27 ∧ getF v 12 4 = 1 then putF m 12 4 1 else m
  putF m 7 4 (if 4 ≤ getF v 7 4 then 0 else getF v 7 4)

/-- How many ones a number ends in, up to a bound. -/
def trailingOnes : Nat → Nat → Nat
  | 0, _ => 0
  | n + 1, x => if x % 2 = 1 then 1 + trailingOnes n (x / 2) else 0

/-- Whether a trigger matches an access of `n` bytes. -/
def trigMatch (t1 t2 : Word) (user : Bool) (bit a n : Nat) : Bool :=
  let size := getF t1 16 2
  let mask := 2 ^ (trailingOnes 32 t2.toNat + 1)
  t1.getLsbD (if bit = 0 then 0 else if bit = 1 then 1 else 2) && t1.getLsbD (if user then 3 else 6)
    && (size == 0 || n == 2 ^ (size - 1))
    && (match getF t1 7 4 with
      | 0 => a == t2.toNat
      | 1 => a / mask == t2.toNat / mask
      | 2 => decide (t2.toNat ≤ a)
      | _ => decide (a < t2.toNat))

/-- The action of the first trigger that an access fires; none in Debug Mode. -/
def CoreSt.trigger (k : CoreSt) (bit a n : Nat) : Option Nat :=
  if k.debug then none
  else (lowestIdx 4 (fun i => trigMatch (k.tdata1.toList.getD i 0) (k.tdata2.toList.getD i 0) (k.asUser bit) bit a n)).map
    (fun i => getF (k.tdata1.toList.getD i 0) 12 4)

/-! ## Reads and writes by number -/

/-- misa of RV32IMAC with user mode (R620). -/
def misa : Nat := 0x40101105

/-- A CSR of a core; none: no such CSR. The performance counters and events beyond R620's read 0. -/
def State.csrRead (s : State) (c : Fin 2) (n : Nat) : Option Nat :=
  let k := s.core[c]
  let four (l : List Nat) (i : Nat) : Nat := leVal (((l.drop (4 * i)).take 4).map (fun x => BitVec.ofNat 8 x))
  if n = 0x300 ∨ n = 0x304 ∨ n = 0x306 ∨ n = 0x340 ∨ n = 0x7B0 then some (k.csrAt n).toNat
  else if n = 0x301 then some misa
  else if n = 0x305 then some k.mtvec.toNat
  else if n = 0x341 then some k.mepc.toNat
  else if n = 0x342 then some k.mcause.toNat
  else if n = 0x343 then some k.mtval.toNat
  else if n = 0x344 then
    some (b2n (if c = 0 then s.flag SYS_MSIP_A else s.flag SYS_MSIP_B) * 8 + b2n (decide (s.mtimecmp c ≤ s.io.mtime)) * 128
      + b2n (s.claimable c).isSome * 2048)
  else if 0x3A0 ≤ n ∧ n ≤ 0x3A3 then some (four k.pmpCfg (n - 0x3A0))
  else if 0x3B0 ≤ n ∧ n ≤ 0x3BF then some (k.pmpAddr.getD (n - 0x3B0) 0)
  else if n = 0x7A0 then some k.tsel
  else if n = 0x7A1 then some ((k.tdata1.toList.getD k.tsel 0).toNat ||| 2 ^ 29)
  else if n = 0x7A2 then some (k.tdata2.toList.getD k.tsel 0).toNat
  else if n = 0x7A4 then some 4
  else if n = 0x7B1 then some k.dpc.toNat
  else if n = 0xB00 ∨ n = 0xC00 then some (k.mcycle % 2 ^ 32)
  else if n = 0xB80 ∨ n = 0xC80 then some (k.mcycle / 2 ^ 32 % 2 ^ 32)
  else if n = 0xB02 ∨ n = 0xC02 then some (k.minstret % 2 ^ 32)
  else if n = 0xB82 ∨ n = 0xC82 then some (k.minstret / 2 ^ 32 % 2 ^ 32)
  else if n = 0xC01 then some (s.io.mtime % 2 ^ 32)
  else if n = 0xC81 then some (s.io.mtime / 2 ^ 32)
  else if n = 0xF14 then some c.val
  else if (0xB03 ≤ n ∧ n ≤ 0xB1F) ∨ (0xB83 ≤ n ∧ n ≤ 0xB9F) ∨ (0x323 ≤ n ∧ n ≤ 0x33F) then some 0
  else none

/-- A CSR written; locked PMP entries keep their values, and a field keeps to the values it can hold. -/
def CoreSt.csrWrite (k : CoreSt) (n : Nat) (v : Word) : CoreSt :=
  let locked (i : Nat) : Bool := (k.pmpCfg.getD i 0).testBit 7
  let w := v.toNat
  if n = 0x300 then k.setCsr n (mstatusOf (k.csrAt n) v)
  else if n = 0x304 then k.setCsr n (v &&& 0x888)
  else if n = 0x306 then k.setCsr n (v &&& 7)
  else if n = 0x340 then k.setCsr n v
  else if n = 0x305 then { k with mtvec := v &&& ~~~2 }
  else if n = 0x341 then { k with mepc := v &&& ~~~1 }
  else if n = 0x342 then { k with mcause := v }
  else if n = 0x343 then { k with mtval := v }
  else if 0x3A0 ≤ n ∧ n ≤ 0x3A3 then
    let put (l : List Nat) (j : Nat) : List Nat :=
      if locked (4 * (n - 0x3A0) + j) then l else l.set (4 * (n - 0x3A0) + j) (bitsOf w (8 * j) 8 &&& 0x9F)
    { k with pmpCfg := (List.range 4).foldl put k.pmpCfg }
  else if 0x3B0 ≤ n ∧ n ≤ 0x3BF then
    let i := n - 0x3B0
    let next := locked (i + 1) && bitsOf (k.pmpCfg.getD (i + 1) 0) 3 2 == 1
    if locked i || next then k else { k with pmpAddr := k.pmpAddr.set i w }
  else if n = 0x7A0 then if w < 4 then { k with tsel := w } else k
  else if n = 0x7A1 then { k with tdata1 := vmod k.tdata1 ⟨k.tsel % 4, Nat.mod_lt _ (by decide)⟩ (fun _ => mcontrolOf v) }
  else if n = 0x7A2 then { k with tdata2 := vmod k.tdata2 ⟨k.tsel % 4, Nat.mod_lt _ (by decide)⟩ (fun _ => v) }
  else if n = 0x7B0 then
    let d := (k.csrAt n &&& ~~~0x00009617) ||| (v &&& 0x00009614)
    k.setCsr n (putF d 0 2 (if getF v 0 2 = 3 ∨ getF v 0 2 = 0 then getF v 0 2 else getF (k.csrAt n) 0 2))
  else if n = 0x7B1 then { k with dpc := v &&& ~~~1 }
  else if n = 0xB00 then { k with mcycle := k.mcycle / 2 ^ 32 * 2 ^ 32 + w }
  else if n = 0xB80 then { k with mcycle := k.mcycle % 2 ^ 32 + w * 2 ^ 32 }
  else if n = 0xB02 then { k with minstret := k.minstret / 2 ^ 32 * 2 ^ 32 + w }
  else if n = 0xB82 then { k with minstret := k.minstret % 2 ^ 32 + w * 2 ^ 32 }
  else k

end Sys2Proof.Machine
end

