-- ==== Sys2Proof/Machine/Access.lean ====
section
/-! DEFINITION. What a control core's load, store, fetch or atomic does (R621 to R637, R675): the checks in order, the
access fault of each, and the access at its target. Exception codes and PMP encodings are those of the RISC-V
privileged architecture that R620 names (PRESUMED, log entry 18). -/

namespace Sys2Proof.Machine
open Sys2Proof

/-! ## Traps -/

/-- The exception of a core (R622, R626): mepc, mcause and mtval, mstatus and the mode as the architecture says, the pc
at mtvec, and its reservation ended. -/
def State.trap (s : State) (c : Fin 2) (cause tval pc : Nat) : State :=
  s.modCore c (fun k =>
    let m := k.csrAt 0x300
    let m := putF (putF (putF m 7 1 (getF m 3 1)) 3 1 0) 11 2 (if k.user then 0 else 3)
    { k with mepc := BitVec.ofNat 32 pc, mcause := BitVec.ofNat 32 cause, mtval := BitVec.ofNat 32 tval, user := false
             pc := k.mtvec &&& ~~~3, resv := none, csr := smSet csrReset 0x300 m k.csr })

/-- An abstract command's error, kept from the first (R650). -/
def State.cmdErr (s : State) (code : Nat) : State :=
  if s.dbg.cmderr = 0 then { s with dbg := { s.dbg with cmderr := code } } else s

/-- How a core's access fails: the exception, or in Debug Mode, where it belongs to the program buffer, cmderr 3. -/
def State.coreFault (s : State) (c : Fin 2) (cause tval pc : Nat) : State :=
  if s.core[c].debug then s.cmdErr 3 else s.trap c cause tval pc

/-- A general register of a core written; x0 stays 0. -/
def State.setGpr (s : State) (c : Fin 2) (rd : Fin 32) (v : Word) : State :=
  if rd = 0 then s else s.modCore c (fun k => { k with gpr := k.gpr.set rd v })

/-- The requester ID of a core's access (R636). -/
def State.coreReq (s : State) (c : Fin 2) : Nat := if s.core[c].debug then 2 else c.val

/-- Whether a core issues accesses: PD_CORE runs (R48), the core has been released, and the requester its accesses go under
is not stalled in a write to an AON-resident register (R51). -/
def State.coreLive (s : State) (c : Fin 2) : Bool := s.runs 1 && s.core[c].run && !s.aonStalled (s.coreReq c)

/-! ## PMP -/

/-- The range of a PMP entry: TOR, NA4 or NAPOT. -/
def CoreSt.pmpRange (k : CoreSt) (i : Nat) : Option (Nat × Nat) :=
  let a := k.pmpAddr.getD i 0
  match bitsOf (k.pmpCfg.getD i 0) 3 2 with
  | 0 => none
  | 1 => some (if i = 0 then 0 else 4 * k.pmpAddr.getD (i - 1) 0, 4 * a)
  | 2 => some (4 * a, 4 * a + 4)
  | _ =>
    let t := trailingOnes 32 a
    let base := 4 * (a / 2 ^ (t + 1) * 2 ^ (t + 1))
    some (base, base + 2 ^ (t + 3))

/-- Whether PMP lets a core access `n` bytes (R637): `bit` is 0 for a read, 1 for a write, 2 for a fetch. It binds the core's own
accesses in Debug Mode too, with machine mode's rights. -/
def CoreSt.pmpOk (k : CoreSt) (bit a n : Nat) : Bool :=
  let hit (i : Nat) : Bool :=
    match k.pmpRange i with
    | some (lo, hi) => decide (lo < a + n ∧ a < hi)
    | none => false
  match lowestIdx 16 hit with
  | none => !k.asUser bit
  | some i =>
    let cfg := k.pmpCfg.getD i 0
    let whole := match k.pmpRange i with
      | some (lo, hi) => decide (lo ≤ a ∧ a + n ≤ hi)
      | none => false
    whole && ((!k.asUser bit && !cfg.testBit 7) || cfg.testBit bit)

/-! ## Loads, stores and fetches -/

/-- Whether a region is executable by Table 14.1. -/
def executable (r : Region) : Bool := r == .rom || r == .ownItcm || r == .mram || r == .dram

/-- Whether an address is one of the core's own-TCM addresses. -/
def ownTcm (a : Nat) : Bool := regionAt a == .ownItcm || regionAt a == .ownDtcm

/-- How an access that has met the checks of alignment and PMP ends: data, a block, or an error. -/
inductive Reach
  | data (d : List PByte)
  | blocked
  | fault
  deriving DecidableEq, Repr

/-- `n` bytes read by a requester (R630 to R635); `dbg` has no own TCM. -/
def State.reachRead (s : State) (req : Nat) (c : Fin 2) (own fetch : Bool) (a n : Nat) : Reach × State :=
  if own && ownTcm a then
    if fetch && !executable (regionAt a) then (.fault, s)
    else
      let (d, s) := State.readMem (tcmAlias c.val a) n (s.initAt (tcmAlias c.val a))
      (.data d, s)
  else
    match s.gate req false a false with
    | (.error, s) => (.fault, s)
    | (.blocked, s) => (.blocked, s)
    | (.pass, s) =>
      if fetch && !executable (regionAt a) then (.fault, s)
      else if regionAt a = .page then
        if n = 4 then
          let (d, s) := s.pageRead req a
          (.data d, s)
        else (.fault, s)
      else
        let (d, s) := s.targetRead req fetch false a n
        (.data d, s)

/-- Bytes written by a requester. -/
def State.reachWrite (s : State) (req : Nat) (c : Fin 2) (own : Bool) (a : Nat) (d : List Byte) : Reach × State :=
  let writer := if req ≤ 1 then some c.val else none
  if own && ownTcm a then
    let t := tcmAlias c.val a
    (.data [], (((s.initAt t).store t d).dropResv writer t d.length))
  else
    match s.gate req false a true with
    | (.error, s) => (.fault, s)
    | (.blocked, s) => (.blocked, s)
    | (.pass, s) =>
      if regionAt a = .page then
        if d.length = 4 then (.data [], s.pageWrite req a (BitVec.ofNat 32 (leVal d))) else (.fault, s)
      else (.data [], (s.targetWrite req false a (clean d)).dropResv writer a d.length)

/-- The value a load puts in its register. -/
def extend (signed : Bool) (n v : Nat) : Word :=
  if signed then BitVec.ofNat 32 (unsignedOf 32 (signedOf (8 * n) v)) else BitVec.ofNat 32 v

/-- What a read of a core ends in (R622, R623, R650, R760). -/
def State.readEnds (s : State) (c : Fin 2) (r : Reach) (rd : Fin 32) (signed fetch : Bool) (a n pc : Nat) : State :=
  let cause := if fetch then 1 else 5
  match r with
  | .fault => s.coreFault c cause a pc
  | .blocked =>
    let s := s.coreFault c cause a pc
    if s.core[c].debug && !fetch then s.setGpr c rd 0 else s
  | .data d =>
    if poisoned d then s.coreFault c cause a pc
    else
      let s := { s with bus := { data := d } }
      if fetch then s else s.setGpr c rd (extend signed n (leVal (bits d)))

/-- What a trigger does that an access fires (R648): its action is a breakpoint exception, or Debug Mode. -/
def State.trigger (s : State) (c : Fin 2) (action a pc : Nat) : State :=
  if action = 1 then s.modCore c (fun k => k.enterDebug 2 (BitVec.ofNat 32 pc)) else s.trap c 3 a pc

/-- Which kind of access a core makes, as PMP and the triggers number them. -/
def accessBit : CoreAccess → Nat
  | .load _ _ => 0
  | .store _ => 1
  | .fetch => 2

/-- A core's access past its triggers, alignment and PMP: a load, store or fetch. -/
def State.accessTarget (s : State) (c : Fin 2) (k : CoreAccess) (n a pc : Nat) : State :=
  let own := s.core[c]
  let req := s.coreReq c
  match k with
  | .load rd signed =>
    if a % n ≠ 0 then s.coreFault c 4 a pc
    else if !own.pmpOk 0 a n then s.coreFault c 5 a pc
    else
      let (r, s) := s.reachRead req c true false a n
      s.readEnds c r rd signed false a n pc
  | .fetch =>
    if a % 2 ≠ 0 then s.coreFault c 0 a pc
    else if !own.pmpOk 2 a n then s.coreFault c 1 a pc
    else
      let (r, s) := s.reachRead req c true true a n
      s.readEnds c r 0 false true a n pc
  | .store v =>
    if a % n ≠ 0 then s.coreFault c 6 a pc
    else if !own.pmpOk 1 a n then s.coreFault c 7 a pc
    else
      match s.reachWrite req c true a (leBytes n v.toNat) with
      | (.data _, s) => s
      | (_, s) => s.coreFault c 7 a pc

/-- A core's access of `n` bytes at an address, by the instruction at `pc`. In IDLE the CORE clock returns first (R1074). -/
def State.coreAccess (s : State) (c : Fin 2) (k : CoreAccess) (n a pc : Nat) : State :=
  if s.coreLive c = false then s
  else
    let s := s.leaveIdle.coreCount c
    match s.core[c].trigger (accessBit k) a n with
    | some action => s.trigger c action a pc
    | none => s.accessTarget c k n a pc

/-- CORE_ACCESS (R622): a load, store or fetch of 1, 2 or 4 bytes by the instruction at `pc`. -/
def execCoreAccess (c : Fin 2) (k : CoreAccess) (size : Fin 3) (a pc : Word) (s : State) :
    Host.Outcome State Fault Refusal :=
  fin (s.coreAccess c k (2 ^ size.val) a.toNat pc.toNat)

/-! ## Atomics -/

/-- What an AMO writes back. -/
def amoApply (op : AmoOp) (old v : Word) : Word :=
  match op with
  | .swap => v
  | .add => old + v
  | .xor => old ^^^ v
  | .and => old &&& v
  | .or => old ||| v
  | .min => if old.toInt ≤ v.toInt then old else v
  | .max => if old.toInt ≤ v.toInt then v else old
  | .minu => if old.toNat ≤ v.toNat then old else v
  | .maxu => if old.toNat ≤ v.toNat then v else old

/-- Whether an address lies in a region that supports LR, SC and AMOs for a core (R625). -/
def atomicRegion (c : Fin 2) (a : Nat) : Bool :=
  let base := 0x02100000 + 0x01000000 * c.val
  regionAt a == .ownDtcm || regionAt a == .ringSram || regionAt a == .uncachedWin || decide (base ≤ a ∧ a < base + 0x8000)

/-- A word read at the place where atomics are performed: memory, or for the alias the memory path behind the drained
write-combining entries of the line (R673, R675). -/
def State.atomicRead (s : State) (req a : Nat) : List PByte × State :=
  if regionAt a = .uncachedWin then
    let l := dramOff a / 64
    let (d, s) := (s.drainLine l).lineRead l req
    ((d.drop (dramOff a % 64)).take 4, s)
  else State.readMem a 4 s

/-- A word written there, the alias line behind its drained write-combining entries (R673); its cached copy, and a fill of it in
flight, take the word in the same step (R675, R702). -/
def State.atomicWrite (s : State) (req a : Nat) (v : Word) : State :=
  let d := clean (leBytes 4 v.toNat)
  if regionAt a = .uncachedWin then
    let l := dramOff a / 64
    let top := atOffset (dramOff a % 64) d
    let (old, s) := (s.drainLine l).lineRead l req
    (s.lineWrite l (overlay old top) req).cacheWrite l top
  else s.writeMem a d

/-- A reservation set on the 64-byte block of an address. -/
def State.reserve (s : State) (c : Fin 2) (a : Nat) : State := s.modCore c (fun k => { k with resv := some (resvBlock a) })

/-- An atomic performed at its target. The result register of an SC is 0 where it succeeded and 1 where it failed
(PRESUMED). -/
def State.doAtomic (s : State) (c : Fin 2) (k : Atomic) (rd : Fin 32) (a t pc : Nat) : State :=
  let req := s.coreReq c
  let writer := if req ≤ 1 then some c.val else none
  match k with
  | .amo op v =>
    let (d, s) := s.atomicRead req t
    let old := BitVec.ofNat 32 (leVal (bits d))
    if poisoned d then s.coreFault c 7 a pc
    else ((s.atomicWrite req t (amoApply op old v)).dropResv writer t 4).setGpr c rd old
  | .lr =>
    let (d, s) := s.atomicRead req t
    if poisoned d then s.coreFault c 5 a pc
    else (s.reserve c t).setGpr c rd (BitVec.ofNat 32 (leVal (bits d)))
  | .sc v late =>
    let ok := s.core[c].resv == some (resvBlock t) && !late
    let s := s.modCore c (fun k => { k with resv := none })
    if ok then ((s.atomicWrite req t v).dropResv writer t 4).setGpr c rd 0 else s.setGpr c rd 1

/-- A core's atomic (R621, R625 to R627): the exception of an LR is that of a load. One of the program buffer that a Protected
Range blocks returns 0 (R650). -/
def State.coreAtomic (s : State) (c : Fin 2) (k : Atomic) (rd : Fin 32) (a pc : Nat) : State :=
  if s.coreLive c = false then s
  else
    let s := s.leaveIdle.coreCount c
    let own := s.core[c]
    let read := match k with
      | .lr => true
      | _ => false
    let fault := if read then 5 else 7
    match (if read then none else own.trigger 1 a 4).or (match k with
      | .sc _ _ => none
      | _ => own.trigger 0 a 4) with
    | some action => s.trigger c action a pc
    | none =>
      if a % 4 ≠ 0 then s.coreFault c (if read then 4 else 6) a pc
      else if !((!read || own.pmpOk 0 a 4) && (read || own.pmpOk 1 a 4)) then s.coreFault c fault a pc
      else if ownTcm a then
        let t := tcmAlias c.val a
        if atomicRegion c a then (s.initAt t).doAtomic c k rd a t pc else s.coreFault c fault a pc
      else
        match s.gate (s.coreReq c) false a (!read) with
        | (.pass, s) => if atomicRegion c a then s.doAtomic c k rd a a pc else s.coreFault c fault a pc
        | (.blocked, s) =>
          let s := s.coreFault c fault a pc
          if own.debug then s.setGpr c rd 0 else s
        | (.error, s) => s.coreFault c fault a pc

/-- CORE_AMO (R627). -/
def execCoreAmo (c : Fin 2) (op : AmoOp) (rd : Fin 32) (a v pc : Word) (s : State) : Host.Outcome State Fault Refusal :=
  fin (s.coreAtomic c (.amo op v) rd a.toNat pc.toNat)

/-- CORE_LR (R626). -/
def execCoreLr (c : Fin 2) (rd : Fin 32) (a pc : Word) (s : State) : Host.Outcome State Fault Refusal :=
  fin (s.coreAtomic c .lr rd a.toNat pc.toNat)

/-- CORE_SC (R626, R659): `late` where 128 CORE cycles have passed since the LR. -/
def execCoreSc (c : Fin 2) (rd : Fin 32) (a v pc : Word) (late : Bool) (s : State) :
    Host.Outcome State Fault Refusal :=
  fin (s.coreAtomic c (.sc v late) rd a.toNat pc.toNat)

/-- LC_ALIAS_AMO (R675): an atomic at an address of the uncached alias. -/
def execLcAliasAmo (c : Fin 2) (k : Atomic) (rd : Fin 32) (a pc : Word) (s : State) :
    Host.Outcome State Fault Refusal :=
  fin (if regionAt a.toNat = .uncachedWin then s.coreAtomic c k rd a.toNat pc.toNat else s)

end Sys2Proof.Machine
end

