-- ==== Sys2Proof/Machine/Sjd.lean ====
section
/-! DEFINITION. The stripe-joint decoding unit of the IDU Pool (R380 to R388, R503, R504, R593). -/

namespace Sys2Proof.Machine
open Sys2Proof

/-- GF(2^8) of R501. -/
def gfMul (a b : Nat) : Nat := gf8Mul 0x11D a b

/-- The generator 0x02 to a power (R501). -/
def gfPow2 (n : Nat) : Nat := gf8Pow 0x11D 2 n

/-- The inverse in GF(2^8) of R501: the power 254. -/
def gfInv (a : Nat) : Nat := gf8Pow 0x11D a 254

/-- A quotient in GF(2^8). -/
def gfDiv (a b : Nat) : Nat := gfMul a (gfInv b)

/-- Every byte of a block times an element of GF(2^8). -/
def gfScale (k : Nat) (l : List Byte) : List Byte := l.map (fun b => BitVec.ofNat 8 (gfMul k b.toNat))

/-- The bytewise sum of blocks of `n` bytes. -/
def xorAll (n : Nat) (l : List (List Byte)) : List Byte := l.foldl xorB (zerosB n)

/-- R500. -/
def pOf (n : Nat) (ds : List (List Byte)) : List Byte := xorAll n ds

/-- R502 over data blocks with their indices. -/
def qOf (n : Nat) (ds : List (Nat × List Byte)) : List Byte := xorAll n (ds.map (fun e => gfScale (gfPow2 e.1) e.2))

/-- Two lost data blocks x < y from p' and q' (R504). -/
def solveTwo (x y : Nat) (p' q' : List Byte) : List Byte × List Byte :=
  let gx := gfPow2 x
  let dy := gfScale (gfInv (gx ^^^ gfPow2 y)) (xorB q' (gfScale gx p'))
  (xorB p' dy, dy)

/-! ## Requests -/

/-- The fields of a request (Table 8.7). -/
def SjdSt.kind (q : SjdSt) : Nat := fieldB q.bytes 2 1
def SjdSt.nmem (q : SjdSt) : Nat := fieldB q.bytes 3 1
def SjdSt.slot (q : SjdSt) (i : Nat) : Nat := fieldB q.bytes (4 + i) 1
def SjdSt.qSlot (q : SjdSt) : Nat := fieldB q.bytes 13 1
def SjdSt.pPos (q : SjdSt) : Nat := fieldB q.bytes 14 1
def SjdSt.coef (q : SjdSt) (i : Nat) : Nat := fieldB q.bytes (16 + i) 1

/-- The member slots of a request, the Q member's among them where it has one. -/
def SjdSt.slots (q : SjdSt) : List Nat :=
  (List.range q.nmem).map q.slot ++ (if q.kind = 1 ∧ q.qSlot ≠ 0xFF then [q.qSlot] else [])

/-- Whether a request's fields keep Table 8.7. -/
def SjdSt.formOk (q : SjdSt) : Bool :=
  let n := q.nmem
  decide (q.kind ≤ 2) && (if q.kind = 2 then n == 2 else decide (2 ≤ n ∧ n ≤ 8 ∧ q.pPos < n))
    && (List.range 8).all (fun i => decide (i < n) || q.slot i == 0xFF)
    && decide (fieldB q.bytes 12 1 < 2 ^ n) && decide (fieldB q.bytes 15 1 ≤ 8) && decide (fieldB q.bytes 24 1 ≤ 1)
    && decide (fieldB q.bytes 25 1 ≤ 15) && fieldB q.bytes 26 6 == 0

/-- A slot's state, 0 for a number that names no slot. -/
def State.slotState (s : State) (j : Nat) : Nat := if j < 48 then s.rd (IDU_SLOT_STATE j) else 0

/-- An enqueue of the SJD unit, held in order while its ring refuses it (R593). -/
def State.postSjd (s : State) (ring : Nat) (e : List Byte) : State :=
  if s.idu.sjdHeld.any (fun h => h.1 == ring) then
    s.modIdu (fun u => { u with sjdHeld := u.sjdHeld ++ [(ring, e)] })
  else
    match s.enqueue ring e with
    | (.ok, s) => s
    | (_, s) => s.modIdu (fun u => { u with sjdHeld := u.sjdHeld ++ [(ring, e)] })

/-- The SJD unit's held enqueues tried again in order. -/
def retrySjd : List (Nat × List Byte) → List Nat → State → List (Nat × List Byte) × State
  | [], _, s => ([], s)
  | e :: es, full, s =>
    if full.contains e.1 then
      let (r, s) := retrySjd es full s
      (e :: r, s)
    else
      match s.enqueue e.1 e.2 with
      | (.ok, s) => retrySjd es full s
      | (_, s) =>
        let (r, s) := retrySjd es (e.1 :: full) s
        (e :: r, s)

/-- R593: what is held is tried again before the unit does anything else. -/
def State.sjdRetry (s : State) : State :=
  let (h, s) := retrySjd s.idu.sjdHeld [] s
  s.modIdu (fun u => { u with sjdHeld := h })

/-- The result entry of a request (R385), with the release of its slots (FLAGS bit 0). -/
def State.sjdResult (s : State) (q : SjdSt) (result after recovered : Nat) : State :=
  let e := sliceB q.bytes 0 2 ++ leBytes 1 result ++ leBytes 1 q.round ++ leBytes 1 after ++ leBytes 1 recovered
    ++ zerosB 10
  let rel := (fieldB q.bytes 24 1).testBit 0 && result != 3
  let s := s.when rel (fun s => q.slots.foldl (fun s j => s.releaseSlot j) s)
  ((s.modIdu (fun u => { u with sjd := none })).postSjd 211 e).setBit IDU_EVENT_EV 6

/-! ## Rounds -/

/-- A list of numbers filled up to the information bits. -/
def padWith (v : Int) (l : List Int) : List Int := l.take infoBits ++ List.replicate (infoBits - l.length) v

/-- The first `n` columns of a list of rows. -/
def columns : Nat → List (List Int) → List (List Int)
  | 0, _ => []
  | n + 1, rows => rows.map (fun r => r.headD 0) :: columns n (rows.map List.tail)

/-- x of R381 at the information bits for a member, decoded or failed, from the areas as they read (R388). -/
def State.sjdXs (s : State) (q : SjdSt) (i : Nat) : List Int :=
  let j := q.slot i
  if q.failed.contains i then
    List.zipWith (fun a b => sat31 (a - b)) (padTo infoBits (s.readMsgs j 2)) (padTo infoBits (s.readMsgs j 1))
  else padWith (-31) ((s.readDec j).map (fun b => if b then 31 else -31))

/-- The errors that a round's reads of the members' areas meet, noted (R712). -/
def State.sjdNote (s : State) (q : SjdSt) : State :=
  (List.range q.nmem).foldl (fun s i =>
    if q.failed.contains i then (s.llrNote (q.slot i) 2 65536).llrNote (q.slot i) 1 65536
    else s.llrNote (q.slot i) 3 65536) s

/-- The prior of R381 from the other members' values. -/
def sjdPrior (offset alpha : Int) (others : List Int) : Int :=
  let mag := others.foldl (fun (m : Int) x => min m x.natAbs) 31
  let ones := (others.filter (fun x => decide (0 < x))).length
  let mag := (max (mag - offset) 0 * alpha) / 8
  if ones % 2 = 1 then mag else -mag

/-- The priors of every failed member (R381), every x taken before any PRIOR is written. -/
def State.sjdPriors (s : State) (q : SjdSt) : State :=
  let off : Int := s.rd IDU_SJD_OFFSET
  let al : Int := s.rd IDU_SJD_ALPHA
  let xs := columns infoBits ((List.range q.nmem).map (s.sjdXs q))
  q.failed.foldl (fun (s : State) f =>
    let pr := xs.map (fun x => sjdPrior off al (x.eraseIdx f))
    (s.modSlot (slotOf (q.slot f)) (fun sl => { sl with prior := pr })).llrFresh (q.slot f) 1) (s.sjdNote q)

/-- A job entry of the SJD unit (Table 8.5) over one slot, or two. The spec gives it no JOB_ID and no TAG: they are free
values. -/
def State.sjdJob (s : State) (q : SjdSt) (flags j : Nat) (mirror : Option Nat) : State :=
  let (id, s) := s.draw
  let (tag, s) := s.draw
  let par (k : Nat) : Bool × List Int := (s.idu.slots[slotOf k].params).getD (false, [])
  let p1 := (par j).2
  let det (p : List Int) : List Byte := (List.range 4).flatMap (fun i => leBytes 1 (unsignedOf 8 (p.getD i 0)))
  let p2 := match mirror with
    | some k => (par k).2
    | none => []
  let e := leBytes 2 id ++ leBytes 1 j ++ leBytes 1 (flags + b2n (par j).1) ++ sliceB q.bytes 25 1
    ++ leBytes 1 (mirror.getD 0) ++ det p1 ++ det p2 ++ zerosB 2 ++ leBytes 8 tag ++ zerosB 8
  s.postSjd 208 e

/-- A round: priors, and a job with USE_PRIOR, KEEP_SOFT and HOLD for each failed member (R382). -/
def State.sjdRound (s : State) (q : SjdSt) : State :=
  let q := { q with round := q.round + 1, waiting := q.failed }
  let s := (s.sjdPriors q).modIdu (fun u => { u with sjd := some q })
  q.failed.foldl (fun s f => s.sjdJob q 0x0E (q.slot f) none) s

/-- A slot's DEC rebuilt. -/
def State.setDec (s : State) (j : Nat) (l : List Byte) : State :=
  (s.modSlot (slotOf j) (fun x => { x with dec := bytesToBits l })).llrFresh j 3

/-- The algebraic step (R383): the state with the rebuilt members, or none where it cannot be taken. -/
def State.sjdAlgebra (s : State) (q : SjdSt) : Option State :=
  let n := infoBits / 8
  let live := (List.range q.nmem).filter (fun i => !q.failed.contains i)
  let byt (j : Nat) : List Byte := (s.decBytes j).1
  let dec (i : Nat) : List Byte := byt (q.slot i)
  let s := (live.map q.slot ++ (if q.kind = 1 ∧ q.qSlot ≠ 0xFF then [q.qSlot] else [])).foldl
    (fun s j => s.llrNote j 3 65536) s
  match q.failed with
  | [f] => some (s.setDec (q.slot f) (xorAll n (live.map dec)))
  | [a, b] =>
    if q.kind = 1 ∧ q.qSlot ≠ 0xFF then
      let data := (live.filter (fun i => i != q.pPos)).map (fun i => (q.coef i, dec i))
      let q' := xorB (byt q.qSlot) (qOf n data)
      if a = q.pPos ∨ b = q.pPos then
        let x := if a = q.pPos then b else a
        let dx := gfScale (gfInv (gfPow2 (q.coef x))) q'
        some ((s.setDec (q.slot x) dx).setDec (q.slot q.pPos) (pOf n (dx :: data.map Prod.snd)))
      else
        let p' := xorB (dec q.pPos) (xorAll n (data.map Prod.snd))
        let r := solveTwo (q.coef a) (q.coef b) p' q'
        some ((s.setDec (q.slot a) r.1).setDec (q.slot b) r.2)
    else none
  | _ => none

/-- The rounds a request may run (Table 8.7). -/
def State.sjdRounds (s : State) (q : SjdSt) : Nat :=
  if fieldB q.bytes 15 1 = 0 then s.rd IDU_SJD_ROUNDS else fieldB q.bytes 15 1

/-- What follows a completed round: another, or the end of the request (R383, R385). A member slot that is no longer HELD
ends it, LOST or released (R386, R387). -/
def State.sjdNext (s : State) (q : SjdSt) : State :=
  let k := q.failed.length
  if q.forced ≠ 0 then s.sjdResult q q.forced k (q.started - k)
  else if k = 0 then s.sjdResult q 0 0 q.started
  else if q.slots.any (fun j => s.slotState j == 7) then s.sjdResult q 5 k (q.started - k)
  else if q.slots.any (fun j => s.slotState j != 6) then s.sjdResult q 3 k (q.started - k)
  else if q.round < s.sjdRounds q then s.sjdRound q
  else
    match s.sjdAlgebra q with
    | some s => s.sjdResult q 1 k q.started
    | none => s.sjdResult q 2 k (q.started - k)

/-- SJD_REQUEST: a request taken from ring 210, one at a time (R380 to R386, R503). -/
def State.sjdRequest (s : State) : State :=
  let s := s.sjdRetry
  if s.idu.sjd.isSome then s
  else
    match s.dequeue 210 with
    | (none, s) => s
    | (some e, s) =>
      if poisoned e then s
      else
        let q : SjdSt := { bytes := bits e }
        let mask := fieldB q.bytes 12 1
        let failed := (List.range (min q.nmem 8)).filter (fun i => mask.testBit i)
        let q := { q with failed := failed, started := failed.length }
        if q.formOk = false then s.sjdResult q 3 0 0
        else if q.slots.any (fun j => s.slotState j == 7) then s.sjdResult q 5 failed.length 0
        else if q.slots.any (fun j => s.slotState j != 6) then s.sjdResult q 3 0 0
        else if q.kind = 2 then
          let q := { q with waiting := [0] }
          (s.modIdu (fun u => { u with sjd := some q })).sjdJob q 0x14 (q.slot 0) (some (q.slot 1))
        else s.sjdNext q

/-- SJD_REQUEST. -/
def execSjdRequest (s : State) : Host.Outcome State Fault Refusal :=
  fin (s.when (s.runs 1 && s.on 10) State.sjdRequest)

/-- SJD_MEMBER_COMPLETION: a completion of ring 209 taken (R382 to R385): a member whose job ends OK is decoded, and the
last of a round's completions ends the round. A mirror job's end is the request's (R384). -/
def State.sjdCompletion (s : State) : State :=
  let s := s.sjdRetry
  match s.dequeue 209 with
  | (none, s) => s
  | (some e, s) =>
    match s.idu.sjd with
    | none => s
    | some q =>
      let slot := fieldB (bits e) 2 1
      let st := if poisoned e then 1 else fieldB (bits e) 3 1
      match q.waiting.find? (fun i => q.slot i == slot) with
      | none => s
      | some i =>
        let failed := if st ≠ 0 then q.failed else if q.kind = 2 then [] else q.failed.filter (fun f => f != i)
        let forced := if st = 3 then 4 else if st = 2 then 5 else if st = 4 ∨ st = 5 then 3
          else if q.kind = 2 ∧ st ≠ 0 then 2 else q.forced
        let q := { q with failed := failed, forced := forced, waiting := q.waiting.filter (fun f => f != i) }
        let s := s.modIdu (fun u => { u with sjd := some q })
        if q.waiting.isEmpty then s.sjdNext q else s

/-- SJD_MEMBER_COMPLETION. -/
def execSjdMemberCompletion (s : State) : Host.Outcome State Fault Refusal :=
  fin (s.when (s.runs 1 && s.on 10) State.sjdCompletion)

/-- SJD_ENQUEUE_TIMEOUT: an enqueue of the unit has been refused for 4096 CORE cycles (R593). -/
def execSjdEnqueueTimeout (s : State) : Host.Outcome State Fault Refusal :=
  fin (if s.idu.sjdHeld.isEmpty then s else s.setBit IDU_EVENT_EV 5)

end Sys2Proof.Machine
end

