-- ==== Sys2Proof/Machine/ArrayEngine.lean ====
section
/-! DEFINITION. The Array Engine (R568 to R577, Tables 12.4 and 12.5), requester 14. -/

namespace Sys2Proof.Machine
open Sys2Proof

/-- Whether `n` bytes from an address lie in the Buffer DRAM data area or its uncached alias (R575). -/
def inBuffer (a n : Nat) : Bool :=
  decide (0x80000000 ≤ a ∧ a + n ≤ 0xB8000000) || decide (0xC0000000 ≤ a ∧ a + n ≤ 0xF8000000)

/-- Whether an address names `lines` 64-byte lines of the buffer, aligned (R575). -/
def aeAddrOk (a lines : Nat) : Bool := a % 64 == 0 && inBuffer a (64 * lines)

/-- A source of a command: its address, EXP and SFLAGS. -/
structure AeSrc where
  addr : Nat
  exp : Nat
  p : Bool
  q : Bool

/-- A command of ring 256 (Table 12.4). -/
structure AeCmd where
  op : Nat
  nsrc : Nat
  lines : Nat
  list : Nat
  dst0 : Nat
  dst1 : Nat
  x : Nat
  y : Nat
  flags : Nat

/-- The command that an entry spells. -/
def aeCmdOf (b : List Byte) : AeCmd :=
  { op := fieldB b 2 1, nsrc := fieldB b 3 1, lines := fieldB b 4 4, list := fieldB b 8 4, dst0 := fieldB b 12 4,
    dst1 := fieldB b 16 4, x := fieldB b 20 1, y := fieldB b 21 1, flags := fieldB b 22 1 }

/-- Whether an entry keeps Table 12.4 and R575, its source list apart. A SOLVE needs two sources; a PI_CHECK needs whole
blocks (R572). -/
def AeCmd.ok (c : AeCmd) (b : List Byte) : Bool :=
  decide (1 ≤ c.op ∧ c.op ≤ 5) && decide (1 ≤ c.lines ∧ c.lines ≤ 65535) && decide (c.flags ≤ 3) && fieldB b 23 1 == 0
    && (c.op == 5 || (decide (1 ≤ c.nsrc ∧ c.nsrc ≤ 10) && c.list % 64 == 0 && inBuffer c.list (8 * c.nsrc)))
    && (c.dst0 == 0 || aeAddrOk c.dst0 c.lines) && (c.dst1 == 0 || aeAddrOk c.dst1 c.lines)
    && (c.op != 2 || (decide (2 ≤ c.nsrc) && c.x != 0xFF && c.x != c.y))
    && (!c.flags.testBit 0 || c.lines % 65 == 0)

/-- An entry of the source list. -/
def aeSrcOf (b : List Byte) : AeSrc :=
  { addr := fieldB b 0 4, exp := fieldB b 4 1, p := (fieldB b 5 1).testBit 0, q := (fieldB b 5 1).testBit 1 }

/-- Whether a source list entry is within Table 12.4 and R575. -/
def aeSrcOk (lines : Nat) (b : List Byte) : Bool :=
  aeAddrOk (fieldB b 0 4) lines && fieldB b 4 1 != 0xFF && decide (fieldB b 5 1 ≤ 3) && fieldB b 6 2 == 0

/-- How a line of a command is read: its bytes, or the address of a line that is poisoned or blocked (R576). -/
def State.aeRead (s : State) (hint : Bool) (a : Nat) : Except Nat (List Byte) × State :=
  let (o, s) := s.masterRead 14 false false hint a 64
  (if o.bad then .error a else .ok (bits o.data), s)

/-- Line `k` of each source, in order, up to the first that fails. -/
def aeReadAll (hint : Bool) (k : Nat) : List AeSrc → State → Except Nat (List (AeSrc × List Byte)) × State
  | [], s => (.ok [], s)
  | x :: xs, s =>
    match s.aeRead hint (x.addr + 64 * k) with
    | (.error a, s) => (.error a, s)
    | (.ok d, s) =>
      match aeReadAll hint k xs s with
      | (.error a, s) => (.error a, s)
      | (.ok ds, s) => (.ok ((x, d) :: ds), s)

/-- The two outputs of a line (R568 to R571). -/
def AeCmd.outputs (c : AeCmd) (ds : List (AeSrc × List Byte)) : List Byte × List Byte :=
  let src (i : Nat) : List Byte := ((ds[i]?).map Prod.snd).getD (zerosB 64)
  if c.op = 1 ∨ c.op = 4 then
    (xorAll 64 ((ds.filter (fun e => e.1.p)).map Prod.snd),
     qOf 64 ((ds.filter (fun e => e.1.q)).map (fun e => (e.1.exp, e.2))))
  else if c.op = 2 then
    if c.y = 0xFF then (gfScale (gfInv (gfPow2 c.x)) (src 1), zerosB 64) else solveTwo c.x c.y (src 0) (src 1)
  else if c.op = 3 then (src 0, src 0)
  else (zerosB 64, zerosB 64)

/-- Whether a command writes its two destinations: CHECK none, ZERO and the single-unknown SOLVE only DST0. -/
def AeCmd.writes (c : AeCmd) : Bool × Bool :=
  (c.op != 4 && c.dst0 != 0, c.op != 4 && c.op != 5 && !(c.op == 2 && c.y == 0xFF) && c.dst1 != 0)

/-- What a command has found so far: the first non-zero output byte of a CHECK, the bytes of DST0's block not yet whole,
the first block that failed its PI, and the source line that ended the command. -/
structure AeRun where
  mismatch : Option Nat := none
  block : List Byte := []
  piBad : Option Nat := none
  dataBad : Option Nat := none

/-- The offset of the first non-zero byte of a line. -/
def firstNonZero (l : List Byte) : Option Nat := l.findIdx? (fun b => b != 0)

/-- The smaller of two offsets that may be absent. -/
def minOpt (a b : Option Nat) : Option Nat :=
  match a, b with
  | some x, some y => some (min x y)
  | none, y => y
  | x, none => x

/-- The lines of a command from line `k` on (R568 to R573, R576). -/
def aeLines (c : AeCmd) (srcs : List AeSrc) : Nat → Nat → AeRun → State → AeRun × State
  | 0, _, r, s => (r, s)
  | n + 1, k, r, s =>
    let hint := c.flags.testBit 1
    match aeReadAll hint k srcs s with
    | (.error a, s) => ({ r with dataBad := some a }, s)
    | (.ok ds, s) =>
      let o := c.outputs ds
      let w := c.writes
      let s := s.when w.1 (fun s => (s.masterWrite 14 false hint (c.dst0 + 64 * k) (clean o.1)).2)
      let s := s.when w.2 (fun s => (s.masterWrite 14 false hint (c.dst1 + 64 * k) (clean o.2)).2)
      let off := (minOpt (firstNonZero o.1) (firstNonZero o.2)).map (fun i => 64 * k + i)
      let r := if c.op = 4 ∧ r.mismatch.isNone then { r with mismatch := off } else r
      let r :=
        if c.flags.testBit 0 && w.1 then
          let b := r.block ++ o.1
          if k % 65 = 64 then
            let bad := crc32c (sliceB b 0 4108) != fieldB b 4108 4
            { r with block := [], piBad := if bad && r.piBad.isNone then some (k / 65) else r.piBad }
          else { r with block := b }
        else r
      aeLines c srcs n (k + 1) r s

/-- The sources a command reads: none of ZERO, the first of COPY, and the two of SOLVE. -/
def AeCmd.uses (c : AeCmd) (l : List AeSrc) : List AeSrc :=
  if c.op = 5 then [] else if c.op = 3 then l.take 1 else if c.op = 2 then l.take 2 else l

/-- The source list read and checked: its entries, or the status and DETAIL it ends the command with. -/
def State.aeSources (s : State) (c : AeCmd) : Except (Nat × Nat) (List AeSrc) × State :=
  if c.op = 5 then (.ok [], s)
  else
    let (o, s) := s.masterRead 14 false false (c.flags.testBit 1) c.list (8 * c.nsrc)
    if o.bad then (.error (3, c.list), s)
    else
      let es := (List.range c.nsrc).map (fun i => sliceB (bits o.data) (8 * i) 8)
      if es.all (aeSrcOk c.lines) then (.ok (es.map aeSrcOf), s) else (.error (4, 0), s)

/-- A command run to its end: its STATUS and DETAIL. The DETAIL of a BAD_CMD and of an OK is 0. -/
def State.aeRun (s : State) (b : List Byte) : (Nat × Nat) × State :=
  let c := aeCmdOf b
  if c.ok b then
    match s.aeSources c with
    | (.error e, s) => (e, s)
    | (.ok l, s) =>
      let (r, s) := aeLines c (c.uses l) c.lines 0 {} s
      let e :=
        match r.dataBad, r.mismatch, r.piBad with
        | some a, _, _ => (3, a)
        | none, some m, _ => (1, m)
        | none, none, some i => (2, i)
        | none, none, none => (0, 0)
      (e, s)
  else ((4, 0), s)

/-- The engine's state changed. -/
def State.modAe (s : State) (g : Ae → Ae) : State := { s with ae := g s.ae }

/-- An entry of ring 256 taken and run, where its OP is `op`, or is none of the table's (R573 to R575). A command's end
is AE_COMMAND_COMPLETE. -/
def State.aeStart (s : State) (op : Nat) : State :=
  if s.ae.cur.isSome || s.flag AE_CTRL_ENABLE == false then s
  else
    let head := ((s.headEntry 256).map (fun b => fieldB b 2 1)).getD 0
    if head ≠ op ∧ 1 ≤ head ∧ head ≤ 5 then s
    else
      match s.dequeue 256 with
      | (none, s) => s
      | (some e, s) =>
        if poisoned e then s.setBit AE_EVENT_EV 2
        else
          let b := bits e
          let s := (s.up AE_STATUS_BUSY).wr AE_STATUS_CMD_ID (fieldB b 0 2)
          let (r, s) := s.aeRun b
          let c := sliceB b 0 2 ++ leBytes 1 r.1 ++ zerosB 1 ++ leBytes 4 r.2 ++ sliceB b 24 8
          s.modAe (fun _ => { cur := some c })

/-- AE_GEN. -/
def execAeGen (s : State) : Host.Outcome State Fault Refusal := fin (s.engine (fun s => s.aeStart 1))

/-- AE_SOLVE. -/
def execAeSolve (s : State) : Host.Outcome State Fault Refusal := fin (s.engine (fun s => s.aeStart 2))

/-- AE_COPY. -/
def execAeCopy (s : State) : Host.Outcome State Fault Refusal := fin (s.engine (fun s => s.aeStart 3))

/-- AE_CHECK. -/
def execAeCheck (s : State) : Host.Outcome State Fault Refusal := fin (s.engine (fun s => s.aeStart 4))

/-- AE_ZERO. -/
def execAeZero (s : State) : Host.Outcome State Fault Refusal := fin (s.engine (fun s => s.aeStart 5))

/-- The counts, AE_LAST_ERR and events of a command's end (Table 12.9). -/
def State.aeEnd (s : State) (c : List Byte) : State :=
  let st := fieldB c 2 1
  let s := ((s.inc AE_COUNT_CMDS).down AE_STATUS_BUSY)
  if st = 0 then s
  else
    let s := ((s.inc AE_COUNT_ERRORS).wr AE_LAST_ERR_CMD_ID (fieldB c 0 2)).wr AE_LAST_ERR_STATUS st
    s.setBit AE_EVENT_EV (if st = 1 ∨ st = 2 then 1 else 0)

/-- AE_COMMAND_COMPLETE: the command's one completion on ring 257, retried here while the ring refuses it (R574,
R577). -/
def State.aeComplete (s : State) : State :=
  match s.ae.cur with
  | none => s
  | some c =>
    let s := if s.ae.refused then s else s.aeEnd c
    match s.enqueue 257 c with
    | (.ok, s) => s.modAe (fun _ => {})
    | (_, s) => s.modAe (fun a => { a with refused := true })

/-- AE_COMMAND_COMPLETE. -/
def execAeCommandComplete (s : State) : Host.Outcome State Fault Refusal := fin (s.engine State.aeComplete)

/-- AE_COMPL_OVERFLOW: a completion has met a full ring for 4096 CORE cycles (R577). -/
def execAeComplOverflow (s : State) : Host.Outcome State Fault Refusal :=
  fin (s.engine (fun s => if s.ae.refused then s.setBit AE_EVENT_EV 3 else s))

end Sys2Proof.Machine
end

