-- ==== Sys2Proof/Machine/Layout.lean ====
section
/-! DEFINITION. The layouts of volumes (R484 to R506, Tables 11.1, 11.5 and 11.6): where each chunk lies, and where it goes
when units fail. -/

namespace Sys2Proof.Machine
open Sys2Proof

/-- A layout with its n, w and s (Table 11.1): LAYOUT 0 MIRROR, 1 CONST_P, 2 CONST_PQ, 3 CONST_MIRROR. -/
structure Geo where
  layout : Nat
  n : Nat
  w : Nat
  s : Nat
  deriving DecidableEq, Repr

/-- The combinations that Otivo 3.2 creates (R485, Table 11.6), MIRROR among them. -/
def combos : List Geo :=
  [⟨0, 2, 2, 0⟩, ⟨3, 5, 2, 1⟩, ⟨3, 8, 2, 2⟩, ⟨1, 3, 3, 0⟩, ⟨1, 4, 3, 1⟩, ⟨1, 5, 4, 1⟩, ⟨1, 6, 5, 1⟩, ⟨1, 7, 3, 1⟩,
   ⟨1, 7, 6, 1⟩, ⟨1, 8, 3, 2⟩, ⟨1, 8, 5, 1⟩, ⟨1, 8, 7, 1⟩, ⟨2, 5, 4, 1⟩, ⟨2, 6, 4, 2⟩, ⟨2, 7, 5, 2⟩, ⟨2, 7, 6, 1⟩,
   ⟨2, 8, 6, 2⟩, ⟨2, 8, 7, 1⟩]

/-- Whether a stripe carries P, and how many parity members it has. -/
def Geo.parities (g : Geo) : Nat := if g.layout = 1 then 1 else if g.layout = 2 then 2 else 0

/-- Data chunks of a stripe (Table 11.1). -/
def Geo.d (g : Geo) : Nat := if g.parities = 0 then 1 else g.w - g.parities

/-- Stripes of a row (R494); MIRROR has one. -/
def Geo.t (g : Geo) : Nat := if g.layout = 0 then 1 else (g.n - g.s) / g.w

/-- Data chunks of a row. -/
def Geo.td (g : Geo) : Nat := g.t * g.d

/-- The redundancy (R521). -/
def Geo.red (g : Geo) : Nat := if g.layout = 2 then 2 else 1

/-- The multiplier list (R492). -/
def multipliers (n : Nat) : List Nat := (List.range n).filter (fun k => decide (1 ≤ k) && Nat.gcd k n == 1)

/-- The period (R492), and for MIRROR the rows after which progress is written (R538). -/
def Geo.period (g : Geo) : Nat := if g.layout = 0 then 64 else g.n * (multipliers g.n).length

/-- The unit of slot `k` in row `r` (R493); in MIRROR unit k (R499). -/
def Geo.unit (g : Geo) (r k : Nat) : Nat :=
  if g.layout = 0 then k
  else
    let ms := multipliers g.n
    (k * ms.getD ((r % g.period) / g.n) 1 + r % g.n) % g.n

/-- What a slot of a stripe holds. -/
inductive Role
  | data (d : Nat)
  | p | q | copy
  deriving DecidableEq, Repr

/-- The slots of stripe `t` of row `r` with their roles (R494 to R496): data first, in index order. -/
def Geo.stripe (g : Geo) (r t : Nat) : List (Role × Nat) :=
  let first := t * g.w
  if g.parities = 0 then [(.data 0, first), (.copy, first + 1)]
  else
    let even := r % 2 == 0
    let data := (List.range g.d).map (fun d => (Role.data d, first + (if even then d else d + g.parities)))
    let p := (Role.p, if even then first + g.w - 1 else first)
    let q := (Role.q, if even then first + g.w - 2 else first + 1)
    data ++ [p] ++ (if g.parities = 2 then [q] else [])

/-- Row, stripe and data index of data chunk `c` (R497). -/
def Geo.chunk (g : Geo) (c : Nat) : Nat × Nat × Nat := (c / g.td, c % g.td / g.d, c % g.d)

/-- The data chunk of a row's stripe and data index. -/
def Geo.chunkNo (g : Geo) (r t d : Nat) : Nat := r * g.td + t * g.d + d

/-- How R505 goes on: what each spare holds, and where each stripe slot's chunk has gone; none is lost. -/
structure Homes where
  occ : List (Option Nat)
  home : List (Option Nat)

/-- R505 for one stripe slot `k` when unit `f` fails; `gone` are the failed units up to it. -/
def Geo.moveSlot (g : Geo) (r f : Nat) (gone : List Nat) (h : Homes) (k : Nat) : Homes :=
  match h.home.getD k none with
  | none => h
  | some at' =>
    if g.unit r at' ≠ f then h
    else
      let base := g.t * g.w
      let free (j : Nat) : Bool := !gone.contains (g.unit r (base + j)) && (h.occ.getD j none).isNone
      match (List.range g.s).find? free with
      | some j =>
        let occ := h.occ.map (fun o => if o = some k then none else o)
        { occ := occ.set j (some k), home := h.home.set k (some (base + j)) }
      | none => { h with home := h.home.set k none }

/-- The slot that holds the chunk of each stripe slot of row `r` under a FAIL_LIST (R505). -/
def Geo.homes (g : Geo) (r : Nat) (fails : List Nat) : List (Option Nat) :=
  let k := g.t * g.w
  let go (h : Homes) (e : Nat × Nat) : Homes :=
    (List.range k).foldl (g.moveSlot r e.1 (fails.take (e.2 + 1))) h
  (fails.zipIdx.foldl go { occ := List.replicate g.s none, home := (List.range k).map some }).home

/-! ## The volume record (Table 11.5) -/

/-- A volume's record: its 480 bytes. -/
abbrev VolRec := List Byte

def vState (b : VolRec) : Nat := fieldB b 0 1
def vGeo (b : VolRec) : Geo := ⟨fieldB b 1 1, fieldB b 2 1, fieldB b 3 1, fieldB b 4 1⟩
def vLss (b : VolRec) : Bool := fieldB b 5 1 == 1
def vBand (b : VolRec) : Option Nat := if fieldB b 6 1 < 16 then some (fieldB b 6 1) else none
def vFlag (b : VolRec) (i : Nat) : Bool := (fieldB b 7 1).testBit i
def vBase (b : VolRec) : Nat := fieldB b 8 8
def vCpu (b : VolRec) : Nat := fieldB b 16 8
def vCap (b : VolRec) : Nat := fieldB b 24 8
def vWgen (b : VolRec) : Nat := fieldB b 32 4
def vWiFirst (b : VolRec) : Nat := fieldB b 36 4
def vWiBits (b : VolRec) : Nat := fieldB b 40 4
def vFails (b : VolRec) : List Nat := (List.range (min 2 (fieldB b 44 1))).map (fun i => fieldB b (45 + i) 1)
def vRebRow (b : VolRec) : Nat := fieldB b 48 8
def vCbRow (b : VolRec) : Nat := fieldB b 56 8
def mPort (b : VolRec) (u : Nat) : Nat := fieldB b (64 + 32 * u) 1
def mState (b : VolRec) (u : Nat) : Nat := fieldB b (65 + 32 * u) 1
def mSerial (b : VolRec) (u : Nat) : Nat := fieldB b (72 + 32 * u) 8

/-- A field of a record given a value. -/
def vSet (b : VolRec) (off n v : Nat) : VolRec := spliceB b off (leBytes n v)

/-- A flag of a record set or cleared. -/
def vPut (b : VolRec) (i : Nat) (x : Bool) : VolRec :=
  let f := fieldB b 7 1
  vSet b 7 1 (if x then f ||| 2 ^ i else if f.testBit i then f - 2 ^ i else f)

/-- A FAIL_LIST written, with its FAIL_COUNT. -/
def vSetFails (b : VolRec) (l : List Nat) : VolRec :=
  vSet (vSet (vSet b 44 1 l.length) 45 1 (l.getD 0 0xFF)) 46 1 (l.getD 1 0xFF)

/-- The members' unit indices. -/
def vUnits (b : VolRec) : List Nat := List.range (vGeo b).n

/-- Whether a record holds a volume. -/
def vLive (b : VolRec) : Bool := vState b != 0

/-- DC of R489. -/
def geoChunks (g : Geo) (cpu : Nat) : Nat := cpu * g.td

/-- The capacity in logical sectors (R489). -/
def geoCap (g : Geo) (cpu : Nat) (lss : Bool) : Nat := geoChunks g cpu * (if lss then 16 else 128)

/-- The bits of the write-intent pool that a volume needs (Table 11.5). -/
def wiNeed (chunks : Nat) : Nat := (chunks + 1023) / 1024

/-- Logical sectors of a 4096-byte unit. -/
def perUnit (b : VolRec) : Nat := if vLss b then 1 else 8

/-- Bytes of a logical sector. -/
def secBytes (b : VolRec) : Nat := if vLss b then 4096 else 512

end Sys2Proof.Machine
end

