-- ==== Sys2Proof/Machine/Tables.lean ====
section
/-! DEFINITION. Otivo's tables in MRAM (R508 to R514, R562, R825, Tables 11.3 to 11.5, 11.7, 12.3 and 18.11), read and
written by Core B as requester 1. -/

namespace Sys2Proof.Machine
open Sys2Proof

/-- One of four volumes by number. -/
def volOf (n : Nat) : Fin 4 := ⟨n % 4, Nat.mod_lt _ (by decide)⟩

/-- Bytes that Otivo reads, none where the read is blocked, in error or poisoned. -/
def State.otBytes (s : State) (a n : Nat) : Option (List Byte) :=
  let o := (s.masterRead 1 false false false a n).1
  if o.bad then none else some (bits o.data)

/-- Bytes that Otivo writes. -/
def State.otStore (s : State) (a : Nat) (l : List Byte) : State := (s.masterWrite 1 false false a (clean l)).2

/-- Bytes written with the CRC-32C over them behind them, the CRC last. -/
def State.otSeal (s : State) (a : Nat) (l : List Byte) : State := (s.otStore a l).otStore (a + l.length) (leBytes 4 (crc32c l))

/-- Bytes with a CRC-32C of the `n` bytes before it, where that is right. -/
def State.sealed (s : State) (a n : Nat) : Option (List Byte) :=
  (s.otBytes a (n + 4)).bind (fun b => if fieldB b n 4 = crc32c (b.take n) then some (b.take n) else none)

/-- Of two copies, the valid one with the larger number at an offset, the first on equal numbers. -/
def newerCopy (off n : Nat) (a b : Option (List Byte)) : Option (Nat × List Byte) :=
  match a, b with
  | none, none => none
  | some x, none => some (0, x)
  | none, some y => some (1, y)
  | some x, some y => if fieldB x off n < fieldB y off n then some (1, y) else some (0, x)

/-! ## The volume table -/

/-- A copy of the volume table, where it is valid (R509). -/
def State.tableCopy (s : State) (c : Nat) : Option (List Byte) :=
  (s.sealed (0x100E0000 + 0x800 * c) 2044).bind (fun b =>
    if fieldB b 0 4 = 0x5654424C ∧ fieldB b 4 2 = 1 then some b else none)

/-- The volume table in use with its copy (R509). -/
def State.volTable (s : State) : Option (Nat × List Byte) := newerCopy 8 8 (s.tableCopy 0) (s.tableCopy 1)

/-- A volume's record; all zeros, EMPTY, where no table is valid. -/
def State.vol (s : State) (v : Fin 4) : VolRec :=
  match s.volTable with
  | some (_, b) => sliceB b (64 + 480 * v.val) 480
  | none => zerosB 480

/-- Records changed and the table written (R510): into the copy not in use, with SEQUENCE one greater. A first table
carries SEQUENCE 1 in copy A. -/
def State.setVols (s : State) (l : List (Fin 4 × VolRec)) : State :=
  let (c, b) := match s.volTable with
    | some (c, b) => (1 - c, b)
    | none => (0, leBytes 4 0x5654424C ++ leBytes 2 1 ++ zerosB 2038)
  let b := spliceB b 8 (leBytes 8 (fieldB b 8 8 + 1))
  let b := l.foldl (fun (b : List Byte) e => spliceB b (64 + 480 * e.1.val) e.2) b
  s.otSeal (0x100E0000 + 0x800 * c) b

/-- One record changed (R510). -/
def State.setVol (s : State) (v : Fin 4) (r : VolRec) : State := s.setVols [(v, r)]

/-- The four volumes. -/
def allVols : List (Fin 4) := List.ofFn (fun v => v)

/-- The volumes that exist. -/
def State.liveVols (s : State) : List (Fin 4) := allVols.filter (fun v => vLive (s.vol v))

/-! ## Unreadable-unit lists (R512, R513) -/

/-- A copy of a volume's list, where it is valid: its SEQUENCE and its entries (volume unit, MASK). -/
def State.listCopy (s : State) (v : Fin 4) (c : Nat) : Option (Nat × List (Nat × Nat)) :=
  (s.otBytes (0x100E2000 + 0x1000 * v.val + 0x800 * c) 2048).bind (fun b =>
    let n := fieldB b 4 2
    let es := sliceB b 16 (8 * n)
    if fieldB b 0 4 = 0x55524C31 ∧ n ≤ 254 ∧ fieldB b 12 4 = crc32c (b.take 12 ++ es) then
      some (fieldB b 8 4, (List.range n).map (fun e => (fieldB es (8 * e) 7, fieldB es (8 * e + 7) 1)))
    else none)

/-- The list in use: its copy, SEQUENCE and entries. -/
def State.badList (s : State) (v : Fin 4) : Nat × Nat × List (Nat × Nat) :=
  match s.listCopy v 0, s.listCopy v 1 with
  | none, none => (1, 0, [])
  | some a, none => (0, a)
  | none, some b => (1, b)
  | some a, some b => if a.1 < b.1 then (1, b) else (0, a)

/-- The bytes of a list copy (Table 11.7). -/
def listBytes (seq : Nat) (l : List (Nat × Nat)) : List Byte :=
  let head := leBytes 4 0x55524C31 ++ leBytes 2 l.length ++ zerosB 2 ++ leBytes 4 seq
  let es := l.flatMap (fun e => leBytes 7 e.1 ++ leBytes 1 e.2)
  head ++ leBytes 4 (crc32c (head ++ es)) ++ es

/-- A list written (R512): into the copy not in use, the CRC last. -/
def State.setBadList (s : State) (v : Fin 4) (l : List (Nat × Nat)) : State :=
  let (c, seq, _) := s.badList v
  let b := listBytes (seq + 1) l
  let a := 0x100E2000 + 0x1000 * v.val + 0x800 * (1 - c)
  ((s.otStore a (b.take 12)).otStore (a + 16) (b.drop 16)).otStore (a + 12) (sliceB b 12 4)

/-- The MASK of a unit in its volume's list, 0 where it is not there. -/
def State.badMask (s : State) (v : Fin 4) (u : Nat) : Nat :=
  (((s.badList v).2.2.find? (fun e => e.1 == u)).map Prod.snd).getD 0

/-- Logical sectors of a unit added to the list, by the rule whose number Table 22.5 gives; a full list sets LOST_DATA
(R512, R513). -/
def State.addBad (s : State) (v : Fin 4) (rule u mask : Nat) : State :=
  let l := (s.badList v).2.2
  let pay := leBytes 1 v.val ++ leBytes 1 rule ++ leBytes 1 mask ++ zerosB 5 ++ leBytes 7 u
  if mask = 0 then s
  else if l.any (fun e => e.1 == u) then
    (s.setBadList v (l.map (fun e => if e.1 = u then (u, e.2 ||| mask) else e))).almLog 3 0x0704 pay
  else if 254 ≤ l.length then
    (s.setVol v (vPut (s.vol v) 1 true)).almLog 3 0x0705 (leBytes 1 v.val ++ zerosB 7 ++ leBytes 7 u)
  else (s.setBadList v (l ++ [(u, mask)])).almLog 3 0x0704 pay

/-- Logical sectors of a unit taken off the list: a MASK that becomes 0 removes its entry, the last entry moving into its
place (R512). -/
def State.clearBad (s : State) (v : Fin 4) (u mask : Nat) : State :=
  let l := (s.badList v).2.2
  match l.findIdx? (fun e => e.1 == u) with
  | none => s
  | some i =>
    let m := (l.getD i (0, 0)).2
    let m' := m - (m &&& mask)
    if m' = m then s
    else if m' ≠ 0 then s.setBadList v (l.set i (u, m'))
    else
      let last := l.getD (l.length - 1) (0, 0)
      s.setBadList v ((l.set i last).take (l.length - 1))

/-! ## Write intent (R514, R549, R550) -/

/-- The address of the byte that holds bit `b` of the pool. -/
def wiAddr (b : Nat) : Nat := 0x100E6000 + b / 8

/-- A bit of the pool. -/
def State.wiBit (s : State) (b : Nat) : Bool := ((s.otBytes (wiAddr b) 1).getD [0]).any (fun x => x.getLsbD (b % 8))

/-- A bit of the pool set or cleared. -/
def State.setWi (s : State) (b : Nat) (x : Bool) : State :=
  if s.wiBit b = x then s
  else
    let v := ((s.otBytes (wiAddr b) 1).getD [0]).headD 0
    let m : Byte := BitVec.ofNat 8 (2 ^ (b % 8))
    s.otStore (wiAddr b) [if x then v ||| m else v &&& ~~~m]

/-- The regions of a volume whose bit is set. -/
def State.wiRegions (s : State) (r : VolRec) : List Nat :=
  (List.range (vWiBits r)).filter (fun j => s.wiBit (vWiFirst r + j))

/-- The lowest free range of `n` bits: it begins at 0 or where a range in use ends. -/
def freeRange (used : List (Nat × Nat)) (n : Nat) : Option Nat :=
  let starts := 0 :: used.map (fun e => e.1 + e.2)
  let ok (a : Nat) : Bool :=
    decide (a + n ≤ 262144) && used.all (fun e => decide (a + n ≤ e.1 ∨ e.1 + e.2 ≤ a) || e.2 == 0)
  (starts.filter ok).foldl (fun (m : Option Nat) a => some (match m with
    | some x => min x a
    | none => a)) none

/-! ## Reshape checkpoints (R562, Table 12.3) -/

/-- A checkpoint copy, where it is valid. -/
def State.chkCopy (s : State) (v : Fin 4) (c : Nat) : Option (List Byte) :=
  (s.sealed (0x100E1000 + 0x400 * v.val + 0x200 * c) 508).bind (fun b =>
    if fieldB b 0 4 = 0x50524843 ∧ fieldB b 4 2 = 1 then some b else none)

/-- The newer valid checkpoint of a volume. -/
def State.checkpoint (s : State) (v : Fin 4) : Option (Nat × List Byte) := newerCopy 8 8 (s.chkCopy v 0) (s.chkCopy v 1)

def ckState (b : List Byte) : Nat := fieldB b 6 1
def ckOld (b : List Byte) : Geo := ⟨fieldB b 16 1, fieldB b 17 1, fieldB b 18 1, fieldB b 19 1⟩
def ckG (b : List Byte) : Nat := fieldB b 20 4
def ckB (b : List Byte) : Nat := fieldB b 24 8
def ckBackupRow (b : List Byte) : Nat := fieldB b 32 8
def ckBackup (b : List Byte) : Nat := fieldB b 40 4
def ckWiFirst (b : List Byte) : Nat := fieldB b 44 4
def ckWiBits (b : List Byte) : Nat := fieldB b 48 4

/-- The ranges of the write-intent pool in use; a running reshape's old range counts until it is freed (R514, R566). -/
def State.wiUsed (s : State) : List (Nat × Nat) :=
  s.liveVols.flatMap (fun v =>
    let r := s.vol v
    let old := if vFlag r 3 then (s.checkpoint v).toList.map (fun c => (ckWiFirst c.2, ckWiBits c.2)) else []
    (vWiFirst r, vWiBits r) :: old)

/-- A checkpoint written into the copy that does not hold the newer valid one, with SEQUENCE one greater (R562). -/
def State.setCheckpoint (s : State) (v : Fin 4) (b : List Byte) : State :=
  let (c, seq) := match s.checkpoint v with
    | some (c, x) => (1 - c, fieldB x 8 8 + 1)
    | none => (0, 1)
  s.otSeal (0x100E1000 + 0x400 * v.val + 0x200 * c) (spliceB b 8 (leBytes 8 seq))

/-- A checkpoint's bytes before its SEQUENCE is filled in. -/
def checkpointOf (st : Nat) (old : Geo) (g b backupRow chunks wiFirst wiBits wgen : Nat) : List Byte :=
  leBytes 4 0x50524843 ++ leBytes 2 1 ++ leBytes 1 st ++ zerosB 9 ++ leBytes 1 old.layout ++ leBytes 1 old.n
    ++ leBytes 1 old.w ++ leBytes 1 old.s ++ leBytes 4 g ++ leBytes 8 b ++ leBytes 8 backupRow ++ leBytes 4 chunks
    ++ leBytes 4 wiFirst ++ leBytes 4 wiBits ++ leBytes 4 wgen ++ zerosB 452

/-! ## The dirty-count record (R825, R826) -/

/-- The valid copy with the larger SEQ, copy 0 on equal SEQ: its copy and bytes. -/
def State.dirtyRecord (s : State) : Option (Nat × List Byte) :=
  newerCopy 0 4 (s.sealed 0x100F4FC0 28) (s.sealed 0x100F4FE0 28)

/-- The counts written into the copy that does not hold the newer valid record (R825). -/
def State.writeDirty (s : State) (counts : List Nat) : State :=
  let (c, seq) := match s.dirtyRecord with
    | some (c, b) => (1 - c, fieldB b 0 4 + 1)
    | none => (0, 1)
  (s.otSeal (0x100F4FC0 + 0x20 * c)
    (leBytes 4 seq ++ counts.flatMap (leBytes 4) ++ leBytes 4 (s.reg ALM_TIME_WORD.addr).toNat ++ zerosB 4)).modOt
    (fun o => { o with dirtyTold := counts })

end Sys2Proof.Machine
end

