-- ==== Sys2Proof/Machine/Discs.lean ====
section
/-! DEFINITION. HDA records (R411 to R430, Tables 9.5 to 9.7), the media as blocks by port and slot, and port errors
(R526). -/

namespace Sys2Proof.Machine
open Sys2Proof

/-! ## Records -/

/-- Where the record of a port lies in MRAM. -/
def hdaAddr (p : Fin 8) : Nat := 0x100F5000 + 0x1600 * p.val

/-- A port's record as it stands in MRAM: 5632 bytes. -/
def State.hda (s : State) (p : Fin 8) : List Byte := (s.otBytes (hdaAddr p) 5632).getD (zerosB 5632)

/-- A boot block copy of a record, where it is valid (R423). -/
def bootCopy (r : List Byte) (c : Nat) : Option (List Byte) :=
  let b := sliceB r (144 * c) 144
  if fieldB b 0 4 = 0x48444231 ∧ fieldB b 4 2 = 1 ∧ fieldB b 140 4 = crc32c (b.take 140) then some b else none

/-- The boot block that counts: the valid copy of higher GENERATION (R424). -/
def bootOf (r : List Byte) : Option (List Byte) := (newerCopy 8 4 (bootCopy r 0) (bootCopy r 1)).map Prod.snd

/-- The body of a record. -/
def bodyOf (r : List Byte) : List Byte := sliceB r 288 5344

/-- Whether a record is valid: its body, with a valid boot block of the body's GENERATION (R423). -/
def recordValid (r : List Byte) : Bool :=
  let b := bodyOf r
  let gen := fieldB b 20 4
  let boot (c : Nat) : Bool := (bootCopy r c).any (fun x => fieldB x 8 4 == gen)
  fieldB b 0 4 == 0x48444232 && fieldB b 4 2 == 1 && fieldB b 5340 4 == crc32c (b.take 5340) && (boot 0 || boot 1)

/-- A record's HDA_SERIAL, from the boot block that counts. -/
def serialOf (r : List Byte) : Option Nat := (bootOf r).map (fun b => fieldB b 12 8)

def bdZones (b : List Byte) : Nat := fieldB b 6 1
def bdUser (b : List Byte) : Nat := fieldB b 8 8
def bdNext (b : List Byte) : Nat := fieldB b 16 2
def bdGrown (b : List Byte) : Nat := fieldB b 19 1
def bdGen (b : List Byte) : Nat := fieldB b 20 4

/-- The slip list: slots and counts. -/
def bdSlips (b : List Byte) : List (Nat × Nat) :=
  (List.range (fieldB b 18 1)).map (fun i => (fieldB b (3776 + 8 * i) 5, fieldB b (3781 + 8 * i) 2))

/-- The grown list: unit sectors and pool indices. -/
def bdGrownList (b : List Byte) : List (Nat × Nat) :=
  (List.range (bdGrown b)).map (fun i => (fieldB b (4544 + 8 * i) 5, fieldB b (4549 + 8 * i) 2))

/-- The slot of a unit sector that no grown entry moves (R413, R415). -/
def slipSlot (b : List Byte) (n : Nat) : Nat :=
  ((bdSlips b).foldl (fun (st : Nat × Bool) e =>
    if st.2 || decide (st.1 < e.1) then (st.1, true) else (st.1 + e.2, false)) (n, false)).1

/-- The slot of a unit sector (R415). -/
def slotOfSector (b : List Byte) (sec : Nat) : Nat :=
  match (bdGrownList b).find? (fun e => e.1 == sec) with
  | some e => slipSlot b (bdUser b + e.2)
  | none => slipSlot b sec

/-- A zone's fields of the record: its words, and START_TRACK, K, POST_GAP, PRE_GAP and ZSG. -/
def zoneWord (b : List Byte) (z w : Nat) : Nat := fieldB b (32 + 80 * z + 4 * w) 4
def zoneStart (b : List Byte) (z : Nat) : Nat := fieldB b (96 + 80 * z) 3
def zoneK (b : List Byte) (z : Nat) : Nat := fieldB b (100 + 80 * z) 1
def zonePost (b : List Byte) (z : Nat) : Nat := fieldB b (102 + 80 * z) 2
def zonePre (b : List Byte) (z : Nat) : Nat := fieldB b (104 + 80 * z) 2
def zoneZsg (b : List Byte) (z : Nat) : Nat := fieldB b (106 + 80 * z) 2

/-- A register image of a boot block: its place in the order of Table 9.6. -/
def bootImg (b : List Byte) (i : Nat) : Nat := fieldB b (20 + 4 * i) 4

/-- The quotient rounded up. -/
def ceilDiv (a b : Nat) : Nat := (a + b - 1) / b

/-- The nominal wedge period of R213, from a boot block's images. -/
def wedgePeriod (b : List Byte) : Nat := bitsOf (bootImg b 1) 0 24 * bitsOf (bootImg b 0) 0 4 / bitsOf (bootImg b 12) 9 10

/-- The servo gate of R400. -/
def gateCycles (b : List Byte) : Nat :=
  let fmt := bootImg b 12
  let cells := bootImg b 14
  let n := bitsOf (bootImg b 13) 8 8 + 2 * bitsOf fmt 23 5 + 2 * bitsOf fmt 19 4 + 4 * bitsOf cells 8 8
  ceilDiv (15 * bitsOf (bootImg b 15) 16 16 + n * bitsOf cells 26 6) 15 + 1

/-- The length of a zone's slot in symbols. -/
def slotSymbols (body : List Byte) (z : Nat) : Nat :=
  let f := zoneWord body z 12
  bitsOf (zoneWord body z 13) 24 8 + 8 * bitsOf f 24 8 + 32 + (if (zoneWord body z 1).testBit 0 then 41120 else 37008)
    + bitsOf f 0 10

/-- Whether a zone of a record keeps R403, R405, R407 and R409. -/
def zoneOk (boot body : List Byte) (z : Nat) : Bool :=
  let pw := wedgePeriod boot
  let win := pw - gateCycles boot - zonePost body z - zonePre body z
  let syms := win * 15 * bitsOf (zoneWord body z 0) 0 25 / 2 ^ 24
  let cells := bootImg boot 14
  let lead := bitsOf (bootImg boot 15) 16 16
  let pre := ceilDiv (bitsOf cells 16 10 * bitsOf cells 26 6 - 15 * lead) 15
    + ceilDiv (pw * 4 * bitsOf (bootImg boot 6) 0 16) 65536
  let frames := b2n ((zoneWord body z 14).testBit 31) + b2n ((zoneWord body z 15).testBit 31)
  decide (1 ≤ zoneK body z ∧ zoneK body z ≤ syms / slotSymbols body z)
    && decide (pre ≤ zonePre body z ∧ 16 ≤ zonePost body z)
    && decide (14 + 36 * (bitsOf (bootImg boot 25) 0 8 + 1) * frames ≤ zoneZsg body z)
    && (if z = 0 then zoneStart body 0 == 0 else decide (zoneStart body (z - 1) < zoneStart body z))

/-- The heads of an HDA: SRV_FMT.HEADS holds one less. -/
def bootHeads (boot : List Byte) : Nat := bitsOf (bootImg boot 12) 28 4 + 1

/-- The wedges of a track. -/
def bootWedges (boot : List Byte) : Nat := bitsOf (bootImg boot 12) 9 10

/-- The zones' parts of the user area (R407, R411): each zone's first track from track 8 on, how many tracks it has up to
MAX_TRACK, and its K. -/
def userZones (boot body : List Byte) : List (Nat × Nat × Nat) :=
  let last := bitsOf (bootImg boot 16) 0 24
  (List.range (bdZones body)).map (fun z =>
    let stop := if z + 1 < bdZones body then zoneStart body (z + 1) else last + 1
    let first := max 8 (zoneStart body z)
    (first, min stop (last + 1) - first, zoneK body z))

/-- The slots of the user area (R403, R411): every track from 8 up to MAX_TRACK on every head. -/
def userSlots (boot body : List Byte) : Nat :=
  (userZones boot body).foldl (fun a e => a + e.2.1 * (bootHeads boot * bootWedges boot * e.2.2)) 0

/-- Where a slot lies (R411): its track, head, logical frame, and place in the frame. -/
structure SlotPlace where
  track : Nat
  head : Nat
  frame : Nat
  slot : Nat
  deriving DecidableEq, Repr

/-- Slot `n` of zones that follow one another, by the order of R411. -/
def placeIn (heads wedges : Nat) : List (Nat × Nat × Nat) → Nat → Option SlotPlace
  | [], _ => none
  | (first, tracks, k) :: zs, n =>
    let per := heads * wedges * k
    if n < tracks * per then
      some { track := first + n / per, head := n % per / (wedges * k), frame := n % (wedges * k) / k, slot := n % k }
    else placeIn heads wedges zs (n - tracks * per)

/-- The place of slot `n` of the user area of a record (R411). -/
def slotPlace (boot body : List Byte) (n : Nat) : Option SlotPlace :=
  placeIn (bootHeads boot) (bootWedges boot) (userZones boot body) n

/-- SKEWOFS of a place (R412, Table 10.6): SKEW for each track and head before it in the user area, 0 on tracks 0 to 7. -/
def SlotPlace.skewOfs (boot body : List Byte) (x : SlotPlace) : Nat :=
  if x.track < 8 then 0 else ((x.track - 8) * bootHeads boot + x.head) * fieldB body 7 1 % bootWedges boot

/-- The wedge that a slot's physical frame follows (R412). -/
def SlotPlace.wedge (boot body : List Byte) (x : SlotPlace) : Nat :=
  if x.track < 8 then x.frame else (x.frame + x.skewOfs boot body) % bootWedges boot

/-- A physical place as a number. -/
def SlotPlace.phys (boot body : List Byte) (x : SlotPlace) : Nat :=
  ((x.track * 16 + x.head) * 1024 + x.wedge boot body) * 16 + x.slot

/-- Sector `j` of disc copy `c` (R425): the first two slots of track 0 on head 0, and of track 1 on the highest head. -/
def copyPlace (boot body : List Byte) (c j : Nat) : SlotPlace :=
  let z := ((List.range (bdZones body)).filter (fun z => decide (zoneStart body z ≤ c))).getLastD 0
  let k := max 1 (zoneK body z)
  { track := c, head := if c = 0 then 0 else bootHeads boot - 1, frame := j / k, slot := j % k }

/-- Whether a record meets R403, R405, R407, R409 and R414 (R430), and the ranges of Table 9.7. -/
def recordFits (boot body : List Byte) : Bool :=
  let slips := bdSlips body
  let user := userSlots boot body
  let ordered := (slips.zip (slips.drop 1)).all (fun e => decide (e.1.1 + e.1.2 ≤ e.2.1))
  decide (1 ≤ bdZones body ∧ bdZones body ≤ 32 ∧ bdNext body ≤ 96 ∧ slips.length ≤ 96 ∧ bdGrown body ≤ 96)
    && (List.range (bdZones body)).all (zoneOk boot body) && ordered && slips.all (fun e => decide (1 ≤ e.2))
    && decide (bdUser body + 96 + slips.foldl (fun a e => a + (min user (e.1 + e.2) - min user e.1)) 0 ≤ user)

/-! ## Loading a record into the registers (Table 9.9) -/

/-- Where a boot block's register images go on Port 0's page, in the order of Table 9.6. -/
def imgAddrs : List Nat :=
  [ (SPN_CTRL_WORD 0).addr, (SPN_TARGET_WORD 0).addr, (SPN_ALIGN_WORD 0).addr, (SPN_RAMP_WORD 0).addr
  , (SPN_RAMP_DUTY_WORD 0).addr, (SPN_PWM_WORD 0).addr, (SPN_LOCK_WORD 0).addr, (SPN_TIMEOUT_WORD 0).addr
  , (SPN_BUDGET_WORD 0).addr, (VCM_CTRL_WORD 0).addr, (VCM_RETRACT_WORD 0).addr, (VCM_COIL_RES_WORD 0).addr
  , (SRV_FMT_WORD 0).addr, (SRV_SAM_WORD 0).addr, (SRV_CELLS_WORD 0).addr, (SRV_GATE_WORD 0).addr
  , (SRV_MAXTRACK_WORD 0).addr, (SRV_WI_WORD 0).addr, (SRV_ONTRACK_WORD 0).addr, (SRV_SEEK_WORD 0).addr
  , (SRV_SEEK2_WORD 0).addr, (SRV_SEEK_ILIM_WORD 0).addr, (SRV_LOSS_WORD 0).addr, (SRV_LOAD_WORD 0).addr
  , (SRV_UNLOAD_WORD 0).addr, (PA_CFG_WORD 0).addr, (PA_HS_WORD 0).addr ]

/-- Register writes by Core A in order. -/
def State.regWrites (s : State) (l : List (Nat × Nat)) : State :=
  l.foldl (fun (s : State) e => s.pageWrite 0 e.1 (BitVec.ofNat 32 e.2)) s

/-- A boot block's images written to its port's page. -/
def State.loadBoot (s : State) (p : Fin 8) (boot : List Byte) : State :=
  s.regWrites (imgAddrs.zipIdx.map (fun e => (e.1 + 0x10000 * p.val, bootImg boot e.2)))

/-- The words of a zone's frame timing (R407, Table 9.9): START_TRACK and K, then POST_GAP and ZSG. An entry that the record
does not have is cleared. -/
def zframeWords (b : List Byte) (z : Nat) : Nat × Nat :=
  if z < bdZones b then (zoneK b z % 16 * 2 ^ 24 + zoneStart b z, zoneZsg b z * 65536 + zonePost b z) else (0, 0)

/-- A record body's zone table with its frame timing, head table with the detector's NOISE_SHIFT, SCE sets and selectors
written to their registers (Table 9.9). -/
def State.loadBody (s : State) (p : Fin 8) (b : List Byte) : State :=
  let page := 0x10000 * p.val
  let zones := (List.range (bdZones b)).flatMap (fun z =>
    (List.range 16).map (fun w => (0x30100800 + page + 0x40 * z + 4 * w, zoneWord b z w)))
  let heads := (List.range 16).map (fun h => ((SRV_HEAD_OFS_WORD 0 0).addr + page + 4 * h, fieldB b (2592 + 8 * h) 2))
  let frames := (List.range 32).flatMap (fun z =>
    [((FMT_ZFRAME0_K p z).addr, (zframeWords b z).1), ((FMT_ZFRAME0_K p z).addr + 4, (zframeWords b z).2)])
  let noise := (List.range 4).map (fun j => ((FMT_NOISE_OF p (4 * j)).addr,
    leVal ((List.range 4).map (fun i => BitVec.ofNat 8 (fieldB b (2594 + 8 * (4 * j + i)) 1)))))
  let sets := (List.range 3).flatMap (fun k => (List.range 4).flatMap (fun x =>
    (List.range 18).map (fun w => (0x300B0000 + 0x800 * (3 * p.val + k) + 0x80 * x + 4 * w,
      fieldB b (2720 + 288 * k + 72 * x + 4 * w) 4))))
  let sels := (List.range 3).flatMap (fun k =>
    (List.range 16).map (fun i => ((SCE_SELECT_WORD (3 * p.val + k) i).addr, fieldB b (3584 + 64 * k + 4 * i) 4)))
  s.regWrites (zones ++ frames ++ heads ++ noise ++ sets ++ sels)

/-! ## The media -/

/-- The key of a place on a port's discs. A port without a boot block has no places: its sectors have keys of their own by
slot number, which no such port's heads ever reach (R424). -/
def placeKey (p : Nat) (x : Option Nat) (n : Nat) : Nat :=
  match x with
  | some k => p * 2 ^ 48 + 2 ^ 46 + k
  | none => p * 2 ^ 48 + n

/-- The key of slot `n` of the user area of a port, where its record puts it (R411, R412). -/
def State.slotKey (s : State) (p n : Nat) : Nat :=
  let r := s.hda (fin8 p)
  let at' := (bootOf r).bind (fun boot => (slotPlace boot (bodyOf r) n).map (fun x => x.phys boot (bodyOf r)))
  placeKey p at' n

/-- The key of a unit sector of a port (R415). -/
def State.sectorKey (s : State) (p sec : Nat) : Nat := s.slotKey p (slotOfSector (bodyOf (s.hda (fin8 p))) sec)

/-- The key of sector `j` of disc copy `c` of a port's record (R425). -/
def State.copyKey (s : State) (p c j : Nat) : Nat :=
  let r := s.hda (fin8 p)
  placeKey p ((bootOf r).map (fun boot => (copyPlace boot (bodyOf r) c j).phys boot (bodyOf r))) (2 ^ 44 + 2 * c + j)

/-- What lies in a slot: nothing where it was never written. -/
def State.discAt (s : State) (k : Nat) : List Byte := smGet (fun _ => []) k s.media.disc

/-- A slot written. -/
def State.discPut (s : State) (k : Nat) (b : List Byte) : State :=
  { s with media := { s.media with disc := smSet (fun _ => []) k b s.media.disc } }

/-- The block of 4112 bytes for plain or encrypted data (Table 9.2). -/
def blockOf (data : List Byte) (wlba wgen : Nat) : List Byte := sliceB data 0 4096 ++ piBytes data wlba wgen

/-- A port error counted with its time (R526). -/
def State.portError (s : State) (p : Nat) : State :=
  s.modOt (fun o => { o with errs := vmod o.errs (fin8 p) (fun l => l ++ [(s.reg ALM_TIME_WORD.addr).toNat]) })

/-- A STATUS of Table 21.14 as the completion entry carries it. -/
def MediaStatus.code : MediaStatus → Nat
  | .ok => 0
  | .readFail => 1
  | .piFail => 2
  | .writeFail => 3
  | .seekFail => 4
  | .aborted => 5
  | .hw => 6
  | .badRequest => 7

/-- The STATUS that a port's media routine has written for its last request (R980). -/
def State.mediaDone (s : State) (p : Nat) (st : MediaStatus) : State :=
  s.modOt (fun o => { o with ends := o.ends.set (fin8 p) st })

/-- How the request for a sector ends before the media can decide. -/
def MediaEnd.stopAt (m : MediaEnd) (p sec : Nat) : Option MediaStatus := m.stop.lookup (p, sec)

/-- A sector that decodes OK and fails its protection information with result `c` of Table 9.3 counts as one that failed, and
is recorded (R399, R526). -/
def State.piFault (s : State) (p c sec : Nat) (b : List Byte) : State :=
  ((s.mediaDone p .piFail).portError p).almLog 2 0x0501 (leBytes 1 p ++ leBytes 1 c ++ leBytes 5 sec ++ zerosB 1 ++ sliceB b 4096 8)

/-- The block in a unit sector: none where it still ends FAIL (counted by R526) or was never written, and none where the
request ends before. The routine's STATUS is that of Table 21.14 (R980). -/
def State.readSector (s : State) (m : MediaEnd) (p sec : Nat) : Option (List Byte) × State :=
  let b := s.discAt (s.sectorKey p sec)
  match MediaEnd.stopAt m p sec with
  | some st => (none, s.mediaDone p st)
  | none =>
    if m.fail.contains (p, sec) || b.isEmpty then (none, (s.mediaDone p .readFail).portError p)
    else (some b, s.mediaDone p .ok)

/-- A unit sector written: false where the write still ends CUT or SKIPPED, which is counted (R526), or where the request
ends before. The routine's STATUS is that of Table 21.14 (R980). -/
def State.writeSector (s : State) (m : MediaEnd) (p sec : Nat) (b : List Byte) : Bool × State :=
  match MediaEnd.stopAt m p sec with
  | some st => (false, s.mediaDone p st)
  | none =>
    if m.cut.contains (p, sec) then (false, (s.mediaDone p .writeFail).portError p)
    else (true, (s.mediaDone p .ok).discPut (s.sectorKey p sec) b)

/-! ## Updating a record (R429) -/

/-- A body sealed with its CRC. -/
def sealBody (b : List Byte) : List Byte := b.take 5340 ++ leBytes 4 (crc32c (b.take 5340))

/-- A boot block with a GENERATION, sealed. -/
def sealBoot (b : List Byte) (gen : Nat) : List Byte :=
  let b := spliceB b 8 (leBytes 4 gen)
  b.take 140 ++ leBytes 4 (crc32c (b.take 140))

/-- A disc copy of a record written (R425). -/
def State.putCopy (s : State) (p : Fin 8) (c : Nat) (r : List Byte) : State :=
  let w := 0x8000000000000000 + 0x100 * c
  let d := sliceB r 0 5632 ++ zerosB 2560
  (s.discPut (s.copyKey p.val c 0) (blockOf (d.take 4096) w 0)).discPut (s.copyKey p.val c 1) (blockOf (d.drop 4096) (w + 1) 0)

/-- Sector `j` of a disc copy: none where it fails. One that fails its protection information is recorded (R399); it has
no unit sector number, and the record's is a free value (log entry 3). -/
def State.copySector (s : State) (m : MediaEnd) (p : Fin 8) (c j : Nat) : Option (List Byte) × State :=
  let b := s.discAt (s.copyKey p.val c j)
  if m.fail.contains (p.val, 2 ^ 44 + 2 * c + j) || b.isEmpty then (none, s)
  else
    match piCheck 1 (0x8000000000000000 + 0x100 * c + j) b with
    | 0 => (some b, s)
    | e =>
      let (x, s) := s.draw
      (none, s.piFault p.val e x b)

/-- A disc copy of a record, where both its sectors decode with PI_OK and the record is valid (R426). -/
def State.getCopy (s : State) (m : MediaEnd) (p : Fin 8) (c : Nat) : Option (List Byte) × State :=
  let (a, s) := s.copySector m p c 0
  let (b, s) := s.copySector m p c 1
  match a, b with
  | some a, some b =>
    let r := a.take 4096 ++ b.take 1536
    (if recordValid r then some r else none, s)
  | _, _ => (none, s)

/-- A record updated in the order of R429: the body with GENERATION incremented, the boot blocks, then the disc copies where
the heads are loaded. -/
def State.updateRecord (s : State) (p : Fin 8) (boot body : List Byte) (disc : Bool) : State :=
  let gen := bdGen (bodyOf (s.hda p)) + 1
  let body := sealBody (spliceB body 20 (leBytes 4 gen))
  let boot := sealBoot boot gen
  let a := hdaAddr p
  let s := ((s.otStore (a + 288) body).otStore a boot).otStore (a + 144) boot
  let r := boot ++ boot ++ body
  if disc then (s.putCopy p 0 r).putCopy p 1 r else s

end Sys2Proof.Machine
end

