-- ==== Sys2Proof/Machine/OtivoOps.lean ====
section
/-! DEFINITION. What Otivo's routines share: features (R954, R955), ring entries and messages (R936 to R938), notifications
(R981, R982), the buffers and map of the Buffer Cache (R816, R820, R822), and the OCS commands it holds (R934 to R944). -/

namespace Sys2Proof.Machine
open Sys2Proof

/-- Whether Otivo runs: firmware has started, and Otivo has gone through its start (R142). -/
def State.otRuns (s : State) : Bool := s.ot.started && s.boot.stage == .firmware && s.boot.reset.isNone && s.runs 1

/-! ## Features (Table 21.5) -/

/-- The key of a per-volume feature. -/
def volFeat (id v : Nat) : Nat := id + 0x10000 * (v + 1)

/-- A feature's default. -/
def featDefault (id : Nat) : Nat :=
  match id with
  | 1 => 50 | 2 => 24 | 3 => 60 | 4 => 80 | 5 => 5 | 6 => 1
  | 0x10 => 1 | 0x12 => 1 | 0x13 => 24 | 0x15 => 8 | 0x18 => 0xFF
  | _ => 0

/-- A feature's range, none for an ID that names no feature of the whole device. -/
def featRange (id : Nat) : Option (Nat × Nat) :=
  match id with
  | 1 => some (1, 65535) | 2 => some (1, 720) | 3 => some (0, 86400) | 4 => some (10, 100) | 5 => some (1, 60)
  | 6 => some (1, 4) | 0x10 => some (0, 3) | 0x11 => some (0, 1) | 0x12 => some (0, 1) | 0x13 => some (0, 32)
  | 0x14 => some (0, 1) | 0x15 => some (1, 15) | 0x16 => some (0, 1) | 0x17 => some (0, 1) | 0x18 => some (0, 0xFF)
  | 0x19 => some (0, 0x7F)
  | _ => none

/-- A feature saved in Otivo's configuration, or its default. -/
def State.savedFeat (s : State) (id : Nat) : Nat := (s.media.saved.lookup id).getD (featDefault id)

/-- A feature in force: set since the firmware start, saved, or by default. -/
def State.feat (s : State) (id : Nat) : Nat := (s.ot.feats.lookup id).getD (s.savedFeat id)

/-- A pair of a list of pairs set. -/
def setPair (l : List (Nat × Nat)) (k v : Nat) : List (Nat × Nat) := l.filter (fun e => e.1 != k) ++ [(k, v)]

/-- A feature saved in Otivo's configuration. -/
def State.saveFeat (s : State) (id v : Nat) : State :=
  { s with media := { s.media with saved := setPair s.media.saved id v } }

/-- A feature set until the next firmware start. -/
def State.setFeat (s : State) (id v : Nat) : State := s.modOt (fun o => { o with feats := setPair o.feats id v })

/-! ## Ring entries and messages -/

/-- The waiting entries tried again. -/
def State.otRetry (s : State) : State :=
  s.ot.posts.foldl (fun (s : State) e => s.otPost e.1 e.2) (s.modOt (fun o => { o with posts := [] }))

/-- A whole message on the mailbox, the vendor pipe or the UART (R936); a UART message carries its CRC. -/
def State.sendMsg (s : State) (t : Fin 3) (m : List Byte) : State :=
  if t = 2 then s.modOt (fun o => { o with uartOut := o.uartOut ++ [m ++ leBytes 4 (crc32c m)] })
  else (msgEntries (m.length + 1) m).foldl (fun (s : State) e => s.otPost (if t = 0 then 3 else 6) e) s

/-! ## Notifications -/

/-- A notification for every transport (Tables 21.9 and 21.10) where NOTIFY_MASK has its code, kept with the CODE and
PAYLOAD of the Almanac record of the same event. A seventeenth discards the oldest (R982). -/
def State.notify (s : State) (code vol port v8 v32 : Nat) (rec : List Byte) : State :=
  let b := leBytes 4 s.ot.nseq ++ leBytes 1 code ++ leBytes 1 vol ++ leBytes 1 port ++ leBytes 1 v8 ++ leBytes 4 v32
    ++ leBytes 4 (s.reg ALM_TIME_WORD.addr).toNat
  let s := s.modOt (fun o => { o with nseq := (o.nseq + 1) % 2 ^ 32 })
  if (s.feat 0x18).testBit (code - 1) then
    let full := (List.range 3).foldl (fun a i => if 16 ≤ (s.ot.notes[i % 3]'(Nat.mod_lt _ (by decide))).length then a + 2 ^ i else a) 0
    (s.modOt (fun o => { o with
      notes := o.notes.map (fun l => (if 16 ≤ l.length then l.drop 1 else l) ++ [(b, rec)])
      overflow := o.overflow ||| BitVec.ofNat 3 full })).up HP_ATTN_ATTN
  else s

/-- An event that is recorded in the Almanac and notified. -/
def State.event (s : State) (sev alm : Nat) (pay : List Byte) (code vol port v8 v32 : Nat) : State :=
  (s.almLog sev alm pay).notify code vol port v8 v32 (leBytes 2 alm ++ sliceB pay 0 16)

/-- The end of an array task (Table 21.10, code 3), with AE_SW1. -/
def State.taskEnd (s : State) (v : Fin 4) (task : Nat) : State :=
  (s.event 1 0x0703 (leBytes 1 v.val ++ leBytes 1 task) 3 v.val 0xFF task 0).setBit AE_EVENT_EV 5

/-! ## Buffers (R820, R822) -/

/-- The address of a buffer. -/
def State.bufAddr (s : State) (n : Nat) : Nat := s.rd HQE_BUF_BASE_BASE * 4096 + 4096 * n

/-- The buffers in use. -/
def State.bufsUsed (s : State) : List Nat :=
  s.ot.cache.map (fun e => e.buf) ++ s.ot.limbo ++ s.ot.ctxBufs.map Prod.snd ++ s.ot.tunIn.flatMap (fun e => e.2.2)
    ++ s.ot.cmds.flatMap (fun c => c.bufs)

/-- The lowest of numbers not in a list, from `n` on, in as many tries. -/
def lowestNot (l : List Nat) : Nat → Nat → Nat
  | 0, n => n
  | k + 1, n => if l.contains n then lowestNot l k (n + 1) else n

/-- `k` buffers not in use, the lowest first. -/
def freshBufs (used : List Nat) : Nat → List Nat
  | 0 => []
  | k + 1 =>
    let n := lowestNot used (used.length + 1) 0
    n :: freshBufs (n :: used) k

/-- `k` free buffers within the Buffer DRAM data area, below the staging and passthrough buffers; none where there are not as many. -/
def State.takeBufs (s : State) (k : Nat) : Option (List Nat) :=
  let l := freshBufs s.bufsUsed k
  if l.all (fun n => decide (s.bufAddr n + 4096 ≤ 0xB7FE0000)) then some l else none

/-- A buffer written by a formatter context (requester 6 + p) or by Core A. -/
def State.bufStore (s : State) (req n off : Nat) (d : List PByte) : State :=
  (s.masterWrite req false false (s.bufAddr n + off) d).2

/-- A buffer read. -/
def State.bufLoad (s : State) (req n off len : Nat) : BusOut × State :=
  s.masterRead req false false false (s.bufAddr n + off) len

/-! ## The Buffer Cache map -/

/-- The map's entry of a unit. -/
def State.cached (s : State) (v u : Nat) : Option CacheEnt := s.ot.cache.find? (fun e => e.vol == v && e.unit == u)

/-- The address of a unit's entry of the map index (R816). -/
def State.indexAddr (s : State) (v u : Nat) : Nat :=
  s.rd HQE_MAP_BASE_BASE * 65536 + 8 * (((u % 8192) ^^^ (v * 2048)) % 8192)

/-- The bytes of an index entry as Otivo finds them. -/
def State.indexEntry (s : State) (v u : Nat) : Nat :=
  leVal (bits (s.masterRead 0 false false false (s.indexAddr v u) 8).1.data)

/-- Whether an index entry is unit `u`'s. -/
def indexIs (e v u : Nat) : Bool := e.testBit 63 && bitsOf e 60 2 == v && bitsOf e 41 19 == u / 8192

/-- An index entry changed in the order of R820: the upper word with FAST = 0, the lower word, the upper word. -/
def State.setIndex (s : State) (a e : Nat) : State :=
  let put (s : State) (a w : Nat) : State := (s.masterWrite 0 false false a (clean (leBytes 4 w))).2
  let hi := e / 2 ^ 32
  put (put (put s (a + 4) (hi - bitsOf hi 30 1 * 2 ^ 30)) a e) (a + 4) hi

/-- The index entry of a map entry (Table 18.8): V and FAST where sectors are present and none is lost. -/
def indexOf (e : CacheEnt) : Nat :=
  2 ^ 63 + (if e.lost = 0 then 2 ^ 62 else 0) + e.vol * 2 ^ 60 + (e.unit / 8192 % 2 ^ 19) * 2 ^ 41 + (e.mask % 256) * 2 ^ 33
    + e.buf % 2 ^ 18

/-- The index made to refer to a map entry; a unit whose UTAG does not fit has no index entry. -/
def State.indexPut (s : State) (e : CacheEnt) : State :=
  if e.unit < 2 ^ 32 then s.setIndex (s.indexAddr e.vol e.unit) (indexOf e) else s

/-- The index brought up to a changed map entry, where it refers to it. -/
def State.indexFollow (s : State) (e : CacheEnt) : State :=
  if indexIs (s.indexEntry e.vol e.unit) e.vol e.unit then s.indexPut e else s

/-- A buffer that an index entry may have referred to waits for MAP_SYNC before it is used again (R822). -/
def State.retireBuf (s : State) (n : Nat) : State :=
  (s.modOt (fun o => { o with limbo := o.limbo ++ [n] })).via execMapSync

/-- A unit dropped from the map, its index entry cleared. -/
def State.dropUnit (s : State) (v u : Nat) : State :=
  match s.cached v u with
  | none => s
  | some e =>
    let s := s.modOt (fun o => { o with cache := o.cache.filter (fun x => !(x.vol == v && x.unit == u)) })
    if indexIs (s.indexEntry v u) v u then (s.setIndex (s.indexAddr v u) 0).retireBuf e.buf else s

/-- The map's entry of a unit set, as the one used last. -/
def State.putUnit (s : State) (e : CacheEnt) : State :=
  s.modOt (fun o => { o with cache := o.cache.filter (fun x => !(x.vol == e.vol && x.unit == e.unit)) ++ [e] })

/-- Free buffers, clean units least recently used dropped where there are too few. -/
def State.needBufs (s : State) (k : Nat) : Option (List Nat) × State :=
  match s.takeBufs k with
  | some l => (some l, s)
  | none =>
    let old := (s.ot.cache.filter (fun e => e.dirty == 0 && e.lost == 0)).take k
    let s := old.foldl (fun (s : State) e => s.dropUnit e.vol e.unit) s
    (s.takeBufs k, s)

/-- How many bits of a mask of eight are set. -/
def ones8 (m : Nat) : Nat := countIdx 8 (fun i => m.testBit i)

/-- The dirty 512-byte blocks of a volume. -/
def State.dirtyOf (s : State) (v : Fin 4) : Nat :=
  (s.ot.cache.filter (fun e => e.vol == v.val)).foldl (fun a e => a + ones8 e.dirty) 0

/-- The dirty blocks of every volume. -/
def State.dirtyCounts (s : State) : List Nat := allVols.map s.dirtyOf

/-- R825: the record is written at once when every count has become 0. -/
def State.dirtyZero (s : State) : State :=
  let c := s.dirtyCounts
  if c.all (fun n => n == 0) && s.ot.dirtyTold.any (fun n => n != 0) then s.writeDirty c else s

/-! ## OCS commands -/

def OcsCmd.op (c : OcsCmd) : Nat := fieldB c.bytes 0 1
def OcsCmd.flags (c : OcsCmd) : Nat := fieldB c.bytes 1 1
def OcsCmd.volNo (c : OcsCmd) : Nat := fieldB c.bytes 2 1
def OcsCmd.arg (c : OcsCmd) : Nat := fieldB c.bytes 8 8
def OcsCmd.len (c : OcsCmd) : Nat := fieldB c.bytes 16 4
def OcsCmd.par (c : OcsCmd) (i : Nat) : Nat := fieldB c.bytes i 1

/-- A command's path as a tag. -/
def OcsCmd.tag? (c : OcsCmd) : Option (Bool × Nat × Nat) :=
  match c.path with
  | .tag u t g => some (u, t, g)
  | _ => none

/-- A command kept, or kept on. -/
def State.keep (s : State) (c : OcsCmd) : State := s.modOt (fun o => { o with cmds := o.cmds ++ [c] })

/-- A completion entry's bytes but for TAG and byte 15 (Table 18.6). -/
def ocsCompletion (c : OcsCmd) (tag last : Nat) : List Byte :=
  sliceB c.bytes 4 4 ++ leBytes 1 tag ++ leBytes 1 c.status ++ zerosB 2 ++ leBytes 4 c.result ++ leBytes 3 c.detail
    ++ leBytes 1 last

/-- A command's completion: on ring 1 for a tag, else a reply message with its data (Table 21.1); a tunnel's reply is held
(R939). -/
def State.respond (s : State) (c : OcsCmd) (data : List Byte) : State :=
  let reply (seq : Nat) : List Byte := leBytes 1 0x22 ++ leBytes 1 seq ++ zerosB 2 ++ ocsCompletion c 0xFF 0 ++ data
  match c.path with
  | .tag _ t g => s.otPost 1 (ocsCompletion c t (32 * g))
  | .mailbox q => s.sendMsg 0 (reply q)
  | .vendor q => s.sendMsg 1 (reply q)
  | .uart q => s.sendMsg 2 (reply q)
  | .tunnel l q => s.modOt (fun o => { o with tunnel := o.tunnel.set (volOf l) (some (reply q)) })

/-- A descriptor for ring 7 (Table 18.4). -/
def descBytes (id t gen : Nat) (fromHost last : Bool) (bytes addr : Nat) : List Byte :=
  leBytes 2 id ++ leBytes 1 t ++ leBytes 1 (b2n fromHost + 2 * b2n last + 32 * gen) ++ leBytes 4 bytes ++ leBytes 4 addr
    ++ zerosB 20

/-- The next `n` values of XFER_ID, which Otivo counts round below 0xFFFE. -/
def xidsFrom (x n : Nat) : List Nat := (List.range n).map (fun i => (x + i) % 0xFFFE)

/-- The transfers of a command: one descriptor for each piece (address, bytes), and the command kept until they end. -/
def State.transfer (s : State) (c : OcsCmd) (fromHost : Bool) (pieces : List (Nat × Nat)) : State :=
  match c.tag? with
  | none => s
  | some (_, t, g) =>
    let ids := xidsFrom s.ot.xid pieces.length
    let s := s.modOt (fun o => { o with xid := (o.xid + pieces.length) % 0xFFFE })
    let s := (ids.zip pieces).zipIdx.foldl (fun (s : State) e =>
      s.otPost 7 (descBytes e.1.1 t g fromHost (e.2 + 1 == pieces.length) e.1.2.2 e.1.2.1)) s
    s.keep { c with xfers := ids, stage := if fromHost then .dataIn else .dataOut }

/-- The buffers of `n` bytes of command data, 4096 bytes in each. -/
def dataPieces (addr : Nat → Nat) (n : Nat) (bufs : List Nat) : List (Nat × Nat) :=
  bufs.zipIdx.map (fun e => (addr e.1, min 4096 (n - 4096 * e.2)))

/-- A command ended with its STATUS, RESULT and DETAIL and, where that is GOOD, its data: exactly DLEN bytes, cut or made
up with zeros (R942). On the queue path the data moves before the completion; where no buffers are free the command
waits. -/
def State.ocsEnd (s : State) (c : OcsCmd) (status result detail : Nat) (data : List Byte) : State :=
  let c := { c with status := status, result := result % 2 ^ 32, detail := detail % 2 ^ 24 }
  let n := c.len
  if status ≠ 0 ∨ data.isEmpty ∨ n = 0 then s.respond c []
  else if c.tag?.isNone then s.respond c (sliceB data 0 n)
  else
    match s.needBufs (ceilDiv n 4096) with
    | (none, s) => s.keep c
    | (some bufs, s) =>
      let d := sliceB data 0 n
      let s := bufs.zipIdx.foldl (fun (s : State) e =>
        s.bufStore 0 e.1 0 (clean (sliceB d (4096 * e.2) (min 4096 (n - 4096 * e.2))))) s
      s.transfer { c with bufs := bufs } false (dataPieces s.bufAddr n bufs)

/-- A refused command: INVALID_FIELD with the first offending byte, in the command or in its data (R943). -/
def State.badField (s : State) (c : OcsCmd) (off : Nat) (inData : Bool) : State :=
  s.ocsEnd c 0x11 0 (off + 256 * b2n inData) []

/-! ## Taking commands -/

/-- Commands taken from ring 0, as many as stand there. A poisoned entry completes HARDWARE_ERROR (Table 21.13). -/
def takeRing0 : Nat → State → State
  | 0, s => s
  | n + 1, s =>
    match s.dequeue 0 with
    | (none, s) => s
    | (some e, s) =>
      let b := bits e
      let t := tagOf (fieldB b 3 1 % 32)
      let c : OcsCmd := { path := .tag (s.usbTag t) t.val (fieldB b 3 1 / 32), bytes := b }
      takeRing0 n (if poisoned e then s.ocsEnd c 0x30 0 2 [] else s.keep c)

/-- The data of a command that has come whole, read from its buffers. -/
def State.gather (s : State) (c : OcsCmd) : List Byte :=
  c.bufs.zipIdx.flatMap (fun e => bits (s.bufLoad 0 e.1 0 (min 4096 (c.len - 4096 * e.2))).1.data)

/-- The buffers of data that may carry a credential overwritten with zeros once it is read (R781, R968). -/
def State.wipeData (s : State) (c : OcsCmd) : State :=
  if c.op = 0x38 ∨ c.op = 0x20 then c.bufs.foldl (fun (s : State) n => s.bufStore 0 n 0 (clean (zerosB 4096))) s else s

/-- Sectors that `n` bytes of a volume's data make. -/
def State.sectorsIn (s : State) (c : OcsCmd) (n : Nat) : Nat := n / secBytes (s.vol (volOf c.volNo))

/-- One entry of ring 8 (Table 18.5): a transfer that ended, a stopped Hit Fast Path transfer (R823), or a retire notice
(R827). -/
def State.takeXfer (s : State) (e : List Byte) : State :=
  let id := fieldB e 0 2
  let t := fieldB e 2 1
  let g := fieldB e 3 1 / 32
  let st := fieldB e 4 1
  let moved := fieldB e 8 4
  let mine (c : OcsCmd) : Bool := c.tag?.any (fun x => x.2.1 == t && x.2.2 == g)
  match s.ot.cmds.find? (fun c => mine c && (decide (0xFFFE ≤ id) || c.xfers.contains id)) with
  | none => s
  | some c =>
    let s := s.modOt (fun o => { o with cmds := o.cmds.erase c })
    if id = 0xFFFF ∨ st = 4 ∨ st = 5 then s
    else if id = 0xFFFE then
      let s := if st = 1 then s.almLog 2 0x0801 (leBytes 1 t ++ zerosB 3 ++ leBytes 4 moved) else s
      s.ocsEnd c 0x30 (s.sectorsIn c moved) (if st = 1 then 2 else 3) []
    else
      let left := c.xfers.filter (fun x => x != id)
      let c := { c with xfers := left, rows := c.rows + moved }
      let c := if st = 1 ∨ st = 2 then { c with status := 0x30, detail := st + 1, result := s.sectorsIn c c.rows } else c
      if left ≠ [] then s.keep c
      else if c.stage = .dataIn ∧ c.status = 0 then
        if c.op = 2 then s.keep { c with stage := .ready, rows := 0 }
        else (s.wipeData c).keep { c with stage := .ready, rows := 0, data := s.gather c, bufs := [] }
      else s.respond c []

/-- Entries of ring 8 taken, as many as stand there. -/
def takeRing8 : Nat → State → State
  | 0, s => s
  | n + 1, s =>
    match s.dequeue 8 with
    | (none, s) => s
    | (some e, s) => takeRing8 n (s.takeXfer (bits e))

/-- What Otivo does before a routine of its own: refused entries are tried again, buffers come back once MAP_SYNC has
cleared, a TAG_SPLIT waits for every tag to be FREE (Table 21.5), buffers of ended MSE contexts come back, and rings 0 and
8 are read. -/
def State.otIntake (s : State) : State :=
  let s := s.otRetry
  let s := if s.flag HQE_STATUS_SYNC_BUSY then s else s.modOt (fun o => { o with limbo := [] })
  let s := s.modOt (fun o => { o with ctxBufs := o.ctxBufs.filter (fun e =>
    let st := s.rd (USB_MSE_CTX_STATE e.1)
    st == 2 || st == 3) })
  let s := match s.ot.split with
    | some n => if s.rd HQE_STATUS_OUTSTANDING = 0 then
        (s.splitWrite (BitVec.ofNat 32 n)).modOt (fun o => { o with split := none })
      else s
    | none => s
  let s := takeRing0 (s.ring 0).count s
  takeRing8 (s.ring 8).count s

/-- Whether a command changes the array configuration (R944). -/
def OcsCmd.config (c : OcsCmd) : Bool :=
  [0x20, 0x21, 0x22, 0x28, 0x38, 0x48, 0x49].contains c.op || (c.op == 0x29 && c.par 20 == 1)
    || (c.op == 0x30 && c.par 20 == 3) || (c.op == 0x58 && c.par 20 == 1)

/-- Whether an opcode takes data from the host, by its action (Table 21.2). -/
def OcsCmd.takesData (c : OcsCmd) : Bool :=
  [0x20, 0x22, 0x38, 0x48].contains c.op || (c.op == 0x29 && c.par 20 == 1)
    || (c.op == 0x58 && (c.par 20 == 0 || c.par 20 == 2))

/-- The first reserved bit that is set in a command's head: FLAGS, VOLUME, or byte 3 of a message (R943, Table 21.1). -/
def OcsCmd.headBad (c : OcsCmd) : Option Nat :=
  if 8 ≤ c.flags then some 1
  else if 4 ≤ c.volNo then some 2
  else if c.tag?.isNone ∧ c.par 3 ≠ 0 then some 3
  else none

/-- Whether a command's DLEN keeps R941. -/
def OcsCmd.lenOk (c : OcsCmd) : Bool :=
  match c.tag? with
  | some _ => c.len % 64 == 0 && decide (c.len ≤ 65536)
  | none => decide (c.len ≤ 8192) && (!c.takesData || c.len == c.data.length)

/-- Whether a path may carry an opcode (R934, R935). -/
def OcsCmd.pathOk (c : OcsCmd) : Bool :=
  let io := decide (1 ≤ c.op ∧ c.op ≤ 4)
  match c.path with
  | .tag usb _ _ => !usb || io
  | _ => !io

/-- A step of the routine that serves some opcode: the first command that `mine` takes, one that runs before one that waits,
meets the checks of R934, R935, R941, R943 and R944, gets its data, and goes to `g`. -/
def State.ocsStep (s : State) (mine : OcsCmd → Bool) (g : OcsCmd → State → State) : State :=
  if s.otRuns = false then s
  else
    let s := s.otIntake
    let pick := match s.ot.cmds.find? (fun c => mine c && c.stage == OcsStage.running) with
      | some c => some c
      | none => s.ot.cmds.find? (fun c => mine c && (c.stage == OcsStage.fresh || c.stage == OcsStage.ready))
    match pick with
    | none => s
    | some c =>
      let s := s.modOt (fun o => { o with cmds := o.cmds.erase c })
      if c.stage = .running then g c s
      else if c.pathOk = false then s.ocsEnd c 0x12 0 0 []
      else
        match c.headBad with
        | some off => s.badField c off false
        | none =>
          let io := decide (1 ≤ c.op ∧ c.op ≤ 4)
          if io then g c s
          else if c.lenOk = false then s.badField c 16 false
          else if c.config && s.ot.cmds.any (fun x => x.config && x.stage == OcsStage.running) then s.ocsEnd c 0x15 0 0 []
          else if c.takesData && c.stage == OcsStage.fresh && c.tag?.isSome && decide (0 < c.len) then
            match s.needBufs (ceilDiv c.len 4096) with
            | (none, s) => s.keep c
            | (some bufs, s) => s.transfer { c with bufs := bufs } true (dataPieces s.bufAddr c.len bufs)
          else g c s

end Sys2Proof.Machine
end

