-- ==== Sys2Proof/Machine/Volumes.lean ====
section
/-! DEFINITION. Volumes in use (R519 to R533, R549, R554, R811): the states of volumes, where a unit is read and written,
its recovery, and the Buffer Cache's loads and destages. -/

namespace Sys2Proof.Machine
open Sys2Proof

/-! ## Layout in force -/

/-- The boundary and the old layout of a reshape under way (R554). -/
def State.reshape (s : State) (v : Fin 4) (r : VolRec) : Option (Nat × Geo) :=
  if vFlag r 3 then (s.checkpoint v).map (fun c => (ckB c.2, ckOld c.2)) else none

/-- The layouts that a volume has rows in. -/
def State.layouts (s : State) (v : Fin 4) (r : VolRec) : List Geo :=
  match s.reshape v r with
  | some (_, old) => [vGeo r, old]
  | none => [vGeo r]

/-- The layout of a data chunk (R554). -/
def State.layoutOf (s : State) (v : Fin 4) (r : VolRec) (c : Nat) : Geo :=
  match s.reshape v r with
  | some (b, old) => if c < b * (vGeo r).td then vGeo r else old
  | none => vGeo r

/-- The layout of a row. -/
def State.layoutAt (s : State) (v : Fin 4) (r : VolRec) (row : Nat) : Geo :=
  match s.reshape v r with
  | some (b, old) => if row < b then vGeo r else old
  | none => vGeo r

/-- One sector index of one stripe of a volume. -/
structure Slice where
  v : Fin 4
  g : Geo
  row : Nat
  t : Nat
  i : Nat
  deriving DecidableEq, Repr

/-- The slots of a slice's stripe. -/
def Slice.slots (x : Slice) : List (Role × Nat) := x.g.stripe x.row x.t

/-- The volume unit that data member `d` of a slice holds (R491, R497). -/
def Slice.unitNo (x : Slice) (d : Nat) : Nat := x.g.chunkNo x.row x.t d * 16 + x.i

/-- The WLBA that protects a member, none for parity (R395, R397). -/
def Slice.wlba (x : Slice) : Role → Option Nat
  | .data d => some (x.unitNo d)
  | .copy => some (x.unitNo 0)
  | _ => none

/-- The unit sector of a slice on every member (R498). -/
def Slice.sector (x : Slice) (r : VolRec) : Nat := vBase r + 16 * x.row + x.i

/-- The slice that holds a volume unit, with its data index. -/
def State.sliceOf (s : State) (v : Fin 4) (r : VolRec) (u : Nat) : Slice × Nat :=
  let g := s.layoutOf v r (u / 16)
  let (row, t, d) := g.chunk (u / 16)
  ({ v := v, g := g, row := row, t := t, i := u % 16 }, d)

/-! ## Members and states -/

/-- A member that was not found at assembly (R516). -/
def State.absentAt (s : State) (v : Fin 4) (u : Nat) : Bool := (s.ot.absent[v]).testBit u

/-- A member that is not ACTIVE and found: unavailable by R519, or a replacement under copy-back. -/
def State.gone (s : State) (v : Fin 4) (r : VolRec) (u : Nat) : Bool := mState r u != 0 || s.absentAt v u

/-- Whether a unit holds what its rows' slots hold: an ACTIVE member that was found, or a replacement in a row below
COPYBACK_ROW (R519, R545). -/
def State.unitOk (s : State) (v : Fin 4) (r : VolRec) (row u : Nat) : Bool :=
  decide (mPort r u < 8) && !s.absentAt v u && (mState r u == 0 || (mState r u == 3 && decide (row < s.ot.cbRow[v])))

/-- Whether an unavailable member is covered (R520). -/
def State.covered (s : State) (v : Fin 4) (r : VolRec) (u : Nat) : Bool :=
  (vFails r).contains u && decide (0 < vCpu r ∧ vCpu r ≤ s.ot.rebRow[v]) && (s.layouts v r).all (fun g =>
    decide (0 < g.s) && (List.range g.period).all (fun row =>
      let homes := g.homes row (vFails r)
      (List.range (g.t * g.w)).all (fun k => g.unit row k != u || (homes.getD k none).isSome)))

/-- The open members (R520). -/
def State.openUnits (s : State) (v : Fin 4) (r : VolRec) : List Nat :=
  (vUnits r).filter (fun u => s.gone v r u && !s.covered v r u)

/-- The redundancy of a volume (R521); of a reshape, the smaller of its layouts'. -/
def State.redundancy (s : State) (v : Fin 4) (r : VolRec) : Nat :=
  (s.layouts v r).foldl (fun a g => min a g.red) 2

/-- STATE as R522 and R523 derive it; a FAILED volume stays so, and a rebuild or copy-back that REBUILD_HOLD stops does not
run. -/
def State.deriveState (s : State) (v : Fin 4) (r : VolRec) : Nat :=
  let n := (s.openUnits v r).length
  if vState r = 4 ∨ s.redundancy v r < n then 4
  else if (s.ot.rebuild.getLsbD v.val || vFlag r 4) && !vFlag r 2 then 3
  else if 0 < n then 2 else 1

/-- A change of STATE reported (Table 21.10, Table 12.9). -/
def State.stateEvent (s : State) (v : Fin 4) (old : Nat) : State :=
  let r := s.vol v
  let n := (vFails r).length
  if vState r = old then s
  else (s.event 1 0x0702 (leBytes 1 v.val ++ leBytes 1 old ++ leBytes 1 (vState r) ++ leBytes 1 n) 1 v.val 0xFF (vState r) n).setBit AE_EVENT_EV 4

/-- A record written with its STATE derived anew, or FAILED, and the change reported (R511, R523). -/
def State.commitVol (s : State) (v : Fin 4) (r : VolRec) (past : Bool) : State :=
  let old := vState (s.vol v)
  let st := if past then 4 else s.deriveState v r
  (s.setVol v (vSet r 0 1 st)).stateEvent v old

/-- A member that fails or is missing: appended to FAIL_LIST, with REBUILD_ROW 0 (R525, R540); true where FAIL_COUNT
would exceed 2 (R522). A replacement goes back to its place, its copy-back ended (R548). -/
def failUnit (r : VolRec) (u st : Nat) : VolRec × Bool :=
  let r := if mState r u = 3 then vPut r 4 false else r
  let r := vSet r (65 + 32 * u) 1 st
  if (vFails r).contains u then (r, false)
  else if 2 ≤ (vFails r).length then (r, true)
  else (vSet (vSetFails r (vFails r ++ [u])) 48 8 0, false)

/-- Members that fail or are missing, one after another. -/
def failUnits (r : VolRec) (us : List Nat) (st : Nat) : VolRec × Bool :=
  us.foldl (fun (a : VolRec × Bool) u =>
    let (r, o) := failUnit a.1 u st
    (r, a.2 || o)) (r, false)

/-- A rebuild's progress set back after a change of FAIL_LIST (R540). -/
def State.rebuildAnew (s : State) (v : Fin 4) : State := s.modOt (fun o => { o with rebRow := o.rebRow.set v 0 })

/-- Absent members that an access would update become MISSING first (R525). -/
def State.missUnits (s : State) (v : Fin 4) (us : List Nat) : State :=
  let r := s.vol v
  match us.filter (fun u => mState r u == 0 && s.absentAt v u) with
  | [] => s
  | l =>
    let (r, past) := failUnits r l 2
    ((s.rebuildAnew v).commitVol v r past)

/-- Whether a reshape group of a volume is in flight: begun and not yet ended, or with a backup that is to be used. -/
def State.groupBusy (s : State) (v : Fin 4) (r : VolRec) : Bool :=
  vFlag r 3 && (s.ot.inGroup.getLsbD v.val || (s.checkpoint v).any (fun c => ckState c.2 == 2))

/-- Whether a volume unit lies in the data chunks of a group in flight, to which host requests wait (R555, R556). -/
def State.groupHolds (s : State) (v : Fin 4) (u : Nat) : Bool :=
  let r := s.vol v
  s.groupBusy v r && (s.checkpoint v).any (fun c =>
    decide (ckB c.2 * (vGeo r).td ≤ u / 16 ∧ u / 16 < (ckB c.2 + ckG c.2) * (vGeo r).td))

/-! ## Ports that POWER has stopped (R971) -/

/-- A port that POWER has stopped is started and loaded, and counts as stopped until it follows. -/
def State.wakePort (s : State) (p : Fin 8) : State :=
  if s.ot.parked.getLsbD p.val = false then s
  else if s.rd (SRV_STATUS_STATE p) = 4 then
    s.modOt (fun o => { o with parked := o.parked &&& ~~~(BitVec.ofNat 8 (2 ^ p.val)) })
  else if s.rd (SPN_STATUS_STATE p) = 0 then s.spnStart p
  else if s.rd (SPN_STATUS_STATE p) = 5 ∧ s.rd (SRV_STATUS_STATE p) = 0 then s.srvLoad p
  else s

/-- The ports of a volume's members. -/
def portsOf (r : VolRec) : List Nat := ((vUnits r).map (mPort r)).filter (fun p => decide (p < 8))

/-- Whether POWER has stopped a port of a volume. -/
def State.volParked (s : State) (r : VolRec) : Bool := (portsOf r).any (fun p => s.ot.parked.getLsbD p)

/-- The ports of a volume started where POWER has stopped them. -/
def State.wakeVol (s : State) (r : VolRec) : State := (portsOf r).foldl (fun (s : State) p => s.wakePort (fin8 p)) s

/-! ## Reading -/

/-- The units that hold the chunk of a slot: its home, and the spare of R505 in rows that are rebuilt. -/
def State.locs (s : State) (x : Slice) (r : VolRec) (k : Nat) : List Nat :=
  let u := x.g.unit x.row k
  let home := if s.unitOk x.v r x.row u then [u] else []
  match (x.g.homes x.row (vFails r)).getD k none with
  | none => home
  | some k' =>
    let u' := x.g.unit x.row k'
    if k' ≠ k ∧ x.row < s.ot.rebRow[x.v] ∧ s.unitOk x.v r x.row u' then home ++ [u'] else home

/-- A member's block from a unit: none where it fails, or where its protection information does, which is logged
(R399, R526). -/
def State.readLoc (s : State) (m : MediaEnd) (x : Slice) (r : VolRec) (role : Role) (u : Nat) :
    Option (List Byte) × State :=
  let p := mPort r u
  let (b, s) := s.readSector m p (x.sector r)
  match b, x.wlba role with
  | some b, some w =>
    let c := piCheck 0 w b
    if c = 0 then (some b, s)
    else (none, s.piFault p c (x.sector r) b)
  | b, _ => (b, s)

/-- A member of a slice as it was read. -/
structure Got where
  role : Role
  avail : Bool
  block : Option (List Byte)

/-- The members of a slice read, each from its first location. -/
def readSlots (m : MediaEnd) (x : Slice) (r : VolRec) : List (Role × Nat) → State → List Got × State
  | [], s => ([], s)
  | (role, k) :: rest, s =>
    match s.locs x r k with
    | [] =>
      let (l, s) := readSlots m x r rest s
      ({ role := role, avail := false, block := none } :: l, s)
    | u :: _ =>
      let (b, s) := s.readLoc m x r role u
      let (l, s) := readSlots m x r rest s
      ({ role := role, avail := true, block := b } :: l, s)

/-- The data blocks of a slice: those read, and those that R500 to R504 give, which must pass R530. -/
def dataOf (x : Slice) (got : List Got) : List (Option (List Byte)) :=
  let blk (role : Role) : Option (List Byte) := (got.find? (fun e => e.role == role)).bind (fun e => e.block)
  if x.g.parities = 0 then [(blk (.data 0)).orElse (fun _ => blk .copy)]
  else
    let ds := (List.range x.g.d).map (fun d => (d, blk (.data d)))
    let known := ds.filterMap (fun e => e.2.map (fun b => (e.1, b)))
    let lost := (ds.filter (fun e => e.2.isNone)).map Prod.fst
    let p := (blk .p).map (fun b => xorB b (pOf 4112 (known.map Prod.snd)))
    let q := (blk .q).map (fun b => xorB b (qOf 4112 known))
    let made : List (Nat × List Byte) := match lost, p, q with
      | [d], some p, _ => [(d, p)]
      | [d], none, some q => [(d, gfScale (gfInv (gfPow2 d)) q)]
      | [a, b], some p, some q =>
        let two := solveTwo a b p q
        [(a, two.1), (b, two.2)]
      | _, _, _ => []
    ds.map (fun e => match e.2 with
      | some b => some b
      | none => (made.lookup e.1).filter (fun b => piCheck 0 (x.unitNo e.1) b == 0))

/-- A slice's data blocks, with its members as read. -/
def State.readSlice (s : State) (m : MediaEnd) (x : Slice) : List (Option (List Byte)) × List Got × State :=
  let (got, s) := readSlots m x (s.vol x.v) x.slots s
  (dataOf x got, got, s)

/-- The members that an SJD request names (Table 8.7): the data members in their order and P, or the two copies. -/
def Slice.joint (x : Slice) : List Role :=
  if x.g.parities = 0 then [.data 0, .copy] else (List.range x.g.d).map Role.data ++ [.p]

/-- Otivo's SJD request for a slice (Table 8.7, R503): COEF of data member `d` is `d`. `slot` gives the LLR slots that the
members' jobs hold. The request's way over ring 210 is not modelled (log entry 28). -/
def Slice.sjdRequest (x : Slice) (got : List Got) (slot : Nat → Nat) : SjdSt :=
  let ms := x.joint
  let failed := maskOf ms.length (fun i => got.any (fun e => some e.role == ms[i]? && e.block.isNone))
  let d := if x.g.parities = 0 then 0 else x.g.d
  { bytes := leBytes 2 0 ++ leBytes 1 (if x.g.parities = 0 then 2 else x.g.parities - 1) ++ leBytes 1 ms.length
      ++ (List.range 8).map (fun i => if i < ms.length then BitVec.ofNat 8 (slot i) else 0xFF)
      ++ leBytes 1 failed ++ [0xFF] ++ leBytes 1 d ++ [0]
      ++ (List.range 8).map (fun i => if i < d then BitVec.ofNat 8 i else 0) ++ [1] ++ zerosB 7 }

/-- Whether SJD may run on a slice (R386, R531, R532): every data member and P, or both copies, are available, and the request
keeps Table 8.7. -/
def jointOk (x : Slice) (got : List Got) (slot : Nat → Nat) : Bool :=
  got.all (fun e => e.avail || e.role == .q) && (x.sjdRequest got slot).formOk

/-- The regions that the data chunks of a slice's stripe lie in (R514). -/
def Slice.regions (x : Slice) : List Nat :=
  ((List.range x.g.d).map (fun d => x.g.chunkNo x.row x.t d / 1024)).eraseDups

/-- The write-intent bits of a slice's regions set (R549). -/
def State.markIntent (s : State) (r : VolRec) (x : Slice) : State :=
  x.regions.foldl (fun (s : State) j => if j < vWiBits r then s.setWi (vWiFirst r + j) true else s) s

/-- A sector rewritten in place after a recovered read, and verified (R416): a verify that fails is a port error (R526), and
the sector is to be reallocated. Nothing is written to a unit of a FAILED volume (R524). -/
def State.rewriteSector (s : State) (m : MediaEnd) (x : Slice) (r : VolRec) (p : Nat) (b : List Byte) : State :=
  let sec := x.sector r
  if vState r = 4 then s
  else
    match (s.markIntent r x).writeSector m p sec b with
    | (false, s) => s
    | (true, s) =>
      if m.verify.contains (p, sec) then
        (s.portError p).modOt (fun o => { o with
          bad := o.bad.filter (fun e => !(e.port == p && e.sec == sec))
            ++ [{ port := p, sec := sec, vol := x.v.val, regions := x.regions, block := b }] })
      else s

/-- Data member `d` of a slice from the media, with the flags of R948: bit 0 for SJD, bit 1 for redundancy after a decode
failure. -/
def State.readData (s : State) (m : MediaEnd) (x : Slice) (d : Nat) : Option (List Byte) × Nat × State :=
  let v := x.v
  let r := s.vol v
  let slot := x.slots.find? (fun e => e.1 == .data d)
  let out := (x.slots.filter (fun e => (s.locs x r e.2).isEmpty)).length
  match slot with
  | none => (none, 0, s)
  | some (role, k) =>
    if vState r = 4 ∧ x.g.red < out then (none, 0, s)
    else
      match s.locs x r k with
      | [] =>
        let (ds, _, s) := s.readSlice m x
        ((ds.getD d none), 0, s)
      | at' :: _ =>
        let (b, s) := s.readLoc m x r role at'
        if b.isSome then (b, 0, s)
        else
          let rest := x.slots.filter (fun e => e.1 != role)
          let (got, s) := readSlots m x r rest s
          let got := { role := role, avail := true, block := none } :: got
          let sec := x.sector r
          let here := s.discAt (s.sectorKey (mPort r at') sec)
          let both := got.all (fun e => e.block.isNone) || x.g.parities != 0
          let (n, s') := s.draw
          if vFlag r 0 && jointOk x got (fun i => (n + i) % 48) && both && m.joint.contains (mPort r at', sec)
              && piCheck 0 (x.unitNo d) here == 0 then
            (some here, 1, s'.rewriteSector m x r (mPort r at') here)
          else
            match (dataOf x got).getD d none with
            | some b => (some b, 2, s.rewriteSector m x r (mPort r at') b)
            | none => (none, 2, s)

/-- A volume unit's block from the media, with the flags of R948. -/
def State.readUnit (s : State) (m : MediaEnd) (v : Fin 4) (u : Nat) : Option (List Byte) × Nat × State :=
  let (x, d) := s.sliceOf v (s.vol v) u
  s.readData m x d

/-- The lowest WGEN of a volume's band whose sectors still read as they are (R782). -/
def State.erasedBelow (s : State) (r : VolRec) : Nat :=
  match vBand r with
  | some b => ((s.readBand b).1.record.map (fun x => fieldB x 32 4)).getD 0
  | none => 0

/-- A unit's data from the media: STATUS and DETAIL of Tables 21.12 and 21.13, the flags of R948, and 4096 bytes. -/
def State.unitData (s : State) (m : MediaEnd) (v : Fin 4) (u : Nat) : (Nat × Nat × Nat × List Byte) × State :=
  let r := s.vol v
  let (b, flags, s) := s.readUnit m v u
  match b with
  | none => ((0x22, 0, flags, zerosB 4096), s)
  | some b =>
    if fieldB b 4104 4 < s.erasedBelow r then ((0, 0, flags, zerosB 4096), s)
    else
      match vBand r with
      | none => ((0, 0, flags, sliceB b 0 4096), s)
      | some n =>
        let (d, s) := s.mediaUnit false s.cip.slots[keyBand n] u (clean (sliceB b 0 4096))
        if poisoned d then ((0x30, 5, flags, zerosB 4096), s) else ((0, 0, flags, bits d), s)

/-! ## Writing -/

/-- A block written to every location of a slot (R533, R545): false where a write still ends CUT. -/
def State.writeMember (s : State) (m : MediaEnd) (x : Slice) (r : VolRec) (k : Nat) (b : List Byte) : Bool × State :=
  (s.locs x r k).foldl (fun (a : Bool × State) u =>
    let (ok, s) := a.2.writeSector m (mPort r u) (x.sector r) b
    (a.1 && ok, s)) (true, s)

/-- The block that a member of a slice holds when its data are `ds`. -/
def memberBlock (x : Slice) (ds : List (List Byte)) : Role → List Byte
  | .data d => ds.getD d []
  | .copy => ds.getD 0 []
  | .p => pOf 4112 ds
  | .q => qOf 4112 ((List.range x.g.d).zip ds)

/-- Members of a slice written in turn until one fails. -/
def writeRoles (m : MediaEnd) (x : Slice) (r : VolRec) : List (Nat × List Byte) → State → Bool × State
  | [], s => (true, s)
  | (k, b) :: rest, s =>
    match s.writeMember m x r k b with
    | (true, s) => writeRoles m x r rest s
    | (false, s) => (false, s)

/-- Parity of a slice after one data block has changed, from the old parity (used only where every location is
available, R533). -/
def parityDelta (role : Role) (d : Nat) (old new parity : List Byte) : List Byte :=
  let x := xorB old new
  xorB parity (if role = .q then gfScale (gfPow2 d) x else x)

/-- A unit's block put on media with its parity or second copy: data before parity, copy 0 before copy 1 (R525, R533,
R549, R811). Parity follows from all data, or by change from the old; where neither is to be had it stays. A unit of which
nothing would reach the media is not written. -/
def State.writeUnit (s : State) (m : MediaEnd) (v : Fin 4) (u : Nat) (b : List Byte) : Bool × State :=
  let (x, d) := s.sliceOf v (s.vol v) u
  let mine := x.slots.filter (fun e => match e.1 with
    | .data e => e == d
    | _ => true)
  let s := s.missUnits v (mine.map (fun e => x.g.unit x.row e.2))
  let r := s.vol v
  if vState r = 4 then (false, s)
  else
    let s := s.markIntent r x
    let (ds, got, s) := if x.g.parities = 0 then ([some b], [], s) else s.readSlice m x
    let old := ds.getD d none
    let now := ds.set d (some b)
    let whole := got.all (fun e => e.avail)
    let held (role : Role) : Option (List Byte) := (got.find? (fun e => e.role == role)).bind (fun e => e.block)
    let blocks := mine.filterMap (fun e => match e.1 with
      | .data _ => some (e.2, b)
      | .copy => some (e.2, b)
      | role =>
        if now.all (fun o => o.isSome) then some (e.2, memberBlock x (now.map (fun o => o.getD [])) role)
        else if whole then
          match old, held role with
          | some o, some p => some (e.2, parityDelta role d o b p)
          | _, _ => none
        else none)
    if blocks.any (fun e => !(s.locs x r e.1).isEmpty) then writeRoles m x r blocks s else (false, s)

/-! ## The Buffer Cache -/

/-- A MASK of the unreadable-unit list as logical sectors of eight (R512). -/
def coverMask (r : VolRec) (mask : Nat) : Nat := if vLss r then (if mask = 0 then 0 else 0xFF) else mask

/-- The mask of Table 11.7 for logical sectors of eight. -/
def listMask (r : VolRec) (mask : Nat) : Nat := if vLss r then (if mask = 0 then 0 else 1) else mask

/-- The formatter's requester ID for a unit's first member port. -/
def unitReq (r : VolRec) : Nat := 6 + (portsOf r).headD 0

/-- The 512-byte sectors of `d` that a mask names, the others those of `base`. -/
def pickSectors (mask : Nat) (d base : List Byte) : List Byte :=
  (List.range 8).flatMap (fun j => sliceB (if mask.testBit j then d else base) (512 * j) 512)

/-- The sectors of a map entry that are neither present nor lost nor in the unreadable-unit list. -/
def State.missingOf (s : State) (r : VolRec) (e : CacheEnt) : Nat :=
  maskOf 8 (fun j => !(e.mask ||| e.lost ||| coverMask r (s.badMask (volOf e.vol) e.unit)).testBit j)

/-- Sectors of a cached unit that were dropped (R729) read again from the media. -/
def State.fillUnit (s : State) (m : MediaEnd) (e : CacheEnt) : (Nat × Nat × Nat) × State :=
  let v := volOf e.vol
  let r := s.vol v
  let need := s.missingOf r e
  if need = 0 then ((0, 0, 0), s)
  else
    let ((st, det, fl, d), s) := s.unitData m v e.unit
    if st ≠ 0 then ((st, det, fl), s)
    else
      let put (s : State) (j : Nat) : State :=
        if need.testBit j then s.bufStore (unitReq r) e.buf (512 * j) (clean (sliceB d (512 * j) 512)) else s
      let e := { e with mask := e.mask ||| need }
      ((0, 0, fl), (((List.range 8).foldl put s).putUnit e).indexFollow e)

/-- A unit brought into the Buffer Cache: STATUS, DETAIL and the flags of R948. What the unreadable-unit list has is not
present. -/
def State.loadUnit (s : State) (m : MediaEnd) (v : Fin 4) (u : Nat) : (Nat × Nat × Nat) × State :=
  match s.cached v.val u with
  | some e => s.fillUnit m e
  | none =>
    let r := s.vol v
    let ((st, det, fl, d), s) := s.unitData m v u
    if st ≠ 0 then ((st, det, fl), s)
    else
      match s.needBufs 1 with
      | (some [n], s) =>
        let e : CacheEnt := { vol := v.val, unit := u, buf := n, mask := 0xFF - coverMask r (s.badMask v u) % 256 }
        let s := (s.bufStore (unitReq r) n 0 (clean d)).putUnit e
        ((0, 0, fl), s.indexPut e)
      | (_, s) => ((0x30, 7, fl), s)

/-- A unit of the Buffer Cache destaged: true where nothing of it stays dirty. Poisoned data and data of an unloaded band
stay dirty; sectors that are lost or not present keep what the media hold, zeros where they cannot be read (R421, R422,
R727, R765). -/
def State.destageUnit (s : State) (m : MediaEnd) (e : CacheEnt) : Bool × State :=
  let v := volOf e.vol
  let r := s.vol v
  if e.dirty = 0 then (true, s)
  else
    let (o, s) := s.bufLoad (unitReq r) e.buf 0 4096
    let keep := maskOf 8 (fun j => e.mask.testBit j && !e.lost.testBit j)
    let bad := (List.range 8).any (fun j => keep.testBit j && poisoned ((o.data.drop (512 * j)).take 512))
    if o.blocked || o.error || bad then (false, s)
    else
      let ((st, _, _, base), s) := if keep = 255 then ((0, 0, 0, zerosB 4096), s) else s.unitData m v e.unit
      let fresh := maskOf 8 (fun j => !keep.testBit j && !(coverMask r (s.badMask v e.unit)).testBit j)
      let s := if st = 0 then s else s.addBad v 1 e.unit (listMask r fresh)
      let d := pickSectors keep (bits o.data) base
      let (d, s) := match vBand r with
        | none => (clean d, s)
        | some n => s.mediaUnit true s.cip.slots[keyBand n] e.unit (clean d)
      if poisoned d then (false, s)
      else
        match s.writeUnit m v e.unit (blockOf (bits d) e.unit (vWgen r)) with
        | (false, s) => (false, s)
        | (true, s) => (true, ((s.putUnit { e with dirty := 0 }).clearBad v e.unit (listMask r e.dirty)).dirtyZero)

/-- Units destaged in ascending order: true where none stays dirty. -/
def destageAll (m : MediaEnd) : List CacheEnt → State → Bool × State
  | [], s => (true, s)
  | e :: es, s =>
    let (ok, s) := s.destageUnit m e
    let (rest, s) := destageAll m es s
    (ok && rest, s)

/-- Entries put in ascending order of unit. -/
def insertUnit (e : CacheEnt) : List CacheEnt → List CacheEnt
  | [] => [e]
  | x :: xs => if e.unit ≤ x.unit then e :: x :: xs else x :: insertUnit e xs

/-- The dirty units of volumes that `p` takes. -/
def State.dirtyUnits (s : State) (p : Nat → Bool) : List CacheEnt :=
  (s.ot.cache.filter (fun e => p e.vol && e.dirty != 0)).foldr insertUnit []

/-- A volume flushed: every dirty unit destaged (R808). -/
def State.flushVol (s : State) (m : MediaEnd) (v : Fin 4) : Bool × State :=
  destageAll m (s.dirtyUnits (fun x => x == v.val)) s

/-- A volume's contents of the Buffer Cache discarded. -/
def State.discardVol (s : State) (v : Fin 4) : State :=
  ((s.ot.cache.filter (fun e => e.vol == v.val)).foldl (fun (s : State) e => s.dropUnit e.vol e.unit) s).dirtyZero

end Sys2Proof.Machine
end

