-- ==== Sys2Proof/Machine/ArrayTasks.lean ====
section
/-! DEFINITION. Otivo's array tasks of chapter 12: ports taken offline, rebuild, copy-back, destaging, write intent,
resynchronisation and reshape. -/

namespace Sys2Proof.Machine
open Sys2Proof

/-- A volume by number that Otivo has assembled. -/
def State.assembled (s : State) (v : Fin 4) : Bool := s.ot.assembled.getLsbD v.val

/-- A routine of Otivo on an assembled volume. -/
def State.onVol (s : State) (v : Fin 4) (g : VolRec → State → State) : State :=
  if s.otRuns && s.assembled v then g (s.vol v) s else s

/-- One of the eight bits of a port. -/
def portBit (p : Fin 8) : BitVec 8 := BitVec.ofNat 8 (2 ^ p.val)

/-! ## Taking a port offline (R526, R527) -/

/-- The members of a volume on a port. -/
def State.portMembers (s : State) (v : Fin 4) (p : Nat) : List Nat :=
  let r := s.vol v
  (vUnits r).filter (fun u => mPort r u == p && (mState r u == 0 || mState r u == 3) && !s.absentAt v u)

/-- A port's formatter context halted, its heads unloaded and its spindle stopped. -/
def State.stopPort (s : State) (p : Fin 8) : State :=
  let s := if s.rd (FMT_CTX_STATUS_STATE p) = 0 then s else s.via (execFmtHalt p)
  let s := if s.rd (SRV_STATUS_STATE p) = 4 then s.via (execSrvUnload p) else s
  s.spnStop p

/-- Every formatter context asked to halt, as STANDBY needs (R59). -/
def State.haltAll (s : State) : State :=
  s.eachPort (fun p s =>
    if s.on (2 + p.val) && s.rd (FMT_CTX_STATUS_STATE p) != 0 && !s.flag (FMT_CTX_FLAGS_HALT_REQ p) then s.via (execFmtHalt p) else s)

/-- Whether every context is halted. -/
def State.allHalted (s : State) : Bool := ports.all (fun p => s.rd (FMT_CTX_STATUS_STATE p) == 0)

/-- The record of a volume that loses members, with its WGEN incremented; true where it becomes FAILED by FAIL_COUNT. -/
def State.lostRecord (s : State) (v : Fin 4) (us : List Nat) : VolRec × Bool :=
  let r := s.vol v
  let (r', past) := failUnits r us 1
  (vSet r' 32 4 (vWgen r + 1), past)

/-- R527 for a port, by a row of Table 12.2, 0 for a command of the host: the members, the FAULT record, the context with its
request, heads and spindle, and the notification. A member that fails waits for REBUILD_DELAY anew (R535). -/
def State.failPort (s : State) (p : Fin 8) (row : Nat) : State :=
  let hit := s.liveVols.filter (fun v => !(s.portMembers v p.val).isEmpty)
  let olds := hit.map (fun v => (v, vState (s.vol v)))
  let gone := hit.map (fun v => (v, s.portMembers v p.val))
  let new := gone.map (fun e => (e.1, s.lostRecord e.1 e.2))
  let s := new.foldl (fun (s : State) e =>
    if vFails e.2.1 = vFails (s.vol e.1) then s else s.rebuildAnew e.1) s
  let s := s.setVols (new.map (fun e => (e.1, vSet e.2.1 0 1 (if e.2.2 then 4 else s.deriveState e.1 e.2.1))))
  let s := gone.foldl (fun (s : State) e => s.modOt (fun o => { o with
    delayed := o.delayed.set e.1 (maskOf 8 (fun u => (o.delayed[e.1]).testBit u && !e.2.contains u)) })) s
  let mask := hit.foldl (fun a v => a + 2 ^ v.val) 0
  let pay := leBytes 1 p.val ++ leBytes 1 row ++ leBytes 1 mask
  let s := s.almLog 2 0x0701 pay
  let s := if s.rd (FMT_CTX_STATUS_STATE p) = 0 then s else s.mediaDone p .aborted
  let s := (s.stopPort p).modOt (fun o => { o with
    offline := o.offline ||| portBit p, loaded := o.loaded &&& ~~~portBit p, parked := o.parked &&& ~~~portBit p })
  let s := s.notify 2 0xFF p.val s.ot.outcome[p] 0 (leBytes 2 0x0701 ++ sliceB pay 0 16)
  olds.foldl (fun (s : State) e => s.stateEvent e.1 e.2) s

/-- The port errors of the last PORT_FAIL_WINDOW power-on hours; a tick of the Almanac is 2^-12 h. -/
def State.errorCount (s : State) (p : Fin 8) : Nat :=
  let now := (s.reg ALM_TIME_WORD.addr).toNat
  (s.ot.errs[p].filter (fun t => decide (now < t + s.feat 2 * 4096))).length

/-- The times of a list in the last `ticks` ticks. -/
def State.recent (s : State) (ticks : Nat) (l : List Nat) : Nat :=
  let now := (s.reg ALM_TIME_WORD.addr).toNat
  (l.filter (fun t => decide (now ≤ t + ticks))).length

/-- What Otivo records of a port's spindle events (Table 22.5). -/
def State.watchSpindle (s : State) (p : Fin 8) : State :=
  let now := (s.reg ALM_TIME_WORD.addr).toNat
  let per := leBytes 4 (s.reg (SPN_PERIOD_WORD p).addr).toNat
  let cause := s.rd (SPN_STATUS_FAULT_CAUSE p)
  let s := if s.flag (SPN_EVENT_FAULT p) then
      let s := (s.almLog 2 0x0201 (leBytes 1 p.val ++ leBytes 1 cause ++ zerosB 2 ++ per)).down (SPN_EVENT_FAULT p)
      if cause = 1 ∨ cause = 2 then s.modOt (fun o => { o with spnAt := vmod o.spnAt p (fun l => l ++ [now]) }) else s
    else s
  let fly (s : State) (f : Fld) (ok : Nat) : State :=
    if s.flag f then (s.almLog 1 0x0202 (leBytes 1 p.val ++ leBytes 1 ok ++ zerosB 2 ++ per)).down f else s
  fly (fly s (SPN_EVENT_FLY_OK p) 1) (SPN_EVENT_FLY_FAIL p) 0

/-- What Otivo records of a port's servo, preamp and context events. -/
def State.watchServo (s : State) (p : Fin 8) : State :=
  let now := (s.reg ALM_TIME_WORD.addr).toNat
  let s := if s.flag (SRV_EVENT_LOSS_FAIL p) || s.flag (SRV_EVENT_LOAD_FAIL p) then
      let pay := leBytes 1 p.val ++ zerosB 3 ++ leBytes 4 (s.reg (SRV_EVENT_WORD p).addr).toNat
        ++ leBytes 4 (s.reg (SRV_TARGET_WORD p).addr).toNat
      (((s.almLog 2 0x0301 pay).down (SRV_EVENT_LOSS_FAIL p)).down (SRV_EVENT_LOAD_FAIL p)).modOt
        (fun o => { o with srvAt := vmod o.srvAt p (fun l => l ++ [now]) })
    else s
  let s := if s.flag (CH_EVENT_PA_FAULT p) then
      let s := (s.down (CH_EVENT_PA_FAULT p)).modOt (fun o => { o with paAt := vmod o.paAt p (fun l => l ++ [now]) })
      s.almLog 2 0x0401 (leBytes 1 p.val ++ leBytes 1 (s.recent 68 s.ot.paAt[p]))
    else s
  if s.flag (FMT_CTX_EVENT_FAULT p) then
    (s.almLog 2 0x0504 (leBytes 1 p.val ++ leBytes 1 (s.rd (FMT_CTX_STATUS_HARD_CAUSE p))
      ++ leBytes 2 (s.rd (FMT_CTX_STATUS_PC p)))).down (FMT_CTX_EVENT_FAULT p)
  else s

/-- IDUs fenced or returned since Otivo last looked. -/
def State.watchFence (s : State) : State :=
  let now := s.rd IDU_FENCE_FENCED
  let s := (List.range 6).foldl (fun (s : State) i =>
    let pool := s.rd IDU_FENCE_POOL_DEGRADED
    if now.testBit i = s.ot.fenceSeen.testBit i then s
    else if now.testBit i then s.notify 5 0xFF 0xFF pool now (leBytes 2 0x0601 ++ leBytes 1 i)
    else s.event 1 0x0602 (leBytes 1 i) 5 0xFF 0xFF pool now) s
  s.modOt (fun o => { o with fenceSeen := now })

/-- Protective limits that have acted (R32), with their bits cleared and kept for HEALTH. -/
def State.watchProtect (s : State) : State :=
  let w := (s.reg SYS_PROTECT_WORD.addr).toNat
  if w = 0 then s
  else
    let s := s.event 2 0x0102 (leBytes 4 w ++ leBytes 4 (s.reg PS_STATUS_WORD.addr).toNat) 6 0xFF 0xFF 0 w
    (s.setReg SYS_PROTECT_WORD.addr 0).modOt (fun o => { o with protSeen := o.protSeen ||| w })

/-- Otivo's records and notifications of what hardware reports (Tables 21.10 and 22.5), each event cleared as it is
taken. -/
def State.otWatch (s : State) : State :=
  let s := s.eachPort (fun p s => if s.on (2 + p.val) then (s.watchSpindle p).watchServo p else s)
  let s := (if s.regOn IDU_FENCE_FENCED.addr then s.watchFence else s).watchProtect
  if s.evc.pend.getLsbD 124 then
    { s.almLog 1 0x0D01 [] with evc := { s.evc with pend := s.evc.pend &&& ~~~(1#128 <<< 124) } }
  else s

/-- What a condition of Table 12.2 makes Otivo do to a port: take it offline, try again first, or nothing. 600 s are 682
ticks of the Almanac, 60 s are 68. -/
inductive PortFate
  | offline | retry | stay
  deriving DecidableEq, Repr

/-- The fate of a port by a row of Table 12.2; `held` tells of row 2 that the spindle stands still, of row 4 that FLT has
stayed 1 for 1 s. -/
def State.fate (s : State) (p : Fin 8) (row : Nat) (held : Bool) : PortFate :=
  let c := s.rd (SPN_STATUS_FAULT_CAUSE p)
  match row with
  | 1 => if c = 3 then .offline else .stay
  | 2 =>
    if c ≠ 1 ∧ c ≠ 2 then .stay
    else if 2 ≤ s.recent 682 s.ot.spnAt[p] then .offline
    else if held then .retry else .stay
  | 3 =>
    if 2 ≤ s.recent 682 s.ot.srvAt[p] then .offline
    else if s.recent 682 s.ot.srvAt[p] = 1 ∧ s.rd (SRV_STATUS_STATE p) = 0 ∧ s.rd (SPN_STATUS_STATE p) = 5 then .retry
    else .stay
  | 4 => if 3 ≤ s.recent 68 s.ot.paAt[p] ∨ (held = true ∧ s.flag (CH_STATUS_FLT p) = true) then .offline else .stay
  | _ => if s.feat 1 ≤ s.errorCount p then .offline else .stay

/-- PORT_OFFLINE by the row `cause + 1` of Table 12.2, or the retry that the row puts first. -/
def execPortOffline (p : Fin 8) (cause : Fin 5) (held : Bool) (s : State) : Host.Outcome State Fault Refusal :=
  fin (
    if s.otRuns = false ∨ s.ot.offline.getLsbD p.val = true then s
    else
      let s := s.otWatch
      match s.fate p (cause.val + 1) held with
      | .offline => s.failPort p (cause.val + 1)
      | .retry => if cause.val = 1 then (s.spnClearFault p true).spnStart p else s.srvLoad p
      | .stay => s)

/-! ## Rebuild (R535 to R542) -/

/-- The slots of a stripe, each with the units that R544 or R537 now writes beside its locations. -/
abbrev Targets := List (Nat × Nat)

/-- A block written to the locations of a slot and to the targets named for it. -/
def State.writeTargets (s : State) (m : MediaEnd) (x : Slice) (r : VolRec) (ts : Targets) (locsToo : Bool) (k : Nat)
    (b : List Byte) : Bool × State :=
  let units := (if locsToo then s.locs x r k else []) ++ ((ts.filter (fun e => e.1 == k)).map Prod.snd)
  units.foldl (fun (a : Bool × State) u =>
    let (ok, s) := a.2.writeSector m (mPort r u) (x.sector r) b
    (a.1 && ok, s)) (true, s)

/-- A data block of zeros for a volume unit. -/
def zeroBlock (r : VolRec) (u : Nat) : List Byte := blockOf (zerosB 4096) u (vWgen r)

/-- Whether the parity blocks of a slice that were read agree with its data (R507): a parity that the recovery did not use
checks what it made. -/
def parityAgrees (x : Slice) (ds : List (Option (List Byte))) (got : List Got) : Bool :=
  got.all (fun e => match e.role, e.block with
    | .p, some b => b == memberBlock x (ds.map (fun o => o.getD [])) .p
    | .q, some b => b == memberBlock x (ds.map (fun o => o.getD [])) .q
    | _, _ => true)

/-- The data blocks of a slice, without those that recovery made and that fail the check of R507. -/
def checkedData (x : Slice) (ds : List (Option (List Byte))) (got : List Got) : List (Option (List Byte)) :=
  if x.g.parities = 2 && ds.all (fun o => o.isSome) && !parityAgrees x ds got then
    ds.zipIdx.map (fun e => if got.any (fun g => g.role == .data e.2 && g.block.isSome) then e.1 else none)
  else ds

/-- Members of a slice made anew on their targets. What cannot be recovered becomes zeros, with the stripe's parity after
it, and goes to the unreadable-unit list by `rule` (R537, R542, R544); a block that fails R507's check counts as such (DESIGN
CHOICE, log entry 22). A change of FAIL_LIST by R525 ends the attempt, since the row's homes have changed (R540). -/
def State.remake (s : State) (m : MediaEnd) (x : Slice) (ts : Targets) (rule : Nat) : Bool × State :=
  let old := vFails (s.vol x.v)
  let s := s.missUnits x.v (ts.map Prod.snd ++ (x.slots.filter (fun e => e.1 == .p || e.1 == .q)).map (fun e => x.g.unit x.row e.2))
  let r := s.vol x.v
  if vState r = 4 ∨ vFails r ≠ old then (false, s)
  else
  let want := x.slots.filter (fun e => ts.any (fun t => t.1 == e.2))
  let s := s.markIntent r x
  let (ds, got, s) := s.readSlice m x
  let ds := checkedData x ds got
  let has (role : Role) : Option (List Byte) :=
    match (got.find? (fun e => e.role == role)).bind (fun e => e.block) with
    | some b => some b
    | none =>
      match role with
      | .data d => ds.getD d none
      | role => if ds.all (fun o => o.isSome) then some (memberBlock x (ds.map (fun o => o.getD [])) role) else none
  if want.all (fun e => (has e.1).isSome) then
    want.foldl (fun (a : Bool × State) e =>
      let (ok, s) := a.2.writeTargets m x r ts false e.2 ((has e.1).getD [])
      (a.1 && ok, s)) (true, s)
  else
    let lost := (List.range x.g.d).filter (fun d => (ds.getD d none).isNone)
    let now := ds.zipIdx.map (fun e => e.1.getD (zeroBlock r (x.unitNo e.2)))
    let (ok, s) := x.slots.foldl (fun (a : Bool × State) e =>
      let fresh := match e.1 with
        | .data d => lost.contains d || ts.any (fun t => t.1 == e.2)
        | _ => true
      if fresh then
        let (ok, s) := a.2.writeTargets m x r ts true e.2 (memberBlock x now e.1)
        (a.1 && ok, s)
      else a) (true, s)
    (ok, lost.foldl (fun (s : State) d => s.addBad x.v rule (x.unitNo d) (listMask r 0xFF)) s)

/-- A row of a volume worked through, slice by slice, each stripe with its targets. -/
def State.eachSlice (s : State) (v : Fin 4) (g : Geo) (row : Nat) (f : Slice → State → Bool × State) : Bool × State :=
  ((List.range g.t).flatMap (fun t => (List.range 16).map (fun i => ({ v := v, g := g, row := row, t := t, i := i } : Slice)))).foldl
    (fun (a : Bool × State) x =>
      let (ok, s) := f x a.2
      (a.1 && ok, s)) (true, s)

/-- The spare targets of a stripe: each slot that R505 has moved, with the spare's unit. -/
def spareTargets (r : VolRec) (x : Slice) : Targets :=
  let homes := x.g.homes x.row (vFails r)
  x.slots.filterMap (fun e => match homes.getD e.2 none with
    | some k => if k ≠ e.2 then some (e.2, x.g.unit x.row k) else none
    | none => none)

/-- Whether a task of the volume may take a row now: it is not FAILED, none of its ports is stopped by POWER, and
background work is not paused (R541, R923). -/
def State.mayWork (s : State) (r : VolRec) : Bool := vState r != 4 && !s.volParked r && !s.ot.quiet

/-- The conditions of R535 but for the delay; a rebuild for the present FAIL_LIST has not completed. -/
def State.rebuildDue (s : State) (v : Fin 4) (r : VolRec) : Bool :=
  !(s.openUnits v r).isEmpty && decide (1 ≤ (vGeo r).s) && !vFlag r 2 && s.ot.resync[v].isEmpty && !s.groupBusy v r && vState r != 4
    && !s.ot.rebuild.getLsbD v.val && decide (s.ot.rebRow[v] < vCpu r)

/-- One of four bits of a volume. -/
def volBit (v : Fin 4) : BitVec 4 := BitVec.ofNat 4 (2 ^ v.val)

/-- A rebuild started (R525, R536). -/
def State.startRebuild (s : State) (v : Fin 4) : State :=
  let s := s.missUnits v (s.openUnits v (s.vol v))
  let r := s.vol v
  if vState r = 4 then s
  else
    let s := s.modOt (fun o => { o with rebuild := o.rebuild ||| volBit v, rebRow := o.rebRow.set v 0 })
    s.commitVol v (vSet r 48 8 0) false

/-- REBUILD_START; `waited` tells that REBUILD_DELAY has passed for the open members. -/
def execRebuildStart (v : Fin 4) (waited : Bool) (s : State) : Host.Outcome State Fault Refusal :=
  fin (s.onVol v (fun r s =>
    let past := waited || (s.openUnits v r).all (fun u => (s.ot.delayed[v]).testBit u)
    if s.rebuildDue v r && past then s.startRebuild v else s))

/-- A slice of a row under rebuild: the members that R505 has moved made anew on their spares (R537). -/
def rebuildSlice (m : MediaEnd) (r : VolRec) (x : Slice) (s : State) : Bool × State :=
  match spareTargets r x with
  | [] => (true, s)
  | ts => s.remake m x ts 2

/-- A rebuild completed (R539). -/
def State.rebuildDone (s : State) (v : Fin 4) (r : VolRec) : State :=
  ((s.modOt (fun o => { o with rebuild := o.rebuild &&& ~~~volBit v })).commitVol v r false).taskEnd v 0

/-- A row rebuilt (R537, R538), after the regions that await resynchronisation (R551). A row whose writes do not all reach the media is taken again. -/
def State.rebuildRow (s : State) (v : Fin 4) (m : MediaEnd) (r : VolRec) : State :=
  let row := s.ot.rebRow[v]
  if !s.ot.rebuild.getLsbD v.val || vFlag r 2 || !s.mayWork r || !s.ot.resync[v].isEmpty then s
  else
    let g := s.layoutAt v r row
    let (ok, s) := if row < vCpu r then s.eachSlice v g row (rebuildSlice m r) else (true, s)
    if ok then
      let s := s.modOt (fun o => { o with rebRow := o.rebRow.set v (row + 1) })
      let r := s.vol v
      let r' := vSet r 48 8 (row + 1)
      if vCpu r ≤ row + 1 then s.rebuildDone v r'
      else if (row + 1) % g.period = 0 then s.setVol v r' else s
    else s

/-- REBUILD_ROW. -/
def execRebuildRow (v : Fin 4) (m : MediaEnd) (s : State) : Host.Outcome State Fault Refusal :=
  fin (s.onVol v (fun r s => s.rebuildRow v m r))

/-! ## Copy-back (R543 to R548) -/

/-- The member under copy-back. -/
def replacing (r : VolRec) : Option Nat := (vUnits r).find? (fun u => mState r u == 3)

/-- A slice of a row under copy-back: the member whose place is unit `u`'s made anew there (R544). -/
def copybackSlice (m : MediaEnd) (u : Nat) (x : Slice) (s : State) : Bool × State :=
  match (x.slots.filter (fun e => x.g.unit x.row e.2 == u)).map (fun e => (e.2, u)) with
  | [] => (true, s)
  | ts => s.remake m x ts 2

/-- Copy-back ended (R547). -/
def State.copybackDone (s : State) (v : Fin 4) (r : VolRec) (u : Nat) : State :=
  let left := (vFails r).filter (fun x => x != u)
  let r := vSet (vSetFails (vPut (vSet r (65 + 32 * u) 1 0) 4 false) left) 48 8 0
  let again := !left.isEmpty && decide (1 ≤ (vGeo r).s) && !vFlag r 2
  let s := s.modOt (fun o => { o with
    rebRow := o.rebRow.set v 0
    rebuild := if again then o.rebuild ||| volBit v else o.rebuild &&& ~~~volBit v })
  (s.commitVol v r false).taskEnd v 1

/-- A row copied back (R544, R546). -/
def State.copybackRow (s : State) (v : Fin 4) (m : MediaEnd) (r : VolRec) : State :=
  match replacing r with
  | none => s
  | some u =>
    if !vFlag r 4 || vFlag r 2 || !s.mayWork r then s
    else
      let row := s.ot.cbRow[v]
      let g := s.layoutAt v r row
      let (ok, s) := if row < vCpu r then s.eachSlice v g row (copybackSlice m u) else (true, s)
      if ok then
        let s := s.modOt (fun o => { o with cbRow := o.cbRow.set v (row + 1) })
        let r' := vSet (s.vol v) 56 8 (row + 1)
        if vCpu r ≤ row + 1 then s.copybackDone v r' u
        else if (row + 1) % g.period = 0 then s.setVol v r' else s
      else s

/-- COPYBACK_ROW. -/
def execCopybackRow (v : Fin 4) (m : MediaEnd) (s : State) : Host.Outcome State Fault Refusal :=
  fin (s.onVol v (fun r s => s.copybackRow v m r))

/-- REPLACEMENT_FAIL: the replacement is FAILED again, in its place of FAIL_LIST (R548). -/
def execReplacementFail (v : Fin 4) (s : State) : Host.Outcome State Fault Refusal :=
  fin (s.onVol v (fun r s =>
    match replacing r with
    | some u =>
      let (r, past) := failUnit r u 1
      (s.modOt (fun o => { o with
        delayed := o.delayed.set v (maskOf 8 (fun k => (o.delayed[v]).testBit k && k != u)) })).commitVol v r past
    | none => s))

/-! ## Destaging and write intent -/

/-- DESTAGE: a dirty unit written to the media with its parity (R811). -/
def execDestage (v : Fin 4) (unit : BitVec 56) (m : MediaEnd) (s : State) : Host.Outcome State Fault Refusal :=
  fin (s.onVol v (fun r s =>
    match s.cached v.val unit.toNat with
    | none => s
    | some e =>
      let waits := s.ot.resync[v].contains (unit.toNat / 16384) || s.groupHolds v unit.toNat
      if e.dirty = 0 then s
      else if s.volParked r then s.wakeVol r
      else if waits then s else (s.destageUnit m e).2))

/-- WRITE_INTENT_CLEAR: region `j` has been idle for WI_IDLE (R550). -/
def execWriteIntentClear (v : Fin 4) (j : BitVec 18) (s : State) : Host.Outcome State Fault Refusal :=
  fin (s.onVol v (fun r s =>
    if j.toNat < vWiBits r ∧ ¬ s.ot.resync[v].contains j.toNat then s.setWi (vWiFirst r + j.toNat) false else s))

/-! ## Resynchronisation (R551) -/

/-- One slice made consistent: parity from data, copy 1 from copy 0 (R525, R551). What cannot be recovered goes to the
unreadable-unit list. True where every write has reached the media. -/
def State.resyncSlice (s : State) (m : MediaEnd) (x : Slice) : Bool × State :=
  let s := s.missUnits x.v ((x.slots.filter (fun e => match e.1 with
    | .data _ => false
    | _ => true)).map (fun e => x.g.unit x.row e.2))
  let r := s.vol x.v
  if vState r = 4 then (false, s)
  else
  let (ds, got, s) := s.readSlice m x
  let out := got.any (fun e => !e.avail && (match e.role with
    | .data _ => true
    | _ => false))
  let lost := (List.range x.g.d).filter (fun d => (ds.getD d none).isNone)
  if !lost.isEmpty then (true, lost.foldl (fun (s : State) d => s.addBad x.v 3 (x.unitNo d) (listMask r 0xFF)) s)
  else if out then (true, s)
  else
    let now := ds.map (fun o => o.getD [])
    let blocks := x.slots.filterMap (fun e => match e.1 with
      | .data _ => none
      | role => some (e.2, memberBlock x now role))
    writeRoles m x r blocks s

/-- The rows of a region with its stripes, in the layout of its chunks. -/
def State.regionSlices (s : State) (v : Fin 4) (r : VolRec) (j : Nat) : List Slice :=
  let chunks := (List.range 1024).map (fun i => 1024 * j + i)
  let key (c : Nat) : Geo × Nat × Nat :=
    let g := s.layoutOf v r c
    let (row, t, _) := g.chunk c
    (g, row, t)
  let rows := ((chunks.map key).eraseDups).filter (fun e => decide (e.2.1 < vCpu r))
  rows.flatMap (fun e => (List.range 16).map (fun i => { v := v, g := e.1, row := e.2.1, t := e.2.2, i := i }))

/-- The region to be resynchronised next (R552): the lowest of those that host requests wait for, else the lowest. -/
def State.resyncNext (s : State) (v : Fin 4) (r : VolRec) : Option Nat :=
  let least (l : List Nat) : Option Nat := l.foldl (fun (a : Option Nat) j => some (match a with
    | some x => min x j
    | none => j)) none
  let per := perUnit r
  let hit (j : Nat) : Bool := s.ot.cmds.any (fun c =>
    (c.op == 1 || c.op == 2) && c.volNo == v.val && decide (0 < c.len)
      && decide (c.arg / per / 16384 ≤ j ∧ j ≤ (c.arg + c.len - 1) / per / 16384))
  (least (s.ot.resync[v].filter hit)).orElse (fun _ => least s.ot.resync[v])

/-- RESYNC_REGION: a region that awaits resynchronisation, when it is the next. A region with a write that does not reach the
media is taken again, and a group with a valid backup ends first (R564). -/
def execResyncRegion (v : Fin 4) (j : BitVec 18) (m : MediaEnd) (s : State) : Host.Outcome State Fault Refusal :=
  fin (s.onVol v (fun r s =>
    if s.resyncNext v r ≠ some j.toNat ∨ vState r = 4 ∨ s.groupBusy v r = true then s
    else if s.volParked r then s.wakeVol r
    else
      let (ok, s) := (s.regionSlices v r j.toNat).foldl (fun (a : Bool × State) x =>
        let (ok, s) := a.2.resyncSlice m x
        (a.1 && ok, s)) (true, s)
      if ok then
        (s.setWi (vWiFirst r + j.toNat) false).modOt (fun o => { o with
          resync := o.resync.set v (o.resync[v].filter (fun x => x != j.toNat)) })
      else s))

/-! ## Reshape (R553 to R567) -/

/-- The chunk units of a range of chunks. -/
def chunkUnits (lo hi : Nat) : List Nat := (List.range ((hi - lo) * 16)).map (fun i => lo * 16 + i)

/-- Where at-risk chunk `j` is backed up: the added unit and its row (R559). -/
def backupAt (old new : Geo) (row j : Nat) : Nat × Nat :=
  let k := new.n - old.n
  (old.n + j % k, row + j / k)

/-- A unit of the old layout for a reshape: its block as it lies, zeros past the old layout's end. -/
def State.oldBlock (s : State) (m : MediaEnd) (v : Fin 4) (r : VolRec) (old : Geo) (u : Nat) :
    Option (List Byte) × State :=
  if geoChunks old (vCpu r) ≤ u / 16 then
    match vBand r with
    | none => (some (zeroBlock r u), s)
    | some n =>
      let (d, s) := s.mediaUnit true s.cip.slots[keyBand n] u (clean (zerosB 4096))
      (some (if poisoned d then zeroBlock r u else blockOf (bits d) u (vWgen r)), s)
  else
    let (row, t, d) := old.chunk (u / 16)
    let (b, _, s) := s.readData m { v := v, g := old, row := row, t := t, i := u % 16 } d
    (b, s)

/-- Source blocks of a group, at-risk ones from the backup where that is what holds them: from its copy in Buffer DRAM, or
after a loss of power from the added unit (R564, R567). A backup copy that fails its protection information is recorded
(R399). -/
def readGroup (m : MediaEnd) (v : Fin 4) (r : VolRec) (old : Geo) (back : Nat → Option (Nat × Nat)) :
    List Nat → State → List (Nat × Option (List Byte)) × State
  | [], s => ([], s)
  | u :: us, s =>
    let (b, s) := match back (u / 16), (s.ot.backup[v]).lookup u with
      | some _, some b => (some b, s)
      | some (unit, row), none =>
        let x : Slice := { v := v, g := vGeo r, row := row, t := 0, i := u % 16 }
        if s.absentAt v unit ∨ mState r unit ≠ 0 then (none, s)
        else
          match s.readSector m (mPort r unit) (x.sector r) with
          | (some b, s) =>
            let c := piCheck 0 u b
            if c = 0 then (some b, s) else (none, s.piFault (mPort r unit) c (x.sector r) b)
          | (none, s) => (none, s)
      | none, _ => s.oldBlock m v r old u
    let (l, s) := readGroup m v r old back us s
    ((u, b) :: l, s)

/-- The reshape finished (R566). -/
def State.finishReshape (s : State) (v : Fin 4) (r : VolRec) (c : List Byte) : State :=
  let g := vGeo r
  let cap := geoCap g (vCpu r) (vLss r)
  let s := s.commitVol v (vPut (vSet r 24 8 cap) 3 false) false
  let s := (List.range (ckWiBits c)).foldl (fun (s : State) j => s.setWi (ckWiFirst c + j) false) s
  let s := s.setCheckpoint v (spliceB (spliceB c 6 [3]) 24 (leBytes 8 (vCpu r)))
  (s.wr (HQE_VOL_CAP_UNITS v) (min (cap / (if vLss r then 1 else 8)) 0xFFFFFFFF)).taskEnd v 2

/-- A group of a reshape (R556): its at-risk chunks are backed up first (R558 to R560), every source is read before a slot
is written, and the checkpoint advances last. From its start to its end the group holds host requests to its chunks; one
whose writes do not all reach the media, or whose backup does not, is taken again. What cannot be read becomes zeros and goes
to the unreadable-unit list (R567). -/
def State.reshapeGroup (s : State) (v : Fin 4) (m : MediaEnd) (r : VolRec) (c : List Byte) : State :=
  let s := (s.missUnits v (vUnits r)).modOt (fun o => { o with inGroup := o.inGroup ||| volBit v })
  let r := s.vol v
  if vState r = 4 then s
  else
  let old := ckOld c
  let new := vGeo r
  let b := ckB c
  let g := ckG c
  let lo := b * new.td
  let risk := (b + g) * old.td - lo
  let bRow := ckBackupRow c
  let stored := ckState c = 2
  let back (x : Nat) : Option (Nat × Nat) :=
    if stored ∧ lo ≤ x ∧ x < lo + ckBackup c then some (backupAt old new bRow (x - lo)) else none
  let (src, s) := readGroup m v r old back (chunkUnits lo ((b + g) * new.td)) s
  let lost := (src.filter (fun e => e.2.isNone)).map Prod.fst
  let block (u : Nat) : List Byte := (((src.lookup u).getD none).getD (zeroBlock r u))
  let (kept, s) := if stored ∨ risk = 0 then (true, s)
    else
      let s := s.modOt (fun o => { o with backup := o.backup.set v ((chunkUnits lo (lo + risk)).map (fun u => (u, block u))) })
      let (ok, s) := (chunkUnits lo (lo + risk)).foldl (fun (a : Bool × State) u =>
        let (unit, row) := backupAt old new bRow (u / 16 - lo)
        let x : Slice := { v := v, g := new, row := row, t := 0, i := u % 16 }
        let (ok, s) := a.2.writeSector m (mPort r unit) (x.sector r) (block u)
        (a.1 && ok, s)) (true, s)
      (ok, if ok then s.setCheckpoint v (spliceB (spliceB c 6 [2]) 40 (leBytes 4 risk)) else s)
  if kept = false then s
  else
  let put (x : Slice) (s : State) : Bool × State :=
    let s := s.markIntent r x
    let ds := (List.range new.d).map (fun d => block (x.unitNo d))
    x.slots.foldl (fun (a : Bool × State) e =>
      let u := new.unit x.row e.2
      if s.unitOk v r x.row u then
        let (ok, s) := a.2.writeSector m (mPort r u) (x.sector r) (memberBlock x ds e.1)
        (a.1 && ok, s)
      else a) (true, s)
  let (ok, s) := (List.range g).foldl (fun (a : Bool × State) i =>
    let (ok, s) := a.2.eachSlice v new (b + i) put
    (a.1 && ok, s)) (true, s)
  let s := lost.foldl (fun (s : State) u => s.addBad v 4 u (listMask r 0xFF)) s
  if ok then
    let s := s.modOt (fun o => { o with inGroup := o.inGroup &&& ~~~volBit v, backup := o.backup.set v [] })
    let c := spliceB (spliceB (spliceB c 6 [1]) 24 (leBytes 8 (b + g))) 40 (leBytes 4 0)
    let s := s.setCheckpoint v c
    if vCpu r ≤ b + g then s.finishReshape v (s.vol v) c else s
  else s

/-- Whether a reshape goes on: the volume is OPTIMAL with nothing to resynchronise, or a group is in flight, which ends
whatever else (R564, R567). -/
def State.reshapeMay (s : State) (v : Fin 4) (r : VolRec) : Bool :=
  s.groupBusy v r || (vState r == 1 && s.ot.resync[v].isEmpty)

/-- RESHAPE_GROUP: the group at the boundary, or the end of a reshape whose boundary is there. -/
def execReshapeGroup (v : Fin 4) (m : MediaEnd) (s : State) : Host.Outcome State Fault Refusal :=
  fin (s.onVol v (fun r s =>
    if vFlag r 3 = false then s
    else
      match s.checkpoint v with
      | none => s
      | some (_, c) =>
        if ckState c = 3 ∨ vCpu r ≤ ckB c ∨ ckG c = 0 then
          (s.modOt (fun o => { o with paused := o.paused &&& ~~~volBit v })).finishReshape v r c
        else if !s.reshapeMay v r || !s.mayWork r then s
        else (s.modOt (fun o => { o with paused := o.paused &&& ~~~volBit v })).reshapeGroup v m r c))

/-- RESHAPE_PAUSE: a member lost during a reshape pauses it at its boundary (R567). -/
def execReshapePause (v : Fin 4) (s : State) : Host.Outcome State Fault Refusal :=
  fin (s.onVol v (fun r s =>
    if vFlag r 3 && (vUnits r).any (fun u => s.gone v r u) then s.modOt (fun o => { o with paused := o.paused ||| volBit v })
    else s))

end Sys2Proof.Machine
end

