-- ==== Sys2Proof/Machine/ProgBuf.lean ====
section
/-! DEFINITION. The program buffer (R648): the instructions of RV32IMAC with Zicsr and Zifencei that a halted hart runs from it.
Their encodings and effects are those of the RISC-V specifications that R620 names (PRESUMED, log entry 18). Jumps,
branches and AUIPC act as illegal instructions there, as External Debug Support allows. -/

namespace Sys2Proof.Machine
open Sys2Proof

/-! ## Compressed instructions as the instructions they stand for -/

/-- An instruction of the I format. -/
def encI (imm rs1 f3 rd op : Nat) : Nat := imm % 4096 * 2 ^ 20 + rs1 * 2 ^ 15 + f3 * 2 ^ 12 + rd * 2 ^ 7 + op

/-- An instruction of the R format. -/
def encR (f7 rs2 rs1 f3 rd op : Nat) : Nat := f7 * 2 ^ 25 + rs2 * 2 ^ 20 + rs1 * 2 ^ 15 + f3 * 2 ^ 12 + rd * 2 ^ 7 + op

/-- A store of a word. -/
def encSw (imm rs2 rs1 : Nat) : Nat :=
  imm / 32 % 128 * 2 ^ 25 + rs2 * 2 ^ 20 + rs1 * 2 ^ 15 + 2 * 2 ^ 12 + imm % 32 * 2 ^ 7 + 0x23

/-- A signed number of `w` bits as one of 12. -/
def sext12 (w x : Nat) : Nat := unsignedOf 12 (signedOf w x)

/-- The instruction that a compressed one stands for; none for those that are illegal here. -/
def expand (h : Nat) : Option Nat :=
  let b (lo w : Nat) : Nat := bitsOf h lo w
  let rd := b 7 5
  let rs2 := b 2 5
  let p1 := 8 + b 7 3
  let p2 := 8 + b 2 3
  let imm6 := b 12 1 * 32 + b 2 5
  let lw := b 10 3 * 8 + b 6 1 * 4 + b 5 1 * 64
  match h % 4, b 13 3 with
  | 0, 0 =>
    let imm := b 11 2 * 16 + b 7 4 * 64 + b 6 1 * 4 + b 5 1 * 8
    if imm = 0 then none else some (encI imm 2 0 p2 0x13)
  | 0, 2 => some (encI lw p1 2 p2 0x03)
  | 0, 6 => some (encSw lw p2 p1)
  | 1, 0 => some (encI (sext12 6 imm6) rd 0 rd 0x13)
  | 1, 2 => some (encI (sext12 6 imm6) 0 0 rd 0x13)
  | 1, 3 =>
    if imm6 = 0 then none
    else if rd = 2 then
      some (encI (sext12 10 (b 12 1 * 512 + b 6 1 * 16 + b 5 1 * 64 + b 3 2 * 128 + b 2 1 * 32)) 2 0 2 0x13)
    else some (unsignedOf 20 (signedOf 6 imm6) * 2 ^ 12 + rd * 2 ^ 7 + 0x37)
  | 1, 4 =>
    match b 10 2 with
    | 0 => if b 12 1 = 1 then none else some (encR 0 rs2 p1 5 p1 0x13)
    | 1 => if b 12 1 = 1 then none else some (encR 0x20 rs2 p1 5 p1 0x13)
    | 2 => some (encI (sext12 6 imm6) p1 7 p1 0x13)
    | _ =>
      if b 12 1 = 1 then none
      else
        match b 5 2 with
        | 0 => some (encR 0x20 p2 p1 0 p1 0x33)
        | 1 => some (encR 0 p2 p1 4 p1 0x33)
        | 2 => some (encR 0 p2 p1 6 p1 0x33)
        | _ => some (encR 0 p2 p1 7 p1 0x33)
  | 2, 0 => if b 12 1 = 1 then none else some (encR 0 rs2 rd 1 rd 0x13)
  | 2, 2 => if rd = 0 then none else some (encI (b 12 1 * 32 + b 4 3 * 4 + b 2 2 * 64) 2 2 rd 0x03)
  | 2, 4 =>
    if rs2 = 0 then (if b 12 1 = 1 ∧ rd = 0 then some 0x00100073 else none)
    else some (encR 0 rs2 (if b 12 1 = 1 then rd else 0) 0 rd 0x33)
  | 2, 6 => some (encSw (b 9 4 * 4 + b 7 2 * 64) rs2 2)
  | _, _ => none

/-! ## Instructions -/

/-- A 32-bit word from a whole number, modulo 2^32. -/
def wordOf (x : Int) : Word := BitVec.ofInt 32 x

/-- The integer operations, by funct3; `alt` chooses SUB and SRA. -/
def aluOp (f3 : Nat) (alt : Bool) (x y : Word) : Word :=
  let sh := y.toNat % 32
  match f3 with
  | 0 => if alt then x - y else x + y
  | 1 => x <<< sh
  | 2 => if x.toInt < y.toInt then 1 else 0
  | 3 => if x.toNat < y.toNat then 1 else 0
  | 4 => x ^^^ y
  | 5 => if alt then x.sshiftRight sh else x >>> sh
  | 6 => x ||| y
  | _ => x &&& y

/-- Multiplication and division, by funct3, with the results that the M extension gives a division by 0 and an overflow. -/
def mulOp (f3 : Nat) (x y : Word) : Word :=
  match f3 with
  | 0 => x * y
  | 1 => wordOf (x.toInt * y.toInt / 2 ^ 32)
  | 2 => wordOf (x.toInt * y.toNat / 2 ^ 32)
  | 3 => wordOf ((x.toNat * y.toNat / 2 ^ 32 : Nat) : Int)
  | 4 => if y = 0 then BitVec.allOnes 32 else wordOf (x.toInt.tdiv y.toInt)
  | 5 => if y = 0 then BitVec.allOnes 32 else x / y
  | 6 => if y = 0 then x else wordOf (x.toInt.tmod y.toInt)
  | _ => if y = 0 then x else x % y

/-- The AMO of a funct5. -/
def amoOf (f5 : Nat) : Option AmoOp :=
  match f5 with
  | 0 => some .add | 1 => some .swap | 4 => some .xor | 8 => some .or | 12 => some .and
  | 16 => some .min | 20 => some .max | 24 => some .minu | 28 => some .maxu
  | _ => none

/-- How an instruction of the program buffer leaves it: on to the next, at its end (EBREAK), or as illegal. -/
inductive PbEnd
  | next | done | bad
  deriving DecidableEq, Repr

/-- A CSR instruction: read, then set, cleared or written; the forms that write nothing leave the CSR alone. A CSR that is not
there, or a write to a read-only one, is illegal. -/
def State.pbCsr (s : State) (c : Fin 2) (i : Nat) : PbEnd × State :=
  let n := bitsOf i 20 12
  let rs1 := bitsOf i 15 5
  let x : Word := if i.testBit 14 then BitVec.ofNat 32 rs1 else s.core[c].gpr.toList.getD rs1 0
  let rd : Fin 32 := ⟨bitsOf i 7 5, by simp only [bitsOf]; exact Nat.mod_lt _ (by decide)⟩
  match s.csrRead c n with
  | none => (.bad, s)
  | some old =>
    let old : Word := BitVec.ofNat 32 old
    let writes := bitsOf i 12 2 == 1 || rs1 != 0
    if writes && decide (0xC00 ≤ n) then (.bad, s)
    else
      let v := match bitsOf i 12 2 with
        | 1 => x
        | 2 => old ||| x
        | _ => old &&& ~~~x
      let s := if writes then s.modCore c (fun k => k.csrWrite n v) else s
      (.next, s.setGpr c rd old)

/-- One instruction of the program buffer. An SC there fails or not as its 128 CORE cycles have passed, which is a free value
(log entry 3). -/
def State.pbStep (s : State) (c : Fin 2) (i : Nat) : PbEnd × State :=
  let r (lo : Nat) : Word := s.core[c].gpr.toList.getD (bitsOf i lo 5) 0
  let f3 := bitsOf i 12 3
  let f7 := bitsOf i 25 7
  let rd : Fin 32 := ⟨bitsOf i 7 5, by simp only [bitsOf]; exact Nat.mod_lt _ (by decide)⟩
  let immI : Word := wordOf (signedOf 12 (bitsOf i 20 12))
  let immS : Word := wordOf (signedOf 12 (bitsOf i 25 7 * 32 + bitsOf i 7 5))
  match i % 128 with
  | 0x37 => (.next, s.setGpr c rd (BitVec.ofNat 32 (i / 4096 * 4096)))
  | 0x13 =>
    if (f3 = 1 ∧ f7 ≠ 0) ∨ (f3 = 5 ∧ f7 ≠ 0 ∧ f7 ≠ 0x20) then (.bad, s)
    else (.next, s.setGpr c rd (aluOp f3 (f3 == 5 && f7 == 0x20) (r 15) immI))
  | 0x33 =>
    if f7 = 1 then (.next, s.setGpr c rd (mulOp f3 (r 15) (r 20)))
    else if f7 = 0 ∨ (f7 = 0x20 ∧ (f3 = 0 ∨ f3 = 5)) then (.next, s.setGpr c rd (aluOp f3 (f7 == 0x20) (r 15) (r 20)))
    else (.bad, s)
  | 0x03 =>
    if f3 = 3 ∨ 5 < f3 then (.bad, s)
    else (.next, s.coreAccess c (.load rd (decide (f3 < 3))) (2 ^ (f3 % 4)) (r 15 + immI).toNat 0)
  | 0x23 =>
    if 2 < f3 then (.bad, s) else (.next, s.coreAccess c (.store (r 20)) (2 ^ f3) (r 15 + immS).toNat 0)
  | 0x2F =>
    if f3 ≠ 2 then (.bad, s)
    else
      match bitsOf i 27 5, amoOf (bitsOf i 27 5) with
      | 2, _ => if bitsOf i 20 5 = 0 then (.next, s.coreAtomic c .lr rd (r 15).toNat 0) else (.bad, s)
      | 3, _ =>
        let (n, s) := s.draw
        (.next, s.coreAtomic c (.sc (r 20) (n.testBit 0)) rd (r 15).toNat 0)
      | _, some op => (.next, s.coreAtomic c (.amo op (r 20)) rd (r 15).toNat 0)
      | _, none => (.bad, s)
  | 0x0F => if f3 < 2 then (.next, s) else (.bad, s)
  | 0x73 =>
    if f3 % 4 ≠ 0 then s.pbCsr c i
    else if i = 0x00100073 then (.done, s)
    else if i = 0x10500073 then (.next, s)
    else (.bad, s)
  | _ => (.bad, s)

/-- The 16-bit parcels of the program buffer. -/
def State.parcels (s : State) : List Nat := s.dbg.progbuf.flatMap (fun (w : Word) => [getF w 0 16, getF w 16 16])

/-- Instructions run one after the other until EBREAK, an exception (cmderr 3), or the end of the buffer. -/
def State.runParcels (c : Fin 2) : Nat → List Nat → State → State
  | 0, _, s => s
  | n + 1, l, s =>
    let go (o : Option Nat) (rest : List Nat) : State :=
      match o with
      | none => s.cmdErr 3
      | some i =>
        match s.pbStep c i with
        | (.bad, s) => s.cmdErr 3
        | (.done, s) => s
        | (.next, s) => if s.dbg.cmderr = 0 then State.runParcels c n rest s else s
    match l with
    | [] => s
    | [h] => if h % 4 = 3 then s.cmdErr 3 else go (expand h) []
    | h :: k :: rest => if h % 4 = 3 then go (some (h + 65536 * k)) rest else go (expand h) (k :: rest)

/-- The program buffer run by a halted hart. -/
def State.runProgBuf (s : State) (c : Fin 2) : State := State.runParcels c 16 s.parcels s

end Sys2Proof.Machine
end

