-- ==== Sys2Proof/Machine/Debug.lean ====
section
/-! DEFINITION. The Debug Module (R648 to R652), the JTAG port (Table 14.7, R1042 to R1044) and the VIO_GEN sense (R1024).
The Debug Module's registers are those of External Debug Support 0.13.2 that R648 names (PRESUMED, log entry 18). -/

namespace Sys2Proof.Machine
open Sys2Proof

/-- The Debug Module changed. -/
def State.modDbg (s : State) (g : Dbg → Dbg) : State := { s with dbg := g s.dbg }

/-! ## System Bus Access -/

/-- Whether OTP DEBUG_DISABLE is 1 (R649). -/
def State.debugOff (s : State) : Bool := otpBit s.boot.shadow 545

/-- A System Bus Access (R650 to R652): the data read, 0 where it failed, and sberror, kept from the first. An address that it may
not reach is told before its size, and its size before its alignment. In IDLE the CORE clock returns first (R1074). -/
def State.sba (s : State) (write : Bool) (size : Nat) (a : Nat) (v : Word) : State :=
  let n := 2 ^ size
  let err (s : State) (e : Nat) : State :=
    s.modDbg (fun d => { d with sberror := if d.sberror = 0 then e else d.sberror, sbdata := if write then d.sbdata else 0 })
  if s.dbg.sberror ≠ 0 ∨ s.mayIssue 2 = false then s
  else if busErrType 2 a write ≠ 0 then
    let s := err (s.leaveIdle.busError (busErrType 2 a write) 2 a write) 2
    if write then s else s.answer 0
  else if 2 < size ∨ (regionAt a = .page ∧ n ≠ 4) then err s 4
  else if a % n ≠ 0 then err s 3
  else if write then
    match s.leaveIdle.reachWrite 2 0 false a (leBytes n v.toNat) with
    | (.data _, s) => s
    | (.blocked, s) => err s 7
    | (.fault, s) => err s 2
  else
    match s.leaveIdle.reachRead 2 0 false false a n with
    | (.data d, s) => (s.modDbg (fun x => { x with sbdata := BitVec.ofNat 32 (leVal (bits d)) })).answer (leVal (bits d))
    | (.blocked, s) => (err s 7).answer 0
    | (.fault, s) => (err s 2).answer 0

/-- SYSTEM_BUS_ACCESS (R650). -/
def execSystemBusAccess (write : Bool) (size : Fin 3) (a v : Word) (s : State) : Host.Outcome State Fault Refusal :=
  fin (if s.debugOff then s else s.sba write size.val a.toNat v)

/-! ## The Debug Module -/

/-- The harts that dmcontrol selects. -/
def State.harts (s : State) : List (Fin 2) :=
  [0, 1].filter (fun (c : Fin 2) => s.dbg.hartsel == c.val || (s.dbg.hasel && s.dbg.hamask.getLsbD c.val))

/-- A hart with a halt request enters Debug Mode. Which instruction of its program comes next is a free value (log entry 3). -/
def State.haltHart (s : State) (c : Fin 2) : State :=
  if s.coreLive c && s.dbg.haltreq.getLsbD c.val && !s.core[c].debug then
    let (n, s) := s.draw
    s.modCore c (fun k => k.enterDebug 3 (BitVec.ofNat 32 (2 * n)))
  else s

/-- A hart in Debug Mode resumes at dpc, in the mode that dcsr holds. -/
def State.resumeHart (s : State) (c : Fin 2) : State :=
  if s.core[c].debug then
    (s.modCore c (fun k => { k with debug := false, pc := k.dpc, user := getF (k.csrAt 0x7B0) 0 2 == 0 })).modDbg
      (fun d => { d with resumeack := d.resumeack ||| BitVec.ofNat 2 (2 ^ c.val) })
  else s

/-- Halt requests that harts can take are taken. -/
def State.dbgSync (s : State) : State := (s.haltHart 0).haltHart 1

/-- A write to dmcontrol. DBG_ATTACH is raised by every write with dmactive = 1 (R648); the write that clears it returns
the module to its reset values. -/
def State.dmControl (s : State) (v : Word) : State :=
  if v.getLsbD 0 = false then s.modDbg (fun d => { sberror := 0, havereset := d.havereset })
  else
    let s := pulse 124 (s.modDbg (fun d => { d with dmactive := true, hartsel := getF v 16 10 + 1024 * getF v 6 10,
                                                     hasel := v.getLsbD 26 }))
    let l := s.harts
    let m : BitVec 2 := BitVec.ofNat 2 (l.foldl (fun a c => a ||| 2 ^ c.val) 0)
    let s := s.modDbg (fun d => { d with
      haltreq := if v.getLsbD 31 then d.haltreq ||| m else d.haltreq &&& ~~~m
      havereset := if v.getLsbD 28 then d.havereset &&& ~~~m else d.havereset
      resumeack := if v.getLsbD 30 && !v.getLsbD 31 then d.resumeack &&& ~~~m else d.resumeack })
    let s := if v.getLsbD 30 && !v.getLsbD 31 then l.foldl (fun s c => s.resumeHart c) s else s
    s.dbgSync

/-- DEBUG_ACTIVATE: dmcontrol written with dmactive = 1 (R648, R649). -/
def execDebugActivate (s : State) : Host.Outcome State Fault Refusal :=
  fin (if s.debugOff then s else s.dmControl 1)

/-- dmstatus; with DEBUG_DISABLE it reads with authenticated = 0 (R649). -/
def State.dmStatus (s : State) : Nat :=
  let l := s.harts
  let both (lo : Nat) (p : Fin 2 → Bool) : Nat := b2n (l.any p) * 2 ^ lo + b2n (l.all p) * 2 ^ (lo + 1)
  let bit (m : BitVec 2) (c : Fin 2) : Bool := m.getLsbD c.val
  let none' := l.isEmpty
  2 + b2n (!s.debugOff) * 128 + both 8 (fun c => s.core[c].debug) + both 10 (fun c => s.coreOn c && !s.core[c].debug)
    + both 12 (fun c => !s.coreOn c) + b2n none' * (2 ^ 14 + 2 ^ 15) + both 16 (bit s.dbg.resumeack)
    + both 18 (bit s.dbg.havereset)

/-- The transfer of an Access Register command: a 32-bit register of a halted hart. -/
def State.transferReg (s : State) (c : Fin 2) (v : Word) : State :=
  let n := getF v 0 16
  let gpr := decide (0x1000 ≤ n ∧ n < 0x1020)
  let r : Fin 32 := ⟨n % 32, Nat.mod_lt _ (by decide)⟩
  if v.getLsbD 17 = false then s
  else if getF v 20 3 ≠ 2 then s.cmdErr 2
  else if v.getLsbD 16 then
    if gpr then s.setGpr c r s.dbg.data0
    else if (s.csrRead c n).isSome then s.modCore c (fun k => k.csrWrite n s.dbg.data0)
    else s.cmdErr 3
  else
    match if gpr then some (s.core[c].gpr[r]).toNat else s.csrRead c n with
    | some x => s.modDbg (fun d => { d with data0 := BitVec.ofNat 32 x })
    | none => s.cmdErr 3

/-- An Access Register command on hart `c` (R648): its transfer, and with postexec the program buffer where that ended without
an error. -/
def State.accessRegister (s : State) (c : Fin 2) (v : Word) : State :=
  if s.core[c].debug = false then s.cmdErr 4
  else
    let s := s.transferReg c v
    if v.getLsbD 18 && s.dbg.cmderr == 0 then s.runProgBuf c else s

/-- An abstract command; none starts while cmderr holds an error. -/
def State.abstractCmd (s : State) (v : Word) : State :=
  if s.dbg.cmderr ≠ 0 then s
  else
    let s := s.modDbg (fun d => { d with command := v })
    if getF v 24 8 ≠ 0 then s.cmdErr 2
    else if s.dbg.hartsel = 0 then s.accessRegister 0 v
    else if s.dbg.hartsel = 1 then s.accessRegister 1 v
    else s.cmdErr 4

/-- An access to data0 or the program buffer that abstractauto follows with the last command. -/
def State.autoExec (s : State) (i : Nat) : State :=
  if s.dbg.autoexec.testBit i then s.abstractCmd s.dbg.command else s

/-- A System Bus Access of the size that sbcs selects, at sbaddress0. -/
def State.sbRun (s : State) (write : Bool) : State :=
  let s := s.sba write s.dbg.sbaccess s.dbg.sbaddr.toNat s.dbg.sbdata
  if s.dbg.sbauto && s.dbg.sberror == 0 then
    s.modDbg (fun d => { d with sbaddr := d.sbaddr + BitVec.ofNat 32 (2 ^ d.sbaccess) })
  else s

/-- A read of a Debug Module register. -/
def State.dmRead (s : State) (a : Nat) : Nat × State :=
  let d := s.dbg
  if a = 0x11 then (s.dmStatus, s)
  else if s.debugOff then (0, s)
  else if a = 0x04 then (d.data0.toNat, s.autoExec 0)
  else if a = 0x10 then
    (b2n d.dmactive + d.hartsel / 1024 * 64 + d.hartsel % 1024 * 65536 + b2n d.hasel * 2 ^ 26, s)
  else if a = 0x15 then (d.hamask.toNat, s)
  else if a = 0x16 then (8 * 2 ^ 24 + d.cmderr * 256 + 1, s)
  else if a = 0x18 then (d.autoexec, s)
  else if 0x20 ≤ a ∧ a < 0x28 then ((d.progbuf.getD (a - 0x20) 0).toNat, s.autoExec (16 + (a - 0x20)))
  else if a = 0x38 then
    (2 ^ 29 + b2n d.sbonaddr * 2 ^ 20 + d.sbaccess * 2 ^ 17 + b2n d.sbauto * 2 ^ 16 + b2n d.sbondata * 2 ^ 15
      + d.sberror * 4096 + 32 * 32 + 7, s)
  else if a = 0x39 then (d.sbaddr.toNat, s)
  else if a = 0x3C then (d.sbdata.toNat, if d.sbondata && d.sberror == 0 then s.sbRun false else s)
  else if a = 0x40 then (b2n s.core[0].debug + 2 * b2n s.core[1].debug, s)
  else (0, s)

/-- A write to a Debug Module register; while dmactive is 0 only dmcontrol is written. -/
def State.dmWrite (s : State) (a : Nat) (v : Word) : State :=
  if s.debugOff then s
  else if a = 0x10 then s.dmControl v
  else if s.dbg.dmactive = false then s
  else if a = 0x04 then (s.modDbg (fun d => { d with data0 := v })).autoExec 0
  else if a = 0x15 then s.modDbg (fun d => { d with hamask := v.setWidth 2 })
  else if a = 0x16 then s.modDbg (fun d => { d with cmderr := d.cmderr &&& (7 - getF v 8 3) })
  else if a = 0x17 then s.abstractCmd v
  else if a = 0x18 then s.modDbg (fun d => { d with autoexec := getF v 0 1 + getF v 16 8 * 65536 })
  else if 0x20 ≤ a ∧ a < 0x28 then
    (s.modDbg (fun d => { d with progbuf := d.progbuf.set (a - 0x20) v })).autoExec (16 + (a - 0x20))
  else if a = 0x38 then
    s.modDbg (fun d => { d with
      sbonaddr := v.getLsbD 20, sbaccess := getF v 17 3, sbauto := v.getLsbD 16, sbondata := v.getLsbD 15
      sberror := d.sberror &&& (7 - getF v 12 3) })
  else if a = 0x39 then
    let s := s.modDbg (fun d => { d with sbaddr := v })
    if s.dbg.sbonaddr then s.sbRun false else s
  else if a = 0x3C then (s.modDbg (fun d => { d with sbdata := v })).sbRun true
  else s

/-! ## JTAG -/

/-- The JTAG port changed. -/
def State.modJtag (s : State) (g : Jtag → Jtag) : State := { s with jtag := g s.jtag }

/-- DTMCS as it would be shifted out (R648): version 0.13, abits 7, no DMI operation pending or failed. No row of the table reads
it. -/
def dtmcs : Word := 0x71

/-- The signals of the balls that have boundary cells (R1042). -/
inductive Ball
  | hpD (i : Nat)
  | hpA (i : Nat)
  | hpCsN
  | hpRdN
  | hpWrN
  | hpRw
  | hpE
  | hpDackN
  | hpDrq
  | hpWaitN
  | hpIrqN
  | hpMode (i : Nat)
  | resetN
  | pwrfailN
  | shockN
  | thermN
  | gpio (i : Nat)
  | bootSel (i : Nat)
  | dsPwren (i : Nat)
  | dsOcN (i : Nat)
  | uartTx
  | uartRx
  | paWg (p : Nat)
  | paFltN (p : Nat)
  | paSclk (p : Nat)
  | paSdio (p : Nat)
  | paSen (p : Nat)
  | led (p : Nat)
  deriving DecidableEq, Repr

/-- What a ball is to the boundary register. -/
inductive BallKind
  | input
  | output
  | drain
  | bidir
  deriving DecidableEq, Repr

/-- The direction of a ball; the open-drain balls are those named under Table 23.6. -/
def Ball.kind : Ball → BallKind
  | .hpD _ | .gpio _ | .paSdio _ => .bidir
  | .hpDrq | .dsPwren _ | .uartTx | .paWg _ | .paSclk _ | .paSen _ => .output
  | .hpWaitN | .hpIrqN | .thermN | .led _ => .drain
  | .hpA _ | .hpCsN | .hpRdN | .hpWrN | .hpRw | .hpE | .hpDackN | .hpMode _ | .resetN | .pwrfailN | .shockN
  | .bootSel _ | .dsOcN _ | .uartRx | .paFltN _ => .input

/-- How many boundary cells a ball takes (R1042, R1043). -/
def BallKind.cells : BallKind → Nat
  | .input => 1
  | .output | .drain => 2
  | .bidir => 3

/-- The digital balls of a port in a row of its block, the middle column first (Table 23.13). -/
def portBalls (p k : Nat) : List Ball :=
  if k = 4 then [.paWg p, .paSclk p] else if k = 5 then [.paFltN p, .paSdio p] else if k = 6 then [.led p, .paSen p] else []

/-- The digital balls of columns 5 to 24 of a row that have cells (Table 23.14, R1043). -/
def edgeBalls (r : Nat) : List Ball :=
  if r = 1 then (List.range 16).map .hpD ++ (List.range 4).map .hpA
  else if r = 2 then
    [.hpCsN, .hpRdN, .hpWrN, .hpRw, .hpE, .hpDackN, .hpDrq, .hpWaitN, .hpIrqN, .hpMode 0, .hpMode 1]
  else if r = 26 then [.resetN, .pwrfailN, .shockN, .thermN]
  else if r = 27 then (List.range 16).map .gpio ++ [.bootSel 0, .bootSel 1]
  else if r = 28 then (List.range 4).map .dsPwren ++ (List.range 4).map .dsOcN ++ [.uartTx, .uartRx]
  else []

/-- The balls with cells in the order of the boundary register: rows 1 to 28, in each by ascending column; ports 4 to 7
stand mirrored on the right (R1037, R1042). -/
def boundaryBalls : List Ball :=
  (List.range 28).flatMap (fun r =>
    portBalls (r / 7) (r % 7) ++ edgeBalls (r + 1) ++ (portBalls (4 + r / 7) (r % 7)).reverse)

/-- The balls from a cell number on, each with its first cell. -/
def cellsFrom : Nat → List Ball → List (Ball × Nat)
  | _, [] => []
  | c, b :: bs => (b, c) :: cellsFrom (c + b.kind.cells) bs

/-- The first cell of every ball that has cells. -/
def boundaryCells : List (Ball × Nat) := cellsFrom 0 boundaryBalls

/-- What a ball's cells put on it: none where it is released. Data 1 releases an open-drain ball (R1043). That an enable
cell of 1 drives its ball is the model's reading (PRESUMED, log entry 27). -/
def ballDrive (cells : BitVec 232) (b : Ball × Nat) : Option Bool :=
  match b.1.kind with
  | .input => none
  | .output => if cells.getLsbD (b.2 + 1) then some (cells.getLsbD b.2) else none
  | .drain => if cells.getLsbD (b.2 + 1) && !cells.getLsbD b.2 then some false else none
  | .bidir => if cells.getLsbD (b.2 + 2) then some (cells.getLsbD (b.2 + 1)) else none

/-- What the boundary register puts on its balls. -/
def boundaryLevels (cells : BitVec 232) : List (Option Bool) := boundaryCells.map (ballDrive cells)

/-- JTAG_IDCODE: the identification register of stepping B0 is selected (Table 14.7). -/
def execJtagIdcode (s : State) : Host.Outcome State Fault Refusal :=
  fin ((s.modJtag (fun j => { j with ir := 1, balls := none })).answer 0x18100F5B)

/-- JTAG_SAMPLE_PRELOAD (R1042): the cells as the balls stand are captured, and the boundary register is loaded. -/
def execJtagSamplePreload (balls cells : BitVec 232) (s : State) : Host.Outcome State Fault Refusal :=
  let s := s.modJtag (fun _ => { ir := 2, cells := cells })
  fin { s with bus := { data := clean (leBytes 29 balls.toNat) } }

/-- An instruction drives the balls from the boundary register, and the die-to-die link is lost (R1044). -/
def State.boundaryDrive (s : State) (ir : Nat) : State :=
  (s.modJtag (fun j => { j with ir := ir, balls := some (boundaryLevels j.cells) })).via execLinkLoss

/-- JTAG_EXTEST (R1044). -/
def execJtagExtest (s : State) : Host.Outcome State Fault Refusal := fin (s.boundaryDrive 3)

/-- JTAG_CLAMP (R1044). -/
def execJtagClamp (s : State) : Host.Outcome State Fault Refusal := fin (s.boundaryDrive 4)

/-- JTAG_HIGHZ: the outputs with boundary cells are released (Table 14.7). -/
def execJtagHighz (s : State) : Host.Outcome State Fault Refusal :=
  fin (s.modJtag (fun j => { j with ir := 5, balls := some (boundaryCells.map (fun _ => none)) }))

/-- JTAG_DMI_ACCESS (R648, R649): a read or write of a Debug Module register. -/
def execJtagDmiAccess (write : Bool) (a : BitVec 7) (v : Word) (s : State) : Host.Outcome State Fault Refusal :=
  let s := (s.modJtag (fun j => { j with ir := 0x11, balls := none })).dbgSync
  fin (if write then s.dmWrite a.toNat v
    else
      let (x, s) := s.dmRead a.toNat
      s.answer x)

/-! ## The VIO_GEN bank -/

/-- VIO_GEN_SENSE (R1024): the levels selected as VIO_GEN rises, 3.3 V or 1.8 V. -/
def execVioGenSense (v33 : Bool) (s : State) : Host.Outcome State Fault Refusal :=
  fin ((s.put IO_STATUS_GEN_3V3 v33).up IO_STATUS_GEN_VALID)

end Sys2Proof.Machine
end

