-- ==== Sys2Proof/Machine/OtivoStart.lean ====
section
/-! DEFINITION. Otivo's start-up (R122, R142 to R148, R780, R826), the records of the ports (R416 to R430), assembly (R515
to R518, R564, R565), lost data (R727 to R730), the dirty-count record (R825) and SUSPEND_ACTION (R923). -/

namespace Sys2Proof.Machine
open Sys2Proof

/-! ## Register writes by Otivo -/

/-- A field written by Core A through its register, where the register's domain is on. -/
def State.fieldWrite (s : State) (f : Fld) (v : Nat) : State :=
  if s.regOn f.addr then s.pageWrite 0 f.addr (putF (s.reg f.addr) f.lo f.w v) else s

/-- Fields written in order. -/
def State.fieldWrites (s : State) (l : List (Fld × Nat)) : State :=
  l.foldl (fun (s : State) e => s.fieldWrite e.1 e.2) s

/-! ## Key-band commands -/

/-- Whether Otivo can have a key-band command run at once: rings 320 and 321 stand empty, no command waits or is held, and
for UNLOAD no unit of the band is in flight (R772, R783). -/
def State.keyReady (s : State) (op band : Nat) : Bool :=
  !s.cip.authHold && s.cip.unloadWait.isNone && (s.ring 320).count == 0 && (s.ring 321).count == 0
    && (s.ring 320).consumer == 9 && s.enqTest 320 == .ok && s.enqTest 321 == .ok
    && (op != 3 || s.cip.inFlight[keyBand band] == 0)

/-- A key-band command run through rings 320 and 321, with its STATUS (Table 17.5). -/
def State.keyAsk (s : State) (op band flags user cred newCred : Nat) (healthy : Bool) : Nat × State :=
  let e := zerosB 2 ++ leBytes 1 op ++ leBytes 1 band ++ leBytes 1 flags ++ zerosB 3 ++ leBytes 8 user ++ leBytes 4 cred
    ++ leBytes 4 newCred ++ zerosB 8
  let s := (s.post 320 e).keyCommand op healthy
  match s.dequeue 321 with
  | (some d, s) => (fieldB (bits d) 2 1, s)
  | (none, s) => (5, s)

/-! ## The microcode image (Table 10.11) -/

def imgMicroBase (i : List Byte) : Nat := fieldB i 8 2
def imgMicros (i : List Byte) : Nat := fieldB i 10 2
def imgNanoBase (i : List Byte) : Nat := fieldB i 12 2
def imgNanos (i : List Byte) : Nat := fieldB i 14 2
def imgEntries (i : List Byte) : Nat := 0x20 + 4 * imgMicros i + 16 * imgNanos i

/-- Whether an image may be loaded (R482). -/
def imageOk (i : List Byte) : Bool :=
  let n := imgEntries i + 128
  fieldB i 0 4 == 0x3141424D && fieldB i 4 2 == 1 && decide (n + 4 ≤ i.length) && fieldB i n 4 == crc32c (i.take n)
    && decide (1 ≤ imgMicros i ∧ imgMicroBase i + imgMicros i ≤ 8192)
    && decide (1 ≤ imgNanoBase i ∧ imgNanoBase i + imgNanos i ≤ 1024)

/-- Where an image's words and entries go: addresses of the register pages with their words, in order. -/
def imageWrites (i : List Byte) : List (Nat × Nat) :=
  let micro := (List.range (imgMicros i)).map (fun k => (0x30088000 + 4 * (imgMicroBase i + k), fieldB i (0x20 + 4 * k) 4))
  let nano := (List.range (4 * imgNanos i)).map (fun k =>
    (0x30084000 + 16 * imgNanoBase i + 4 * k, fieldB i (0x20 + 4 * imgMicros i + 4 * k) 4))
  let entries := ((List.range 64).filter (fun k => (fieldB i 16 8).testBit k)).map (fun k =>
    ((FMT_ENTRY_ADDR k).addr, fieldB i (imgEntries i + 2 * k) 2 % 8192))
  micro ++ nano ++ entries

/-- An image loaded (R482). -/
def State.loadImage (s : State) (i : List Byte) : State := s.regWrites (imageWrites i)

/-- A context restarted at entry 2. -/
def State.restartCtx (s : State) (p : Fin 8) : State :=
  (s.fieldWrite (FMT_CTX_PC_START_PC p) (s.rd (FMT_ENTRY_ADDR 2))).via (execFmtStart p true)

/-! ## Start-up -/

/-- The rings of Table 13.2 that hardware or Otivo uses: ID, whether its entries have 32 bytes, and its consumer. -/
def otRings : List (Nat × Bool × Nat) :=
  let port (n : Nat) : List (Nat × Bool × Nat) :=
    [(64 + 16 * n, true, 16 + n), (65 + 16 * n, false, 1), (192 + n, true, 6), (200 + n, false, 16 + n)]
  [(0, true, 1), (1, false, 3), (2, true, 1), (3, true, 4), (4, false, 1), (5, true, 1), (6, true, 5), (7, true, 3),
   (8, false, 1)] ++ (List.range 8).flatMap port ++
  [(208, true, 6), (209, false, 8), (210, true, 8), (211, false, 1), (256, true, 7), (257, false, 2), (320, true, 9),
   (321, false, 1), (322, true, 10), (323, false, 1), (384, true, 2), (385, true, 1), (386, true, 2), (387, true, 1),
   (448, true, 11)]

/-- The rings that are not enabled yet, configured one after another in Ring SRAM, 32 entries each; the inter-core rings
and the Almanac's are precious, and WAKE_EN stays as it stands (R601). BASE, SIZE and PRECIOUS are this model's choice. -/
def State.startRings (s : State) : State :=
  otRings.zipIdx.foldl (fun (s : State) e =>
    let (id, wide, who) := e.1
    if (s.ring id).en then s
    else
      let cfg := 2 ^ 31 + b2n (s.ring id).wakeEn * 2 ^ 29 + (if 384 ≤ id then 2 ^ 30 else 0) + 2 ^ 21 + who * 256 + (if wide then 16 else 0) + 1
      (s.ringBaseWrite id (1024 * e.2)).ringCfgWrite id cfg) s

/-- The sources that Table 13.7 gives as Edge. -/
def edgeSources : List Nat :=
  [0, 1, 2, 3, 6, 7, 82, 84, 85, 86, 87, 88, 91, 92, 93, 94, 96, 97, 98, 102, 103, 108, 120, 121, 124, 125, 126]

/-- Modes of the event sources (R616), Line Cache settings (Table 15.3), PMP entries (Table 14.5), watchdogs and HP_SCOPE
(R122). -/
def State.startUnits (s : State) : State :=
  let modes := (List.range 128).map (fun i => (EVC_SRC_CFG_MODE i, b2n (edgeSources.contains i)))
  let masks := [(0, 0), (1, 0xFFF), (2, 0), (3, 0xFFF), (4, 0xFFF), (5, 0x3000), (6, 0x3000), (7, 0)]
  let s := s.fieldWrites (modes ++ masks.map (fun e => (LC_CLASS_MASK_MASK e.1, e.2)))
  let s := s.fieldWrites [(LC_CTRL_AGE_PERIOD, 32), (LC_OP_ADDR_ADDR, s.rd HQE_MAP_BASE_BASE * 1024), (LC_OP_LINES_LINES, 1024)]
  let s := s.pageWrite 0 LC_OP_WORD.addr 0xC0000004
  let s := s.fieldWrites [(SYS_RST_CFG_HP_SCOPE, 1), (WDT_TIME_STAGE1 0, 500), (WDT_TIME_STAGE2 0, 100),
    (WDT_TIME_STAGE1 1, 500), (WDT_TIME_STAGE2 1, 100)]
  let s := (s.wdtCtrl 0 7).wdtCtrl 1 7
  let pmp (c : CoreSt) : CoreSt := { c with
    pmpCfg := [0x98, 0, 0x0D, 0x1D, 0x1B, 0x1B] ++ c.pmpCfg.drop 6
    pmpAddr := [0x0403C7FF, 0x04000000, 0x04030000, 0x00401FFF, 0x004417FF, 0x37FFFFFF] ++ c.pmpAddr.drop 6 }
  (s.modCore 0 pmp).modCore 1 pmp

/-- R780, steps 2 to 5. -/
def State.startProtection (s : State) : State :=
  s.fieldWrites [(BC_CTRL_WINDOW_EN, 0x3FFF),
    (PROT_BASE_BASE 0, 0x100F0), (PROT_LIMIT_LIMIT 0, 0x100F3), (PROT_ALLOW_ALLOW 0, 0x10000), (PROT_CTRL_EN 0, 1),
    (PROT_BASE_BASE 1, 0x80000), (PROT_LIMIT_LIMIT 1, 0xB7FFF), (PROT_ALLOW_ALLOW 1, 0xFFFFF),
    (PROT_CTRL_EN 1, 1 - s.savedFeat 0x11), (BC_LOCK_LOCK, 1)]

/-- Features that stand in registers, applied (Table 21.5). -/
def State.applyFeat (s : State) (id v : Nat) : State :=
  match id with
  | 0x12 => s.fieldWrite HP_CFG_SB_EN v
  | 0x13 => s.modOt (fun o => { o with split := some v })
  | 0x14 => s.fieldWrite USB_CTRL_DBG_EN v
  | 0x15 => s.fieldWrite IDU_ITER_ITER_MAX v
  | _ => s

/-- The power-on record and the dirty counts found (start-up step 1, R826). -/
def State.startRecords (s : State) : State :=
  let (h, s) := State.readMem (slotBase (s.rd SYS_BOOT_INFO_SLOT_RUN == 1)) 32 s
  let hdr := bits h
  let d := s.dirtyRecord
  let counts := match d with
    | some (_, b) => (List.range 4).map (fun v => fieldB b (4 + 4 * v) 4)
    | none => [0, 0, 0, 0]
  let s := s.almLog 1 0x0001 (leBytes 4 (s.reg SYS_RESET_CAUSE_WORD.addr).toNat ++ leBytes 4 s.ot.bootInfo.toNat
    ++ sliceB hdr 0x1C 4 ++ leBytes 1 (b2n d.isSome))
  let lost := d.isNone || counts.any (fun n => n != 0)
  let pay := if d.isSome then counts.flatMap (leBytes 4) else List.replicate 16 0xFF#8
  let s := if lost then
      s.event 2 0x0002 pay 7 0xFF 0xFF (b2n d.isSome) ((counts.foldl (· + ·) 0) % 2 ^ 32)
    else s
  (s.modOt (fun o => { o with dirtyFound := counts, dirtyKnown := d.isSome })).writeDirty [0, 0, 0, 0]

/-- A band left by a create that power loss ended is deleted (R959). -/
def State.dropOrphans (s : State) : State :=
  allVols.foldl (fun (s : State) v =>
    let keyed := (s.readBand v.val).1.record.any (fun r => fieldB r 7 1 == 1)
    if keyed && !vLive (s.vol v) && s.keyReady 5 v.val then (s.keyAsk 5 v.val 0 0 0 0 true).2 else s) s

/-- Start-up as far as READY: records, configuration, protection, the HQE, Otivo's microcode, and power for the ports and
the IDU Pool. After STANDBY nothing is recorded anew. The array metadata and the records are read here; Otivo works from its own
copies after that, so that its later looks at them count no errors (log entry 28). -/
def State.otInit (s : State) (img : List Byte) (healthy : Bool) : State :=
  let woke := s.ot.woke
  let s := s.modOt (fun o => { o with started := true, woke := false, discovered := false, bootInfo := s.reg SYS_BOOT_INFO_WORD.addr })
  let s := ((s.mramLook 0x100E0000 0x10000).mramLook 0x100F4000 0xC000).startRings
  let s := if woke then s else s.startRecords
  let s := if s.flag MC_STATUS_ROOT_SET || !s.keyReady 7 0 then s else (s.keyAsk 7 0 0 0 0 0 healthy).2
  let s := (s.startProtection).startUnits
  let s := if woke then s else s.dropOrphans
  let s := [0x12, 0x13, 0x14].foldl (fun (s : State) id => s.applyFeat id (s.feat id)) s
  let s := (s.loadImage img).fieldWrite FMT_CTRL_STORE_VALID 1
  let s := match s.ot.split with
    | some n => (s.splitWrite (BitVec.ofNat 32 n)).modOt (fun o => { o with split := none })
    | none => s
  let s := s.fieldWrites [(HQE_CTRL_ENABLE, 1), (HP_STATE_DETAIL, 0), (HP_STATE_STATE, 2)]
  s.pageWrite 0 PWR_DOMAIN_REQ_WORD.addr (s.reg PWR_DOMAIN_REQ_WORD.addr ||| 0x7FC)

/-! ## Discovery (Table 3.10, R144) -/

/-- The first of three preamp answers that counts, none where all three are no answer. -/
def preampId (expected : Option Nat) (l : List Byte) : Option Nat :=
  (l.take 3).findSome? (fun b =>
    if (b = 0 ∨ b = 0xFF) ∧ expected ≠ some b.toNat then none else some b.toNat)

/-- Whether a measured resistance lies within 20 % of a record's, or below open where the record has none. -/
def resFits (rec x : Nat) : Bool :=
  if rec = 0 then decide (x < 0xFFFF) else decide (4 * rec ≤ 5 * x ∧ 5 * x ≤ 6 * rec)

/-- The outcome of a port's discovery: 0 ABSENT, 1 PRESENT, 2 UNCHARACTERISED, 3 MISMATCH, 4 FAULTED. -/
def outcomeOf (boot : Option (List Byte)) (seen : PortSeen) : Nat :=
  let want := boot.map (fun b => fieldB b 6 1)
  let id := preampId want seen.answers
  let allOpen := decide (0xFFFF ≤ seen.uv ∧ 0xFFFF ≤ seen.vw ∧ 0xFFFF ≤ seen.wu)
  match id, boot with
  | none, _ => if allOpen then 0 else 4
  | some _, none => 2
  | some x, some b =>
    if want ≠ some x then 3
    else if resFits (fieldB b 128 2) seen.uv && resFits (fieldB b 130 2) seen.vw && resFits (fieldB b 132 2) seen.wu then 1
    else 4

/-- The answers that a read of the preamp ID needs: up to the first that counts, at most three (R144). -/
def idAnswers (want : Option Nat) : List Byte → List Byte
  | [] => []
  | b :: l => if (preampId want [b]).isSome then [b] else b :: idAnswers want l

/-- The preamp ID read (R144): PA_CFG is the boot block's image, or DIV 4 with none, and each read frame goes to the boot
block's preamp address, or to that of DISC_ID_ADDR. -/
def State.readPreampId (s : State) (p : Fin 8) (boot : Option (List Byte)) (l : List Byte) : State :=
  let (cfg, a) := match boot with
    | some b => (bootImg b 25, fieldB b 7 1)
    | none => (4, s.feat 0x19)
  let s := s.pageWrite 0 (PA_CFG_WORD p).addr (BitVec.ofNat 32 cfg)
  (idAnswers (boot.map (fun b => fieldB b 6 1)) (l.take 3)).foldl (fun (s : State) x =>
    ((s.paCommand p (BitVec.ofNat 16 (0x8000 + a % 128 * 256))).paStart p).paEnd p x) s

/-- A PRESENT port spun up (R146, R147): one whose spindle turns at FLY_MIN percent of its target or above is taken over by
a flying restart without a spin-up slot; one that turns more slowly, or not, starts as a stopped one does. `turning` is the
revolution's time in SERVO cycles as Otivo finds it. While RETRACTED is latched the power die ignores the START (R201), and no
later step of the start repeats it: the spec does not say who clears RETRACTED before (DESIGN CHOICE, log entry 26). -/
def State.spinPresent (s : State) (p : Fin 8) (turning : Option Nat) : State :=
  let st := s.rd (SPN_STATUS_STATE p)
  let fast := turning.filter (fun n => decide (n * s.rd (SPN_LOCK_FLY_MIN p) ≤ s.rd (SPN_TARGET_PERIOD p) * 100))
  if s.dieHeld || !(st == 0 || st == 6) then s.spnStart p
  else
    match fast with
    | some n =>
      (((s.spnState p 6).down (SPN_STATUS_RETRY_USED p)).wr (SPN_PERIOD_MEASURED p) n).modSpn p (fun x =>
        { x with fly := true, retryWait := false, zc := 0, revZc := 0, revTicks := 0, pLast := n })
    | none => ((s.spnState p 0).modSpn p (fun x => { x with fly := false, retryWait := false })).spnStart p

/-- One port discovered, and spun up where it is PRESENT and not offline (R144, R146, R147, R424, R528). -/
def State.discover (s : State) (p : Fin 8) (seen : PortSeen) : State :=
  let boot := bootOf (s.hda p)
  let o := outcomeOf boot seen
  let s := s.modOt (fun x => { x with
    outcome := x.outcome.set p o, loaded := x.loaded &&& ~~~portBit p, parked := x.parked &&& ~~~portBit p })
  if s.on (2 + p.val) = false then s
  else
    let s := s.readPreampId p boot seen.answers
    let s := if s.rd (SPN_STATUS_STATE p) = 0 then
        ((s.wr (SPN_RES_A_UV p) (min seen.uv 0xFFFF)).wr (SPN_RES_A_VW p) (min seen.vw 0xFFFF)).wr (SPN_RES_B_WU p) (min seen.wu 0xFFFF)
      else s
    if o = 1 ∧ s.ot.offline.getLsbD p.val = false then (s.loadBoot p (boot.getD [])).spinPresent p seen.turning else s

/-- Whether every port domain that Otivo has asked for is on. -/
def State.portsOn (s : State) : Bool := ports.all (fun p => s.on (2 + p.val) || !s.flag (reqBit (2 + p.val)))

/-- Discovery of every port, with the contexts restarted and the iteration ceiling set. -/
def State.otDiscover (s : State) (seen : List PortSeen) : State :=
  let s := s.applyFeat 0x15 (s.feat 0x15)
  let s := s.eachPort (fun p s => s.discover p (seen.getD p.val {}))
  let s := s.eachPort (fun p s => if s.on (2 + p.val) && s.rd (FMT_CTX_STATUS_STATE p) == 0 then s.restartCtx p else s)
  s.modOt (fun o => { o with discovered := true })

/-- A watchdog restart recorded (Table 22.5, 0x0003). -/
def State.recordWatchdog (s : State) : State :=
  let w := s.reg SYS_RESET_CAUSE_WORD.addr
  let log (s : State) (b : Bool) (c : Nat) (f : Fld) : State :=
    if b then ((s.almLog 2 0x0003 (leBytes 1 c ++ zerosB 3 ++ leBytes 4 w.toNat)).down f) else s
  log (log s (s.flag SYS_RESET_CAUSE_WDT_A) 0 SYS_RESET_CAUSE_WDT_A) (s.flag SYS_RESET_CAUSE_WDT_B) 1 SYS_RESET_CAUSE_WDT_B

/-- OTIVO_START: at firmware start Otivo goes as far as READY, and it discovers the ports once their domains are on; after
a watchdog restart it records that. `fault` other than 0 is a detail of Table 21.16, less 0x7F, that stops it. It begins once the Line Cache has
initialised itself (R699), and its image is loaded only once every context is halted (R482). -/
def execOtivoStart (img : List Byte) (seen : List PortSeen) (healthy : Bool) (fault : Fin 7) (s : State) :
    Host.Outcome State Fault Refusal :=
  fin (
    if s.boot.stage ≠ .firmware ∨ s.boot.reset.isSome ∨ s.runs 1 = false then s
    else if fault ≠ 0 then s.fieldWrites [(HP_STATE_STATE, 4), (HP_STATE_DETAIL, 0x7F + fault.val)]
    else if s.ot.started = false ∧ imageOk img = false then s.fieldWrites [(HP_STATE_STATE, 4), (HP_STATE_DETAIL, 0x83)]
    else if s.ot.started = false ∧ s.flag LC_STATUS_INIT_DONE = false then s
    else if s.ot.started = false ∧ s.allHalted = false then s.haltAll
    else
      let s := if s.ot.started then s.recordWatchdog else s.otInit img healthy
      if !s.ot.discovered && s.portsOn then s.otDiscover seen else s)

/-! ## The records of the ports -/

/-- A port whose record or HDA fails after loading: heads unloaded, spindle stopped, its outcome reported (R428). -/
def State.refusePort (s : State) (p : Fin 8) (outcome : Nat) : State :=
  let s := (s.stopPort p).modOt (fun o => { o with outcome := o.outcome.set p outcome, loaded := o.loaded &&& ~~~portBit p })
  s.notify 2 0xFF p.val outcome (b2n !(s.ot.offline.getLsbD p.val)) []

/-- Of records that qualify, the one of highest GENERATION, the first of equals (R427). -/
def newestRecord (l : List (Option (List Byte))) : Option (List Byte) :=
  l.foldl (fun (m : Option (List Byte)) x => match m, x with
    | none, x => x
    | m, none => m
    | some a, some b => if bdGen (bodyOf a) < bdGen (bodyOf b) then some b else some a) none

/-- A port's three record copies compared once its heads follow (R427, R428). -/
def State.recordCheck (s : State) (p : Fin 8) (m : MediaEnd) : State :=
  let r := s.hda p
  let mine := serialOf r
  let (a, s) := s.getCopy m p 0
  let (b, s) := s.getCopy m p 1
  let fits (x : Option (List Byte)) : Option (List Byte) := x.filter (fun c => serialOf c == mine && mine.isSome)
  match newestRecord [if recordValid r then some r else none, fits a, fits b] with
  | some w =>
    let s := if w = r then s else s.otStore (hdaAddr p) w
    let s := if a = some w then s else s.putCopy p 0 w
    let s := if b = some w then s else s.putCopy p 1 w
    ((s.loadBody p (bodyOf w)).modOt (fun o => { o with loaded := o.loaded ||| portBit p })).modSrv p (fun v => { v with checked := true })
  | none => s.refusePort p (if a.isSome || b.isSome then 3 else 4)

/-- Whether a port's heads are on its discs, so that a media request to them is served, at once or when a seek ends. -/
def State.headsOn (s : State) (p : Fin 8) : Bool :=
  s.srv[p].loaded && decide (2 ≤ s.rd (SRV_STATUS_STATE p) ∧ s.rd (SRV_STATUS_STATE p) ≤ 6)

/-- HDA_RECORD_CHECK: after every loading of heads; a PRESENT port at speed whose heads are parked is loaded first (R424). -/
def execHdaRecordCheck (p : Fin 8) (m : MediaEnd) (s : State) : Host.Outcome State Fault Refusal :=
  fin (
    if s.otRuns = false ∨ s.ot.outcome[p] ≠ 1 ∨ s.ot.offline.getLsbD p.val = true
        ∨ (s.ot.loaded.getLsbD p.val = true ∧ (s.srv[p].checked = true ∨ s.srv[p].loaded = false)) then s
    else if s.rd (SRV_STATUS_STATE p) = 4 then s.recordCheck p m
    else if s.rd (SRV_STATUS_STATE p) = 0 ∧ s.rd (SPN_STATUS_STATE p) = 5 then s.srvLoad p
    else s)

/-- RECORD_UPDATE: a port's record written again with GENERATION incremented, in the order of R429. -/
def execRecordUpdate (p : Fin 8) (s : State) : Host.Outcome State Fault Refusal :=
  fin (
    let r := s.hda p
    match bootOf r with
    | some boot => if s.otRuns && recordValid r then s.updateRecord p boot (bodyOf r) (s.headsOn p) else s
    | none => s)

/-- The grown list with an entry for a sector, in place where it has one (R417, R418). -/
def growEntry (b : List Byte) (sec pool : Nat) : List Byte :=
  let e := leBytes 5 sec ++ leBytes 2 pool ++ zerosB 1
  let n := bdGrown b
  match (bdGrownList b).findIdx? (fun x => x.1 == sec) with
  | some i => spliceB b (4544 + 8 * i) e
  | none => spliceB (spliceB b (4544 + 8 * n) e) 19 (leBytes 1 (n + 1))

/-- A unit sector moved to the spare pool with its recovered block, `bad` pool slots failing their verify first (R417 to
R419). Where the unit no longer reallocates, the sector stays as rewritten in place. -/
def State.reallocate (s : State) (p : Fin 8) (sec bad : Nat) (data : List Byte) : State :=
  let r := s.hda p
  let body := bodyOf r
  let boot := (bootOf r).getD []
  let pool := bdNext body + bad
  let pay := leBytes 1 p.val ++ zerosB 1 ++ leBytes 5 sec ++ zerosB 1
  let disc := s.headsOn p
  if 96 ≤ bdNext body ∨ 96 ≤ bdGrown body then (s.portError p).almLog 2 0x0503 pay
  else if 96 ≤ pool then
    let s := s.updateRecord p boot (spliceB body 16 (leBytes 2 96)) disc
    (s.portError p).almLog 2 0x0503 pay
  else
    let s := s.discPut (s.slotKey p.val (slipSlot body (bdUser body + pool))) data
    let body := spliceB (growEntry body sec pool) 16 (leBytes 2 (pool + 1))
    (s.updateRecord p boot body disc).almLog 1 0x0502 (pay ++ leBytes 2 pool)

/-- A sector whose verify has failed reallocated: with its stripe's write-intent bits set (R549), and not on a unit of a
FAILED volume (R524). -/
def State.moveSector (s : State) (p : Fin 8) (e : BadSector) (bad : Nat) : State :=
  let r := s.vol (volOf e.vol)
  let s := s.modOt (fun o => { o with bad := o.bad.erase e })
  if vState r = 4 then s
  else (e.regions.foldl (fun (s : State) j => if j < vWiBits r then s.setWi (vWiFirst r + j) true else s) s).reallocate p e.sec bad e.block

/-- REALLOCATE: a sector rewritten in place after a recovered read has failed its verify (R416). -/
def execReallocate (p : Fin 8) (sec : BitVec 40) (bad : Fin 128) (s : State) : Host.Outcome State Fault Refusal :=
  fin (if s.otRuns && recordValid (s.hda p) && decide (sec.toNat < bdUser (bodyOf (s.hda p))) then
      match s.ot.bad.find? (fun e => e.port == p.val && e.sec == sec.toNat) with
      | some e => s.moveSector p e bad.val
      | none => s
    else s)

/-! ## Assembly -/

/-- Ports a member may be found on, the port it names first (R515). -/
def tryPorts (named : Nat) : List (Fin 8) :=
  ports.filter (fun p => p.val == named) ++ ports.filter (fun p => p.val != named)

/-- Whether a port is PRESENT and online and its boot block carries a serial. -/
def State.carries (s : State) (serial : Nat) (p : Fin 8) : Bool :=
  s.ot.outcome[p] == 1 && !s.ot.offline.getLsbD p.val && serialOf (s.hda p) == some serial

/-- Members to be looked for. -/
def sought (r : VolRec) : List Nat := (vUnits r).filter (fun u => mState r u == 0 || mState r u == 3)

/-- The ports that members claim, in the order of their index (R515). -/
def State.claims (s : State) (r : VolRec) : List (Nat × Fin 8) :=
  (sought r).foldl (fun (l : List (Nat × Fin 8)) u =>
    let ok (p : Fin 8) : Bool := s.carries (mSerial r u) p && s.ot.loaded.getLsbD p.val && !l.any (fun e => e.2 == p)
    match (tryPorts (mPort r u)).find? ok with
    | some p => l ++ [(u, p)]
    | none => l) []

/-- Whether every member unit, whatever its member's state, has loaded, is not PRESENT, or has failed to spin up after its retry: a FAULT of cause 3
(R148, R182). -/
def State.settledMembers (s : State) (r : VolRec) : Bool :=
  (vUnits r).all (fun u => ports.all (fun p =>
    !s.carries (mSerial r u) p || s.ot.loaded.getLsbD p.val
      || (s.rd (SPN_STATUS_STATE p) == 9 && s.rd (SPN_STATUS_FAULT_CAUSE p) == 3)))

/-- Whether the volume's band has a credential (CRED). -/
def State.bandCred (s : State) (b : Nat) : Bool :=
  (s.readBand b).1.record.any (fun r => fieldB r 7 1 == 1 && (fieldB r 16 1).testBit 0)

/-- Whether the band of a volume is to be loaded at its assembly and is not (R781). -/
def State.bandDue (s : State) (r : VolRec) : Bool :=
  (vBand r).any (fun b => (s.cip.slots[keyBand b]).isNone && !s.bandCred b)

/-- The HQE told of a volume. FAST_EN follows the FAST_PATH feature where the volume's data can be read. -/
def State.tellHqe (s : State) (v : Fin 4) (r : VolRec) : State :=
  let locked := (vBand r).any (fun b => (s.cip.slots[keyBand b]).isNone)
  s.fieldWrites [(HQE_VOL_CFG_LSS v, b2n (vLss r)),
    (HQE_VOL_CFG_FAST_EN v, if vLive r && !locked then s.feat (volFeat 0x21 v.val) else 0),
    (HQE_VOL_CAP_UNITS v, min (vCap r / (if vLss r then 1 else 8)) 0xFFFFFFFF)]

/-- Otivo's working copy of a volume's progress, from its record. A rebuild goes on where the record shows that one ran: STATE
3 with no copy-back, or rows rebuilt. -/
def State.takeProgress (s : State) (v : Fin 4) (r : VolRec) (out : List Nat) : State :=
  let going := !(vFails r).isEmpty && decide (1 ≤ (vGeo r).s ∧ vRebRow r < vCpu r)
    && ((vState r == 3 && !vFlag r 4) || decide (0 < vRebRow r))
  s.modOt (fun o => { o with
    absent := o.absent.set v (out.foldl (fun a u => a + 2 ^ u) 0), delayed := o.delayed.set v 0
    rebRow := o.rebRow.set v (vRebRow r), cbRow := o.cbRow.set v (vCbRow r)
    resync := o.resync.set v (s.wiRegions r), inGroup := o.inGroup &&& ~~~volBit v, paused := o.paused &&& ~~~volBit v
    rebuild := if going then o.rebuild ||| volBit v else o.rebuild &&& ~~~volBit v
    assembled := o.assembled ||| volBit v })

/-- A volume assembled (R515, R516, R522, R564, R565). -/
def State.assemble (s : State) (v : Fin 4) (r : VolRec) : State :=
  let found := s.claims r
  let out := (sought r).filter (fun u => !found.any (fun e => e.1 == u))
  let moved := found.foldl (fun (x : VolRec) e => vSet x (64 + 32 * e.1) 1 e.2.val) r
  let s := s.takeProgress v r out
  let blind := vFlag r 3 && (s.checkpoint v).isNone
  let st := if blind then 4 else s.deriveState v (vSet moved 0 1 1)
  let new := vSet moved 0 1 st
  let s := if new = r then s else s.setVol v new
  let s := if blind then s.almLog 3 0x0707 (leBytes 1 v.val) else s
  (s.stateEvent v (vState r)).tellHqe v new

/-- VOLUME_ASSEMBLY: with no valid volume table nothing is assembled, which is recorded once (R518); the volume's band is
loaded first (R781). -/
def execVolumeAssembly (v : Fin 4) (s : State) : Host.Outcome State Fault Refusal :=
  fin (
    if s.otRuns = false ∨ s.ot.discovered = false ∨ s.assembled v = true then s
    else if s.volTable.isNone then
      if s.ot.tableTold then s else (s.almLog 3 0x0706 []).modOt (fun o => { o with tableTold := true })
    else
      let r := s.vol v
      let b := (vBand r).getD 0
      if !vLive r || !s.settledMembers r || (s.bandDue r && !s.keyReady 2 b) then s
      else
        let s := if s.bandDue r then (s.keyAsk 2 b 0 0 0 0 true).2 else s
        s.assemble v r)

/-! ## Lost data (R727 to R730) -/

/-- A dirty sector lost: marked in the map, LOST_DATA set, recorded and reported. -/
def State.loseSector (s : State) (e : CacheEnt) (j line : Nat) : State :=
  let v := volOf e.vol
  let r := s.vol v
  let bitsLost := if vLss r then 0xFF else 2 ^ j
  let lba := if vLss r then e.unit else 8 * e.unit + j
  let e' := { e with dirty := maskOf 8 (fun i => e.dirty.testBit i && !bitsLost.testBit i), lost := e.lost ||| bitsLost }
  let s := (s.putUnit e').indexFollow e'
  let s := if vFlag r 1 then s else s.setVol v (vPut r 1 true)
  (s.event 3 0x0A02 (leBytes 1 v.val ++ zerosB 3 ++ leBytes 4 line ++ leBytes 8 lba) 4 v.val 0xFF 0 lba).dirtyZero

/-- A clean sector dropped from the Buffer Cache: the unit with it where nothing of it is dirty or lost. -/
def State.dropSector (s : State) (e : CacheEnt) (j : Nat) : State :=
  if e.dirty = 0 ∧ e.lost = 0 then s.dropUnit e.vol e.unit
  else
    let e' := { e with mask := maskOf 8 (fun i => e.mask.testBit i && i != j) }
    (s.putUnit e').indexFollow e'

/-- A failed line of the Buffer DRAM (R727, R729, R730): a sector that a map entry holds in it, or every sector of the
units that a line of the map's index indexes. -/
def State.lineLost (s : State) (line : Nat) : State :=
  let base := s.rd HQE_MAP_BASE_BASE * 65536
  let inIndex := decide (base ≤ line ∧ line < base + 65536)
  s.ot.cache.foldl (fun (s : State) e0 =>
    match s.cached e0.vol e0.unit with
    | none => s
    | some e =>
      let a := s.bufAddr e.buf
      let hit (j : Nat) : Bool :=
        if inIndex then s.indexAddr e.vol e.unit / 64 == line / 64 else decide (a + 512 * j ≤ line ∧ line < a + 512 * (j + 1))
      (List.range 8).foldl (fun (s : State) j =>
        match s.cached e.vol e.unit with
        | none => s
        | some e => if !hit j then s else if e.dirty.testBit j then s.loseSector e j line else s.dropSector e j) s) s

/-- Every dirty sector read again, one that is delivered poisoned being lost (R733). -/
def State.rereadDirty (s : State) : State :=
  s.ot.cache.foldl (fun (s : State) e0 =>
    (List.range 8).foldl (fun (s : State) j =>
      match s.cached e0.vol e0.unit with
      | none => s
      | some e =>
        if e.dirty.testBit j then
          let (o, s) := s.bufLoad 0 e.buf (512 * j) 512
          if poisoned o.data then s.loseSector e j (s.bufAddr e.buf + 512 * j) else s
        else s) s) s

/-- LOST_DATA_HANDLING: on DRAM_TAG_FAIL. -/
def State.lostData (s : State) : State :=
  let s := (List.range 4).foldl (fun (s : State) k =>
    if s.flag (INT_DRAM_CAP1_VALID k) then (s.lineLost (64 * s.rd (INT_DRAM_CAP0_ADDR k))).down (INT_DRAM_CAP1_VALID k) else s) s
  let s := if s.flag INT_DRAM_STATUS_CAP_LOST then s.rereadDirty else s
  ((s.down INT_DRAM_STATUS_CAP_LOST).down INT_DRAM_STATUS_FAIL).down INT_DRAM_STATUS_TRANSIENT

/-- LOST_DATA_HANDLING. -/
def execLostDataHandling (s : State) : Host.Outcome State Fault Refusal := fin (if s.otRuns then s.lostData else s)

/-- DIRTY_COUNT_PERSIST: at the end of a 100 ms interval in which a count has changed (R825). -/
def execDirtyCountPersist (s : State) : Host.Outcome State Fault Refusal :=
  fin (if s.otRuns && s.dirtyCounts != s.ot.dirtyTold then s.writeDirty s.dirtyCounts else s)

/-- SUSPEND_ACTION (R923): when the function is suspended and every USB tag is FREE. -/
def State.suspendAction (s : State) : State :=
  let free := allTags.all (fun t => !s.usbTag t || s.tagState t == 0)
  if s.flag USB_STATUS_FN_SUSPENDED = false then s.modOt (fun o => { o with quiet := false })
  else if free = false then s
  else
    match s.feat 0x10 with
    | 1 => s.modOt (fun o => { o with quiet := true })
    | 2 => s.modOt (fun o => { o with quiet := true, power := some { action := 0, usbOnly := false } })
    | 3 => (s.eachPort (fun p s => if s.on (2 + p.val) then s.stopPort p else s)).modOt (fun o =>
        { o with quiet := true, power := some { action := 2, usbOnly := false } })
    | _ => s

/-- SUSPEND_ACTION. -/
def execSuspendAction (s : State) : Host.Outcome State Fault Refusal := fin (if s.otRuns then s.suspendAction else s)

/-! ## Repair (R715) -/

/-- A location repaired, noted: one that errs again after a repair holds a hard fault, which is recorded once per power-on. -/
def State.noteRepair (s : State) (m loc : Nat) : State :=
  let here (e : Nat × Nat × Bool) : Bool := e.1 == m && e.2.1 == loc
  match s.ot.repaired.find? here with
  | none => s.modOt (fun o => { o with repaired := o.repaired ++ [(m, loc, false)] })
  | some (_, _, told) =>
    let s := s.modOt (fun o => { o with repaired := o.repaired.map (fun e => if here e then (m, loc, true) else e) })
    if told then s else s.almLog 1 0x0A01 (leBytes 1 m ++ zerosB 3 ++ leBytes 4 loc)

/-- A captured correctable location repaired: MRAM, Ring SRAM and DTCM from their corrected value, ITCM, Microstore and Nanostore from
their image's byte, a Line Cache line by invalidating it, and preloading it again where its way is locked. -/
def State.repairAt (s : State) (m loc : Nat) (img : Byte) : State :=
  if m = 2 ∨ m = 9 ∨ m = 11 ∨ m = 12 then
    let (b, s) := s.readByte loc
    s.writeByte loc b
  else if m = 8 ∨ m = 10 then s.writeByte loc (img, false)
  else if m = 4 then s.writeByte (0x30088000 + loc) (img, false)
  else if m = 5 then s.writeByte (0x30084000 + loc) (img, false)
  else
    let i := loc / 512
    let w := s.way i
    let s := s.invalidateWay i
    if w.lock && w.valid then (s.preloadFill 0 i (heldLine i w)).lockWay i true else s

/-- Otivo's repair of a captured correctable location. One of the Microstore or Nanostore waits until every context is halted, which
Otivo has them do first (R480), and starts them again at entry 2 (log entry 28). Once repaired the capture is clear, so that
the location is captured again if it errs again. -/
def State.eccRepair (s : State) (m : Nat) (k : Nat) (img : Byte) : State :=
  let loc := s.rd (INT_CAP0_LOC m k)
  if !(s.flag (INT_CAP1_VALID m k) && !s.flag (INT_CAP1_UNCORR m k)) || m == 3 || m == 6 || m == 7 then s
  else if (m = 4 ∨ m = 5) ∧ s.allHalted = false then s.haltAll
  else
    let s := ((s.noteRepair m loc).repairAt m loc img).down (INT_CAP1_VALID m k)
    if m = 4 ∨ m = 5 then s.eachPort (fun p s => if s.on (2 + p.val) then s.restartCtx p else s) else s

/-- ECC_REPAIR. -/
def execEccRepair (m : Fin 13) (k : Fin 4) (img : Byte) (s : State) : Host.Outcome State Fault Refusal :=
  fin (s.eccRepair m.val k.val img)

end Sys2Proof.Machine
end

