-- ==== Sys2Proof/Machine/OcsIo.lean ====
section
/-! DEFINITION. OCS messages (R934 to R938), and READ, WRITE, FLUSH and ABORT (R805 to R811, R946 to R952). -/

namespace Sys2Proof.Machine
open Sys2Proof

/-! ## Power requests that wait (R923, R969) -/

/-- Whether the tags that a power request waits for are FREE. -/
def State.tagsFree (s : State) : Bool := allTags.all (fun t => s.tagState t == 0)

/-- The heads and spindles as a POWER action wants them (R969, R970): 0 heads unloaded, 2 and 3 spindles stopped. -/
def State.settleHeads (s : State) (action : Nat) : State :=
  s.eachPort (fun p s =>
    if s.on (2 + p.val) = false ∨ action = 1 then s
    else
      let s := s.modOt (fun o => { o with parked := o.parked ||| (o.loaded &&& portBit p) })
      if action = 0 then (if s.rd (SRV_STATUS_STATE p) = 4 then s.via (execSrvUnload p) else s)
      else if s.rd (SPN_STATUS_STATE p) = 0 then s else s.stopPort p)

/-- A power request that waits is made once every tag is FREE, by a write to SLEEP_REQ; while it is refused it stays. NADIR
also waits until nothing is dirty and the dirty-count record says so (R970). -/
def State.pumpPower (s : State) : State :=
  match s.ot.power with
  | none => s
  | some a =>
    if s.tagsFree = false ∨ (a.action = 3 ∧ s.dirtyCounts.any (fun n => n != 0) = true) then s
    else
      let nadir := a.action == 3
      let s := s.haltAll.settleHeads a.action
      let s := if nadir && s.ot.dirtyTold.any (fun n => n != 0) then s.writeDirty s.dirtyCounts else s
      let refused := (s.sleepReason nadir).isSome
      let s := if nadir then s.via execNadirRequest else s.via execStandbyRequest
      s.modOt (fun o => { o with power := if refused then some { a with refused := true } else none })

/-! ## Messages -/

/-- The message-path transports by number: 0 the mailbox, 1 the vendor pipe, 2 the UART. -/
def pathNo : OcsPath → Option (Fin 3)
  | .mailbox _ => some 0
  | .vendor _ => some 1
  | .uart _ => some 2
  | _ => none

/-- The path of a message's command. -/
def msgPath (t : Fin 3) (seq : Nat) : OcsPath := if t = 0 then .mailbox seq else if t = 1 then .vendor seq else .uart seq

/-- A whole message (R937): what is no command gets no reply, and a length out of range INVALID_FIELD. -/
def State.takeMsg (s : State) (path : Nat → OcsPath) (msg : List Byte) : State :=
  if fieldB msg 0 1 ≠ 0x21 then s
  else
    let c : OcsCmd := { path := path (fieldB msg 1 1), bytes := sliceB msg 4 32, data := msg.drop 36 }
    if msg.length < 36 ∨ 8228 < msg.length then s.ocsEnd c 0x11 0 0xFF [] else s.keep c

/-- Entries of a message ring taken until one ends a message: the message with `got` before it, or what there is so far. -/
def drainMsg (ring : Nat) : Nat → List Byte → State → (Bool × List Byte) × State
  | 0, got, s => ((false, got), s)
  | n + 1, got, s =>
    match s.dequeue ring with
    | (none, s) => ((false, got), s)
    | (some e, s) =>
      let b := bits e
      let got := (got ++ sliceB b 2 (min 30 (fieldB b 0 1))).take 8229
      if (fieldB b 1 1).testBit 0 then ((true, got), s) else drainMsg ring n got s

/-- OCS_MESSAGE on the mailbox or the vendor pipe. -/
def State.ringMsg (s : State) (t : Fin 2) : State :=
  let ring := if t = 0 then 2 else 5
  let t3 : Fin 3 := if t = 0 then 0 else 1
  if 4 ≤ (s.ot.cmds.filter (fun c => pathNo c.path == some t3)).length then s
  else
    let ((whole, msg), s) := drainMsg ring (s.ring ring).count s.ot.partMsg[t] s
    if whole then
      let s := s.modOt (fun o => { o with partMsg := o.partMsg.set t [], vendorUsed := o.vendorUsed || t == 1 })
      s.takeMsg (msgPath t3) msg
    else s.modOt (fun o => { o with partMsg := o.partMsg.set t msg })

/-- OCS_MESSAGE: on the UART, `frame` is a frame's message and `good` tells whether its CRC holds; the first opens the
binary session (R936, R940). -/
def execOcsMessage (t : MsgPath) (frame : List Byte) (good : Bool) (s : State) : Host.Outcome State Fault Refusal :=
  fin (
    if s.otRuns = false then s
    else
      let s := s.otIntake.pumpPower
      match t with
      | .mailbox => s.ringMsg 0
      | .vendor => s.ringMsg 1
      | .uart =>
        if good = false ∨ 4 ≤ (s.ot.cmds.filter (fun c => pathNo c.path == some 2)).length then s
        else (s.modOt (fun o => { o with session := true })).takeMsg (msgPath 2) frame)

/-! ## Volumes as commands see them -/

/-- Whether a volume is locked by a credential or by LOCK: its band is keyed and not loaded (R781). -/
def State.locked (s : State) (r : VolRec) : Bool :=
  (vBand r).any (fun b => (s.cip.slots[keyBand b]).isNone && (s.readBand b).1.record.any (fun x => fieldB x 7 1 == 1))

/-- The STATUS of I/O to a volume whose record is EMPTY: NO_SUCH_VOLUME, or with no valid volume table VOLUME_NOT_READY
(R518). -/
def State.noVolume (s : State) : Nat := if s.volTable.isNone then 0x20 else 0x14

/-- The checks of R946, in order: none, or the STATUS. -/
def State.ioCheck (s : State) (c : OcsCmd) : Option Nat :=
  let v := volOf c.volNo
  let r := s.vol v
  if vLive r = false then some s.noVolume
  else if s.assembled v = false then some 0x20
  else if s.locked r then some 0x18
  else if vCap r < c.arg + c.len then some 0x13
  else if c.op = 2 ∧ vState r = 4 then some 0x21
  else none

/-- The units that a command's sectors lie in: each with its first sector in it and their number. -/
def unitSpans (r : VolRec) (lba count : Nat) : List (Nat × Nat × Nat) :=
  let per := perUnit r
  let first := lba / per
  let last := (lba + count - 1) / per
  (List.range (last + 1 - first)).map (fun i =>
    let u := first + i
    let lo := max lba (u * per) - u * per
    let hi := min (lba + count) (u * per + per) - u * per
    (u, lo, hi - lo))

/-- The eight-sector mask of sectors `lo` to `lo + n - 1` of a unit. -/
def spanMask (r : VolRec) (lo n : Nat) : Nat := if vLss r then 0xFF else maskOf 8 (fun j => decide (lo ≤ j ∧ j < lo + n))

/-- Whether a command's units lie in a region that awaits resynchronisation (R552) or in a reshape group in flight (R556). -/
def State.awaits (s : State) (v : Fin 4) (spans : List (Nat × Nat × Nat)) : Bool :=
  spans.any (fun e => s.ot.resync[v].contains (e.1 / 16384) || s.groupHolds v e.1)

/-! ## READ -/

/-- How far a READ has come: pieces for the host, their buffers, sectors, the flags of R948, and the STATUS and DETAIL
that end it. -/
structure ReadRun where
  pieces : List (Nat × Nat) := []
  bufs : List Nat := []
  done : Nat := 0
  flags : Nat := 0
  status : Nat := 0
  detail : Nat := 0

/-- One unit of a READ: its sectors up to the first that cannot be delivered (R422, R728, R947). -/
def State.readSpan (s : State) (m : MediaEnd) (v : Fin 4) (a : ReadRun) (e : Nat × Nat × Nat) : ReadRun × State :=
  let (u, lo, n) := e
  if a.status ≠ 0 then (a, s)
  else
    let ((st, det, fl), s) := s.loadUnit m v u
    if st ≠ 0 then ({ a with status := st, detail := det }, s)
    else
      match s.cached v.val u with
      | none => ({ a with status := 0x30, detail := 7 }, s)
      | some x =>
        let r := s.vol v
        let bit (j : Nat) : Nat := if vLss r then 0 else j
        let good := ((List.range n).takeWhile (fun i => x.mask.testBit (bit (lo + i)) && !x.lost.testBit (bit (lo + i)))).length
        let st := if good = n then 0 else if x.lost.testBit (bit (lo + good)) then 0x23 else 0x22
        let size := secBytes r
        ({ a with
            pieces := if good = 0 then a.pieces else a.pieces ++ [(s.bufAddr x.buf + lo * size, good * size)]
            bufs := a.bufs ++ [x.buf], done := a.done + good, flags := a.flags ||| fl, status := st }, s.putUnit x)

/-- A READ (R946 to R948). A stopped port is started first and the command waits (R971). -/
def State.ocsRead (s : State) (m : MediaEnd) (c : OcsCmd) : State :=
  let v := volOf c.volNo
  let r := s.vol v
  if c.len = 0 ∨ 65536 < c.len then s.badField c 16 false
  else
    match s.ioCheck c with
    | some st => s.ocsEnd c st 0 0 []
    | none =>
      let spans := unitSpans r c.arg c.len
      let miss := spans.any (fun e => (s.cached v.val e.1).isNone)
      if s.awaits v spans then s.keep c
      else if miss && s.volParked r then (s.wakeVol r).keep c
      else
        let (a, s) := spans.foldl (fun (x : ReadRun × State) e => x.2.readSpan m v x.1 e) ({}, s)
        let status := if a.status ≠ 0 then a.status else if a.flags = 0 then 0 else 1
        let detail := if a.status ≠ 0 then a.detail else a.flags
        let c := { c with status := status, result := a.done, detail := detail, bufs := a.bufs }
        if a.pieces.isEmpty then s.respond c [] else s.transfer c false a.pieces

/-- OCS_READ. -/
def execOcsRead (m : MediaEnd) (s : State) : Host.Outcome State Fault Refusal :=
  fin (s.ocsStep (fun c => c.op == 1) (fun c s => s.ocsRead m c))

/-! ## WRITE -/

/-- The other sectors of a unit merged into its new buffer (R421, R422, R810): from the old buffer, or from the media where
the unit is not resident. The sectors present beside the new ones. -/
def State.mergeUnit (s : State) (m : MediaEnd) (v : Fin 4) (u buf new : Nat) : (Nat × Nat × Nat) × State :=
  let r := s.vol v
  let copy (s : State) (from' : List PByte) : State := (List.range 8).foldl (fun (s : State) j =>
    if new.testBit j then s else s.bufStore 0 buf (512 * j) ((from'.drop (512 * j)).take 512)) s
  match s.cached v.val u with
  | some e =>
    let (_, s) := if new = 255 then ((0, 0, 0), s) else s.fillUnit m e
    let e := (s.cached v.val u).getD e
    let (o, s) := s.bufLoad 0 e.buf 0 4096
    ((e.mask, e.dirty, e.lost), copy s o.data)
  | none =>
    if new = 255 then ((0, 0, 0), s)
    else
      let bad := coverMask r (s.badMask v u)
      let ((st, _, _, d), s) := s.unitData m v u
      if st = 0 then ((255 - bad % 256, 0, 0), copy s (clean d))
      else
        let rest := maskOf 8 (fun j => !new.testBit j && !bad.testBit j)
        ((0, 0, 0), (copy s (clean (zerosB 4096))).addBad v 1 u (listMask r rest))

/-- One unit of a WRITE, its data received into buffer `buf`: merged, and the map made to refer to it (R728, R805,
R810). -/
def State.writeSpan (s : State) (m : MediaEnd) (v : Fin 4) (e : Nat × Nat × Nat) (buf : Nat) : State :=
  let (u, lo, n) := e
  let r := s.vol v
  let new := spanMask r lo n
  let old := s.cached v.val u
  let ((mask, dirty, lost), s) := s.mergeUnit m v u buf new
  let x : CacheEnt :=
    { vol := v.val, unit := u, buf := buf, mask := mask ||| new, dirty := dirty ||| new
      lost := maskOf 8 (fun j => lost.testBit j && !new.testBit j) }
  let s := (s.putUnit x).indexPut x
  match old with
  | some o => s.retireBuf o.buf
  | none => s

/-- The units of a WRITE with FUA destaged in order: the sectors on media before the first that fails (R807, R950). -/
def fuaSpans (m : MediaEnd) (v : Fin 4) : List (Nat × Nat × Nat) → Nat → State → (Bool × Nat) × State
  | [], n, s => ((true, n), s)
  | e :: es, n, s =>
    match s.cached v.val e.1 with
    | none => ((false, n), s)
    | some x =>
      match s.destageUnit m x with
      | (true, s) => fuaSpans m v es (n + e.2.2) s
      | (false, s) => ((false, n), s)

/-- Buffers of a command that the map does not refer to are free when the command goes. -/
def State.applyWrite (s : State) (m : MediaEnd) (c : OcsCmd) : State :=
  let v := volOf c.volNo
  let r := s.vol v
  let spans := unitSpans r c.arg c.len
  let data (e : (Nat × Nat × Nat) × Nat) : Bool :=
    let (_, lo, n) := e.1
    poisoned (s.bufLoad 0 e.2 (lo * secBytes r) (n * secBytes r)).1.data
  if vLive r = false ∨ s.assembled v = false then s.ocsEnd { c with bufs := [] } 0x20 0 0 []
  else if vState r = 4 then s.ocsEnd { c with bufs := [] } 0x21 0 0 []
  else if (spans.zip c.bufs).any data then s.ocsEnd { c with bufs := [] } 0x30 0 4 []
  else if c.flags.testBit 1 && s.volParked r then (s.wakeVol r).keep c
  else
    let s := (spans.zip c.bufs).foldl (fun (s : State) e => s.writeSpan m v e.1 e.2) s
    let c := { c with bufs := [] }
    if c.flags.testBit 1 then
      let ((ok, n), s) := fuaSpans m v spans 0 s
      if ok then s.ocsEnd c 0 c.len 0 [] else s.ocsEnd c (if vState (s.vol v) = 4 then 0x21 else 0x24) n 0 []
    else s.ocsEnd c 0 c.len 0 []

/-- A WRITE (R805, R810, R946, R950): its data is received into buffers that the map does not refer to, one for each
unit. -/
def State.ocsWrite (s : State) (m : MediaEnd) (c : OcsCmd) : State :=
  let v := volOf c.volNo
  let r := s.vol v
  if c.stage = .ready then s.applyWrite m c
  else if c.len = 0 ∨ 65536 < c.len then s.badField c 16 false
  else
    match s.ioCheck c with
    | some st => s.ocsEnd c st 0 0 []
    | none =>
      let spans := unitSpans r c.arg c.len
      if s.awaits v spans then s.keep c
      else
        match s.needBufs spans.length with
        | (none, s) => s.keep c
        | (some bufs, s) =>
          let size := secBytes r
          let pieces := (spans.zip bufs).map (fun e => (s.bufAddr e.2 + e.1.2.1 * size, e.1.2.2 * size))
          s.transfer { c with bufs := bufs } true pieces

/-- OCS_WRITE. -/
def execOcsWrite (m : MediaEnd) (s : State) : Host.Outcome State Fault Refusal :=
  fin (s.ocsStep (fun c => c.op == 2) (fun c s => s.ocsWrite m c))

/-! ## FLUSH and ABORT -/

/-- Volumes flushed in order; a FAILED one is passed over. -/
def flushVols (m : MediaEnd) : List (Fin 4) → State → Bool × State
  | [], s => (true, s)
  | v :: vs, s =>
    if vState (s.vol v) = 4 then flushVols m vs s
    else
      let (ok, s) := s.flushVol m v
      let (rest, s) := flushVols m vs s
      (ok && rest, s)

/-- The assembled volumes. -/
def State.readyVols (s : State) : List (Fin 4) := allVols.filter s.assembled

/-- Whether some of the volumes have dirty units whose ports POWER has stopped; those ports are started. -/
def State.wakeDirty (s : State) (vs : List (Fin 4)) : Bool × State :=
  let due := vs.filter (fun v => s.volParked (s.vol v) && decide (0 < s.dirtyOf v))
  (!due.isEmpty, due.foldl (fun (s : State) v => s.wakeVol (s.vol v)) s)

/-- A FLUSH (R808, R951); it waits while data cannot be put on media. -/
def State.ocsFlush (s : State) (m : MediaEnd) (c : OcsCmd) : State :=
  let v := volOf c.volNo
  let all := (c.par 20).testBit 0
  let r := s.vol v
  if 2 ≤ c.par 20 then s.badField c 20 false
  else if !all && !vLive r then s.ocsEnd c s.noVolume 0 0 []
  else if !all && !s.assembled v then s.ocsEnd c 0x20 0 0 []
  else if !all && vState r == 4 then s.ocsEnd c 0x21 0 0 []
  else
    let vs := if all then s.readyVols else [v]
    match s.wakeDirty vs with
    | (true, s) => s.keep c
    | (false, s) =>
      match flushVols m vs s with
      | (true, s) => s.ocsEnd c 0 0 0 []
      | (false, s) => s.keep c

/-- OCS_FLUSH. -/
def execOcsFlush (m : MediaEnd) (s : State) : Host.Outcome State Fault Refusal :=
  fin (s.ocsStep (fun c => c.op == 3) (fun c s => s.ocsFlush m c))

/-- A command aborted: its completion is ABORTED, at once or when its transfers have ended. -/
def State.abortCmd (s : State) (c : OcsCmd) : State :=
  let s := s.modOt (fun o => { o with cmds := o.cmds.erase c })
  let c := { c with status := 2, detail := 0, result := if c.op = 1 then c.result else 0 }
  if c.xfers.isEmpty then s.respond { c with bufs := [] } [] else s.keep c

/-- An ABORT handed to Otivo (R952): the outcome is RESULT byte 8 of Table 18.7. -/
def State.ocsAbort (s : State) (c : OcsCmd) : State :=
  let target := c.par 20 % 32
  match s.ot.cmds.find? (fun x => x.tag?.any (fun y => y.2.1 == target) && x.path != c.path) with
  | none => s.ocsEnd c 0 2 0 []
  | some x =>
    if x.stage = .fresh then (s.abortCmd x).ocsEnd c 0 0 0 []
    else if (x.op = 1 ∨ x.op = 2) ∧ x.status ≤ 1 then (s.abortCmd x).ocsEnd c 0 1 0 []
    else s.ocsEnd c 0 2 0 []

/-- OCS_ABORT. -/
def execOcsAbort (s : State) : Host.Outcome State Fault Refusal :=
  fin (s.ocsStep (fun c => c.op == 4) (fun c s => s.ocsAbort c))

end Sys2Proof.Machine
end

