-- ==== Sys2Proof/Machine/OcsAdmin.lean ====
section
/-! DEFINITION. OCS commands on identity, features, logs, volumes, ports, records, rebuild and security (R953 to R968). -/

namespace Sys2Proof.Machine
open Sys2Proof

/-- A step of the routine of one opcode. -/
def State.ocsOp (s : State) (op : Nat) (g : OcsCmd → State → State) : Host.Outcome State Fault Refusal :=
  fin (s.ocsStep (fun c => c.op == op) g)

/-- A step of the routine of one action of an opcode. -/
def State.ocsAct (s : State) (op act : Nat) (g : OcsCmd → State → State) : Host.Outcome State Fault Refusal :=
  fin (s.ocsStep (fun c => c.op == op && c.par 20 == act) g)

/-- GOOD with a RESULT. -/
def State.good (s : State) (c : OcsCmd) (result : Nat) : State := s.ocsEnd c 0 result 0 []

/-- GOOD with data. -/
def State.goodData (s : State) (c : OcsCmd) (data : List Byte) : State := s.ocsEnd c 0 0 0 data

/-- A STATUS alone. -/
def State.deny (s : State) (c : OcsCmd) (status : Nat) : State := s.ocsEnd c status 0 0 []

/-- A register's word. -/
def State.word (s : State) (f : Fld) : List Byte := leBytes 4 (s.reg f.addr).toNat

/-- The firmware slot that runs: true for B. -/
def State.slotRun (s : State) : Bool := s.rd SYS_BOOT_INFO_SLOT_RUN == 1

/-- The first 32 bytes of a slot's header as they read; zeros where a byte is uncorrectable. -/
def State.slotHead (s : State) (b : Bool) : List Byte := (s.sureBytes (slotBase b) 32).getD (zerosB 32)

/-- The errors that Otivo's reads of both slots' headers meet (R712). -/
def State.headLook (s : State) : State := (s.mramLook (slotBase false) 32).mramLook (slotBase true) 32

/-- The count of ANTI_ROLLBACK bits. -/
def State.rollbackCount (s : State) : Nat := countIdx 32 (fun i => otpBit s.boot.fuses (512 + i))

/-- Whether a port is PRESENT and has not been taken offline. -/
def State.online (s : State) (p : Fin 8) : Bool := s.ot.outcome[p] == 1 && !s.ot.offline.getLsbD p.val

/-- The volumes with a member on a port, as a mask. -/
def State.volsOn (s : State) (p : Nat) : Nat :=
  maskOf 4 (fun v =>
    let r := s.vol (volOf v)
    vLive r && (vUnits r).any (fun u => mPort r u == p && (mState r u == 0 || mState r u == 3)))

/-! ## IDENTIFY, HEALTH, features and logs -/

/-- Table 21.3. -/
def State.identity (s : State) : List Byte :=
  let h := s.slotHead s.slotRun
  let vols := allVols.flatMap (fun v =>
    let r := s.vol v
    leBytes 8 (vCap r) ++ leBytes 1 (b2n (vLss r)) ++ leBytes 1 (vState r) ++ leBytes 1 (fieldB r 7 1)
      ++ leBytes 1 (if vLive r then fieldB r 6 1 else 0xFF) ++ zerosB 4)
  let prts := ports.flatMap (fun p =>
    leBytes 1 s.ot.outcome[p] ++ leBytes 1 (b2n (s.online p)) ++ leBytes 1 (s.volsOn p.val) ++ zerosB 5
      ++ leBytes 8 ((serialOf (s.hda p)).getD 0))
  let flags := b2n (s.flag HP_CFG_SB_EN) + 2 * b2n (otpBit s.boot.shadow 544) + 4 * b2n (otpBit s.boot.shadow 545)
    + 8 * b2n (s.flag MC_STATUS_ROOT_SET)
  leBytes 4 1 ++ s.word SYS_ID_WORD ++ s.word SYS_REV_WORD ++ s.word SYS_CAP_WORD
    ++ leBytes 8 (otpField s.boot.shadow 576 64) ++ sliceB h 0x1C 4 ++ leBytes 4 s.ot.bootInfo.toNat ++ sliceB h 0x0C 4
    ++ sliceB h 0x10 4 ++ leBytes 1 s.rollbackCount ++ [4] ++ leBytes 1 (s.rd HQE_TAG_SPLIT_SPLIT) ++ leBytes 1 flags
    ++ leBytes 2 8192 ++ zerosB 2 ++ vols ++ prts ++ zerosB 16

/-- OCS_IDENTIFY. -/
def execOcsIdentify (s : State) : Host.Outcome State Fault Refusal := s.ocsOp 0x10 (fun c s => s.goodData c s.identity)

/-- Table 21.4. -/
def State.health (s : State) : List Byte :=
  let seen := s.ot.protSeen ||| (s.reg SYS_PROTECT_WORD.addr).toNat
  let vols := allVols.flatMap (fun v =>
    let r := s.vol v
    leBytes 1 (vState r) ++ leBytes 1 (fieldB r 7 1) ++ leBytes 1 (fieldB r 44 1) ++ zerosB 1)
  let prts := ports.flatMap (fun p =>
    leBytes 2 (min (s.errorCount p) 0xFFFF) ++ leBytes 1 (bdNext (bodyOf (s.hda p))) ++ leBytes 1 s.ot.outcome[p])
  s.word ALM_TIME_WORD ++ leBytes 4 (s.rd ALM_CYCLES_CYCLES) ++ (List.range 4).flatMap (fun v => leBytes 4 (s.ot.dirtyFound.getD v 0))
    ++ leBytes 1 (b2n s.ot.dirtyKnown) ++ leBytes 1 (s.rd IDU_FENCE_FENCED + 128 * s.rd IDU_FENCE_POOL_DEGRADED)
    ++ leBytes 1 (unsignedOf 8 s.io.tLogic) ++ leBytes 1 (s.rd PS_TEMP_TEMP) ++ leBytes 4 seen ++ vols ++ prts
    ++ (List.range 4).flatMap (fun i => s.word { ALM_DROPPED_COUNT i with lo := 0, w := 32 })
    ++ leBytes 1 (s.rd GOV_STATUS_EFFECTIVE) ++ zerosB 3 ++ zerosB 156

/-- OCS_HEALTH. -/
def execOcsHealth (s : State) : Host.Outcome State Fault Refusal := s.ocsOp 0x14 (fun c s => s.goodData c s.health)

/-- A feature that a command names: its key, and the offset of the offending field where it names none (R954). -/
def State.featKey (s : State) (c : OcsCmd) : Nat ⊕ Nat :=
  let id := fieldB c.bytes 20 2
  if id = 0x20 ∨ id = 0x21 then (if vLive (s.vol (volOf c.volNo)) then .inr (volFeat id c.volNo) else .inl 2)
  else if (featRange id).isSome then .inr id else .inl 20

/-- A feature's value in force, those of a volume in its record and in HQE_VOL_CFG. -/
def State.featNow (s : State) (c : OcsCmd) (key : Nat) : Nat :=
  match fieldB c.bytes 20 2 with
  | 0x20 => b2n (vFlag (s.vol (volOf c.volNo)) 0)
  | 0x13 => s.rd HQE_TAG_SPLIT_SPLIT
  | _ => s.feat key

/-- OCS_GET_FEATURE. -/
def execOcsGetFeature (s : State) : Host.Outcome State Fault Refusal :=
  s.ocsOp 0x11 (fun c s => match s.featKey c with
    | .inl off => s.badField c off false
    | .inr k => s.good c (s.featNow c k))

/-- A feature set (R954, R955). -/
def State.takeFeat (s : State) (c : OcsCmd) (k : Nat) : State :=
  let id := fieldB c.bytes 20 2
  let x := fieldB c.bytes 24 8
  let save := (c.par 22).testBit 0
  let (lo, hi) := (featRange id).getD (0, 1)
  let v := volOf c.volNo
  if 2 ≤ c.par 22 then s.badField c 22 false
  else if x < lo ∨ hi < x then s.badField c 24 false
  else
    let old := s.featNow c k
    let s := if id = 0x20 then s.setVol v (vPut (s.vol v) 0 (x == 1))
      else
        let s := s.setFeat k x
        if save then s.saveFeat k x else s
    let s := if id = 0x21 then s.tellHqe v (s.vol v) else s.applyFeat id x
    let s := if id = 0x13 && s.tagsFree then
        (s.splitWrite (BitVec.ofNat 32 x)).modOt (fun o => { o with split := none })
      else s
    s.good c old

/-- OCS_SET_FEATURE. -/
def execOcsSetFeature (s : State) : Host.Outcome State Fault Refusal :=
  s.ocsOp 0x12 (fun c s => match s.featKey c with
    | .inl off => s.badField c off false
    | .inr k => s.takeFeat c k)

/-- Table 21.6, LOG 1. -/
def State.logSummary (s : State) : List Byte :=
  let n := s.rd ALM_COUNT_LO_TRACE + s.rd ALM_COUNT_LO_NOTICE + s.rd ALM_COUNT_HI_FAULT + s.rd ALM_COUNT_HI_CRITICAL
  leBytes 2 (s.rd ALM_NEWEST_INDEX) ++ leBytes 2 n ++ (List.range 4).flatMap (fun i => leBytes 4 (s.rd (ALM_DROPPED_COUNT i)))
    ++ s.word ALM_TIME_WORD ++ leBytes 4 (s.rd ALM_CYCLES_CYCLES)

/-- The bytes of the unreadable-unit list copy in use. -/
def State.listRaw (s : State) (v : Fin 4) : List Byte :=
  let (c, seq, l) := s.badList v
  if (s.listCopy v c).isSome then (s.otBytes (0x100E2000 + 0x1000 * v.val + 0x800 * c) 2048).getD (listBytes seq l) else zerosB 2048

/-- LOG_READ (R956). -/
def State.logRead (s : State) (c : OcsCmd) : State :=
  match c.par 20 with
  | 0 =>
    if 4095 < c.arg then s.badField c 8 false
    else if c.len = 0 ∨ c.len % 32 ≠ 0 then s.badField c 16 false
    else
      let slots := (List.range (c.len / 32)).map (fun i => almSlotAddr ((c.arg + i) % 4096))
      (slots.foldl (fun (s : State) a => s.mramLook a 32) s).goodData c
        (slots.flatMap (fun a => (s.otBytes a 32).getD (zerosB 32)))
  | 1 => s.goodData c s.logSummary
  | 2 => (s.mramLook (0x100E2000 + 0x1000 * (volOf c.volNo).val) 4096).goodData c (s.listRaw (volOf c.volNo))
  | _ => s.badField c 20 false

/-- OCS_LOG_READ. -/
def execOcsLogRead (s : State) : Host.Outcome State Fault Refusal := s.ocsOp 0x13 (fun c s => s.logRead c)

/-! ## VOLUME_CREATE (R957 to R959) -/

def crGeo (d : List Byte) : Geo := ⟨fieldB d 0 1, fieldB d 1 1, fieldB d 2 1, fieldB d 3 1⟩
def crPorts (d : List Byte) : List Nat := (List.range (min 8 (fieldB d 1 1))).map (fun u => fieldB d (8 + u) 1)
def crBase (d : List Byte) : Nat := fieldB d 16 8

/-- Rows of a period that CHUNKS_PER_UNIT is a multiple of (R487). -/
def Geo.rowUnit (g : Geo) : Nat := if g.layout = 0 then 1 else g.period

/-- The user area of a port's unit. -/
def State.userSectors (s : State) (p : Nat) : Nat := bdUser (bodyOf (s.hda (fin8 p)))

/-- CHUNKS_PER_UNIT that a create asks for, the largest that fits where it gives 0 (Table 21.7). -/
def State.crChunks (s : State) (d : List Byte) : Nat :=
  let k := (crGeo d).rowUnit
  let room := (crPorts d).foldl (fun a p => min a ((s.userSectors p - crBase d) / 16)) (2 ^ 64 - 1)
  if fieldB d 24 8 = 0 then room / k * k else fieldB d 24 8

/-- The unit-sector ranges that volumes hold on a port. -/
def State.rangesOn (s : State) (p : Nat) : List (Nat × Nat) :=
  s.liveVols.filterMap (fun v =>
    let r := s.vol v
    if (vUnits r).any (fun u => mPort r u == p) then some (vBase r, vBase r + 16 * vCpu r) else none)

/-- Whether a range of every named port lies in its user area and meets no volume's (R486, R488). -/
def State.rangeFits (s : State) (ps : List Nat) (base cpu : Nat) : Bool := ps.all (fun p => decide (base + 16 * cpu ≤ s.userSectors p))

/-- Whether a range meets none of another volume (R488). -/
def State.rangeClear (s : State) (ps : List Nat) (base cpu : Nat) : Bool :=
  ps.all (fun p => (s.rangesOn p).all (fun e => decide (base + 16 * cpu ≤ e.1 ∨ e.2 ≤ base)))

/-- Whether a port is PRESENT and online with its heads loaded (R957). -/
def State.portReady (s : State) (p : Nat) : Bool := s.online (fin8 p) && s.ot.loaded.getLsbD p

/-- The first offending field of a create's data by itself (R485 to R487, Table 21.7). -/
def crBad (d : List Byte) : Option Nat :=
  let n := fieldB d 1 1
  let g := crGeo d
  let port (u : Nat) : Bool :=
    let p := fieldB d (8 + u) 1
    if u < n then decide (8 ≤ p) || (List.range u).any (fun x => fieldB d (8 + x) 1 == p) else p != 0xFF
  if 3 < g.layout then some 0
  else if !combos.contains g then some 1
  else if 1 < fieldB d 4 1 then some 4
  else if 2 < fieldB d 5 1 then some 5
  else if 3 < fieldB d 6 1 then some 6
  else if fieldB d 7 1 ≠ 0 then some 7
  else
    match (List.range 8).find? port with
    | some u => some (8 + u)
    | none => if crBase d % 16 ≠ 0 then some 16 else none

/-- What refuses a create (R490, R957): STATUS and DETAIL. -/
def State.crRefusal (s : State) (v : Fin 4) (d : List Byte) : Option (Nat × Nat) :=
  match crBad d with
  | some off => some (0x11, off + 256)
  | none =>
    let g := crGeo d
    let ps := crPorts d
    let cpu := s.crChunks d
    if vLive (s.vol v) then some (0x16, 0)
    else
      match ps.find? (fun p => !s.portReady p) with
      | some p => some (0x16, p)
      | none =>
        if cpu = 0 ∨ cpu % g.rowUnit ≠ 0 ∨ s.rangeFits ps (crBase d) cpu = false then some (0x11, 24 + 256)
        else if s.rangeClear ps (crBase d) cpu = false then some (0x11, 16 + 256)
        else if (freeRange (s.wiUsed) (wiNeed (geoChunks g cpu))).isNone then some (0x11, 24 + 256)
        else none

/-- The record that a create writes (R958). -/
def State.crRecord (s : State) (v : Fin 4) (d : List Byte) : VolRec :=
  let g := crGeo d
  let cpu := s.crChunks d
  let bitsN := wiNeed (geoChunks g cpu)
  let member (u : Nat) : List Byte :=
    if u < g.n then
      let p := fieldB d (8 + u) 1
      leBytes 1 p ++ zerosB 7 ++ leBytes 8 ((serialOf (s.hda (fin8 p))).getD 0) ++ zerosB 16
    else [0xFF#8] ++ zerosB 31
  leBytes 1 1 ++ sliceB d 0 5 ++ leBytes 1 (if fieldB d 5 1 = 0 then 0xFF else v.val) ++ leBytes 1 (fieldB d 6 1 % 2)
    ++ leBytes 8 (crBase d) ++ leBytes 8 cpu ++ leBytes 8 (geoCap g cpu (fieldB d 4 1 == 1)) ++ leBytes 4 1
    ++ leBytes 4 ((freeRange (s.wiUsed) bitsN).getD 0) ++ leBytes 4 bitsN ++ [0, 0xFF, 0xFF, 0] ++ zerosB 16
    ++ (List.range 8).flatMap member ++ sliceB d 32 32 ++ s.word ALM_TIME_WORD ++ zerosB 124

/-- A key-band command with credentials put in a buffer that is overwritten with zeros afterwards (R781); none where no
buffer is free. -/
def State.keyWith (s : State) (op band flags user : Nat) (cred new : List Byte) (healthy : Bool) : Option (Nat × State) :=
  match s.needBufs 1 with
  | (some [n], s) =>
    let s := s.bufStore 0 n 0 (clean (sliceB cred 0 32 ++ zerosB 32 ++ sliceB new 0 32))
    let (st, s) := s.keyAsk op band flags user (s.bufAddr n) (s.bufAddr n + 64) healthy
    some (st, s.bufStore 0 n 0 (clean (zerosB 96)))
  | _ => none

/-- The completion STATUS of a key-band command's (R968). -/
def keyStatus (st : Nat) : Nat := if st = 0 then 0 else if st = 3 then 0x19 else if st = 6 then 0x30 else 0x16

/-- A row of a volume under creation: data of zeros, and their parity or copies. -/
def State.crRow (s : State) (m : MediaEnd) (v : Fin 4) (r : VolRec) (row : Nat) : State :=
  (s.eachSlice v (vGeo r) row (fun x s =>
    let one (s : State) (d : Nat) : List Byte × State :=
      match vBand r with
      | none => (blockOf (zerosB 4096) (x.unitNo d) 1, s)
      | some b =>
        let (e, s) := s.mediaUnit true s.cip.slots[keyBand b] (x.unitNo d) (clean (zerosB 4096))
        (blockOf (bits e) (x.unitNo d) 1, s)
    let (ds, s) := (List.range x.g.d).foldl (fun (a : List (List Byte) × State) d =>
      let (b, s) := one a.2 d
      (a.1 ++ [b], s)) ([], s)
    x.slots.foldl (fun (a : Bool × State) e =>
      let (ok, s) := a.2.writeSector m (mPort r (x.g.unit row e.2)) (x.sector r) (memberBlock x ds e.1)
      (a.1 && ok, s)) (true, s))).2

/-- The create's end: its record, a clear write-intent range, an empty list, and its completion (R958). -/
def State.crFinish (s : State) (v : Fin 4) (c : OcsCmd) (r : VolRec) : State :=
  let fast := fieldB c.data 6 1 / 2
  let s := (List.range (vWiBits r)).foldl (fun (s : State) j => s.setWi (vWiFirst r + j) false) s
  let s := if (s.badList v).2.2.isEmpty then s else s.setBadList v []
  let s := ((s.setVol v r).saveFeat (volFeat 0x21 v.val) fast).setFeat (volFeat 0x21 v.val) fast
  let s := (((s.takeProgress v r []).tellHqe v r).stateEvent v 0).taskEnd v 3
  s.ocsEnd c 0 (vCap r) (vCap r / 2 ^ 32) []

/-- A create under way, `n` rows further; it ends WRONG_STATE where a member's port is lost (R959). -/
def State.crRun (s : State) (m : MediaEnd) (n : Nat) (c : OcsCmd) : State :=
  let v := volOf c.volNo
  let r := s.crRecord v c.data
  match (crPorts c.data).find? (fun p => !s.portReady p) with
  | some p =>
    if (vBand r).isNone then s.ocsEnd c 0x16 0 p []
    else if s.keyReady 5 v.val then (s.keyAsk 5 v.val 0 0 0 0 true).2.ocsEnd c 0x16 0 p [] else s.keep c
  | none =>
    let n := min n (vCpu r - c.rows)
    let s := (List.range n).foldl (fun (s : State) i => s.crRow m v r (c.rows + i)) s
    let c := { c with rows := c.rows + n }
    if vCpu r ≤ c.rows then s.crFinish v c r else s.keep c

/-- VOLUME_CREATE: checked, its band generated, and then run. -/
def State.volCreate (s : State) (m : MediaEnd) (n : Nat) (healthy : Bool) (c : OcsCmd) : State :=
  let v := volOf c.volNo
  let run := { c with stage := OcsStage.running, rows := 0 }
  if c.stage = .running then s.crRun m n c
  else if c.data.length < 96 then s.badField c 16 false
  else
    match s.crRefusal v c.data with
    | some (st, det) => s.ocsEnd c st 0 det []
    | none =>
      let enc := fieldB c.data 5 1
      if enc = 0 then s.crRun m n run
      else if s.keyReady 1 v.val = false then s.keep c
      else
        match s.keyWith 1 v.val (if enc = 2 then 2 else 0) 0 [] (sliceB c.data 64 32) healthy with
        | none => s.keep c
        | some (0, s) => s.crRun m n { run with data := spliceB c.data 64 (zerosB 32) }
        | some (st, s) => s.deny c (keyStatus st)

/-- OCS_VOLUME_CREATE: a step of a create writes `rows` rows. -/
def execOcsVolumeCreate (m : MediaEnd) (rows : BitVec 32) (healthy : Bool) (s : State) : Host.Outcome State Fault Refusal :=
  s.ocsOp 0x20 (fun c s => s.volCreate m rows.toNat healthy c)

/-! ## VOLUME_DELETE, RESHAPE and STATUS -/

/-- Whether a volume has an outstanding tag beside a command's own. -/
def State.volBusy (s : State) (v : Fin 4) (own : OcsCmd) : Bool :=
  let mine (t : Fin 32) : Bool := own.tag?.any (fun x => x.2.1 == t.val)
  let io (b : List Byte) : Bool := decide (1 ≤ fieldB b 0 1 ∧ fieldB b 0 1 ≤ 3) && fieldB b 2 1 % 4 == v.val
  allTags.any (fun t => s.tagState t != 0 && !mine t && io s.hq.tags[t].slot)

/-- A volume forgotten by Otivo and the HQE. -/
def State.forget (s : State) (v : Fin 4) : State :=
  let s := s.modOt (fun o => { o with
    assembled := o.assembled &&& ~~~volBit v, rebuild := o.rebuild &&& ~~~volBit v, paused := o.paused &&& ~~~volBit v
    resync := o.resync.set v [], absent := o.absent.set v 0, rebRow := o.rebRow.set v 0, cbRow := o.cbRow.set v 0
    inGroup := o.inGroup &&& ~~~volBit v, backup := o.backup.set v [] })
  s.fieldWrites [(HQE_VOL_CFG_FAST_EN v, 0), (HQE_VOL_CAP_UNITS v, 0)]

/-- VOLUME_DELETE (R960). -/
def State.volDelete (s : State) (c : OcsCmd) : State :=
  let v := volOf c.volNo
  let r := s.vol v
  if fieldB c.bytes 20 4 ≠ 0x4C454544 then s.badField c 20 false
  else if vLive r = false then s.deny c 0x16
  else if s.volBusy v c then s.deny c 0x15
  else if (vBand r).isSome && !s.keyReady 5 ((vBand r).getD 0) then s.keep c
  else
    let s := (s.discardVol v).setVol v (zerosB 480)
    let s := (List.range (vWiBits r)).foldl (fun (s : State) j => s.setWi (vWiFirst r + j) false) s
    let s := match vBand r with
      | some b => (s.keyAsk 5 b 0 0 0 0 true).2
      | none => s
    ((s.forget v).stateEvent v (vState r)).good c 0

/-- OCS_VOLUME_DELETE. -/
def execOcsVolumeDelete (s : State) : Host.Outcome State Fault Refusal := s.ocsOp 0x21 (fun c s => s.volDelete c)

/-- The rows that a group of a reshape covers, and the row its backup begins at (R555, R559). -/
def State.groupRows (s : State) (new : Geo) : Nat := s.feat 6 * new.rowUnit

/-- Whether the kinds of layout allow a reshape (R553). -/
def kindsAllow (old new : Nat) : Bool := old == new || (old == 0 && new == 3) || (old == 1 && new == 2)

/-- Whether a reshape to a layout with added ports is accepted (R553, R561). -/
def State.reshapeOk (s : State) (v : Fin 4) (r : VolRec) (new : Geo) (add : List Nat) : Bool :=
  let old := vGeo r
  let g := s.groupRows new
  let k := new.n - old.n
  let bRow := vCpu r - ceilDiv (g * old.td) k
  let ps := portsOf r ++ add
  s.assembled v && vState r == 1 && (vFails r).isEmpty && !vFlag r 3 && !vFlag r 4 && s.ot.resync[v].isEmpty
    && !s.ot.rebuild.getLsbD v.val && new.layout != 0 && combos.contains new && kindsAllow old.layout new.layout
    && decide (old.n < new.n ∧ old.td < new.td ∧ vCpu r % new.rowUnit = 0) && add.length == k && ps.eraseDups.length == ps.length
    && add.all s.portReady && s.rangeFits add (vBase r) (vCpu r) && s.rangeClear add (vBase r) (vCpu r)
    && (freeRange (s.wiUsed) (wiNeed (geoChunks new (vCpu r)))).isSome
    && decide (ceilDiv (g * old.td) k ≤ vCpu r ∧ g * ceilDiv old.td (new.td - old.td) ≤ bRow)

/-- A reshape started (R563). -/
def State.reshapeStart (s : State) (v : Fin 4) (r : VolRec) (new : Geo) (add : List Nat) : State :=
  let old := vGeo r
  let g := s.groupRows new
  let need := wiNeed (geoChunks new (vCpu r))
  let first := (freeRange (s.wiUsed) need).getD 0
  let bRow := vCpu r - ceilDiv (g * old.td) (new.n - old.n)
  let s := s.setCheckpoint v (checkpointOf 1 old g 0 bRow 0 (vWiFirst r) (vWiBits r) (vWgen r))
  let s := (List.range need).foldl (fun (s : State) j =>
    s.setWi (first + j) (decide (j < vWiBits r) && s.wiBit (vWiFirst r + j))) s
  let member (r : VolRec) (e : Nat × Nat) : VolRec :=
    spliceB r (64 + 32 * (old.n + e.2)) (leBytes 1 e.1 ++ zerosB 7 ++ leBytes 8 ((serialOf (s.hda (fin8 e.1))).getD 0) ++ zerosB 16)
  let r := spliceB r 1 (leBytes 1 new.layout ++ leBytes 1 new.n ++ leBytes 1 new.w ++ leBytes 1 new.s)
  let r := vSet (vSet (add.zipIdx.foldl member r) 36 4 first) 40 4 need
  s.commitVol v (vPut r 3 true) false

/-- VOLUME_RESHAPE (R961). -/
def State.volReshape (s : State) (c : OcsCmd) : State :=
  let v := volOf c.volNo
  let r := s.vol v
  let d := c.data
  let new : Geo := ⟨fieldB d 0 1, fieldB d 1 1, fieldB d 2 1, fieldB d 3 1⟩
  let add := (List.range (min 8 (new.n - (vGeo r).n))).map (fun i => fieldB d (8 + i) 1)
  if d.length < 16 then s.badField c 16 false
  else if fieldB d 4 4 ≠ 0 then s.badField c 4 true
  else
    match (List.range 8).find? (fun i => if i < add.length then decide (8 ≤ fieldB d (8 + i) 1) else fieldB d (8 + i) 1 != 0xFF) with
    | some i => s.badField c (8 + i) true
    | none => if vLive r && s.reshapeOk v r new add then (s.reshapeStart v r new add).good c 0 else s.deny c 0x16

/-- OCS_VOLUME_RESHAPE. -/
def execOcsVolumeReshape (s : State) : Host.Outcome State Fault Refusal := s.ocsOp 0x22 (fun c s => s.volReshape c)

/-- The progress block of R962 behind the volume's record. -/
def State.volStatus (s : State) (v : Fin 4) : List Byte :=
  let r := s.vol v
  let rows := match s.ot.cmds.find? (fun c => c.op == 0x20 && c.stage == OcsStage.running && c.volNo == v.val) with
    | some c => c.rows
    | none => 0
  let b := match s.reshape v r with
    | some (b, _) => b
    | none => 0
  let loaded := vLive r && (vBand r).any (fun b => (s.cip.slots[keyBand b]).isSome)
  r ++ leBytes 8 rows ++ leBytes 8 b ++ leBytes 4 s.ot.resync[v].length ++ leBytes 2 (s.badList v).2.2.length
    ++ leBytes 1 (b2n (vLive r && s.locked r) + 2 * b2n loaded) ++ zerosB 9

/-- OCS_VOLUME_STATUS. -/
def execOcsVolumeStatus (s : State) : Host.Outcome State Fault Refusal :=
  s.ocsOp 0x23 (fun c s => s.goodData c (s.volStatus (volOf c.volNo)))

/-! ## Ports and records -/

/-- Whether taking a port offline would make a volume FAILED (R522, R963). -/
def State.wouldFail (s : State) (p : Nat) : Bool :=
  s.liveVols.any (fun v =>
    let us := s.portMembers v p
    let r := s.vol v
    let (r', past) := s.lostRecord v us
    let s' := if vFails r' = vFails r then s else s.rebuildAnew v
    !us.isEmpty && vState r != 4 && (past || s'.deriveState v r' == 4))

/-- PORT_CONTROL OFFLINE (R963). -/
def State.portOff (s : State) (c : OcsCmd) : State :=
  let p := fin8 (c.par 21)
  if 8 ≤ c.par 21 then s.badField c 21 false
  else if 2 ≤ c.par 22 then s.badField c 22 false
  else if s.ot.offline.getLsbD p.val then s.good c 0
  else if c.par 22 = 0 ∧ s.wouldFail p.val = true then s.deny c 0x17
  else (s.failPort p 0).good c 0

/-- OCS_PORT_OFFLINE. -/
def execOcsPortOffline (s : State) : Host.Outcome State Fault Refusal := s.ocsAct 0x28 0 (fun c s => s.portOff c)

/-- R515 for the ACTIVE members of assembled volumes that were not found, on a port. -/
def State.reclaim (s : State) (p : Fin 8) : State :=
  s.readyVols.foldl (fun (s : State) v =>
    let r := s.vol v
    let claimed := (vUnits r).any (fun u => mPort r u == p.val && mState r u == 0 && !s.absentAt v u)
    match (vUnits r).find? (fun u => mState r u == 0 && s.absentAt v u && s.carries (mSerial r u) p) with
    | some u =>
      if claimed then s
      else
        let s := s.modOt (fun o => { o with absent := o.absent.set v (o.absent[v] - 2 ^ u) })
        s.commitVol v (vSet r (64 + 32 * u) 1 p.val) false
    | none => s) s

/-- PORT_CONTROL ONLINE (R964): discovery and spin-up again; the command ends once the heads have loaded, or the port is
found not PRESENT or has failed. -/
def State.portOn (s : State) (seen : PortSeen) (c : OcsCmd) : State :=
  let p := fin8 (c.par 21)
  if c.stage = .running then
    if s.ot.loaded.getLsbD p.val then (s.reclaim p).good c s.ot.outcome[p]
    else if s.ot.outcome[p] ≠ 1 ∨ s.rd (SPN_STATUS_STATE p) = 9 then s.good c s.ot.outcome[p]
    else s.keep c
  else if 8 ≤ c.par 21 then s.badField c 21 false
  else if 2 ≤ c.par 22 then s.badField c 22 false
  else if s.ot.offline.getLsbD p.val = false then s.deny c 0x16
  else
    let s := ((s.spnClearFault p true).modOt (fun o => { o with offline := o.offline &&& ~~~portBit p })).discover p seen
    let s := s.notify 2 0xFF p.val s.ot.outcome[p] 1 []
    if s.ot.outcome[p] = 1 then s.keep { c with stage := .running } else s.good c s.ot.outcome[p]

/-- OCS_PORT_ONLINE. -/
def execOcsPortOnline (seen : PortSeen) (s : State) : Host.Outcome State Fault Refusal :=
  s.ocsAct 0x28 1 (fun c s => s.portOn seen c)

/-- OCS_HDA_RECORD_READ. -/
def execOcsHdaRecordRead (s : State) : Host.Outcome State Fault Refusal :=
  s.ocsAct 0x29 0 (fun c s => if 8 ≤ c.par 21 then s.badField c 21 false else s.goodData c (s.hda (fin8 (c.par 21))))

/-- HDA_RECORD WRITE (R429, R430, R965). -/
def State.recordWrite (s : State) (seen : PortSeen) (c : OcsCmd) : State :=
  let p := fin8 (c.par 21)
  let d := sliceB c.data 0 5632
  let inUse := s.readyVols.any (fun v => !(s.portMembers v p.val).isEmpty)
  if 8 ≤ c.par 21 then s.badField c 21 false
  else if c.data.length < 5632 then s.badField c 16 false
  else if inUse then s.deny c 0x17
  else
    match bootOf d with
    | none => s.deny c 0x29
    | some boot =>
      if recordValid d = false ∨ recordFits boot (bodyOf d) = false then s.deny c 0x29
      else
        let s := s.updateRecord p boot (bodyOf d) (s.headsOn p)
        let s := if s.ot.offline.getLsbD p.val then
            s.modOt (fun o => { o with outcome := o.outcome.set p (outcomeOf (bootOf (s.hda p)) seen) })
          else s.discover p seen
        (s.notify 2 0xFF p.val s.ot.outcome[p] (b2n !(s.ot.offline.getLsbD p.val)) []).good c 0

/-- OCS_HDA_RECORD_WRITE. -/
def execOcsHdaRecordWrite (seen : PortSeen) (s : State) : Host.Outcome State Fault Refusal :=
  s.ocsAct 0x29 1 (fun c s => s.recordWrite seen c)

/-! ## Rebuild control (R535, R543, R966) -/

/-- REBUILD_HOLD set or cleared (R966). -/
def State.holdRebuild (s : State) (x : Bool) (c : OcsCmd) : State :=
  let v := volOf c.volNo
  let r := s.vol v
  if vLive r = false then s.deny c 0x16
  else if s.assembled v then (s.commitVol v (vPut r 2 x) false).good c 0
  else (s.setVol v (vPut r 2 x)).good c 0

/-- OCS_REBUILD_HOLD. -/
def execOcsRebuildHold (s : State) : Host.Outcome State Fault Refusal := s.ocsAct 0x30 0 (fun c s => s.holdRebuild true c)

/-- OCS_REBUILD_RELEASE. -/
def execOcsRebuildRelease (s : State) : Host.Outcome State Fault Refusal := s.ocsAct 0x30 1 (fun c s => s.holdRebuild false c)

/-- OCS_REBUILD_START_NOW. -/
def execOcsRebuildStartNow (s : State) : Host.Outcome State Fault Refusal :=
  s.ocsAct 0x30 2 (fun c s =>
    let v := volOf c.volNo
    let r := s.vol v
    if vLive r && s.assembled v then
      let mask := (s.openUnits v r).foldl (fun a u => a + 2 ^ u) 0
      (s.modOt (fun o => { o with delayed := o.delayed.set v mask })).good c 0
    else s.deny c 0x16)

/-- Whether a replacement is accepted (R486, R488, R543). -/
def State.replaceOk (s : State) (v : Fin 4) (r : VolRec) (u p : Nat) : Bool :=
  let serial := serialOf (s.hda (fin8 p))
  let used := s.liveVols.any (fun x =>
    let q := s.vol x
    (vUnits q).any (fun w => (mState q w == 0 || mState q w == 3) && some (mSerial q w) == serial))
  s.assembled v && vState r != 4 && (vFails r).contains u && (mState r u == 1 || mState r u == 2) && !vFlag r 4
    && s.portReady p && serial.isSome && !used && s.rangeFits [p] (vBase r) (vCpu r)

/-- REBUILD_CONTROL REPLACE. -/
def State.replace (s : State) (c : OcsCmd) : State :=
  let v := volOf c.volNo
  let r := s.vol v
  let u := c.par 21
  let p := c.par 22
  if 8 ≤ u then s.badField c 21 false
  else if 8 ≤ p then s.badField c 22 false
  else if vLive r && s.replaceOk v r u p then
    let r := vSet (vSet r (64 + 32 * u) 1 p) (65 + 32 * u) 1 3
    let r := vSet (vSet r (72 + 32 * u) 8 ((serialOf (s.hda (fin8 p))).getD 0)) 56 8 0
    let s := s.modOt (fun o => { o with
      cbRow := o.cbRow.set v 0
      absent := o.absent.set v (if (o.absent[v]).testBit u then o.absent[v] - 2 ^ u else o.absent[v]) })
    (s.commitVol v (vPut r 4 true) false).good c 0
  else s.deny c 0x16

/-- OCS_REPLACE. -/
def execOcsReplace (s : State) : Host.Outcome State Fault Refusal := s.ocsAct 0x30 3 (fun c s => s.replace c)

/-! ## Security (R781, R782, R967, R968) -/

/-- A SECURITY action on a volume with a band: its key-band command with flags and USER, and what follows on success. -/
def State.security (s : State) (c : OcsCmd) (op : Nat) (flags : Bool → Nat) (user : Nat) (healthy : Bool)
    (done : Fin 4 → VolRec → State → State) : State :=
  let v := volOf c.volNo
  let r := s.vol v
  if c.data.length < 64 then s.badField c 16 false
  else if vLive r = false then s.deny c 0x16
  else
    match vBand r with
    | none => s.deny c 0x17
    | some b =>
      if s.keyReady op b = false then s.keep c
      else
        match s.keyWith op b (flags (s.bandCred b)) user (sliceB c.data 0 32) (sliceB c.data 32 32) healthy with
        | none => s.keep c
        | some (st, s) =>
          let s := if st = 0 then done v r s else s
          let s := if st = 3 then s.almLog 1 0x0B01 (leBytes 1 v.val) else s
          s.deny c (keyStatus st)

/-- OCS_UNLOCK. -/
def execOcsUnlock (s : State) : Host.Outcome State Fault Refusal :=
  s.ocsAct 0x38 0 (fun c s => s.security c 2 (fun cred => b2n cred) 0 true (fun v r s => s.tellHqe v r))

/-- OCS_LOCK. -/
def execOcsLock (s : State) : Host.Outcome State Fault Refusal :=
  s.ocsAct 0x38 1 (fun c s => s.security c 3 (fun _ => 0) 0 true (fun v r s => s.tellHqe v r))

/-- OCS_SET_CREDENTIAL. -/
def execOcsSetCredential (healthy : Bool) (s : State) : Host.Outcome State Fault Refusal :=
  s.ocsAct 0x38 2 (fun c s => s.security c 6 (fun cred => 2 + b2n cred) 0 healthy (fun _ _ s => s))

/-- OCS_CLEAR_CREDENTIAL. -/
def execOcsClearCredential (healthy : Bool) (s : State) : Host.Outcome State Fault Refusal :=
  s.ocsAct 0x38 3 (fun c s => s.security c 6 (fun cred => b2n cred) 0 healthy (fun _ _ s => s))

/-- CRYPTO_ERASE: it waits for the volume's tags; the cached data go, WGEN is incremented and written, and ERASE carries it
(R782, R967). -/
def State.cryptoErase (s : State) (healthy : Bool) (c : OcsCmd) : State :=
  let v := volOf c.volNo
  let r := s.vol v
  if c.data.length < 64 ∨ vLive r = false ∨ (vBand r).isNone = true then
    s.security c 4 (fun _ => 0) 0 healthy (fun _ _ s => s)
  else if s.volBusy v c ∨ s.keyReady 4 ((vBand r).getD 0) = false then s.keep c
  else
    let w := vWgen r + 1
    let s := (s.discardVol v).setVol v (vSet r 32 4 w)
    s.security c 4 (fun _ => 0) w healthy (fun v r s =>
      (s.almLog 1 0x0B02 (leBytes 1 v.val ++ zerosB 3 ++ leBytes 4 w)).tellHqe v r)

/-- OCS_CRYPTO_ERASE. -/
def execOcsCryptoErase (healthy : Bool) (s : State) : Host.Outcome State Fault Refusal :=
  s.ocsAct 0x38 4 (fun c s => s.cryptoErase healthy c)

end Sys2Proof.Machine
end

