-- ==== Sys2Proof/Machine/OcsSystem.lean ====
section
/-! DEFINITION. OCS commands on power, firmware, diagnostics and microcode (R969 to R979), unknown opcodes (R945), and the
delivery of notifications (R981, R982). -/

namespace Sys2Proof.Machine
open Sys2Proof

/-! ## Power (R969 to R971) -/

/-- A row of POWER: the routine on the first command of its action, then a request that waits is tried. -/
def State.powerRow (s : State) (act : Nat) (g : OcsCmd → State → State) : Host.Outcome State Fault Refusal :=
  fin (if s.otRuns then (s.ocsStep (fun c => c.op == 0x40 && c.par 20 == act) g).pumpPower else s)

/-- POWER of actions 0 to 3: GOOD first, and the request once the tags are FREE. -/
def State.askPower (s : State) (action : Nat) (c : OcsCmd) : State :=
  (s.good c 0).modOt (fun o => { o with power := some { action := action } })

/-- OCS_POWER_STANDBY. -/
def execOcsPowerStandby (s : State) : Host.Outcome State Fault Refusal := s.powerRow 0 (fun c s => s.askPower 0 c)

/-- OCS_POWER_STANDBY_LOADED. -/
def execOcsPowerStandbyLoaded (s : State) : Host.Outcome State Fault Refusal := s.powerRow 1 (fun c s => s.askPower 1 c)

/-- OCS_POWER_STANDBY_STOPPED. -/
def execOcsPowerStandbyStopped (s : State) : Host.Outcome State Fault Refusal := s.powerRow 2 (fun c s => s.askPower 2 c)

/-- What is dirty destaged before NADIR (R62, R970), with stopped ports started for it. -/
def State.nadirFlush (s : State) (m : MediaEnd) : State :=
  match s.wakeDirty s.readyVols with
  | (true, s) => s
  | (false, s) => (flushVols m s.readyVols s).2

/-- OCS_POWER_NADIR: also destages again what became dirty while the request waits. -/
def execOcsPowerNadir (m : MediaEnd) (s : State) : Host.Outcome State Fault Refusal :=
  let s := if s.otRuns && s.ot.power.any (fun a => a.action == 3) then s.nadirFlush m else s
  s.powerRow 3 (fun c s => (s.askPower 3 c).nadirFlush m)

/-- POWER_REQUEST_ABANDON: 1 s after it was first refused. -/
def execPowerRequestAbandon (s : State) : Host.Outcome State Fault Refusal :=
  fin (match s.ot.power with
    | some a =>
      if s.otRuns && a.refused then
        (s.almLog 1 0x0101 (leBytes 1 a.action ++ zerosB 3 ++ s.word PWR_REFUSE_WORD)).modOt (fun o => { o with power := none })
      else s
    | none => s)

/-- The PRESENT online ports of a mask. -/
def State.maskPorts (s : State) (mask : Nat) : List (Fin 8) :=
  ports.filter (fun p => mask.testBit p.val && s.online p && s.on (2 + p.val))

/-- OCS_SPIN_DOWN. -/
def execOcsSpinDown (s : State) : Host.Outcome State Fault Refusal :=
  s.powerRow 4 (fun c s =>
    ((s.maskPorts (c.par 21)).foldl (fun (s : State) p =>
      (s.stopPort p).modOt (fun o => { o with parked := o.parked ||| portBit p })) s).good c 0)

/-- SPIN_UP runs until each port's heads follow or its spindle has failed. -/
def State.spinUp (s : State) (c : OcsCmd) : State :=
  let ps := s.maskPorts (c.par 21)
  let s := if c.stage = .running then s
    else s.modOt (fun o => { o with parked := ps.foldl (fun a p => a ||| portBit p) o.parked })
  let s := ps.foldl (fun (s : State) p => s.wakePort p) s
  if ps.all (fun p => !s.ot.parked.getLsbD p.val || s.rd (SPN_STATUS_STATE p) == 9) then s.good c 0
  else s.keep { c with stage := .running }

/-- OCS_SPIN_UP. -/
def execOcsSpinUp (s : State) : Host.Outcome State Fault Refusal := s.powerRow 5 (fun c s => s.spinUp c)

/-! ## Firmware (R972 to R975) -/

/-- Offset ARG0 and DLEN within a buffer of `size` bytes: the first offending field. -/
def OcsCmd.window (c : OcsCmd) (size : Nat) : Option Nat :=
  if size < c.arg then some 8 else if size < c.arg + c.len then some 16 else none

/-- OCS_FW_DOWNLOAD. -/
def execOcsFwDownload (s : State) : Host.Outcome State Fault Refusal :=
  s.ocsOp 0x48 (fun c s =>
    if c.arg % 4 ≠ 0 then s.badField c 8 false
    else if c.len % 4 ≠ 0 then s.badField c 16 false
    else
      match c.window 393216 with
      | some off => s.badField c off false
      | none => (s.otStore (slotBase (!s.slotRun) + c.arg) (sliceB c.data 0 c.len)).good c 0)

/-- FW_ACTIVATE with byte 20 = 0 (R973). -/
def State.fwActivate (s : State) (c : OcsCmd) : State :=
  let (code, s) := s.headLook.slotResult (!s.slotRun)
  if code ≠ 0 then s.ocsEnd c 0x28 0 code []
  else if fieldB (s.slotHead (!s.slotRun)) 12 4 ≤ fieldB (s.slotHead s.slotRun) 12 4 then s.ocsEnd c 0x28 0 8 []
  else (s.good c 0).modOt (fun o => { o with activate := 1 })

/-- OCS_FW_ACTIVATE. -/
def execOcsFwActivate (s : State) : Host.Outcome State Fault Refusal := s.ocsAct 0x49 0 (fun c s => s.fwActivate c)

/-- FW_ACTIVATE_RESET: with the tags FREE, or `timeout` after 10 s, every assembled volume is flushed and the dirty-count
record written; the reset follows once the Almanac has taken the record of it (R974). -/
def State.activateReset (s : State) (m : MediaEnd) (timeout : Bool) : State :=
  match s.ot.activate with
  | 0 => s
  | 1 =>
    if s.tagsFree || timeout then
      let new := s.slotHead (!s.slotRun)
      let s := s.headLook
      let s := (flushVols m s.readyVols s).2
      let s := s.writeDirty s.dirtyCounts
      (s.almLog 1 0x0004 (sliceB (s.slotHead s.slotRun) 0x1C 4 ++ sliceB new 0x1C 4 ++ sliceB new 12 4)).modOt
        (fun o => { o with activate := 2 })
    else s
  | _ =>
    let s := s.otRetry
    if s.ot.posts.any (fun e => e.1 == 448) || (s.ring 448).count != 0 then s
    else s.via (execSoftwareSystemReset 0xA5C30004)

/-- FW_ACTIVATE_RESET. -/
def execFwActivateReset (m : MediaEnd) (timeout : Bool) (s : State) : Host.Outcome State Fault Refusal :=
  fin (if s.otRuns then s.activateReset m timeout else s)

/-- FW_ACTIVATE with byte 20 = 1 (R975): one bit at a time through OTP_PROG. -/
def State.antiRollback (s : State) (c : OcsCmd) : State :=
  let want := fieldB (s.slotHead s.slotRun) 16 4
  let n := s.rollbackCount
  let running := c.stage == OcsStage.running
  if !running && (decide (want ≤ n) || decide (32 < want)) then s.deny c 0x17
  else if s.flag OTP_STATUS_BUSY then s.keep { c with stage := .running }
  else if want ≤ n then s.good c 0
  else
    match lowestIdx 32 (fun i => !otpBit s.boot.fuses (512 + i)) with
    | none => s.good c 0
    | some i =>
      let s := s.pageWrite 0 OTP_PROG_WORD.addr (BitVec.ofNat 32 (0x6B1D0000 + 512 + i))
      if s.flag OTP_STATUS_BUSY then s.keep { c with stage := .running } else s.deny c 0x16

/-- OCS_ANTI_ROLLBACK. -/
def execOcsAntiRollback (s : State) : Host.Outcome State Fault Refusal := s.ocsAct 0x49 1 (fun c s => s.antiRollback c)

/-! ## Diagnostics (R976) -/

/-- IDU_TEST runs until the known-answer test has ended. -/
def State.iduTest (s : State) (c : OcsCmd) : State :=
  if h : c.par 21 < 6 then
    let i : Fin 6 := ⟨c.par 21, h⟩
    if s.regOn IDU_FENCE_FENCED.addr = false then s.deny c 0x16
    else if c.stage = .running then
      if s.idu.kat[i] = 0 ∧ s.idu.katDue.getLsbD i.val = false then s.good c (b2n (s.idu.katPass.getLsbD i.val)) else s.keep c
    else (s.via (execIduRunKat i)).keep { c with stage := .running }
  else s.badField c 21 false

/-- OCS_DIAG_IDU_TEST. -/
def execOcsDiagIduTest (s : State) : Host.Outcome State Fault Refusal := s.ocsAct 0x50 0 (fun c s => s.iduTest c)

/-- OCS_DIAG_UNFENCE. -/
def execOcsDiagUnfence (s : State) : Host.Outcome State Fault Refusal :=
  s.ocsAct 0x50 1 (fun c s =>
    if h : c.par 21 < 6 then
      if s.regOn IDU_FENCE_FENCED.addr then (s.via (execIduUnfence ⟨c.par 21, h⟩)).good c 0 else s.deny c 0x16
    else s.badField c 21 false)

/-- MEASURE on a stopped port, until the measurement has ended. -/
def State.diagMeasure (s : State) (c : OcsCmd) : State :=
  let p := fin8 (c.par 21)
  if 8 ≤ c.par 21 then s.badField c 21 false
  else if c.stage = .running then
    if s.flag (SPN_STATUS_MEASURE_BUSY p) then s.keep c
    else s.goodData c (s.word (SPN_RES_A_UV p) ++ s.word (SPN_RES_B_WU p))
  else if s.on (2 + p.val) = false ∨ s.rd (SPN_STATUS_STATE p) ≠ 0 then s.deny c 0x16
  else (s.spnMeasure p).keep { c with stage := .running }

/-- OCS_DIAG_MEASURE. -/
def execOcsDiagMeasure (s : State) : Host.Outcome State Fault Refusal := s.ocsAct 0x50 2 (fun c s => s.diagMeasure c)

/-- RAW_READ: the block as decoded, in the raw layout; the check mode stands in PARAM byte 22. One that fails the check is
recorded (R399). -/
def State.rawRead (s : State) (m : MediaEnd) (c : OcsCmd) : State :=
  let p := fin8 (c.par 21)
  if 8 ≤ c.par 21 then s.badField c 21 false
  else if 3 ≤ c.par 22 then s.badField c 22 false
  else if s.on (2 + p.val) = false ∨ s.rd (SRV_STATUS_STATE p) ≠ 4 then s.deny c 0x16
  else if bdUser (bodyOf (s.hda p)) ≤ c.arg then s.badField c 8 false
  else
    match s.readSector m p.val c.arg with
    | (none, s) => s.deny c 0x22
    | (some b, s) =>
      match piCheck (c.par 22) (fieldB b 4096 8) b with
      | 0 => s.goodData c (sliceB b 0 4112 ++ zerosB 48)
      | e => (s.piFault p.val e c.arg b).deny c 0x22

/-- OCS_DIAG_RAW_READ. -/
def execOcsDiagRawRead (m : MediaEnd) (s : State) : Host.Outcome State Fault Refusal :=
  s.ocsAct 0x50 3 (fun c s => s.rawRead m c)

/-- Whether REG_READ may read an address. -/
def regReadable (a : Nat) : Bool :=
  decide (a < 2 ^ 32) && regionAt a != .unmapped && regionAt a != .metadata && !decide (0x100F0000 ≤ a ∧ a < 0x100F4000)

/-- Words read one after another by Core A: bytes, and the STATUS and DETAIL where one cannot be read. -/
def readWords : List Nat → List Byte → State → (List Byte × Nat × Nat) × State
  | [], l, s => ((l, 0, 0), s)
  | a :: as, l, s =>
    match s.reachRead 0 0 true false a 4 with
    | (.data d, s) => if poisoned d then ((l, 0x30, 2), s) else readWords as (l ++ bits d) s
    | (.blocked, s) => ((l, 0x30, 3), s)
    | (.fault, s) => ((l, 0x16, 0), s)

/-- REG_READ. -/
def State.regReadCmd (s : State) (c : OcsCmd) : State :=
  let as := (List.range (c.len / 4)).map (fun i => c.arg + 4 * i)
  if s.feat 0x17 ≠ 1 then s.deny c 0x17
  else if c.arg % 4 ≠ 0 then s.badField c 8 false
  else if c.len < 4 ∨ 256 < c.len ∨ c.len % 4 ≠ 0 then s.badField c 16 false
  else if as.any (fun a => !regReadable a) then s.badField c 8 false
  else
    match readWords as [] s with
    | ((l, 0, _), s) => s.goodData c l
    | ((_, st, det), s) => s.ocsEnd c st 0 det []

/-- OCS_DIAG_REG_READ. -/
def execOcsDiagRegRead (s : State) : Host.Outcome State Fault Refusal := s.ocsAct 0x50 4 (fun c s => s.regReadCmd c)

/-- OCS_DIAG_INJECT. -/
def execOcsDiagInject (s : State) : Host.Outcome State Fault Refusal :=
  s.ocsAct 0x50 5 (fun c s =>
    if s.feat 0x17 ≠ 1 then s.deny c 0x17 else (s.injectWrite (BitVec.ofNat 32 c.arg)).good c 0)

/-! ## Microcode (R977 to R979) -/

/-- The staging buffer and the passthrough buffer, the last 128 KB of the Buffer DRAM data area. -/
def stagingBase : Nat := 0xB7FE0000
def passBase : Nat := 0xB7FF0000

/-- A MICROCODE row: NOT_PERMITTED where the feature is off. -/
def State.microRow (s : State) (act : Nat) (g : OcsCmd → State → State) : Host.Outcome State Fault Refusal :=
  s.ocsAct 0x58 act (fun c s => if s.feat 0x16 ≠ 1 then s.deny c 0x17 else g c s)

/-- OCS_MICROCODE_STAGE. -/
def execOcsMicrocodeStage (s : State) : Host.Outcome State Fault Refusal :=
  s.microRow 0 (fun c s =>
    match c.window 65536 with
    | some off => s.badField c off false
    | none => ((s.masterWrite 0 false false (stagingBase + c.arg) (clean (sliceB c.data 0 c.len))).2).good c 0)

/-- Whether an image keeps to the resources that Otivo leaves free (Table 10.12). -/
def imageFree (i : List Byte) : Bool :=
  decide (0x1400 ≤ imgMicroBase i ∧ 0x260 ≤ imgNanoBase i)
    && (List.range 64).all (fun k => !(fieldB i 16 8).testBit k || decide ((3 ≤ k ∧ k ≤ 15) ∨ 24 ≤ k))

/-- The staged image, cut to the length that its header gives. -/
def State.staged (s : State) : List Byte :=
  let h := bits (s.masterRead 0 false false false stagingBase 32).1.data
  bits (s.masterRead 0 false false false stagingBase (min 65536 (imgEntries h + 132))).1.data

/-- LOAD: the contexts are halted, the image loaded, and each context restarted at entry 2. The image is judged when the
command comes and again when it is loaded, since it may be staged anew while the contexts halt. -/
def State.microLoad (s : State) (c : OcsCmd) : State :=
  let img := s.staged
  let ok := imageOk img && imageFree img
  let restart (s : State) : State := s.eachPort (fun p s => if s.on (2 + p.val) then s.restartCtx p else s)
  if !(c.stage == OcsStage.running) && !ok then s.badField c 20 false
  else
    let s := s.haltAll
    if s.allHalted = false then s.keep { c with stage := .running }
    else if ok then (restart (s.loadImage img)).good c 0
    else (restart s).badField c 20 false

/-- OCS_MICROCODE_LOAD. -/
def execOcsMicrocodeLoad (s : State) : Host.Outcome State Fault Refusal := s.microRow 1 (fun c s => s.microLoad c)

/-- The first offending field of a passthrough request (Table 10.6, R978). -/
def requestBad (d : List Byte) : Option Nat :=
  let stride := if (fieldB d 3 1).testBit 5 then 4160 else 4096
  let n := fieldB d 10 2
  if fieldB d 3 1 % 4 = 3 ∨ bitsOf (fieldB d 3 1) 3 1 = 1 ∨ bitsOf (fieldB d 3 1) 6 1 = 1 then some 3
  else if fieldB d 7 1 / 16 ≠ 0 then some 4
  else if bitsOf (fieldB d 8 2) 9 3 ≠ 0 then some 8
  else if n = 0 ∨ 65536 < n * stride then some 10
  else if fieldB d 12 2 / 512 ≠ 0 then some 12
  else if fieldB d 14 1 / 16 ≠ 0 then some 14
  else if fieldB d 15 1 ≠ 0 then some 15
  else none

/-- REQUEST: sent, and answered with the formatter's completion (R979). -/
def State.microRequest (s : State) (c : OcsCmd) : State :=
  let p := c.par 21
  let d := c.data
  if 8 ≤ p then s.badField c 21 false
  else if c.stage = .running then
    match s.dequeue (65 + 16 * p) with
    | (none, s) => s.keep c
    | (some e, s) =>
      let b := bits e
      s.ocsEnd c 0 (fieldB b 4 2 + 65536 * fieldB b 6 2) (fieldB b 2 1 + 256 * fieldB b 3 1) []
  else if d.length < 32 then s.badField c 16 false
  else if fieldB d 2 1 % 16 < 8 ∨ s.readyVols.any (fun v => !(s.portMembers v p).isEmpty) = true then s.deny c 0x17
  else
    match requestBad d with
    | some off => s.badField c off true
    | none =>
      let s := (s.masterWrite 0 false false passBase (clean (sliceB d 32 (min 65536 (d.length - 32))))).2
      (s.otPost (64 + 16 * p) (sliceB d 0 28 ++ leBytes 4 passBase)).keep { c with stage := .running, data := [] }

/-- OCS_MICROCODE_REQUEST. -/
def execOcsMicrocodeRequest (s : State) : Host.Outcome State Fault Refusal := s.microRow 2 (fun c s => s.microRequest c)

/-- MICROCODE_REQUEST_TIMEOUT: 10 s after the request was sent. -/
def execMicrocodeRequestTimeout (s : State) : Host.Outcome State Fault Refusal :=
  fin (if s.otRuns = false then s
    else
      match s.ot.cmds.find? (fun c => c.op == 0x58 && c.par 20 == 2 && c.stage == OcsStage.running) with
      | none => s
      | some c =>
        let s := s.modOt (fun o => { o with cmds := o.cmds.erase c })
        (s.via (execFmtHalt (fin8 (c.par 21)))).ocsEnd c 0x30 0 7 [])

/-- OCS_MICROCODE_FETCH. -/
def execOcsMicrocodeFetch (s : State) : Host.Outcome State Fault Refusal :=
  s.microRow 3 (fun c s =>
    match c.window 65536 with
    | some off => s.badField c off false
    | none =>
      let (o, s) := s.masterRead 0 false false false (passBase + c.arg) c.len
      if poisoned o.data then s.ocsEnd c 0x30 0 2 [] else s.goodData c (bits o.data))

/-! ## Unknown opcodes and actions (R943, R945) -/

/-- The opcodes of Table 21.2. -/
def opcodes : List Nat := [1, 2, 3, 4, 0x10, 0x11, 0x12, 0x13, 0x14, 0x20, 0x21, 0x22, 0x23, 0x28, 0x29, 0x30, 0x38, 0x40,
  0x48, 0x49, 0x50, 0x58]

/-- The number of actions of an opcode that takes one in PARAM byte 20. -/
def actionsOf (op : Nat) : Nat :=
  match op with
  | 0x28 => 2 | 0x29 => 2 | 0x30 => 4 | 0x38 => 5 | 0x40 => 6 | 0x49 => 2 | 0x50 => 6 | 0x58 => 4
  | _ => 256

/-- OCS_INVALID_OPCODE: no opcode of Table 21.2, or a reserved action of one. -/
def execOcsInvalidOpcode (s : State) : Host.Outcome State Fault Refusal :=
  fin (s.ocsStep (fun c => !opcodes.contains c.op || decide (actionsOf c.op ≤ c.par 20))
    (fun c s => if opcodes.contains c.op then s.badField c 20 false else s.deny c 0x10))

/-! ## Notifications (R981, R982) -/

/-- The Almanac slot of the newest valid record with a CODE and the beginning of a PAYLOAD, or 0xFFFFFFFF. -/
def State.almIndex (s : State) (rec : List Byte) : Nat :=
  let fits (r : AlmRec) : Bool :=
    let b := (s.sureBytes (almSlotAddr r.slot) 32).getD []
    sliceB b 8 2 == sliceB rec 0 2 && sliceB b 12 (rec.length - 2) == rec.drop 2
  if rec.length < 2 then 0xFFFFFFFF
  else
    match newest (s.alm.recs.filter fits) with
    | some r => r.slot
    | none => 0xFFFFFFFF

/-- Whether a transport may carry a notification now. -/
def State.mayNotify (s : State) (t : Fin 3) : Bool :=
  if t = 0 then true else if t = 1 then s.ot.vendorUsed else s.ot.session

/-- The oldest notification of a transport delivered, once the Almanac has taken its record. -/
def State.deliver (s : State) (t : Fin 3) : State :=
  let due := s.ot.posts.any (fun e => e.1 == 448) || (s.ring 448).count != 0
  match s.ot.notes[t] with
  | [] => s
  | (b, rec) :: rest =>
    if due || !s.mayNotify t then s
    else
      let lost := s.ot.overflow.getLsbD t.val
      let note := sliceB b 0 16 ++ leBytes 4 (s.almIndex rec) ++ leBytes 1 (b2n lost) ++ zerosB 11
      ((s.mramLook 0x100C0000 0x20000).modOt (fun o => { o with
        notes := o.notes.set t rest, overflow := o.overflow &&& ~~~(1#3 <<< t.val) })).sendMsg t (leBytes 1 0x23 ++ zerosB 3 ++ note)

/-- HP_ATTN stays 1 until the Host Port's notifications have been read out of ring 3. -/
def State.settleAttn (s : State) : State :=
  if s.ot.notes[(0 : Fin 3)].isEmpty && (s.ring 3).count == 0 && !s.ot.posts.any (fun e => e.1 == 3) then s.down HP_ATTN_ATTN else s

/-- NOTIFICATION: Otivo takes what hardware reports, and delivers the oldest notification of a transport. -/
def execNotification (t : MsgPath) (s : State) : Host.Outcome State Fault Refusal :=
  fin (if s.otRuns then
      let t : Fin 3 := match t with
        | .mailbox => 0
        | .vendor => 1
        | .uart => 2
      ((s.otRetry.otWatch).deliver t).settleAttn
    else s)

end Sys2Proof.Machine
end

