-- ==== Sys2Proof/Machine/Scsi.lean ====
section
/-! DEFINITION. Otivo's translation of SCSI commands (R913 to R916), the CDB 0xC0 tunnel (R939), and its answers to posted
control requests (R912, R913). -/

namespace Sys2Proof.Machine
open Sys2Proof

/-! ## Aborts by Otivo -/

/-- A command written into a tag's slot by Core A. -/
def State.putSlot (s : State) (t : Fin 32) (b : List Byte) : State :=
  (s.masterWrite 0 false false (s.slotAddr t) (clean (sliceB b 0 32))).2

/-- The lowest free USB tag. -/
def State.freeUsbTag (s : State) : Option (Fin 32) := allTags.find? (fun t => s.usbTag t && s.tagState t == 0)

/-- Aborts due, issued on free USB tags; those without a tag wait. -/
def State.abortPump (s : State) : State :=
  s.ot.aborts.foldl (fun (s : State) e =>
    let t := tagOf e.1
    if s.tagState t = 0 ∨ s.tagGen t ≠ e.2 then s
    else
      match s.freeUsbTag with
      | none => s.modOt (fun o => { o with aborts := o.aborts ++ [e] })
      | some f => ((s.putSlot f ([4] ++ zerosB 19 ++ leBytes 1 t.val)).hqDoorbell true false f).2)
    (s.modOt (fun o => { o with aborts := [] }))

/-- Every outstanding USB tag to be aborted (R912). -/
def State.abortUsb (s : State) : State :=
  (s.modOt (fun o => { o with aborts :=
    (allTags.filter (fun t => s.usbTag t && s.tagState t != 0)).map (fun t => (t.val, s.tagGen t)) })).abortPump

/-! ## Contexts -/

/-- The CDB of a context's command: in BOT at byte 15 of the CBW, in UAS at byte 16 of the Command IU. -/
def State.cdb (s : State) (c : Fin 16) : List Byte :=
  sliceB s.usb.ctx[c].cmd (if s.flag USB_MSE_CFG_UAS then 16 else 15) 16

/-- The LUN of a context's command. -/
def State.lun (s : State) (c : Fin 16) : Nat :=
  if s.flag USB_MSE_CFG_UAS then fieldB s.usb.ctx[c].cmd 9 1 else fieldB s.usb.ctx[c].cmd 13 1 % 16

/-- A field of `n` bytes of a CDB, most significant byte first. -/
def cdbAt (d : List Byte) (i n : Nat) : Nat := leVal (sliceB d i n).reverse

/-- The word of USB_MSE_SENSE: SCSI status, key, ASC and ASCQ. -/
def senseOf (st key asc ascq : Nat) : Nat := st * 2 ^ 24 + key * 65536 + asc * 256 + ascq

/-- CHECK CONDITION with a sense. -/
def check (key asc ascq : Nat) : Nat := senseOf 2 key asc ascq

/-- The oldest context that satisfies a test. -/
def State.oldest (s : State) (mine : Fin 16 → Bool) : Option (Fin 16) :=
  ((List.finRange 16).filter mine).foldl (fun (a : Option (Fin 16)) c => match a with
    | none => some c
    | some b => if s.usb.ctx[c].age < s.usb.ctx[b].age then some c else some b) none

/-- The sense of a LUN's last CHECK CONDITION kept. -/
def State.keepSense (s : State) (lun sense : Nat) : State :=
  if sense / 2 ^ 24 = 2 ∧ lun < 4 then s.modOt (fun o => { o with sense := o.sense.set (volOf lun) sense }) else s

/-- A START of a context by Otivo. -/
def State.scsiStart (s : State) (c : Fin 16) (kind tag : Nat) (toHost : Bool) (dlen buf sense : Nat) : State :=
  let s := s.fieldWrites [(USB_MSE_DLEN_BYTES, dlen), (USB_MSE_BUF_ADDR, buf / 64), (USB_MSE_SENSE_WORD, sense)]
  s.mseStart kind (BitVec.ofNat 32 (kind * 2 ^ 28 + tag * 65536 + b2n toHost * 4096 + c.val))

/-- A context ended without data, with a status. -/
def State.scsiEnd (s : State) (c : Fin 16) (sense : Nat) : State :=
  (s.keepSense (s.lun c) sense).scsiStart c 2 0 false 0 0 sense

/-- `k` buffers next to each other above every buffer in use. -/
def State.runBufs (s : State) (k : Nat) : Option (List Nat) :=
  let n := s.bufsUsed.foldl (fun a x => max a (x + 1)) 0
  if s.bufAddr (n + k) ≤ stagingBase then some ((List.range k).map (fun i => n + i)) else none

/-- Data from Otivo to the host, cut to the allocation length. -/
def State.scsiData (s : State) (c : Fin 16) (d : List Byte) (alloc : Nat) : State :=
  let d := d.take alloc
  match s.runBufs (ceilDiv (max 1 d.length) 4096) with
  | none => s
  | some l =>
    let a := s.bufAddr (l.headD 0)
    let s := (s.masterWrite 0 false false a (clean d)).2
    (s.modOt (fun o => { o with ctxBufs := o.ctxBufs ++ l.map (fun n => (c.val, n)) })).scsiStart c 1 0 true d.length a 0

/-- Otivo serves SCSI commands while PD_USB runs: messages received by tunnel are taken, aborts due go out. -/
def State.scsiIntake (s : State) : State :=
  let s := s.otIntake
  let done (e : Nat × Nat × List Nat) : Bool :=
    let st := s.rd (USB_MSE_CTX_STATE e.1)
    st != 2 && st != 3
  let due := s.ot.tunIn.filter done
  let s := due.foldl (fun (s : State) e =>
    let n := s.usb.ctx[(⟨e.1 % 16, Nat.mod_lt _ (by decide)⟩ : Fin 16)].moved
    let m := bits (s.masterRead 0 false false false (s.bufAddr (e.2.2.headD 0)) n).1.data
    s.takeMsg (fun q => .tunnel e.2.1 q) m) s
  (s.modOt (fun o => { o with tunIn := o.tunIn.filter (fun e => !due.contains e) })).abortPump

/-- A row of Table 20.9: the oldest NEW context whose operation code is listed. -/
def State.scsiRow (s : State) (mine : List Byte → Bool) (g : Fin 16 → List Byte → State → State) : Host.Outcome State Fault Refusal :=
  fin (
    if s.otRuns = false ∨ s.runs 12 = false then s
    else
      let s := s.scsiIntake
      match s.oldest (fun c => s.ctxState c == 1 && !s.usb.ctx[c].task && mine (s.cdb c)) with
      | some c => g c (s.cdb c) s
      | none => s)

/-- Whether an operation code stands in a CDB. -/
def opIs (l : List Nat) (d : List Byte) : Bool := l.contains (fieldB d 0 1)

/-- A row on a LUN with a volume; a LUN without one is answered 0x5/0x25/0x00 (R914). -/
def State.scsiVol (s : State) (ops : List Nat) (g : Fin 16 → List Byte → Fin 4 → State → State) : Host.Outcome State Fault Refusal :=
  s.scsiRow (opIs ops) (fun c d s =>
    if s.lun c < 4 ∧ vLive (s.vol (volOf (s.lun c))) = true then g c d (volOf (s.lun c)) s else s.scsiEnd c (check 5 0x25 0))

/-! ## Commands without the HQE -/

/-- SCSI_TEST_UNIT_READY. -/
def execScsiTestUnitReady (s : State) : Host.Outcome State Fault Refusal :=
  s.scsiVol [0] (fun c _ v s =>
    s.scsiEnd c (if s.assembled v = false then check 2 4 1 else if vState (s.vol v) = 4 then check 7 0x27 0 else 0))

/-- Fixed-format sense data of a kept sense. -/
def senseData (x : Nat) : List Byte :=
  [0x70, 0] ++ leBytes 1 (x / 65536 % 16) ++ zerosB 4 ++ [10] ++ zerosB 4 ++ leBytes 1 (x / 256) ++ leBytes 1 x ++ zerosB 4

/-- SCSI_REQUEST_SENSE: the sense is cleared once it is on its way. -/
def execScsiRequestSense (s : State) : Host.Outcome State Fault Refusal :=
  s.scsiRow (opIs [3]) (fun c d s =>
    let l := s.lun c
    let x := if l < 4 then s.ot.sense[volOf l] else 0
    let s := s.scsiData c (senseData x) (cdbAt d 4 1)
    if l < 4 ∧ s.ctxState c ≠ 1 then s.modOt (fun o => { o with sense := o.sense.set (volOf l) 0 }) else s)

/-- INQUIRY: device type 0 and 35 bytes that the spec does not state; VPD page 0x00, and page 0x80 with a serial number of
8 bytes that the spec does not state. -/
def State.inquiry (s : State) (c : Fin 16) (d : List Byte) : State :=
  let alloc := cdbAt d 3 2
  let page := cdbAt d 2 1
  if (fieldB d 1 1).testBit 0 = false then
    let (l, s) := State.drawBytes 35 s
    s.scsiData c ([0] ++ l) alloc
  else if page = 0 then s.scsiData c [0, 0, 0, 2, 0, 0x80] alloc
  else if page = 0x80 then
    let (l, s) := State.drawBytes 8 s
    s.scsiData c ([0, 0x80, 0, 8] ++ l) alloc
  else s.scsiEnd c (check 5 0x24 0)

/-- SCSI_INQUIRY. -/
def execScsiInquiry (s : State) : Host.Outcome State Fault Refusal := s.scsiVol [0x12] (fun c d _ s => s.inquiry c d)

/-- MODE SENSE(6) and (10): the header without block descriptors, and page 0x08 with WCE = 1. -/
def State.modeSense (s : State) (c : Fin 16) (d : List Byte) : State :=
  let page := cdbAt d 2 1 % 64
  let body := [0x08, 0x12, 0x04] ++ zerosB 17
  if page ≠ 8 ∧ page ≠ 0x3F then s.scsiEnd c (check 5 0x24 0)
  else if fieldB d 0 1 = 0x1A then s.scsiData c ([23, 0, 0, 0] ++ body) (cdbAt d 4 1)
  else s.scsiData c ([0, 26] ++ zerosB 6 ++ body) (cdbAt d 7 2)

/-- SCSI_MODE_SENSE. -/
def execScsiModeSense (s : State) : Host.Outcome State Fault Refusal := s.scsiVol [0x1A, 0x5A] (fun c d _ s => s.modeSense c d)

/-- SCSI_START_STOP_UNIT: the volume's ports started, or unloaded and stopped, as by POWER. -/
def execScsiStartStopUnit (s : State) : Host.Outcome State Fault Refusal :=
  s.scsiVol [0x1B] (fun c d v s =>
    let ps := (portsOf (s.vol v)).map fin8
    let s :=
      if (fieldB d 4 1).testBit 0 then
        (s.modOt (fun o => { o with parked := ps.foldl (fun a p => a ||| portBit p) o.parked })).wakeVol (s.vol v)
      else ps.foldl (fun (s : State) p =>
        if s.online p && s.on (2 + p.val) then (s.stopPort p).modOt (fun o => { o with parked := o.parked ||| portBit p }) else s) s
    s.scsiEnd c 0)

/-- SCSI_PREVENT_ALLOW. -/
def execScsiPreventAllow (s : State) : Host.Outcome State Fault Refusal := s.scsiRow (opIs [0x1E]) (fun c _ s => s.scsiEnd c 0)

/-- SCSI_READ_CAPACITY_10. -/
def execScsiReadCapacity10 (s : State) : Host.Outcome State Fault Refusal :=
  s.scsiVol [0x25] (fun c _ v s =>
    let r := s.vol v
    s.scsiData c (beBytes 4 (if 2 ^ 32 < vCap r then 0xFFFFFFFF else vCap r - 1) ++ beBytes 4 (secBytes r)) 8)

/-- Whether a CDB is READ CAPACITY(16). -/
def cap16 (d : List Byte) : Bool := opIs [0x9E] d && fieldB d 1 1 % 32 == 0x10

/-- SCSI_READ_CAPACITY_16. -/
def execScsiReadCapacity16 (s : State) : Host.Outcome State Fault Refusal :=
  s.scsiRow cap16 (fun c d s =>
    let r := s.vol (volOf (s.lun c))
    if s.lun c < 4 ∧ vLive r = true then
      s.scsiData c (beBytes 8 (vCap r - 1) ++ beBytes 4 (secBytes r) ++ zerosB 20) (cdbAt d 10 4)
    else s.scsiEnd c (check 5 0x25 0))

/-- SCSI_REPORT_LUNS. -/
def execScsiReportLuns (s : State) : Host.Outcome State Fault Refusal :=
  s.scsiRow (opIs [0xA0]) (fun c d s =>
    let l := s.liveVols.flatMap (fun v => [0] ++ leBytes 1 v.val ++ zerosB 6)
    s.scsiData c (beBytes 4 l.length ++ zerosB 4 ++ l) (cdbAt d 6 4))

/-! ## Commands through the HQE -/

/-- The sense of an OCS status (Table 20.10). -/
def senseFor (uas : Bool) (st : Nat) : Nat :=
  match st with
  | 0 => 0
  | 1 => 0
  | 0x20 => check 2 4 1
  | 0x22 => check 3 0x11 0
  | 0x23 => check 3 0x0C 0
  | 0x21 => check 7 0x27 0
  | 2 => if uas then senseOf 0x40 0 0 0 else check 0xB 0 0
  | _ => check 4 0x44 0

/-- HELD contexts of some operation codes given their status (R909, R915). -/
def State.finishHeld (s : State) (ops : List Nat) : State :=
  (List.finRange 16).foldl (fun (s : State) c =>
    if s.ctxState c = 4 ∧ opIs ops (s.cdb c) = true then
      let x := senseFor (s.flag USB_MSE_CFG_UAS) (s.rd (USB_MSE_CTX_OCS_STATUS c))
      ((s.keepSense (s.lun c) x).fieldWrite USB_MSE_SENSE_WORD x).via (execMseFinish (BitVec.ofNat 32 c.val))
    else s) s

/-- A row through the HQE: the HELD contexts first, then the oldest NEW one. -/
def State.hqeRow (s : State) (ops : List Nat) (g : Fin 16 → List Byte → Fin 4 → State → State) : Host.Outcome State Fault Refusal :=
  (if s.otRuns && s.runs 12 then s.finishHeld ops else s).scsiVol ops g

/-- The CMD_ID of a context's command: the CBW's tag, or the UAS tag. -/
def State.scsiId (s : State) (c : Fin 16) : Nat :=
  if s.flag USB_MSE_CFG_UAS then s.rd (USB_MSE_CTX_UAS_TAG c) else fieldB s.usb.ctx[c].cmd 4 4

/-- A context's command given to the HQE on the lowest free USB tag (R899); with none free, TASK SET FULL in UAS (R916),
and the command waits in BOT. -/
def State.toHqe (s : State) (c : Fin 16) (op flags lba count dlen : Nat) (toHost : Bool) : State :=
  match s.freeUsbTag with
  | none => if s.flag USB_MSE_CFG_UAS then s.scsiEnd c (senseOf 0x28 0 0 0) else s
  | some t =>
    let b := leBytes 1 op ++ leBytes 1 flags ++ leBytes 1 (s.lun c) ++ zerosB 1 ++ leBytes 4 (s.scsiId c) ++ leBytes 8 lba
      ++ leBytes 4 count ++ zerosB 12
    (s.putSlot t b).scsiStart c 0 t.val toHost dlen 0 0

/-- READ or WRITE, of 10 or 16 bytes (R914). -/
def State.scsiIo (s : State) (c : Fin 16) (d : List Byte) (v : Fin 4) (op fua : Nat) (toHost : Bool) : State :=
  let long := decide (0x80 ≤ fieldB d 0 1)
  let lba := if long then cdbAt d 2 8 else cdbAt d 2 4
  let n := if long then cdbAt d 10 4 else cdbAt d 7 2
  let r := s.vol v
  if n = 0 then s.scsiEnd c 0
  else if vCap r < lba + n then s.scsiEnd c (check 5 0x21 0)
  else s.toHqe c op (if (fieldB d 1 1).testBit 3 then fua else 0) lba n (n * secBytes r) toHost

/-- SCSI_READ: FUA sets NO_FAST. -/
def execScsiRead (s : State) : Host.Outcome State Fault Refusal :=
  s.hqeRow [0x28, 0x88] (fun c d v s => s.scsiIo c d v 1 4 true)

/-- SCSI_WRITE: FUA sets FUA. -/
def execScsiWrite (s : State) : Host.Outcome State Fault Refusal :=
  s.hqeRow [0x2A, 0x8A] (fun c d v s => s.scsiIo c d v 2 2 false)

/-- SCSI_SYNCHRONIZE_CACHE. -/
def execScsiSynchronizeCache (s : State) : Host.Outcome State Fault Refusal :=
  s.hqeRow [0x35, 0x91] (fun c _ _ s => s.toHqe c 3 0 0 0 0 false)

/-! ## The tunnel (R939) -/

/-- Outstanding commands of the tunnel, of every LUN or of one. -/
def State.tunnelled (s : State) (lun : Option Nat) : List OcsCmd :=
  s.ot.cmds.filter (fun c => match c.path with
    | .tunnel l _ => lun.all (fun x => x == l)
    | _ => false)

/-- A message from the host into buffers of the context; one byte past the longest message is enough to refuse it. -/
def State.tunnelOut (s : State) (c : Fin 16) (l : Fin 4) (n : Nat) : State :=
  let n := min n 8229
  if 4 ≤ (s.tunnelled none).length + s.ot.tunIn.length then s
  else if n = 0 then s.scsiEnd c 0
  else
    match s.runBufs (ceilDiv n 4096) with
    | none => s
    | some bufs =>
      let s := s.modOt (fun o => { o with tunnel := o.tunnel.set l none, tunIn := o.tunIn ++ [(c.val, l.val, bufs)] })
      s.scsiStart c 1 0 false n (s.bufAddr (bufs.headD 0)) 0

/-- The held reply; `timeout` tells that a request has waited for 10 s. -/
def State.tunnelReply (s : State) (c : Fin 16) (l : Fin 4) (timeout : Bool) : State :=
  match s.ot.tunnel[l] with
  | some b =>
    let s := s.scsiData c b b.length
    if s.ctxState c = 1 then s else s.modOt (fun o => { o with tunnel := o.tunnel.set l none })
  | none =>
    let waits := !(s.tunnelled (some l.val)).isEmpty || s.ot.tunIn.any (fun e => e.2.1 == l.val)
    if waits && !timeout then s else s.scsiEnd c (check 5 0x2C 0)

/-- A tunnel CDB. -/
def tunnelCdb (d : List Byte) : Bool := opIs [0xC0] d && decide (fieldB d 1 1 ≤ 1)

/-- SCSI_OCS_TUNNEL. -/
def execScsiOcsTunnel (timeout : Bool) (s : State) : Host.Outcome State Fault Refusal :=
  s.scsiRow tunnelCdb (fun c d s =>
    if 4 ≤ s.lun c then s.scsiEnd c (check 5 0x25 0)
    else if fieldB d 1 1 = 0 then s.tunnelOut c (volOf (s.lun c)) (cdbAt d 2 4)
    else s.tunnelReply c (volOf (s.lun c)) timeout)

/-! ## Everything else -/

/-- The operation codes of Table 20.9. -/
def scsiOps : List Nat := [0, 3, 0x12, 0x1A, 0x5A, 0x1B, 0x1E, 0x25, 0x28, 0x88, 0x2A, 0x8A, 0x35, 0x91, 0xA0]

/-- A task management request (R916): ABORT TASK aborts the mapped tag, every other function is not supported. -/
def State.scsiTask (s : State) (c : Fin 16) : State :=
  let iu := s.usb.ctx[c].cmd
  if fieldB iu 4 1 = 1 then
    let target := (List.finRange 16).find? (fun x => s.ctxState x != 0 && !s.usb.ctx[x].task && s.usb.ctx[x].hq.isSome
      && s.rd (USB_MSE_CTX_UAS_TAG x) == cdbAt iu 6 2)
    let s := match target.bind (fun x => s.usb.ctx[x].hq) with
      | some e => (s.modOt (fun o => { o with aborts := o.aborts ++ [e] })).abortPump
      | none => s
    s.scsiStart c 3 0 false 0 0 0
  else s.scsiStart c 3 0 false 0 0 4

/-- SCSI_UNSUPPORTED: the oldest NEW context that Table 20.9 does not cover, task management included. -/
def execScsiUnsupported (s : State) : Host.Outcome State Fault Refusal :=
  fin (
    if s.otRuns = false ∨ s.runs 12 = false then s
    else
      let s := s.scsiIntake
      let other (c : Fin 16) : Bool :=
        s.usb.ctx[c].task || (!opIs scsiOps (s.cdb c) && !cap16 (s.cdb c) && !tunnelCdb (s.cdb c))
      match s.oldest (fun c => s.ctxState c == 1 && other c) with
      | some c => if s.usb.ctx[c].task then s.scsiTask c else s.scsiEnd c (check 5 0x20 0)
      | none => s)

/-! ## Posted control requests -/

/-- EP0 answered by Otivo: 1 SEND of `len` bytes, 2 ACK, 3 STALL. -/
def State.ep0Say (s : State) (op seq len : Nat) : State := s.ep0Answer op (BitVec.ofNat 32 (seq * 2 ^ 24 + len * 4096 + op))

/-- An entry of ring 4 (Table 20.5): GET_MAX_LUN is answered with 3; after a Bulk-Only reset and a change of the alternate
setting every outstanding USB tag is aborted (R912); debug requests are answered with STALL (R891). The descriptors and
what else firmware answers come as EP0_SEND, EP0_ACK and EP0_STALL. -/
def State.answerControl (s : State) (e : List Byte) : State :=
  let kind := fieldB e 0 1
  let req := fieldB e 1 1
  let seq := fieldB e 8 1
  if kind = 0xA1 ∧ req = 0xFE then ((s.epEmpty 0).epPut 0 (clean [3])).ep0Say 1 seq 1
  else if kind = 0x21 ∧ req = 0xFF then s.abortUsb
  else if kind = 0x01 ∧ req = 0x0B ∧ fieldB e 4 2 = 0 then
    let alt := fieldB e 2 2
    if alt ≤ 1 then ((s.via (execUasModeWrite (BitVec.ofNat 32 alt))).abortUsb).ep0Say 2 seq 0 else s.ep0Say 3 seq 0
  else if (kind = 0xC0 ∧ req = 0xD0) ∨ (kind = 0x40 ∧ req = 0xD1) then s.ep0Say 3 seq 0
  else s

/-- GET_MAX_LUN: Otivo takes the next entry of ring 4. -/
def execGetMaxLun (s : State) : Host.Outcome State Fault Refusal :=
  fin (
    if s.otRuns = false ∨ s.runs 12 = false then s
    else
      match (s.otRetry.abortPump).dequeue 4 with
      | (some e, s) => s.answerControl (bits e)
      | (none, s) => s)

end Sys2Proof.Machine
end

