-- ==== Sys2Proof/Machine/Dispatch.lean ====
section
/-! DEFINITION. One arm per command: the meaning of each row of spec/opcode_table.json. -/

namespace Sys2Proof.Machine
open Sys2Proof

def exec (i : Instr) (s : State) : Host.Outcome State Fault Refusal :=
  match i with
  | .registerWrite b a v => Sys2Proof.Machine.execRegisterWrite b a v s
  | .xtal32Select => Sys2Proof.Machine.execXtal32Select s
  | .xtal32Loss => Sys2Proof.Machine.execXtal32Loss s
  | .pllLockLoss pll => Sys2Proof.Machine.execPllLockLoss pll s
  | .idleEntry => Sys2Proof.Machine.execIdleEntry s
  | .idleExit => Sys2Proof.Machine.execIdleExit s
  | .standbyRequest => Sys2Proof.Machine.execStandbyRequest s
  | .nadirRequest => Sys2Proof.Machine.execNadirRequest s
  | .duskStopTimeout d left => Sys2Proof.Machine.execDuskStopTimeout d left s
  | .duskDrainTimeout d left => Sys2Proof.Machine.execDuskDrainTimeout d left s
  | .duskComplete d => Sys2Proof.Machine.execDuskComplete d s
  | .dawnComplete d healthy => Sys2Proof.Machine.execDawnComplete d healthy s
  | .wakeEvent src => Sys2Proof.Machine.execWakeEvent src s
  | .wakeTimerExpiry => Sys2Proof.Machine.execWakeTimerExpiry s
  | .pmicRailWaitEnd good => Sys2Proof.Machine.execPmicRailWaitEnd good s
  | .domainRequest v => Sys2Proof.Machine.execDomainRequest v s
  | .govUpdate tPower vmot iVmot iCore => Sys2Proof.Machine.execGovUpdate tPower vmot iVmot iCore s
  | .logicThermalShutdown => Sys2Proof.Machine.execLogicThermalShutdown s
  | .coldPowerOnReset => Sys2Proof.Machine.execColdPowerOnReset s
  | .coldResetRelease => Sys2Proof.Machine.execColdResetRelease s
  | .railPowerOnReset ana => Sys2Proof.Machine.execRailPowerOnReset ana s
  | .resetNAssert => Sys2Proof.Machine.execResetNAssert s
  | .otpShadowLoadDone => Sys2Proof.Machine.execOtpShadowLoadDone s
  | .internalResetRelease straps healthy => Sys2Proof.Machine.execInternalResetRelease straps healthy s
  | .softwareSystemReset v => Sys2Proof.Machine.execSoftwareSystemReset v s
  | .softwareCoreReset v => Sys2Proof.Machine.execSoftwareCoreReset v s
  | .coreBRelease => Sys2Proof.Machine.execCoreBRelease s
  | .bootRomStart fault test => Sys2Proof.Machine.execBootRomStart fault test s
  | .bootRomWakePath => Sys2Proof.Machine.execBootRomWakePath s
  | .recoveryHello t seq good payload => Sys2Proof.Machine.execRecoveryHello t seq good payload s
  | .recoveryWrite t seq good payload => Sys2Proof.Machine.execRecoveryWrite t seq good payload s
  | .recoveryVerify type t seq good payload => Sys2Proof.Machine.execRecoveryVerify type t seq good payload s
  | .recoveryBoot t seq good payload => Sys2Proof.Machine.execRecoveryBoot t seq good payload s
  | .recoveryAlmanac t seq good payload => Sys2Proof.Machine.execRecoveryAlmanac t seq good payload s
  | .dfuDnload block d => Sys2Proof.Machine.execDfuDnload block d s
  | .dfuManifest => Sys2Proof.Machine.execDfuManifest s
  | .dfuUpload => Sys2Proof.Machine.execDfuUpload s
  | .otpProgram v => Sys2Proof.Machine.execOtpProgram v s
  | .otpProgramDone => Sys2Proof.Machine.execOtpProgramDone s
  | .otivoStart img seen healthy fault => Sys2Proof.Machine.execOtivoStart img seen healthy fault s
  | .hdaRecordCheck p m => Sys2Proof.Machine.execHdaRecordCheck p m s
  | .volumeAssembly v => Sys2Proof.Machine.execVolumeAssembly v s
  | .spnStart p => Sys2Proof.Machine.execSpnStart p s
  | .spnStop p => Sys2Proof.Machine.execSpnStop p s
  | .spnMeasure p => Sys2Proof.Machine.execSpnMeasure p s
  | .measureDone p uv vw wu vcm => Sys2Proof.Machine.execMeasureDone p uv vw wu vcm s
  | .spnClearFault p still => Sys2Proof.Machine.execSpnClearFault p still s
  | .shootThroughInterlock p half => Sys2Proof.Machine.execShootThroughInterlock p half s
  | .spindleOvercurrent p => Sys2Proof.Machine.execSpindleOvercurrent p s
  | .currentLimitChop p ma => Sys2Proof.Machine.execCurrentLimitChop p ma s
  | .spinupAdmit => Sys2Proof.Machine.execSpinupAdmit s
  | .alignEnd p => Sys2Proof.Machine.execAlignEnd p s
  | .zeroCrossing p ticks off => Sys2Proof.Machine.execZeroCrossing p ticks off s
  | .lossOfLock p => Sys2Proof.Machine.execLossOfLock p s
  | .flyRestartTimeout p => Sys2Proof.Machine.execFlyRestartTimeout p s
  | .spinupFail p => Sys2Proof.Machine.execSpinupFail p s
  | .spindleStopped p => Sys2Proof.Machine.execSpindleStopped p s
  | .vcmOvercurrent p => Sys2Proof.Machine.execVcmOvercurrent p s
  | .emergencyRetract cause => Sys2Proof.Machine.execEmergencyRetract cause s
  | .linkLoss => Sys2Proof.Machine.execLinkLoss s
  | .retractProfileEnd own vret => Sys2Proof.Machine.execRetractProfileEnd own vret s
  | .retractClear holds => Sys2Proof.Machine.execRetractClear holds s
  | .servoGateOpen p => Sys2Proof.Machine.execServoGateOpen p s
  | .servoWedge p w => Sys2Proof.Machine.execServoWedge p w s
  | .servoLoss p => Sys2Proof.Machine.execServoLoss p s
  | .servoRecoveryTimeout p => Sys2Proof.Machine.execServoRecoveryTimeout p s
  | .srvLoad p => Sys2Proof.Machine.execSrvLoad p s
  | .srvUnload p => Sys2Proof.Machine.execSrvUnload p s
  | .srvSeek p head accel => Sys2Proof.Machine.execSrvSeek p head accel s
  | .seekTimeout p => Sys2Proof.Machine.execSeekTimeout p s
  | .loadTimeout p => Sys2Proof.Machine.execLoadTimeout p s
  | .unloadDone p => Sys2Proof.Machine.execUnloadDone p s
  | .shockNAssert => Sys2Proof.Machine.execShockNAssert s
  | .shockNRelease => Sys2Proof.Machine.execShockNRelease s
  | .shockHoldEnd p => Sys2Proof.Machine.execShockHoldEnd p s
  | .sceDrivingUpdate => Sys2Proof.Machine.execSceDrivingUpdate s
  | .sceTrackingUpdate sense => Sys2Proof.Machine.execSceTrackingUpdate sense s
  | .sceSpindleUpdate => Sys2Proof.Machine.execSceSpindleUpdate s
  | .sceInitDone => Sys2Proof.Machine.execSceInitDone s
  | .clearStates c => Sys2Proof.Machine.execClearStates c s
  | .coefficientWrite c set w v => Sys2Proof.Machine.execCoefficientWrite c set w v s
  | .stateCaptureRead c => Sys2Proof.Machine.execStateCaptureRead c s
  | .zoneLoad p z => Sys2Proof.Machine.execZoneLoad p z s
  | .zoneLoadDeferred p => Sys2Proof.Machine.execZoneLoadDeferred p s
  | .zoneLoadDone p => Sys2Proof.Machine.execZoneLoadDone p s
  | .agcWindowUpdate p => Sys2Proof.Machine.execAgcWindowUpdate p s
  | .timingLoopUpdate p samples dec => Sys2Proof.Machine.execTimingLoopUpdate p samples dec s
  | .lmsUpdate p => Sys2Proof.Machine.execLmsUpdate p s
  | .syncDetect p => Sys2Proof.Machine.execSyncDetect p s
  | .syncMiss p => Sys2Proof.Machine.execSyncMiss p s
  | .llrSlotFilled p => Sys2Proof.Machine.execLlrSlotFilled p s
  | .readGateOpen p => Sys2Proof.Machine.execReadGateOpen p s
  | .readGateClose p => Sys2Proof.Machine.execReadGateClose p s
  | .writeGateOpen p => Sys2Proof.Machine.execWriteGateOpen p s
  | .writeCut p bitsDone => Sys2Proof.Machine.execWriteCut p bitsDone s
  | .writeGateEnd p => Sys2Proof.Machine.execWriteGateEnd p s
  | .paCommand p frame => Sys2Proof.Machine.execPaCommand p frame s
  | .paFrameStart p => Sys2Proof.Machine.execPaFrameStart p s
  | .paFrameEnd p data => Sys2Proof.Machine.execPaFrameEnd p data s
  | .preampFault p => Sys2Proof.Machine.execPreampFault p s
  | .eqTapWrite p n v => Sys2Proof.Machine.execEqTapWrite p n v s
  | .slotAllocRead => Sys2Proof.Machine.execSlotAllocRead s
  | .iduJobAccept n => Sys2Proof.Machine.execIduJobAccept n s
  | .iduDispatch n => Sys2Proof.Machine.execIduDispatch n s
  | .iduJobEnd n => Sys2Proof.Machine.execIduJobEnd n s
  | .complOverflow => Sys2Proof.Machine.execComplOverflow s
  | .completionRetry => Sys2Proof.Machine.execCompletionRetry s
  | .iduSlotRelease slot => Sys2Proof.Machine.execIduSlotRelease slot s
  | .jobWithdrawn slot iters => Sys2Proof.Machine.execJobWithdrawn slot iters s
  | .iduGovUpdate => Sys2Proof.Machine.execIduGovUpdate s
  | .jobTimeout n => Sys2Proof.Machine.execJobTimeout n s
  | .iduMemoryError n byte => Sys2Proof.Machine.execIduMemoryError n byte s
  | .iduFence n => Sys2Proof.Machine.execIduFence n s
  | .iduUnfence n => Sys2Proof.Machine.execIduUnfence n s
  | .iduRunKat n => Sys2Proof.Machine.execIduRunKat n s
  | .katPeriod => Sys2Proof.Machine.execKatPeriod s
  | .katWaitTimeout n => Sys2Proof.Machine.execKatWaitTimeout n s
  | .katDone n pass => Sys2Proof.Machine.execKatDone n pass s
  | .sjdRequest => Sys2Proof.Machine.execSjdRequest s
  | .sjdMemberCompletion => Sys2Proof.Machine.execSjdMemberCompletion s
  | .sjdEnqueueTimeout => Sys2Proof.Machine.execSjdEnqueueTimeout s
  | .slotLost slot byte => Sys2Proof.Machine.execSlotLost slot byte s
  | .llrWindowWrite v => Sys2Proof.Machine.execLlrWindowWrite v s
  | .llrWindowRead => Sys2Proof.Machine.execLlrWindowRead s
  | .reallocate p sec bad => Sys2Proof.Machine.execReallocate p sec bad s
  | .recordUpdate p => Sys2Proof.Machine.execRecordUpdate p s
  | .microNext p timeout => Sys2Proof.Machine.execMicroNext p timeout s
  | .microJump p => Sys2Proof.Machine.execMicroJump p s
  | .microJcc p => Sys2Proof.Machine.execMicroJcc p s
  | .microJnc p => Sys2Proof.Machine.execMicroJnc p s
  | .microCall p => Sys2Proof.Machine.execMicroCall p s
  | .microCallv p => Sys2Proof.Machine.execMicroCallv p s
  | .microRet p => Sys2Proof.Machine.execMicroRet p s
  | .microLoop p => Sys2Proof.Machine.execMicroLoop p s
  | .microPoll p => Sys2Proof.Machine.execMicroPoll p s
  | .microDispatch p => Sys2Proof.Machine.execMicroDispatch p s
  | .microHalt p => Sys2Proof.Machine.execMicroHalt p s
  | .illegalSeq p => Sys2Proof.Machine.execIllegalSeq p s
  | .stalledWordComplete p => Sys2Proof.Machine.execStalledWordComplete p s
  | .ringStallTimeout p => Sys2Proof.Machine.execRingStallTimeout p s
  | .contextTimerExpiry p => Sys2Proof.Machine.execContextTimerExpiry p s
  | .gateSlotStart p early => Sys2Proof.Machine.execGateSlotStart p early s
  | .writePrefetchDone p => Sys2Proof.Machine.execWritePrefetchDone p s
  | .gateEnd p => Sys2Proof.Machine.execGateEnd p s
  | .fmtDmaDone p => Sys2Proof.Machine.execFmtDmaDone p s
  | .safePointLimit p => Sys2Proof.Machine.execSafePointLimit p s
  | .fmtStart p clr => Sys2Proof.Machine.execFmtStart p clr s
  | .fmtHalt p => Sys2Proof.Machine.execFmtHalt p s
  | .fmtStop p => Sys2Proof.Machine.execFmtStop p s
  | .fmtFault p => Sys2Proof.Machine.execFmtFault p s
  | .nanowordCommit n w3 => Sys2Proof.Machine.execNanowordCommit n w3 s
  | .portOffline p cause held => Sys2Proof.Machine.execPortOffline p cause held s
  | .rebuildStart v waited => Sys2Proof.Machine.execRebuildStart v waited s
  | .rebuildRow v m => Sys2Proof.Machine.execRebuildRow v m s
  | .copybackRow v m => Sys2Proof.Machine.execCopybackRow v m s
  | .replacementFail v => Sys2Proof.Machine.execReplacementFail v s
  | .destage v unit m => Sys2Proof.Machine.execDestage v unit m s
  | .writeIntentClear v j => Sys2Proof.Machine.execWriteIntentClear v j s
  | .resyncRegion v j m => Sys2Proof.Machine.execResyncRegion v j m s
  | .reshapeGroup v m => Sys2Proof.Machine.execReshapeGroup v m s
  | .reshapePause v => Sys2Proof.Machine.execReshapePause v s
  | .aeGen => Sys2Proof.Machine.execAeGen s
  | .aeSolve => Sys2Proof.Machine.execAeSolve s
  | .aeCopy => Sys2Proof.Machine.execAeCopy s
  | .aeZero => Sys2Proof.Machine.execAeZero s
  | .aeCheck => Sys2Proof.Machine.execAeCheck s
  | .aeCommandComplete => Sys2Proof.Machine.execAeCommandComplete s
  | .aeComplOverflow => Sys2Proof.Machine.execAeComplOverflow s
  | .qmDoorbell v => Sys2Proof.Machine.execQmDoorbell v s
  | .qmConsume v => Sys2Proof.Machine.execQmConsume v s
  | .qmStagedEnqueue b v => Sys2Proof.Machine.execQmStagedEnqueue b v s
  | .qmHardwareEnqueue ring e => Sys2Proof.Machine.execQmHardwareEnqueue ring e s
  | .qmHardwareDequeue ring => Sys2Proof.Machine.execQmHardwareDequeue ring s
  | .qmRingConfigWrite b cfg v => Sys2Proof.Machine.execQmRingConfigWrite b cfg v s
  | .qmRingReset b => Sys2Proof.Machine.execQmRingReset b s
  | .qmErrInfoClear v => Sys2Proof.Machine.execQmErrInfoClear v s
  | .eventInput n => Sys2Proof.Machine.execEventInput n s
  | .evcClaim c dbg => Sys2Proof.Machine.execEvcClaim c dbg s
  | .evcSwSet v => Sys2Proof.Machine.execEvcSwSet v s
  | .evcSwClr v => Sys2Proof.Machine.execEvcSwClr v s
  | .evcSourceConfig n v => Sys2Proof.Machine.execEvcSourceConfig n v s
  | .coreAccess c k size a pc => Sys2Proof.Machine.execCoreAccess c k size a pc s
  | .coreAmo c op rd a v pc => Sys2Proof.Machine.execCoreAmo c op rd a v pc s
  | .coreLr c rd a pc => Sys2Proof.Machine.execCoreLr c rd a pc s
  | .coreSc c rd a v pc late => Sys2Proof.Machine.execCoreSc c rd a v pc late s
  | .mtimeTick => Sys2Proof.Machine.execMtimeTick s
  | .timerExpiry n => Sys2Proof.Machine.execTimerExpiry n s
  | .timerLoadWrite n v => Sys2Proof.Machine.execTimerLoadWrite n v s
  | .timerCtrlWrite n v => Sys2Proof.Machine.execTimerCtrlWrite n v s
  | .mtimeCaptureRead => Sys2Proof.Machine.execMtimeCaptureRead s
  | .wdtStage1Expiry c => Sys2Proof.Machine.execWdtStage1Expiry c s
  | .wdtStage2Expiry c => Sys2Proof.Machine.execWdtStage2Expiry c s
  | .wdtKick c v => Sys2Proof.Machine.execWdtKick c v s
  | .wdtArm c v => Sys2Proof.Machine.execWdtArm c v s
  | .systemBusAccess write size a v => Sys2Proof.Machine.execSystemBusAccess write size a v s
  | .debugActivate => Sys2Proof.Machine.execDebugActivate s
  | .uartRxByte b stop => Sys2Proof.Machine.execUartRxByte b stop s
  | .uartTxWrite v => Sys2Proof.Machine.execUartTxWrite v s
  | .uartRxRead => Sys2Proof.Machine.execUartRxRead s
  | .gpioEdge pin level => Sys2Proof.Machine.execGpioEdge pin level s
  | .lcRead req instr hint a n => Sys2Proof.Machine.execLcRead req instr hint a n s
  | .lcWrite req hint a d => Sys2Proof.Machine.execLcWrite req hint a d s
  | .lcFillDone k => Sys2Proof.Machine.execLcFillDone k s
  | .wcbDrain k => Sys2Proof.Machine.execWcbDrain k s
  | .wcbDrainDone k => Sys2Proof.Machine.execWcbDrainDone k s
  | .lcAliasAmo c k rd a pc => Sys2Proof.Machine.execLcAliasAmo c k rd a pc s
  | .streamDetectorUpdate => Sys2Proof.Machine.execStreamDetectorUpdate s
  | .lcClean mode => Sys2Proof.Machine.execLcClean mode s
  | .lcInvalidate mode => Sys2Proof.Machine.execLcInvalidate mode s
  | .lcCleanInvalidate mode => Sys2Proof.Machine.execLcCleanInvalidate mode s
  | .lcPreloadLock req mode ways => Sys2Proof.Machine.execLcPreloadLock req mode ways s
  | .lcUnlock mode => Sys2Proof.Machine.execLcUnlock mode s
  | .lcDrainAll => Sys2Proof.Machine.execLcDrainAll s
  | .lcInvalidateAll => Sys2Proof.Machine.execLcInvalidateAll s
  | .lcUnlockAll => Sys2Proof.Machine.execLcUnlockAll s
  | .lcOpDone => Sys2Proof.Machine.execLcOpDone s
  | .lcInitDone => Sys2Proof.Machine.execLcInitDone s
  | .lcDisable v => Sys2Proof.Machine.execLcDisable v s
  | .dramRetryRead req a => Sys2Proof.Machine.execDramRetryRead req a s
  | .errorInjectArm v => Sys2Proof.Machine.execErrorInjectArm v s
  | .memoryInitDone m => Sys2Proof.Machine.execMemoryInitDone m s
  | .lostDataHandling => Sys2Proof.Machine.execLostDataHandling s
  | .eccRepair m k img => Sys2Proof.Machine.execEccRepair m k img s
  | .regionTableInitDone => Sys2Proof.Machine.execRegionTableInitDone s
  | .reencryptionDone => Sys2Proof.Machine.execReencryptionDone s
  | .bcRekey => Sys2Proof.Machine.execBcRekey s
  | .bcDiscard => Sys2Proof.Machine.execBcDiscard s
  | .windowEnableWrite v => Sys2Proof.Machine.execWindowEnableWrite v s
  | .keyGenerate healthy => Sys2Proof.Machine.execKeyGenerate healthy s
  | .keyLoad => Sys2Proof.Machine.execKeyLoad s
  | .keyUnload => Sys2Proof.Machine.execKeyUnload s
  | .keyErase healthy => Sys2Proof.Machine.execKeyErase healthy s
  | .keyDelete => Sys2Proof.Machine.execKeyDelete s
  | .keyRewrap healthy => Sys2Proof.Machine.execKeyRewrap healthy s
  | .rootProgram healthy => Sys2Proof.Machine.execRootProgram healthy s
  | .keyStatus => Sys2Proof.Machine.execKeyStatus s
  | .authHoldEnd => Sys2Proof.Machine.execAuthHoldEnd s
  | .hqeDoorbell usb tag => Sys2Proof.Machine.execHqeDoorbell usb tag s
  | .transferDescriptor => Sys2Proof.Machine.execTransferDescriptor s
  | .transferDone usb => Sys2Proof.Machine.execTransferDone usb s
  | .fastPathDone usb => Sys2Proof.Machine.execFastPathDone usb s
  | .firmwareCompletion => Sys2Proof.Machine.execFirmwareCompletion s
  | .postingRelease usb => Sys2Proof.Machine.execPostingRelease usb s
  | .mapSync => Sys2Proof.Machine.execMapSync s
  | .mapSyncDone => Sys2Proof.Machine.execMapSyncDone s
  | .tagSplitWrite v => Sys2Proof.Machine.execTagSplitWrite v s
  | .dirtyCountPersist => Sys2Proof.Machine.execDirtyCountPersist s
  | .hpControlReset v => Sys2Proof.Machine.execHpControlReset v s
  | .hpInterfaceResetDone => Sys2Proof.Machine.execHpInterfaceResetDone s
  | .hostPortEnable v => Sys2Proof.Machine.execHostPortEnable v s
  | .hpDoorbellWrite v => Sys2Proof.Machine.execHpDoorbellWrite v s
  | .hpWindowWrite v => Sys2Proof.Machine.execHpWindowWrite v s
  | .hpWindowRead => Sys2Proof.Machine.execHpWindowRead s
  | .hpPeekRead => Sys2Proof.Machine.execHpPeekRead s
  | .hpCqWrite v => Sys2Proof.Machine.execHpCqWrite v s
  | .hpDataTransfer write v => Sys2Proof.Machine.execHpDataTransfer write v s
  | .hpWaitLimit => Sys2Proof.Machine.execHpWaitLimit s
  | .hpStrobeConflict => Sys2Proof.Machine.execHpStrobeConflict s
  | .hpByteHiWrite v => Sys2Proof.Machine.execHpByteHiWrite v s
  | .hpMboxInWrite v => Sys2Proof.Machine.execHpMboxInWrite v s
  | .hpMboxPush => Sys2Proof.Machine.execHpMboxPush s
  | .hpMboxEnd => Sys2Proof.Machine.execHpMboxEnd s
  | .hpMboxInClear => Sys2Proof.Machine.execHpMboxInClear s
  | .hpMboxOutFlush => Sys2Proof.Machine.execHpMboxOutFlush s
  | .hpMboxInEnqueue => Sys2Proof.Machine.execHpMboxInEnqueue s
  | .hpMboxOutTake => Sys2Proof.Machine.execHpMboxOutTake s
  | .hpMboxOutRead => Sys2Proof.Machine.execHpMboxOutRead s
  | .hpSbRead v => Sys2Proof.Machine.execHpSbRead v s
  | .hpSbWrite v => Sys2Proof.Machine.execHpSbWrite v s
  | .hpSbComplete => Sys2Proof.Machine.execHpSbComplete s
  | .hpErrorRead => Sys2Proof.Machine.execHpErrorRead s
  | .hubStandardRequest setup => Sys2Proof.Machine.execHubStandardRequest setup s
  | .hubGetStatus => Sys2Proof.Machine.execHubGetStatus s
  | .getPortStatus n => Sys2Proof.Machine.execGetPortStatus n s
  | .setPortFeature n f => Sys2Proof.Machine.execSetPortFeature n f s
  | .clearPortFeature n f => Sys2Proof.Machine.execClearPortFeature n f s
  | .clearTtBuffer n => Sys2Proof.Machine.execClearTtBuffer n s
  | .resetTt => Sys2Proof.Machine.execResetTt s
  | .hubUnsupportedRequest => Sys2Proof.Machine.execHubUnsupportedRequest s
  | .downstreamOvercurrent n => Sys2Proof.Machine.execDownstreamOvercurrent n s
  | .statusChangePoll => Sys2Proof.Machine.execStatusChangePoll s
  | .fnSetAddress a => Sys2Proof.Machine.execFnSetAddress a s
  | .fnGetStatus r => Sys2Proof.Machine.execFnGetStatus r s
  | .fnSetFeature f => Sys2Proof.Machine.execFnSetFeature f s
  | .fnClearFeature f => Sys2Proof.Machine.execFnClearFeature f s
  | .controlRequestPost setup out => Sys2Proof.Machine.execControlRequestPost setup out s
  | .ep0Send v => Sys2Proof.Machine.execEp0Send v s
  | .ep0Ack v => Sys2Proof.Machine.execEp0Ack v s
  | .ep0Stall v => Sys2Proof.Machine.execEp0Stall v s
  | .debugReadRequest setup => Sys2Proof.Machine.execDebugReadRequest setup s
  | .debugWriteRequest setup out => Sys2Proof.Machine.execDebugWriteRequest setup out s
  | .cbwReceived pkt => Sys2Proof.Machine.execCbwReceived pkt s
  | .uasCommandIu pkt => Sys2Proof.Machine.execUasCommandIu pkt s
  | .uasTaskManagementIu pkt => Sys2Proof.Machine.execUasTaskManagementIu pkt s
  | .mseStartHqe v => Sys2Proof.Machine.execMseStartHqe v s
  | .mseStartBuffer v => Sys2Proof.Machine.execMseStartBuffer v s
  | .mseStartNoData v => Sys2Proof.Machine.execMseStartNoData v s
  | .mseStartTmResponse v => Sys2Proof.Machine.execMseStartTmResponse v s
  | .dataPhaseStart => Sys2Proof.Machine.execDataPhaseStart s
  | .usbInToken e ack => Sys2Proof.Machine.execUsbInToken e ack s
  | .usbOutPacket e d => Sys2Proof.Machine.execUsbOutPacket e d s
  | .mseCompletion => Sys2Proof.Machine.execMseCompletion s
  | .mseFinish v => Sys2Proof.Machine.execMseFinish v s
  | .statusAcknowledged c => Sys2Proof.Machine.execStatusAcknowledged c s
  | .bulkOnlyReset => Sys2Proof.Machine.execBulkOnlyReset s
  | .uasModeWrite v => Sys2Proof.Machine.execUasModeWrite v s
  | .vendorPipeOut => Sys2Proof.Machine.execVendorPipeOut s
  | .vendorPipeIn => Sys2Proof.Machine.execVendorPipeIn s
  | .usbSuspend => Sys2Proof.Machine.execUsbSuspend s
  | .suspendAction => Sys2Proof.Machine.execSuspendAction s
  | .usbResume => Sys2Proof.Machine.execUsbResume s
  | .remoteWakeRequest v => Sys2Proof.Machine.execRemoteWakeRequest v s
  | .remoteWakeStart => Sys2Proof.Machine.execRemoteWakeStart s
  | .usbBusReset chirp => Sys2Proof.Machine.execUsbBusReset chirp s
  | .vbusLoss => Sys2Proof.Machine.execVbusLoss s
  | .vbusArrival => Sys2Proof.Machine.execVbusArrival s
  | .fnAttachWrite v => Sys2Proof.Machine.execFnAttachWrite v s
  | .scsiTestUnitReady => Sys2Proof.Machine.execScsiTestUnitReady s
  | .scsiRequestSense => Sys2Proof.Machine.execScsiRequestSense s
  | .scsiInquiry => Sys2Proof.Machine.execScsiInquiry s
  | .scsiModeSense => Sys2Proof.Machine.execScsiModeSense s
  | .scsiStartStopUnit => Sys2Proof.Machine.execScsiStartStopUnit s
  | .scsiPreventAllow => Sys2Proof.Machine.execScsiPreventAllow s
  | .scsiReadCapacity10 => Sys2Proof.Machine.execScsiReadCapacity10 s
  | .scsiReadCapacity16 => Sys2Proof.Machine.execScsiReadCapacity16 s
  | .scsiRead => Sys2Proof.Machine.execScsiRead s
  | .scsiWrite => Sys2Proof.Machine.execScsiWrite s
  | .scsiSynchronizeCache => Sys2Proof.Machine.execScsiSynchronizeCache s
  | .scsiReportLuns => Sys2Proof.Machine.execScsiReportLuns s
  | .scsiOcsTunnel timeout => Sys2Proof.Machine.execScsiOcsTunnel timeout s
  | .scsiUnsupported => Sys2Proof.Machine.execScsiUnsupported s
  | .getMaxLun => Sys2Proof.Machine.execGetMaxLun s
  | .ocsMessage t frame good => Sys2Proof.Machine.execOcsMessage t frame good s
  | .ocsRead m => Sys2Proof.Machine.execOcsRead m s
  | .ocsWrite m => Sys2Proof.Machine.execOcsWrite m s
  | .ocsFlush m => Sys2Proof.Machine.execOcsFlush m s
  | .ocsAbort => Sys2Proof.Machine.execOcsAbort s
  | .ocsIdentify => Sys2Proof.Machine.execOcsIdentify s
  | .ocsHealth => Sys2Proof.Machine.execOcsHealth s
  | .ocsGetFeature => Sys2Proof.Machine.execOcsGetFeature s
  | .ocsSetFeature => Sys2Proof.Machine.execOcsSetFeature s
  | .ocsLogRead => Sys2Proof.Machine.execOcsLogRead s
  | .ocsVolumeCreate m rows healthy => Sys2Proof.Machine.execOcsVolumeCreate m rows healthy s
  | .ocsVolumeDelete => Sys2Proof.Machine.execOcsVolumeDelete s
  | .ocsVolumeReshape => Sys2Proof.Machine.execOcsVolumeReshape s
  | .ocsVolumeStatus => Sys2Proof.Machine.execOcsVolumeStatus s
  | .ocsPortOffline => Sys2Proof.Machine.execOcsPortOffline s
  | .ocsPortOnline seen => Sys2Proof.Machine.execOcsPortOnline seen s
  | .ocsHdaRecordRead => Sys2Proof.Machine.execOcsHdaRecordRead s
  | .ocsHdaRecordWrite seen => Sys2Proof.Machine.execOcsHdaRecordWrite seen s
  | .ocsRebuildHold => Sys2Proof.Machine.execOcsRebuildHold s
  | .ocsRebuildRelease => Sys2Proof.Machine.execOcsRebuildRelease s
  | .ocsRebuildStartNow => Sys2Proof.Machine.execOcsRebuildStartNow s
  | .ocsReplace => Sys2Proof.Machine.execOcsReplace s
  | .ocsUnlock => Sys2Proof.Machine.execOcsUnlock s
  | .ocsLock => Sys2Proof.Machine.execOcsLock s
  | .ocsSetCredential healthy => Sys2Proof.Machine.execOcsSetCredential healthy s
  | .ocsClearCredential healthy => Sys2Proof.Machine.execOcsClearCredential healthy s
  | .ocsCryptoErase healthy => Sys2Proof.Machine.execOcsCryptoErase healthy s
  | .ocsPowerStandby => Sys2Proof.Machine.execOcsPowerStandby s
  | .ocsPowerStandbyLoaded => Sys2Proof.Machine.execOcsPowerStandbyLoaded s
  | .ocsPowerStandbyStopped => Sys2Proof.Machine.execOcsPowerStandbyStopped s
  | .ocsPowerNadir m => Sys2Proof.Machine.execOcsPowerNadir m s
  | .powerRequestAbandon => Sys2Proof.Machine.execPowerRequestAbandon s
  | .ocsSpinDown => Sys2Proof.Machine.execOcsSpinDown s
  | .ocsSpinUp => Sys2Proof.Machine.execOcsSpinUp s
  | .ocsFwDownload => Sys2Proof.Machine.execOcsFwDownload s
  | .ocsFwActivate => Sys2Proof.Machine.execOcsFwActivate s
  | .fwActivateReset m timeout => Sys2Proof.Machine.execFwActivateReset m timeout s
  | .ocsAntiRollback => Sys2Proof.Machine.execOcsAntiRollback s
  | .ocsDiagIduTest => Sys2Proof.Machine.execOcsDiagIduTest s
  | .ocsDiagUnfence => Sys2Proof.Machine.execOcsDiagUnfence s
  | .ocsDiagMeasure => Sys2Proof.Machine.execOcsDiagMeasure s
  | .ocsDiagRawRead m => Sys2Proof.Machine.execOcsDiagRawRead m s
  | .ocsDiagRegRead => Sys2Proof.Machine.execOcsDiagRegRead s
  | .ocsDiagInject => Sys2Proof.Machine.execOcsDiagInject s
  | .ocsMicrocodeStage => Sys2Proof.Machine.execOcsMicrocodeStage s
  | .ocsMicrocodeLoad => Sys2Proof.Machine.execOcsMicrocodeLoad s
  | .ocsMicrocodeRequest => Sys2Proof.Machine.execOcsMicrocodeRequest s
  | .microcodeRequestTimeout => Sys2Proof.Machine.execMicrocodeRequestTimeout s
  | .ocsMicrocodeFetch => Sys2Proof.Machine.execOcsMicrocodeFetch s
  | .ocsInvalidOpcode => Sys2Proof.Machine.execOcsInvalidOpcode s
  | .notification t => Sys2Proof.Machine.execNotification t s
  | .timeTick => Sys2Proof.Machine.execTimeTick s
  | .almanacIndexBuild => Sys2Proof.Machine.execAlmanacIndexBuild s
  | .almanacRecord => Sys2Proof.Machine.execAlmanacRecord s
  | .almErase => Sys2Proof.Machine.execAlmErase s
  | .almClearDropped => Sys2Proof.Machine.execAlmClearDropped s
  | .jtagIdcode => Sys2Proof.Machine.execJtagIdcode s
  | .jtagSamplePreload balls cells => Sys2Proof.Machine.execJtagSamplePreload balls cells s
  | .jtagExtest => Sys2Proof.Machine.execJtagExtest s
  | .jtagClamp => Sys2Proof.Machine.execJtagClamp s
  | .jtagHighz => Sys2Proof.Machine.execJtagHighz s
  | .jtagDmiAccess write a v => Sys2Proof.Machine.execJtagDmiAccess write a v s
  | .vioGenSense v33 => Sys2Proof.Machine.execVioGenSense v33 s
  | .pllLockReturn pll => Sys2Proof.Machine.execPllLockReturn pll s
  | .commutation p => Sys2Proof.Machine.execCommutation p s
  | .pwmPeriodBoundary p => Sys2Proof.Machine.execPwmPeriodBoundary p s
  | .preampFaultClear p => Sys2Proof.Machine.execPreampFaultClear p s
  | .logicTempUpdate t => Sys2Proof.Machine.execLogicTempUpdate t s
  | .powerDieCooled => Sys2Proof.Machine.execPowerDieCooled s
  | .vmotReturn => Sys2Proof.Machine.execVmotReturn s
  | .rcRegisterRead b a => Sys2Proof.Machine.execRcRegisterRead b a s
  | .hpRegisterRead a => Sys2Proof.Machine.execHpRegisterRead a s
  | .uartTxByteSent => Sys2Proof.Machine.execUartTxByteSent s
  | .downstreamPortChange n connect speed => Sys2Proof.Machine.execDownstreamPortChange n connect speed s
  | .downstreamResume n => Sys2Proof.Machine.execDownstreamResume n s
  | .aonWriteCrossed => Sys2Proof.Machine.execAonWriteCrossed s

end Sys2Proof.Machine
end

