-- ==== Sys2Proof/Safety.lean ====
section
/-! DEFINITION. What the claims about runs are said in: the canonical form of the sparse stores, the event inputs settled,
and a safe run. -/

namespace Sys2Proof.Machine
open Sys2Proof

/-- The canonical form of memory: addresses strictly rising, no byte listed that reads the same unlisted (log entry 5). -/
def Memory.wf (m : List Host.Cell) : Bool := smWf memDefault m

/-- The canonical form of the registers. -/
def Registers.wf (m : List (Nat × Word)) : Bool := smWf regReset m

/-- The event inputs settled: EVC_RAW holds the inputs as they stand, and the pending bit of a level source is its input
(R606). -/
def State.settled (s : State) : Bool :=
  s.evc.raw == s.rawNow && (s.evc.pend &&& ~~~s.edgeMask) == (s.rawNow &&& ~~~s.edgeMask)

/-- Every bit of every register outside the fields listed reads in `t` as in `s`. -/
def State.keeps (s t : State) (fs : List Fld) : Prop :=
  ∀ a i, (∀ f ∈ fs, ¬ (f.addr = a ∧ f.lo ≤ i ∧ i < f.lo + f.w)) → (t.reg a).getLsbD i = (s.reg a).getLsbD i

/-- Whether an address lies in one of the ranges listed, each from its first address to before its second. -/
def inRanges : List (Nat × Nat) → Nat → Prop
  | [], _ => False
  | r :: rs, a => (r.1 ≤ a ∧ a < r.2) ∨ inRanges rs a

/-- Every register outside the ranges listed reads in `t` as in `s`. -/
def State.keepsOutside (s t : State) (rs : List (Nat × Nat)) : Prop := ∀ a, ¬ inRanges rs a → t.reg a = s.reg a

/-- The registers of a port. -/
def portRegs (p : Fin 8) : Nat × Nat := (0x30100000 + 0x10000 * p, 0x30110000 + 0x10000 * p)

/-- The registers of a formatter context. -/
def fmtCtxRegs (p : Fin 8) : Nat × Nat := (0x30081000 + 0x100 * p, 0x30081100 + 0x100 * p)

/-- A field's register alone. -/
def fldReg (f : Fld) : Nat × Nat := (f.addr, f.addr + 1)

/-- The units of every port but `p` are in `t` as in `s`. -/
def State.otherPorts (s t : State) (p : Fin 8) : Prop :=
  ∀ q, q ≠ p → t.spn[q] = s.spn[q] ∧ t.srv[q] = s.srv[q] ∧ t.ch[q] = s.ch[q] ∧ t.fmt[q] = s.fmt[q]

/-- The SCE is in `t` as in `s`, but that the count of saturated updates of a context that drives now and did not has
restarted (R280). -/
def State.keepsSce (s t : State) : Prop :=
  t.sce = { s.sce with ctx := t.sce.ctx }
  ∧ ∀ c : Fin 24, t.sce.ctx[c] = (if t.role c = 1 ∧ s.role c ≠ 1 then
      { s.sce.ctx[c] with sat := { s.sce.ctx[c].sat with run := 0 } } else s.sce.ctx[c])

/-- The fields by which a formatter context learns of an asynchronous fault (Table 10.9). -/
def fmtFaultFields (p : Fin 8) : List Fld := [FMT_CTX_FLAGS_FAULT p, FMT_CTX_FLAGS_ASYNC_CAUSE p]

/-- The fields that setting a port's write-inhibit latch may write (R245 to R249, R459, R460). -/
def inhibitFields (p : Fin 8) : List Fld :=
  [CH_STATUS_WG p, SRV_STATUS_WRITE_OK p, SRV_STATUS_WI_LATCH p, SRV_COUNT_WI p, SRV_EVENT_WI p, FMT_CTX_RWQ_LAST_GOOD p,
   FMT_CTX_RWQ_LEN_ENTRIES p, FMT_CTX_RWQ_OVF p, FMT_CTX_EVENT_RWQ_OVF p] ++ fmtFaultFields p

/-- The fields that the start of an unload may write (R243 to R246). -/
def unloadFields (p : Fin 8) : List Fld := [SRV_STATUS_STATE p, SRV_STATUS_READ_OK p] ++ inhibitFields p

/-- The fields that a spindle fault writes (R166). -/
def spindleFaultFields (p : Fin 8) : List Fld :=
  [SPN_STATUS_STATE p, SPN_STATUS_FAULT_CAUSE p, SPN_EVENT_FAULT p, SPN_PERIOD_MEASURED p, PS_STATUS_SPINUPS] ++ unloadFields p

/-- The fields that a failed spin-up writes (R182). -/
def spinFailFields (p : Fin 8) : List Fld :=
  [SPN_EVENT_SPINUP_FAIL p, SPN_STATUS_RETRY_USED p] ++ spindleFaultFields p

/-- The registers that the stop of a formatter context may write (R475, R476): its port's, its own, and the IDU Pool's. -/
def fmtStopRegs (p : Fin 8) : List (Nat × Nat) :=
  [portRegs p, fmtCtxRegs p, (0x30090000, 0x300A0000), fldReg SYS_LOOP_SAT_AGC]

/-- A nanoword that does nothing but choose a condition (Table 10.3). -/
def Nano.condOnly (w : Nano) : Bool := w.extractLsb' 0 123 == 0

/-- The fields that the sequencing of a formatter context may write (R436, R438, R442). -/
def fmtSeqFields (p : Fin 8) : List Fld :=
  [FMT_CTX_STATUS_PC p, FMT_CTX_STATUS_STATE p, FMT_CTX_STATUS_DEPTH p]

/-- The commands that issue the next microword of a context that is READY. -/
def microCommands (p : Fin 8) : List Instr :=
  [.microNext p false, .microJump p, .microJcc p, .microJnc p, .microCall p, .microCallv p, .microRet p, .microLoop p,
   .microPoll p, .microDispatch p, .microHalt p, .illegalSeq p]

/-- The register fields that a change of slots may write. -/
def slotFields (js : List Nat) : List Fld :=
  [IDU_SLOT_FREE_FREE, IDU_SLOT_FREE_RESERVED_SUM] ++ js.map (fun j => IDU_SLOT_STATE j)

/-- The register fields that a fence of an IDU whose job is `job` may write (R375, R376). -/
def fenceFields (job : Option Job) : List Fld :=
  [IDU_FENCE_FENCED, IDU_FENCE_POOL_DEGRADED, IDU_FENCE_CAUSE, IDU_EVENT_EV, INT_INJECT_ARM]
    ++ match job with
      | some j => slotFields (j.slots.map Prod.fst)
      | none => []

/-- A ring of `s` has taken one more entry in `t`: its PI has advanced, the entry's bytes stand in its slot, and no other
byte of memory differs, the Ring SRAM being initialised. -/
def State.posted (s t : State) (id : Nat) (e : List Byte) : Prop :=
  (t.ring id).pi = ((s.ring id).pi + 1) % 65536
  ∧ t.peekBytes ((s.ring id).slotAddr (s.ring id).pi) e.length = e
  ∧ (s.memDue.getLsbD 1 = false → ∀ a, ¬ ((s.ring id).slotAddr (s.ring id).pi ≤ a
      ∧ a < (s.ring id).slotAddr (s.ring id).pi + (s.ring id).bytes) → t.byteAt a = s.byteAt a)

/-- Memory outside a range reads in `t` as in `s`. -/
def State.memOutside (s t : State) (lo hi : Nat) : Prop := ∀ a, ¬ (lo ≤ a ∧ a < hi) → t.byteAt a = s.byteAt a

/-- The Host Port is powered and clocked, enabled and not in an interface-scope reset. -/
def State.hpServes (s : State) : Bool := s.runs 13 && s.flag HP_CFG_ENABLE && !s.hp.resetting

/-- The state in which an entry of the IDU Pool for a ring is written: in IDLE the CORE clock returns first, unless the
entry waits behind others of its ring (R39, R1074). -/
def State.iduWake (s : State) (ring : Nat) : State :=
  if s.idu.held.any (fun h => h.1 == ring) then s else s.enqWake ring

/-- The fields that an error of the Host Port may write. -/
def hpErrFields : List Fld :=
  [HW_ERROR_CODE, HW_ERROR_TAG, HP_ERR_LAST_CODE, HP_ERR_LAST_TAG, HP_COUNT_ERRORS, HP_EVENT_EV]

/-- `t` has recorded an error of the Host Port that `s` had not (R871). -/
def State.hpErrs (s t : State) (code tag : Nat) : Prop :=
  t.rd HP_ERR_LAST_CODE = code ∧ t.rd HP_ERR_LAST_TAG = tag ∧ t.rd HP_COUNT_ERRORS = satInc 16 (s.rd HP_COUNT_ERRORS)
  ∧ t.bit HP_EVENT_EV 4 = true ∧ t.evc = (pulse 92 s).evc
  ∧ (s.rd HW_ERROR_CODE = 0 → t.rd HW_ERROR_CODE = code ∧ t.rd HW_ERROR_TAG = tag)
  ∧ (s.rd HW_ERROR_CODE ≠ 0 → t.rd HW_ERROR_CODE = s.rd HW_ERROR_CODE ∧ t.rd HW_ERROR_TAG = s.rd HW_ERROR_TAG)

/-- The USB Block's answer in `t` to what the host has done. -/
def State.answers (t : State) (h : Handshake) (d : List Byte) : Prop := t.usb.answer = h ∧ t.bus = { data := clean d }

/-- Nothing of the USB Block waits: no ring 4 entry, no drained transfer, no data phase. -/
def State.usbQuiet (s : State) : Bool := s.usb.posts.isEmpty && s.usb.drains.isEmpty && s.usb.cur.isNone

/-- The fields that show the oldest NEW context (R895). -/
def mseCmdFields : List Fld := [USB_MSE_CMD_VALID, USB_MSE_CMD_NEXT]

/-- The fields that a status endpoint's entry may write beside its context's. -/
def mseHaltFields : List Fld := [USB_EP_CTL_HALT 1, USB_EP_CTL_HALT 2] ++ mseCmdFields

/-- `t` has recorded an error of the USB Block that `s` had not: counted, pulsed, the first code kept. -/
def State.usbErrs (s t : State) (code : Nat) : Prop :=
  t.rd USB_COUNT_ERRORS = satInc 16 (s.rd USB_COUNT_ERRORS) ∧ t.bit USB_EVENT_EV 7 = true ∧ t.evc = (pulse 103 s).evc
  ∧ t.rd USB_ERR_CODE = (if s.rd USB_ERR_CODE = 0 then code else s.rd USB_ERR_CODE)

/-- The fields that an error of the USB Block may write. -/
def usbErrFields : List Fld := [USB_COUNT_ERRORS, USB_ERR_CODE, USB_EVENT_EV]

/-- The registers that a reset writes beside those it puts back to their reset values. -/
def resetWritten : List Nat := [SYS_RESET_CAUSE_WORD.addr, CLK_STATUS_WORD.addr, OTP_STATUS_BUSY.addr]

/-- `t` is `s` under a reset of class `c` (Table 3.3): the registers that the class does not keep at their reset values,
MRAM and the fuses kept and every other memory lost, the units and rings as after reset, the waiting commands kept. -/
def State.resetBy (s t : State) (c : RClass) : Prop :=
  t.boot.reset = some c ∧ t.boot.stage = .rom ∧ t.boot.fuses = s.boot.fuses
  ∧ (∀ a, keepsDom (some c) (regDom a) = false → a ∉ resetWritten → t.reg a = regReset a)
  ∧ (∀ a, keepsDom (some c) (regDom a) = true → regDom a ≠ .pdie → a ∉ resetWritten → t.reg a = s.reg a)
  ∧ (∀ a, 0x10000000 ≤ a → a < 0x10100000 → t.byteAt a = s.byteAt a)
  ∧ (∀ a, 0x10000 ≤ a → ¬ (0x10000000 ≤ a ∧ a < 0x10100000) → t.byteAt a = 0)
  ∧ t.hq = {} ∧ t.hp = {} ∧ t.usb = {} ∧ t.idu = {} ∧ t.lc = {} ∧ t.rings = [] ∧ t.pending = s.pending

/-- A recovery message's reply (R137). -/
def recoveryBytes (type seq status : Nat) (payload : List Byte) : List Byte :=
  let m := leBytes 1 (type + 128) ++ leBytes 1 seq ++ leBytes 2 (payload.length + 1) ++ leBytes 1 status ++ payload
  m ++ leBytes 4 (crc32c m)

/-- A recovery reply noted and sent on its transport (R136, R137). -/
def State.says (s : State) (tr : Transport) (type seq status : Nat) (payload : List Byte) : State :=
  let m := recoveryBytes type seq status payload
  { s with boot := { s.boot with reply := m } }.sendReply tr m

/-- Core `c` has taken an exception in `t` (R622): its cause, the faulting address and instruction saved, the mode and pc
those of the handler, its reservation ended, its registers and the other core as they were. -/
def State.trapped (s t : State) (c : Fin 2) (cause tval pc : Nat) : Prop :=
  t.core[c].mcause = BitVec.ofNat 32 cause ∧ t.core[c].mtval = BitVec.ofNat 32 tval ∧ t.core[c].mepc = BitVec.ofNat 32 pc
  ∧ t.core[c].pc = (s.core[c].mtvec &&& ~~~3) ∧ t.core[c].user = false ∧ t.core[c].resv = none
  ∧ t.core[c].gpr = s.core[c].gpr ∧ (∀ q : Fin 2, q ≠ c → t.core[q] = s.core[q])

/-- The fields that an update of the streaming detector may write (R681). -/
def streamFields : List Fld :=
  [LC_STREAM_STATUS_K, LC_STREAM_STATUS_EFF_K, LC_STREAM_STATUS_SATURATED, LC_EVENT_STREAM_SAT, SYS_LOOP_SAT_LC_STREAM]

/-- The range of LC_OP_ADDR and LC_OP_LINES lies wholly within one view of the Buffer DRAM (R688). -/
def State.lcInView (s : State) : Bool :=
  (decide (0x80000000 ≤ s.rd LC_OP_ADDR_ADDR * 64)
      && decide (s.rd LC_OP_ADDR_ADDR * 64 + 64 * s.rd LC_OP_LINES_LINES ≤ 0xB8000000))
    || (decide (0xC0000000 ≤ s.rd LC_OP_ADDR_ADDR * 64)
      && decide (s.rd LC_OP_ADDR_ADDR * 64 + 64 * s.rd LC_OP_LINES_LINES ≤ 0xF8000000))

/-- The lines of that range. -/
def State.lcInRange (s : State) (l : Nat) : Bool :=
  decide (dramOff (s.rd LC_OP_ADDR_ADDR * 64) / 64 ≤ l)
    && decide (l < dramOff (s.rd LC_OP_ADDR_ADDR * 64) / 64 + s.rd LC_OP_LINES_LINES)

/-- The way that LC_OP_SETWAY names. -/
def State.lcSetWayIdx (s : State) : Nat := wayIdx (s.rd LC_OP_SETWAY_SET) (s.rd LC_OP_SETWAY_WAY)

/-- `t` has refused an operation of the Line Cache (R688). -/
def State.lcRefuses (s t : State) (code : Nat) : Prop :=
  t.flag LC_EVENT_OP_REFUSED = true ∧ t.rd LC_OP_FAILED_REFUSE = code
  ∧ s.keeps t [LC_EVENT_OP_REFUSED, LC_OP_FAILED_REFUSE] ∧ t = { s with regs := t.regs }

/-- `t` has started operation `op` of the Line Cache. -/
def State.lcStarts (s t : State) (op : Nat) (mode : Bool) (ways : Nat) : Prop :=
  t.flag LC_STATUS_OP_BUSY = true ∧ t.rd LC_OP_DONE_LINES = 0
  ∧ t.lc.op = some { op := op, mode := b2n mode, ways := ways, addr := s.rd LC_OP_ADDR_ADDR * 64,
                     lines := s.rd LC_OP_LINES_LINES, setway := s.lcSetWayIdx }

/-- The fields that the start of an operation writes. -/
def lcOpFields : List Fld := [LC_STATUS_OP_BUSY, LC_OP_DONE_LINES, LC_OP_FAILED_LINES]

/-- Memory outside the ranges listed reads in `t` as in `s`. -/
def State.memKept (s t : State) (rs : List (Nat × Nat)) : Prop := ∀ a, ¬ inRanges rs a → t.byteAt a = s.byteAt a

/-- The bytes of the slot that a ring's next entry takes. -/
def State.slotAt (s : State) (id : Nat) : Nat × Nat :=
  ((s.ring id).slotAddr (s.ring id).pi, (s.ring id).slotAddr (s.ring id).pi + (s.ring id).bytes)

/-- A ring of `s` has taken one more entry in `t`, and its bytes stand in its slot. -/
def State.gave (s t : State) (id : Nat) (e : List Byte) : Prop :=
  (t.ring id).pi = ((s.ring id).pi + 1) % 65536 ∧ t.peekBytes ((s.ring id).slotAddr (s.ring id).pi) e.length = e

/-- The entry at the head of a ring of `s` has been taken in `t`. -/
def State.took (s t : State) (id : Nat) : Prop :=
  (t.ring id).ci = ((s.ring id).ci + 1) % 65536 ∧ (t.ring id).pi = (s.ring id).pi

/-- A unit takes 32-byte commands from a ring of `s`, and the ring of its completions, which lies in the Ring SRAM, takes
another; the Ring SRAM is initialised, no byte holds an error, and PD_CORE runs. -/
def State.cmdReady (s : State) (cmd compl agent : Nat) : Bool :=
  (s.ring cmd).consumer == agent && (s.ring cmd).bytes == 32 && s.enqTest compl == .ok && s.memDue == 0 && s.ecc == []
    && !s.flag INT_INJECT_ARM && decide ((s.slotAt compl).2 ≤ 0x20080000) && s.runs 1

/-- What the key store holds of band `b` where its two copies agree (R767). -/
def State.bandRecord (s : State) (b : Nat) : Option (List Byte) :=
  if s.peekBytes (keyAddr b 0) 256 = s.peekBytes (keyAddr b 1) 256 ∧ keyValid b (s.peekBytes (keyAddr b 0) 256) = true then
    some (s.peekBytes (keyAddr b 0) 256)
  else none

/-- The key store holds no valid copy of band `b`. -/
def State.bandEmpty (s : State) (b : Nat) : Bool :=
  !keyValid b (s.peekBytes (keyAddr b 0) 256) && !keyValid b (s.peekBytes (keyAddr b 1) 256)

/-- Both copies of band `b` in `t` are `r`. -/
def State.bandIs (t : State) (b : Nat) (r : List Byte) : Prop :=
  t.peekBytes (keyAddr b 0) 256 = r ∧ t.peekBytes (keyAddr b 1) 256 = r

/-- The Media Cipher is ready for a command from ring 320, and no Protected Range keeps it from its memory. -/
def State.mediaReady (s : State) : Bool :=
  s.cmdReady 320 321 9 && !s.cip.authHold && s.cip.unloadWait == none
    && (List.range 16).all (fun i => !s.flag (PROT_CTRL_EN i) || s.bit (PROT_ALLOW_ALLOW i) 16)

/-- `t` has ended the key-band command `e` with a status and the fields of record `r` (Table 17.5). -/
def State.keyEnds (s t : State) (e : List Byte) (status : Nat) (r : List Byte) : Prop :=
  s.took t 320
  ∧ s.gave t 321 (leBytes 2 (fieldB e 0 2) ++ leBytes 1 status ++ sliceB r 7 1 ++ sliceB r 12 4 ++ sliceB r 32 8)

/-- The key store and ring 321's slot, which a key-band command may write. -/
def State.keyMem (s : State) (b : Nat) : List (Nat × Nat) := [(keyAddr b 0, keyAddr b 2), s.slotAt 321]

/-- The command that a routine serving `mine` takes next out of Otivo's list, and the state without it: a running one
before one that waits to run. -/
def State.ocsNext (s : State) (mine : OcsCmd → Bool) : Option (OcsCmd × State) :=
  let w := s.otIntake
  let next := (w.ot.cmds.find? (fun c => mine c && c.stage == .running)).or
    (w.ot.cmds.find? (fun c => mine c && (c.stage == .fresh || c.stage == .ready)))
  if s.otRuns = false then none
  else next.map (fun c => (c, { w with ot := { w.ot with cmds := w.ot.cmds.erase c } }))

/-- An OCS command is one of READ, WRITE, FLUSH and ABORT. -/
def OcsCmd.io (c : OcsCmd) : Bool := decide (1 ≤ c.op ∧ c.op ≤ 4)

/-- A second command that changes the array configuration runs (R944). -/
def State.configRuns (w : State) (c : OcsCmd) : Bool := c.config && w.ot.cmds.any (fun x => x.config && x.stage == .running)

/-- The command still waits for its data from the host. -/
def OcsCmd.awaitsData (c : OcsCmd) : Bool := c.takesData && c.stage == .fresh && c.tag?.isSome && decide (0 < c.len)

/-- The checks of R934, R935, R941, R943 and R944 let a command run, and its data has come. -/
def State.ocsClear (w : State) (c : OcsCmd) : Bool :=
  c.stage == .running || (c.pathOk && c.headBad.isNone
    && (c.io || (c.lenOk && !w.configRuns c && !c.awaitsData)))

/-- Commands of an opcode, and of an action of an opcode. -/
def isOp (op : Nat) (c : OcsCmd) : Bool := c.op == op
def isAct (op act : Nat) (c : OcsCmd) : Bool := c.op == op && c.par 20 == act

/-- The commands that a row of the command set takes out of Otivo's list, and what a POWER row does afterwards.
OCS_POWER_NADIR, which may destage first, is told apart. -/
def ocsServes : Instr → Option ((OcsCmd → Bool) × (State → State))
  | .ocsRead _ => some (isOp 1, id)
  | .ocsWrite _ => some (isOp 2, id)
  | .ocsFlush _ => some (isOp 3, id)
  | .ocsAbort => some (isOp 4, id)
  | .ocsIdentify => some (isOp 0x10, id)
  | .ocsGetFeature => some (isOp 0x11, id)
  | .ocsSetFeature => some (isOp 0x12, id)
  | .ocsLogRead => some (isOp 0x13, id)
  | .ocsHealth => some (isOp 0x14, id)
  | .ocsVolumeCreate _ _ _ => some (isOp 0x20, id)
  | .ocsVolumeDelete => some (isOp 0x21, id)
  | .ocsVolumeReshape => some (isOp 0x22, id)
  | .ocsVolumeStatus => some (isOp 0x23, id)
  | .ocsPortOffline => some (isAct 0x28 0, id)
  | .ocsPortOnline _ => some (isAct 0x28 1, id)
  | .ocsHdaRecordRead => some (isAct 0x29 0, id)
  | .ocsHdaRecordWrite _ => some (isAct 0x29 1, id)
  | .ocsRebuildHold => some (isAct 0x30 0, id)
  | .ocsRebuildRelease => some (isAct 0x30 1, id)
  | .ocsRebuildStartNow => some (isAct 0x30 2, id)
  | .ocsReplace => some (isAct 0x30 3, id)
  | .ocsUnlock => some (isAct 0x38 0, id)
  | .ocsLock => some (isAct 0x38 1, id)
  | .ocsSetCredential _ => some (isAct 0x38 2, id)
  | .ocsClearCredential _ => some (isAct 0x38 3, id)
  | .ocsCryptoErase _ => some (isAct 0x38 4, id)
  | .ocsPowerStandby => some (isAct 0x40 0, State.pumpPower)
  | .ocsPowerStandbyLoaded => some (isAct 0x40 1, State.pumpPower)
  | .ocsPowerStandbyStopped => some (isAct 0x40 2, State.pumpPower)
  | .ocsSpinDown => some (isAct 0x40 4, State.pumpPower)
  | .ocsSpinUp => some (isAct 0x40 5, State.pumpPower)
  | .ocsFwDownload => some (isOp 0x48, id)
  | .ocsFwActivate => some (isAct 0x49 0, id)
  | .ocsAntiRollback => some (isAct 0x49 1, id)
  | .ocsDiagIduTest => some (isAct 0x50 0, id)
  | .ocsDiagUnfence => some (isAct 0x50 1, id)
  | .ocsDiagMeasure => some (isAct 0x50 2, id)
  | .ocsDiagRawRead _ => some (isAct 0x50 3, id)
  | .ocsDiagRegRead => some (isAct 0x50 4, id)
  | .ocsDiagInject => some (isAct 0x50 5, id)
  | .ocsMicrocodeStage => some (isAct 0x58 0, id)
  | .ocsMicrocodeLoad => some (isAct 0x58 1, id)
  | .ocsMicrocodeRequest => some (isAct 0x58 2, id)
  | .ocsMicrocodeFetch => some (isAct 0x58 3, id)
  | .ocsInvalidOpcode => some (fun c => !opcodes.contains c.op || decide (actionsOf c.op ≤ c.par 20), id)
  | _ => none

/-- Ring `id` takes an entry that Core A posts now: nothing waits before it, it has room in the initialised Ring SRAM, and
no byte of memory holds an error. -/
def State.otReady (s : State) (id : Nat) : Bool :=
  !s.ot.posts.any (fun x => x.1 == id) && s.enqTest id == .ok && s.memDue == 0 && s.ecc == [] && !s.flag INT_INJECT_ARM
    && decide ((s.slotAt id).2 ≤ 0x20080000)

/-- The context that a SCSI routine takes next, the oldest NEW one that it serves, and the state in which it takes it
(R913); none where Otivo does not serve SCSI. -/
def State.scsiNext (s : State) (mine : State → Fin 16 → Bool) : Option (Fin 16 × State) :=
  let w := s.scsiIntake
  if s.otRuns = false ∨ s.runs 12 = false then none
  else (w.oldest (fun c => w.ctxState c == 1 && mine w c)).map (fun c => (c, w))

/-- Contexts whose CDB has one of some operation codes. -/
def scsiOf (ops : List Nat) (w : State) (c : Fin 16) : Bool := !w.usb.ctx[c].task && opIs ops (w.cdb c)

/-- Contexts whose CDB is READ CAPACITY(16). -/
def scsiCap16 (w : State) (c : Fin 16) : Bool := !w.usb.ctx[c].task && cap16 (w.cdb c)

/-- Contexts whose CDB is the OCS tunnel's. -/
def scsiTunnel (w : State) (c : Fin 16) : Bool := !w.usb.ctx[c].task && tunnelCdb (w.cdb c)

/-- Contexts that no row of Table 20.9 serves, and task management requests. -/
def scsiOther (w : State) (c : Fin 16) : Bool :=
  w.usb.ctx[c].task || (!opIs scsiOps (w.cdb c) && !cap16 (w.cdb c) && !tunnelCdb (w.cdb c))

/-- The contexts that a row of the SCSI translation serves, where it serves no HELD context first. -/
def scsiServes : Instr → Option (State → Fin 16 → Bool)
  | .scsiTestUnitReady => some (scsiOf [0])
  | .scsiRequestSense => some (scsiOf [3])
  | .scsiInquiry => some (scsiOf [0x12])
  | .scsiModeSense => some (scsiOf [0x1A, 0x5A])
  | .scsiStartStopUnit => some (scsiOf [0x1B])
  | .scsiPreventAllow => some (scsiOf [0x1E])
  | .scsiReadCapacity10 => some (scsiOf [0x25])
  | .scsiReadCapacity16 => some scsiCap16
  | .scsiReportLuns => some (scsiOf [0xA0])
  | .scsiOcsTunnel _ => some scsiTunnel
  | .scsiUnsupported => some scsiOther
  | _ => none

/-- The operation codes of a row of the SCSI translation that goes through the HQE. -/
def hqeServes : Instr → Option (List Nat)
  | .scsiRead => some [0x28, 0x88]
  | .scsiWrite => some [0x2A, 0x8A]
  | .scsiSynchronizeCache => some [0x35, 0x91]
  | _ => none

/-- A LUN has a volume (R913). -/
def State.lunLive (w : State) (c : Fin 16) : Bool := decide (w.lun c < 4) && vLive (w.vol (volOf (w.lun c)))

/-- A run of `n` steps is safe where no step stops. -/
def safeRun : Nat → State → Bool
  | 0, _ => true
  | n + 1, s =>
    match step s with
    | .next t => safeRun n t
    | _ => false

end Sys2Proof.Machine
end

