-- ==== Sys2Proof/Certificates/Slice0/Obligations.lean ====
section
/-! DEFINITION. The statements for the provers, family by family in the order of the opcode table. A statement about a
command names the state that the command reaches before the event inputs settle: `exec c s = .next (settle t)`, so
`t.evc = s.evc` says that the command itself raises no event beyond the levels of the state. `s.keeps t fs` is the
frame of the registers, and `t = { s with … }` that of everything else. -/

open Sys2Proof Sys2Proof.Machine

/-! ### Spindles and the power die (chapter 4) -/

/-- R174, R183 (START), R184 (STOP), R195 (MEASURE), R196 (its end) and R168 (CLEAR_FAULT), while the power die takes
commands (R201), with their frames. What a STOP does in UNLOADING and in BRAKE is the model's choice (log entry 22). -/
def Obligations.SpindleCommands : Prop :=
  ∀ (p : Fin 8) (s : State), s.dieHeld = false →
    (s.rd (SPN_STATUS_STATE p) = 0 → s.regOn (SPN_CMD_WORD p).addr = true → ∃ t, exec (.spnStart p) s = .next (settle t)
      ∧ t.rd (SPN_STATUS_STATE p) = 1 ∧ t.rd (SPN_STATUS_RETRY_USED p) = 0 ∧ t.rd (SPN_PERIOD_MEASURED p) = 0xFFFFFF
      ∧ s.keeps t [SPN_STATUS_STATE p, SPN_STATUS_RETRY_USED p, SPN_PERIOD_MEASURED p]
      ∧ t = { s with regs := t.regs, spn := t.spn } ∧ s.otherPorts t p)
    ∧ (s.rd (SPN_STATUS_STATE p) = 6 → s.spn[p].fly = false → s.regOn (SPN_CMD_WORD p).addr = true → ∃ t, exec (.spnStart p) s = .next (settle t)
      ∧ t.spn[p].fly = true ∧ t.rd (SPN_STATUS_RETRY_USED p) = 0
      ∧ s.keeps t [SPN_STATUS_RETRY_USED p]
      ∧ t = { s with regs := t.regs, spn := t.spn } ∧ s.otherPorts t p)
    ∧ (s.rd (SPN_STATUS_STATE p) = 9 → s.regOn (SPN_CMD_WORD p).addr = true → ∃ t, exec (.spnStart p) s = .next (settle t)
      ∧ t.rd (SPN_EVENT_CMD_REFUSED p) = 1
      ∧ s.keeps t [SPN_EVENT_CMD_REFUSED p] ∧ t = { s with regs := t.regs })
    ∧ (1 ≤ s.rd (SPN_STATUS_STATE p) → s.rd (SPN_STATUS_STATE p) ≤ 8 → s.rd (SPN_STATUS_STATE p) ≠ 6 →
      s.regOn (SPN_CMD_WORD p).addr = true → exec (.spnStart p) s = .next (settle s))
    ∧ (s.rd (SPN_STATUS_STATE p) = 1 → s.regOn (SPN_CMD_WORD p).addr = true → ∃ t, exec (.spnStop p) s = .next (settle t)
      ∧ t.rd (SPN_STATUS_STATE p) = 0 ∧ s.keeps t [SPN_STATUS_STATE p] ∧ t = { s with regs := t.regs })
    ∧ (2 ≤ s.rd (SPN_STATUS_STATE p) → s.rd (SPN_STATUS_STATE p) ≤ 6 → s.srv[p].loaded = false →
      s.regOn (SPN_CMD_WORD p).addr = true → ∃ t, exec (.spnStop p) s = .next (settle t)
      ∧ t.rd (SPN_STATUS_STATE p) = (if s.flag (SPN_CTRL_STOP_MODE p) then 8 else 6)
      ∧ t.spn[p].fly = false ∧ t.spn[p].retryWait = false
      ∧ t.rd (SPN_PERIOD_MEASURED p) =
          (if s.flag (SPN_CTRL_STOP_MODE p) then 0xFFFFFF else s.rd (SPN_PERIOD_MEASURED p))
      ∧ s.keeps t [SPN_STATUS_STATE p, SPN_PERIOD_MEASURED p]
      ∧ t = { s with regs := t.regs, spn := t.spn } ∧ s.otherPorts t p)
    ∧ (2 ≤ s.rd (SPN_STATUS_STATE p) → s.rd (SPN_STATUS_STATE p) ≤ 6 → s.srv[p].loaded = true →
      s.regOn (SPN_CMD_WORD p).addr = true → ∃ t, exec (.spnStop p) s = .next (settle t)
      ∧ t.rd (SPN_STATUS_STATE p) = 7 ∧ t.spn[p].after = (if s.flag (SPN_CTRL_STOP_MODE p) then 8 else 6)
      ∧ t.rd (SRV_STATUS_STATE p) = (if s.rd (SRV_STATUS_STATE p) = 0 then 0 else 7)
      ∧ s.keeps t (SPN_STATUS_STATE p :: unloadFields p)
      ∧ t = { s with regs := t.regs, spn := t.spn, srv := t.srv, sce := t.sce, ch := t.ch, fmt := t.fmt }
      ∧ s.keepsSce t ∧ s.otherPorts t p)
    ∧ (s.rd (SPN_STATUS_STATE p) = 7 → s.spn[p].after = 4 → s.regOn (SPN_CMD_WORD p).addr = true → ∃ t, exec (.spnStop p) s = .next (settle t)
      ∧ t.spn[p] = { s.spn[p] with after := if s.flag (SPN_CTRL_STOP_MODE p) then 8 else 6 }
      ∧ t = { s with spn := t.spn } ∧ s.otherPorts t p)
    ∧ (s.rd (SPN_STATUS_STATE p) = 0 ∨ (s.rd (SPN_STATUS_STATE p) = 7 ∧ s.spn[p].after ≠ 4)
        ∨ 8 ≤ s.rd (SPN_STATUS_STATE p) → s.regOn (SPN_CMD_WORD p).addr = true → exec (.spnStop p) s = .next (settle s))
    ∧ (s.rd (SPN_STATUS_STATE p) = 0 → s.regOn (SPN_CMD_WORD p).addr = true → ∃ t, exec (.spnMeasure p) s = .next (settle t)
      ∧ t.rd (SPN_STATUS_MEASURE_BUSY p) = 1
      ∧ s.keeps t [SPN_STATUS_MEASURE_BUSY p] ∧ t = { s with regs := t.regs })
    ∧ (s.rd (SPN_STATUS_STATE p) ≠ 0 → s.regOn (SPN_CMD_WORD p).addr = true → ∃ t, exec (.spnMeasure p) s = .next (settle t)
      ∧ t.rd (SPN_EVENT_CMD_REFUSED p) = 1
      ∧ s.keeps t [SPN_EVENT_CMD_REFUSED p] ∧ t = { s with regs := t.regs })
    ∧ (∀ uv vw wu vcm : Nat, s.flag (SPN_STATUS_MEASURE_BUSY p) = true →
      ∃ t, exec (.measureDone p uv vw wu vcm) s = .next (settle t)
      ∧ t.rd (SPN_RES_A_UV p) = min uv 0xFFFF ∧ t.rd (SPN_RES_A_VW p) = min vw 0xFFFF
      ∧ t.rd (SPN_RES_B_WU p) = min wu 0xFFFF ∧ t.rd (SPN_RES_B_VCM p) = min vcm 0xFFFF
      ∧ t.rd (VCM_COIL_RES_RES p) = min vcm 0xFFFF ∧ t.rd (SPN_STATUS_MEASURE_BUSY p) = 0
      ∧ s.keeps t [SPN_RES_A_UV p, SPN_RES_A_VW p, SPN_RES_B_WU p, SPN_RES_B_VCM p, VCM_COIL_RES_RES p,
          SPN_STATUS_MEASURE_BUSY p]
      ∧ t = { s with regs := t.regs })
    ∧ (s.rd (SPN_STATUS_STATE p) = 9 → s.regOn (SPN_CMD_WORD p).addr = true → ∃ t, exec (.spnClearFault p true) s = .next (settle t)
      ∧ t.rd (SPN_STATUS_STATE p) = 0 ∧ t.rd (SPN_STATUS_FAULT_CAUSE p) = 0 ∧ t.rd (SPN_PERIOD_MEASURED p) = 0xFFFFFF
      ∧ s.keeps t [SPN_STATUS_STATE p, SPN_STATUS_FAULT_CAUSE p, SPN_PERIOD_MEASURED p]
      ∧ t = { s with regs := t.regs, spn := t.spn } ∧ s.otherPorts t p)
    ∧ (s.rd (SPN_STATUS_STATE p) ≠ 9 → s.regOn (SPN_CMD_WORD p).addr = true → exec (.spnClearFault p true) s = .next (settle s))
    ∧ (s.regOn (SPN_CMD_WORD p).addr = true → ∃ t, exec (.spnClearFault p false) s = .next (settle t) ∧ t.rd (SPN_EVENT_CMD_REFUSED p) = 1
      ∧ s.keeps t [SPN_EVENT_CMD_REFUSED p] ∧ t = { s with regs := t.regs })

/-- R179 (ALIGN to RAMP), R180 (handover), R169 (the period), R186 and R187 (loss of lock), R188 (crossings that count),
R190 (no resynchronisation), R181 and R182 (a failed spin-up), R185 and R168 (the stop), while PD_SERVO's logic runs on the
port (R48). -/
def Obligations.SpindleStates : Prop :=
  ∀ (p : Fin 8) (s : State), s.portRuns p = true →
    (s.rd (SPN_STATUS_STATE p) = 2 → s.dieHeld = false → ∃ t, exec (.alignEnd p) s = .next (settle t)
      ∧ t.rd (SPN_STATUS_STATE p) = 3 ∧ t.spn[p].duty = s.rd (SPN_RAMP_DUTY_DUTY p)
      ∧ s.keeps t [SPN_STATUS_STATE p]
      ∧ t = { s with regs := t.regs, spn := t.spn } ∧ s.otherPorts t p)
    ∧ (∀ ticks : Nat, ∀ off : Int, (3 ≤ s.rd (SPN_STATUS_STATE p) ∧ s.rd (SPN_STATUS_STATE p) ≤ 7)
        ∨ s.rd (SPN_STATUS_STATE p) = 9 → off.natAbs ≤ 30 → s.spn[p].revZc = 5 →
      ∃ t, exec (.zeroCrossing p ticks off) s = .next (settle t)
      ∧ t.rd (SPN_PERIOD_MEASURED p) = min (s.spn[p].revTicks + ticks) 0xFFFFFF
      ∧ t.spn[p].revZc = 0 ∧ t.spn[p].revTicks = 0)
    ∧ (∀ ticks : Nat, ∀ off : Int, (3 ≤ s.rd (SPN_STATUS_STATE p) ∧ s.rd (SPN_STATUS_STATE p) ≤ 7)
        ∨ s.rd (SPN_STATUS_STATE p) = 9 → off.natAbs ≤ 30 → s.spn[p].revZc < 5 →
      ¬(s.rd (SPN_STATUS_STATE p) = 3 ∧ max 1 (s.rd (SPN_RAMP_DUTY_HANDOVER_ZC p)) ≤ s.spn[p].zc + 1) →
      ¬(s.rd (SPN_STATUS_STATE p) = 6 ∧ s.spn[p].fly = true ∧ 6 ≤ s.spn[p].zc + 1) →
      ∃ t, exec (.zeroCrossing p ticks off) s = .next (settle t)
      ∧ t.spn[p].zc = s.spn[p].zc + 1 ∧ t.spn[p].revZc = s.spn[p].revZc + 1
      ∧ t.spn[p].revTicks = s.spn[p].revTicks + ticks ∧ t.spn[p].missRun = 0
      ∧ t.spn[p].crossed = true ∧ t.spn[p].errStep = false ∧ t.spn[p].errRun = s.spn[p].errRun
      ∧ t = { s with spn := t.spn } ∧ s.otherPorts t p)
    ∧ (∀ ticks : Nat, ∀ off : Int, s.rd (SPN_STATUS_STATE p) = 3 → s.dieHeld = false → off.natAbs ≤ 30 →
      s.spn[p].revZc < 5 → max 1 (s.rd (SPN_RAMP_DUTY_HANDOVER_ZC p)) ≤ s.spn[p].zc + 1 →
      ∃ t, exec (.zeroCrossing p ticks off) s = .next (settle t)
      ∧ t.rd (SPN_STATUS_STATE p) = 4 ∧ t.spn[p].duty = s.rd (SPN_RAMP_DUTY_DUTY p)
      ∧ t.sce.ctx[ctxOf (3 * p.val + 2)].m1 = s.rd (SPN_RAMP_DUTY_DUTY p) * 1048576
      ∧ (∀ c : Fin 24, c ≠ ctxOf (3 * p.val + 2) → t.sce.ctx[c] = s.sce.ctx[c])
      ∧ s.keeps t [SPN_STATUS_STATE p]
      ∧ s.otherPorts t p ∧ t = { s with regs := t.regs, spn := t.spn, sce := t.sce })
    ∧ (∀ ticks : Nat, ∀ off : Int, 30 < off.natAbs → (3 ≤ s.rd (SPN_STATUS_STATE p) ∧ s.rd (SPN_STATUS_STATE p) ≤ 7)
        ∨ s.rd (SPN_STATUS_STATE p) = 9 →
      ∃ t, exec (.zeroCrossing p ticks off) s = .next (settle t) ∧ t.spn[p].zc = 0 ∧ t.spn[p].revZc = 0
      ∧ t.spn[p].revTicks = 0 ∧ t.spn[p].crossed = true ∧ t.spn[p].errStep = true ∧ t.spn[p].errRun = s.spn[p].errRun
      ∧ t = { s with spn := t.spn } ∧ s.otherPorts t p)
    ∧ (s.spn[p].missRun < 2 → s.spn[p].errRun < 6 → exec (.lossOfLock p) s = .next (settle s))
    ∧ (s.rd (SPN_STATUS_STATE p) = 4 ∨ s.rd (SPN_STATUS_STATE p) = 5 → 2 ≤ s.spn[p].missRun ∨ 6 ≤ s.spn[p].errRun →
      ∃ t, exec (.lossOfLock p) s = .next (settle t)
      ∧ t.rd (SPN_STATUS_STATE p) = 6 ∧ t.rd (SPN_EVENT_LOCK_LOST p) = 1 ∧ t.rd (CH_STATUS_WG p) = 0
      ∧ t.rd (SRV_STATUS_WI_LATCH p) = 1 ∧ t.rd (SRV_STATUS_WRITE_OK p) = 0
      ∧ t.spn[p].fly = true ∧ t.spn[p].dutyNow = 0 ∧ t.rd (SPN_PERIOD_MEASURED p) = 0xFFFFFF
      ∧ s.keeps t ([SPN_STATUS_STATE p, SPN_EVENT_LOCK_LOST p, SPN_PERIOD_MEASURED p] ++ inhibitFields p)
      ∧ t = { s with regs := t.regs, spn := t.spn, srv := t.srv, ch := t.ch, fmt := t.fmt } ∧ s.otherPorts t p)
    ∧ (s.rd (SPN_STATUS_STATE p) = 6 → s.spn[p].fly = true → ∃ t, exec (.flyRestartTimeout p) s = .next (settle t)
      ∧ t.rd (SPN_EVENT_FLY_FAIL p) = 1 ∧ t.spn[p].fly = false
      ∧ t.rd (SPN_STATUS_STATE p) =
          (if s.flag (SPN_CTRL_AUTO_RETRY p) && !s.flag (SPN_STATUS_RETRY_USED p) then 6 else 9)
      ∧ s.keeps t (SPN_EVENT_FLY_FAIL p :: spinFailFields p)
      ∧ t = { s with regs := t.regs, spn := t.spn, srv := t.srv, sce := t.sce, ch := t.ch, fmt := t.fmt }
      ∧ s.keepsSce t ∧ s.otherPorts t p)
    ∧ (s.spn[p].underWay = true →
      (2 ≤ s.rd (SPN_STATUS_STATE p) ∧ s.rd (SPN_STATUS_STATE p) ≤ 4)
        ∨ (s.rd (SPN_STATUS_STATE p) = 6 ∧ s.spn[p].fly = true)
        ∨ (s.rd (SPN_STATUS_STATE p) = 7 ∧ s.spn[p].after = 4) →
      ∃ t, exec (.spinupFail p) s = .next (settle t)
      ∧ t.rd (SPN_EVENT_SPINUP_FAIL p) = 1
      ∧ (s.flag (SPN_CTRL_AUTO_RETRY p) = true → s.rd (SPN_STATUS_RETRY_USED p) = 0 →
          t.rd (SPN_STATUS_STATE p) = 6 ∧ t.rd (SPN_STATUS_RETRY_USED p) = 1 ∧ t.spn[p].retryWait = true)
      ∧ (s.flag (SPN_CTRL_AUTO_RETRY p) = false ∨ s.rd (SPN_STATUS_RETRY_USED p) ≠ 0 →
          t.rd (SPN_STATUS_STATE p) = 9 ∧ t.rd (SPN_STATUS_FAULT_CAUSE p) = 3 ∧ t.rd (SPN_EVENT_FAULT p) = 1)
      ∧ s.keeps t (spinFailFields p)
      ∧ t = { s with regs := t.regs, spn := t.spn, srv := t.srv, sce := t.sce, ch := t.ch, fmt := t.fmt }
      ∧ s.keepsSce t ∧ s.otherPorts t p)
    ∧ (s.rd (SPN_STATUS_STATE p) = 9 → ∃ t, exec (.spindleStopped p) s = .next (settle t)
      ∧ t.rd (SPN_PERIOD_MEASURED p) = 0xFFFFFF ∧ t.spn[p].still = true
      ∧ s.keeps t [SPN_PERIOD_MEASURED p] ∧ t = { s with regs := t.regs, spn := t.spn } ∧ s.otherPorts t p)
    ∧ (s.rd (SPN_STATUS_STATE p) = 6 ∨ s.rd (SPN_STATUS_STATE p) = 8 → s.spn[p].fly = false →
      ∃ t, exec (.spindleStopped p) s = .next (settle t)
      ∧ (s.spn[p].retryWait = true → t.rd (SPN_STATUS_STATE p) = 1)
      ∧ (s.spn[p].retryWait = false → t.rd (SPN_STATUS_STATE p) = 0 ∧ t.rd (SPN_EVENT_STOPPED p) = 1)
      ∧ t.rd (SPN_PERIOD_MEASURED p) = 0xFFFFFF ∧ t.spn[p].underWay = false
      ∧ s.keeps t [SPN_STATUS_STATE p, SPN_EVENT_STOPPED p, SPN_PERIOD_MEASURED p, PS_STATUS_SPINUPS]
      ∧ t = { s with regs := t.regs, spn := t.spn } ∧ s.otherPorts t p)

/-- R162 to R166 (the interlock), R167 (over-current), R160 (the limiter), R193 (the VCM), R158, R159 and R163 (the period
boundary and what each half-bridge then does) and R158, R163, R186 (commutation). The numbers of the six steps are the
model's own (log entry 22). -/
def Obligations.SpindleProtection : Prop :=
  ∀ (p : Fin 8) (s : State),
    (∀ half : Fin 3, ∃ t, exec (.shootThroughInterlock p half) s = .next (settle t)
      ∧ t.rd (SPN_SHOOT_COUNT_COUNT p) = min (s.rd (SPN_SHOOT_COUNT_COUNT p) + 1) (2 ^ (SPN_SHOOT_COUNT_COUNT p).w - 1)
      ∧ t.rd (SPN_EVENT_INTERLOCK p) = 1 ∧ t.rd SYS_PROTECT_SHOOT_THROUGH = 1
      ∧ (t.rd (SPN_STATUS_STATE p) = s.rd (SPN_STATUS_STATE p) → t.spn[p].heldOff.getLsbD half = true)
      ∧ (∀ a c l, s.spn[p].hits = a :: c :: l → s.spn[p].stepCount - c < 6 → s.rd (SPN_STATUS_STATE p) ≠ 9 →
          t.rd (SPN_STATUS_STATE p) = 9 ∧ t.rd (SPN_STATUS_FAULT_CAUSE p) = 1)
      ∧ (s.spn[p].hits.length < 2 → t.rd (SPN_STATUS_STATE p) = s.rd (SPN_STATUS_STATE p))
      ∧ s.keeps t ([SPN_SHOOT_COUNT_COUNT p, SPN_EVENT_INTERLOCK p, SYS_PROTECT_SHOOT_THROUGH] ++ spindleFaultFields p)
      ∧ t = { s with regs := t.regs, spn := t.spn, srv := t.srv, sce := t.sce, ch := t.ch, fmt := t.fmt }
      ∧ s.keepsSce t ∧ s.otherPorts t p)
    ∧ (s.rd (SPN_STATUS_STATE p) ≠ 9 → ∃ t, exec (.spindleOvercurrent p) s = .next (settle t)
      ∧ t.rd (SPN_STATUS_STATE p) = 9 ∧ t.rd (SPN_STATUS_FAULT_CAUSE p) = 2 ∧ t.rd (SPN_EVENT_FAULT p) = 1
      ∧ t.rd SYS_PROTECT_OVERCURRENT = 1 ∧ t.rd (FMT_CTX_FLAGS_FAULT p) ≠ 0
      ∧ (s.rd (SRV_STATUS_STATE p) ≠ 0 → t.rd (SRV_STATUS_STATE p) = 7)
      ∧ s.keeps t (SYS_PROTECT_OVERCURRENT :: spindleFaultFields p)
      ∧ t = { s with regs := t.regs, spn := t.spn, srv := t.srv, sce := t.sce, ch := t.ch, fmt := t.fmt }
      ∧ s.keepsSce t ∧ s.otherPorts t p)
    ∧ (∀ ma : Nat, ∃ t, exec (.currentLimitChop p ma) s = .next (settle t)
      ∧ t.spn[p].chopped = (s.spn[p].chopped || decide (min 1500 (s.rd (SPN_PWM_ILIM p)) < ma))
      ∧ t = { s with spn := t.spn } ∧ s.otherPorts t p)
    ∧ (∃ t, exec (.vcmOvercurrent p) s = .next (settle t)
      ∧ t.rd (VCM_STATUS_FAULT_OC p) = 1 ∧ t.rd (VCM_STATUS_RETRACTING p) = 1 ∧ t.rd SYS_PROTECT_OVERCURRENT = 1
      ∧ t.rd (SRV_STATUS_WI_LATCH p) ≠ 0 ∧ t.rd (CH_STATUS_WG p) = 0 ∧ t.srv[p].cmd = 0
      ∧ t.srv[p].drive = [
          .current 2000 (s.rampSign p * (2 * min 150 (s.rd (VCM_RETRACT_I_BREAK p)) : Nat)),
          .backEmf (some 26000) (s.rampSign p * (4 * s.rd (VCM_RETRACT_VEL p) : Nat))
            (2 * min 150 (s.rd (VCM_RETRACT_I_BREAK p))) (s.rd (VCM_COIL_RES_RES p)),
          .current 2000 (s.rampSign p * s.rd (VCM_RETRACT_I_HOLD p))]
      ∧ s.keeps t ([VCM_STATUS_FAULT_OC p, VCM_STATUS_RETRACTING p, SYS_PROTECT_OVERCURRENT] ++ inhibitFields p)
      ∧ t = { s with regs := t.regs, srv := t.srv, ch := t.ch, fmt := t.fmt } ∧ s.otherPorts t p)
    ∧ (s.portRuns p = true → s.dieHeld = true → ∃ t, exec (.pwmPeriodBoundary p) s = .next (settle t)
      ∧ t.spn[p].dutyNow = 0 ∧ t.spn[p].onTime = 0 ∧ t = { s with spn := t.spn } ∧ s.otherPorts t p)
    ∧ (s.portRuns p = true → s.dieHeld = false → ∃ t, exec (.pwmPeriodBoundary p) s = .next (settle t)
      ∧ t.spn[p].chopped = false ∧ t.spn[p].heldOff = 0
      ∧ t.spn[p].onTime = t.spn[p].dutyNow * s.rd (SPN_PWM_PERIOD p) / 65536
      ∧ (2 ≤ s.rd (SPN_STATUS_STATE p) → s.rd (SPN_STATUS_STATE p) ≤ 5 → ∀ h : Fin 3, t.halfBridge p h =
          (if h.val = (sixStep s.spn[p].step).1 then .pwm t.spn[p].onTime
           else if h.val = (sixStep s.spn[p].step).2 then .lowOn else .highZ))
      ∧ (s.rd (SPN_STATUS_STATE p) = 2 → t.spn[p].dutyNow = s.rd (SPN_ALIGN_DUTY p))
      ∧ (s.rd (SPN_STATUS_STATE p) = 3 → t.spn[p].dutyNow = s.rd (SPN_RAMP_DUTY_DUTY p))
      ∧ (s.rd (SPN_STATUS_STATE p) = 5 → s.flag (SPN_DUTY_PIN_PIN_EN p) = true →
          t.spn[p].dutyNow = s.rd (SPN_DUTY_PIN_PIN_DUTY p))
      ∧ (s.rd (SPN_STATUS_STATE p) = 5 → s.flag (SPN_DUTY_PIN_PIN_EN p) = false → t.spn[p].dutyNow = s.spn[p].duty)
      ∧ (s.rd (SPN_STATUS_STATE p) = 6 → t.spn[p].dutyNow = 0)
      ∧ t = { s with spn := t.spn } ∧ s.otherPorts t p)
    ∧ (s.portRuns p = true → s.dieHeld = false → 3 ≤ s.rd (SPN_STATUS_STATE p) → s.rd (SPN_STATUS_STATE p) ≤ 5 →
      ∃ t, exec (.commutation p) s = .next (settle t)
      ∧ t.spn[p].step = (s.spn[p].step + (if s.flag (SPN_CTRL_DIR p) then 5 else 1)) % 6
      ∧ t.spn[p].stepCount = s.spn[p].stepCount + 1 ∧ t.spn[p].heldOff = 0
      ∧ t.spn[p].missRun = s.spn[p].missRun + b2n (decide (4 ≤ s.rd (SPN_STATUS_STATE p)) && !s.spn[p].crossed)
      ∧ t.spn[p].errRun = (if 4 ≤ s.rd (SPN_STATUS_STATE p) ∧ s.spn[p].crossed = true ∧ s.spn[p].errStep = true
          then s.spn[p].errRun + 1 else 0)
      ∧ t.spn[p].crossed = false ∧ t.spn[p].errStep = false
      ∧ t = { s with spn := t.spn } ∧ s.otherPorts t p)

/-- R193, R197 to R204 and R207: the emergency retract, its drive, its end, and its clearing; a port's own retract; and the
admission of spin-ups (R175 to R177). That LINK_OK returns when RETRACTED is cleared is the model's choice (log
entry 22). -/
def Obligations.EmergencyRetract : Prop :=
  ∀ (s : State),
    (∀ cause : Fin 4, s.die.cause = 0 → ∃ t, exec (.emergencyRetract cause) s = .next (settle t)
      ∧ t.die.cause = cause.val + 1
      ∧ (∀ p : Fin 8, t.die.ports.getLsbD p = s.srv[p].loaded
        ∧ (2 ≤ s.rd (SPN_STATUS_STATE p) → s.rd (SPN_STATUS_STATE p) ≤ 8 → t.rd (SPN_STATUS_STATE p) = 6
            ∧ t.spn[p].dutyNow = 0 ∧ t.spn[p].fly = false)
        ∧ t.spn[p].underWay = s.spn[p].underWay
        ∧ (s.srv[p].loaded = true → t.rd (VCM_STATUS_RETRACTING p) = 1 ∧ t.rd (SRV_STATUS_WI_LATCH p) ≠ 0
            ∧ t.rd (CH_STATUS_WG p) = 0 ∧ t.srv[p].drive = s.retractProfile p)
        ∧ (cause.val ≤ 2 → t.rd (CH_STATUS_WG p) = 0))
      ∧ (cause.val = 0 → t.rd PS_STATUS_VMOT_OK = 0 ∧ t.rd SYS_PROTECT_VMOT_LOSS = 1)
      ∧ (cause.val = 3 → t.rd PS_STATUS_THERM_SHUTDOWN = 1 ∧ t.rd SYS_PROTECT_THERM_POWER = 1)
      ∧ t = { s with regs := t.regs, spn := t.spn, die := t.die, srv := t.srv, ch := t.ch, fmt := t.fmt })
    ∧ (∀ cause : Fin 4, s.die.cause ≠ 0 → ∃ t, exec (.emergencyRetract cause) s = .next (settle t)
      ∧ t = { s with regs := t.regs, ch := t.ch })
    ∧ (s.die.cause = 0 → ∃ t, exec .linkLoss s = .next (settle t)
      ∧ t.die.cause = 5 ∧ t.rd PS_STATUS_LINK_OK = 0
      ∧ (∀ p : Fin 8, t.die.ports.getLsbD p = s.srv[p].loaded)
      ∧ t = { s with regs := t.regs, spn := t.spn, die := t.die, srv := t.srv, ch := t.ch, fmt := t.fmt })
    ∧ (∀ vret : Bool, s.die.cause ≠ 0 → s.die.cause ≤ 5 → vret = true ∨ s.flag PS_STATUS_VMOT_OK = true →
      ∃ t, exec (.retractProfileEnd none vret) s = .next (settle t)
      ∧ t.die = { vret := s.die.vret } ∧ t.rd PS_STATUS_RETRACTED = 1 ∧ t.rd PS_STATUS_RETRACT_CAUSE = s.die.cause
      ∧ t.rd PS_STATUS_RETRACTED_PORTS = s.die.ports.toNat
      ∧ (∀ p : Fin 8, t.rd (FMT_CTX_FLAGS_FAULT p) ≠ 0
        ∧ (s.die.ports.getLsbD p = true → t.rd (SRV_STATUS_STATE p) = 0 ∧ t.srv[p].loaded = false
            ∧ t.rd (VCM_STATUS_RETRACTING p) = 0 ∧ t.srv[p].drive = []))
      ∧ t = { s with regs := t.regs, die := t.die, srv := t.srv, ch := t.ch, fmt := t.fmt })
    ∧ (s.die.cause ≠ 0 → s.flag PS_STATUS_VMOT_OK = false → ∃ t, exec (.retractProfileEnd none false) s = .next (settle t)
      ∧ t.die = { vret := false } ∧ t.rd PS_STATUS_VMOT_OK = 0 ∧ t.rd PS_STATUS_RETRACTED = 0
      ∧ (∀ p : Fin 8, s.die.ports.getLsbD p = true →
        (s.die.full.getLsbD p = true → t.srv[p].loaded = false)
        ∧ (s.die.full.getLsbD p = false → t.srv[p].loaded = s.srv[p].loaded ∧ t.srv[p].drive = []))
      ∧ t = { s with regs := t.regs, die := t.die, srv := t.srv, ch := t.ch, fmt := t.fmt })
    ∧ (∀ (p : Fin 8) (vret : Bool), s.rd (VCM_STATUS_RETRACTING p) = 1 → s.die.cause = 0 →
      s.rd (SPN_STATUS_STATE p) ≠ 7 → ∃ t, exec (.retractProfileEnd (some p) vret) s = .next (settle t)
      ∧ t.rd (SRV_STATUS_STATE p) = 0 ∧ t.srv[p].loaded = false ∧ t.rd (VCM_STATUS_RETRACTING p) = 0
      ∧ t.srv[p].drive = [] ∧ s.keeps t (VCM_STATUS_RETRACTING p :: unloadFields p)
      ∧ t = { s with regs := t.regs, srv := t.srv, ch := t.ch, fmt := t.fmt } ∧ s.otherPorts t p)
    ∧ (∀ holds : Bool, s.flag PS_STATUS_RETRACTED = true → s.causeHolds holds = false →
      s.regOn PS_RETRACT_CLR_WORD.addr = true → ∃ t, exec (.retractClear holds) s = .next (settle t)
      ∧ t.rd PS_STATUS_RETRACTED = 0 ∧ (s.jtag.ir ≠ 3 → s.jtag.ir ≠ 4 → t.rd PS_STATUS_LINK_OK = 1)
      ∧ s.keeps t [PS_STATUS_RETRACTED, PS_STATUS_LINK_OK] ∧ s.keepsSce t ∧ t = { s with regs := t.regs, sce := t.sce })
    ∧ (∃ t, exec .powerDieCooled s = .next (settle t) ∧ t.rd PS_STATUS_THERM_SHUTDOWN = 0
      ∧ s.keeps t [PS_STATUS_THERM_SHUTDOWN] ∧ t = { s with regs := t.regs })
    ∧ (∃ t, exec .vmotReturn s = .next (settle t) ∧ t.rd PS_STATUS_VMOT_OK = 1
      ∧ s.keeps t [PS_STATUS_VMOT_OK] ∧ t = { s with regs := t.regs, die := { s.die with vret := true } })
    ∧ (s.dieHeld = false → s.runs 14 = true → ∃ t, exec .spinupAdmit s = .next (settle t)
      ∧ (∀ p : Fin 8, s.rd (SPN_STATUS_STATE p) ≠ 1 → t.rd (SPN_STATUS_STATE p) = s.rd (SPN_STATUS_STATE p))
      ∧ (∀ p : Fin 8, s.rd (SPN_STATUS_STATE p) = 1 → t.rd (SPN_STATUS_STATE p) = 1 ∨ t.rd (SPN_STATUS_STATE p) = 2)
      ∧ (s.rd (SPN_STATUS_STATE 0) = 1 → s.spinups = 0 → 0 < s.rd PS_SPIN_SPIN_SLOTS →
          t.rd (SPN_STATUS_STATE 0) = 2 ∧ t.spn[(0 : Fin 8)].underWay = true)
      ∧ t = { s with regs := t.regs, spn := t.spn })
/-! ### Servo positioning and the control engine (chapters 5 and 6) -/

/-- R240 and R253 (LOAD), R253 and R254 (UNLOAD), R229, R230, R238 and R252 (SEEK), and R243 (an unload's end), with
their frames. -/
def Obligations.ServoCommands : Prop :=
  ∀ (p : Fin 8) (s : State),
    (s.rd (SRV_STATUS_STATE p) = 0 → s.rd (SPN_STATUS_STATE p) = 5 → s.dieHeld = false → 1666 ≤ s.nominalWedge p →
      s.regOn (SRV_CMD_WORD p).addr = true → ∃ t, exec (.srvLoad p) s = .next (settle t)
      ∧ t.rd (SRV_STATUS_STATE p) = 2 ∧ t.rd (SRV_PERIOD_PREDICTED p) = min (s.nominalWedge p) 0xFFFF
      ∧ t.srv[p].loaded = true ∧ t.srv[p].loadPending = true
      ∧ t.srv[p].drive = [.backEmf none (-(s.rampSign p * (4 * s.rd (SRV_LOAD_LOAD_VEL p) : Nat)))
          (2 * min 150 (s.rd (VCM_RETRACT_I_BREAK p))) (s.rd (VCM_COIL_RES_RES p))]
      ∧ s.keeps t [SRV_STATUS_STATE p, SRV_PERIOD_PREDICTED p]
      ∧ t = { s with regs := t.regs, srv := t.srv } ∧ s.otherPorts t p)
    ∧ (s.rd (SPN_STATUS_STATE p) ≠ 5 → s.regOn (SRV_CMD_WORD p).addr = true → ∃ t, exec (.srvLoad p) s = .next (settle t)
      ∧ t.rd (SRV_EVENT_CMD_REFUSED p) = 1
      ∧ s.keeps t [SRV_EVENT_CMD_REFUSED p] ∧ t = { s with regs := t.regs })
    ∧ (s.rd (SRV_STATUS_STATE p) ≠ 0 → s.rd (SRV_STATUS_STATE p) ≠ 7 →
      s.regOn (SRV_CMD_WORD p).addr = true → ∃ t, exec (.srvUnload p) s = .next (settle t)
      ∧ t.rd (SRV_STATUS_STATE p) = 7
      ∧ t.srv[p].guided = decide (3 ≤ s.rd (SRV_STATUS_STATE p) ∧ s.rd (SRV_STATUS_STATE p) ≤ 5)
      ∧ t.srv[p].seeking = false ∧ t.srv[p].loadPending = false
      ∧ (s.rd (SRV_STATUS_STATE p) = 4 → t.rd (SRV_STATUS_WI_LATCH p) = 1 ∧ t.rd (SRV_STATUS_WRITE_OK p) = 0
          ∧ t.rd (SRV_STATUS_READ_OK p) = 0)
      ∧ (¬ (3 ≤ s.rd (SRV_STATUS_STATE p) ∧ s.rd (SRV_STATUS_STATE p) ≤ 5) → s.rd (VCM_STATUS_RETRACTING p) = 0 →
          t.srv[p].drive = s.retractProfile p)
      ∧ s.keeps t (unloadFields p)
      ∧ t = { s with regs := t.regs, srv := t.srv, sce := t.sce, ch := t.ch, fmt := t.fmt }
      ∧ s.keepsSce t ∧ s.otherPorts t p)
    ∧ (∀ head accel : Fin 16, s.seekOk p head = true → s.regOn (SRV_CMD_WORD p).addr = true → ∃ t, exec (.srvSeek p head accel) s = .next (settle t)
      ∧ t.rd (SRV_STATUS_STATE p) = (if s.rd (SRV_SEEK2_SHORT_DIST p) <
          (s.rdI (SRV_TARGET_TARGET p) - s.rdI (SRV_POS_POS p)).natAbs then 5 else 3)
      ∧ t.srv[p].seeking = true ∧ t.srv[p].accel = min accel.val s.govLevel
      ∧ t.srv[p].pendHead = (if head.val = s.rd (SRV_STATUS_HEAD p) then none else some head.val)
      ∧ s.keeps t (GOV_CLIP_SEEK_COUNT :: unloadFields p)
      ∧ t = { s with regs := t.regs, srv := t.srv, sce := t.sce, ch := t.ch, fmt := t.fmt }
      ∧ s.keepsSce t ∧ s.otherPorts t p)
    ∧ (∀ head accel : Fin 16, s.seekOk p head = false → s.regOn (SRV_CMD_WORD p).addr = true → ∃ t, exec (.srvSeek p head accel) s = .next (settle t)
      ∧ t.rd (SRV_EVENT_CMD_REFUSED p) = 1
      ∧ s.keeps t [SRV_EVENT_CMD_REFUSED p] ∧ t = { s with regs := t.regs })
    ∧ (s.portRuns p = true → s.rd (SRV_STATUS_STATE p) = 7 → s.srv[p].guided = false →
      s.rd (VCM_STATUS_RETRACTING p) = 0 → ∃ t, exec (.unloadDone p) s = .next (settle t)
      ∧ t.rd (SRV_STATUS_STATE p) = 0 ∧ t.rd (SRV_EVENT_UNLOAD_DONE p) = 1 ∧ t.srv[p].loaded = false ∧ t.srv[p].cmd = 0
      ∧ (s.rd (SPN_STATUS_STATE p) ≠ 7 → t.rd (SPN_STATUS_STATE p) = s.rd (SPN_STATUS_STATE p))
      ∧ (s.rd (SPN_STATUS_STATE p) = 7 → s.spn[p].after = 6 ∨ s.spn[p].after = 8 →
          t.rd (SPN_STATUS_STATE p) = s.spn[p].after ∧ t.sce = s.sce)
      ∧ (s.rd (SPN_STATUS_STATE p) = 7 → s.spn[p].after = 4 → t.rd (SPN_STATUS_STATE p) = 4
          ∧ t.rd (SPN_EVENT_FLY_OK p) = 1 ∧ t.spn[p].duty = 0 ∧ t.sce.ctx[ctxOf (3 * p.val + 2)].m1 = 0)
      ∧ (∀ c : Fin 24, c ≠ ctxOf (3 * p.val + 2) → t.sce.ctx[c] = s.sce.ctx[c])
      ∧ s.keeps t ([SRV_EVENT_UNLOAD_DONE p, SPN_STATUS_STATE p, SPN_PERIOD_MEASURED p, SPN_EVENT_FLY_OK p]
          ++ unloadFields p)
      ∧ t = { s with regs := t.regs, spn := t.spn, srv := t.srv, sce := t.sce, ch := t.ch, fmt := t.fmt }
      ∧ s.otherPorts t p)

/-- R225 (servo loss), R228 (no reacquisition), R236 (the seek time-out), R242 (the load time-out), R247 and R248
(shock), with their frames, while PD_SERVO's logic runs on the port (R48). -/
def Obligations.ServoFailures : Prop :=
  ∀ (p : Fin 8) (s : State), s.portRuns p = true →
    (max 1 (s.rd (SRV_LOSS_MISS_LIMIT p)) ≤ s.srv[p].badRun → 3 ≤ s.rd (SRV_STATUS_STATE p) →
      s.rd (SRV_STATUS_STATE p) ≤ 5 → ∃ t, exec (.servoLoss p) s = .next (settle t)
      ∧ t.rd (SRV_STATUS_STATE p) = 6 ∧ t.rd (SRV_EVENT_LOST p) = 1 ∧ t.rd (SRV_STATUS_WI_LATCH p) = 1
      ∧ t.rd (CH_STATUS_WG p) = 0 ∧ t.rd (CH_STATUS_RG p) = 0 ∧ t.srv[p].gateOpen = true ∧ t.srv[p].badRun = 0
      ∧ (s.rd (CH_STATUS_RG p) = 0 → s.keeps t (SRV_EVENT_LOST p :: unloadFields p))
      ∧ t = { s with regs := t.regs, srv := t.srv, ch := t.ch, fmt := t.fmt } ∧ s.otherPorts t p)
    ∧ (s.rd (SRV_STATUS_STATE p) = 6 → ∃ t, exec (.servoRecoveryTimeout p) s = .next (settle t)
      ∧ t.rd (SRV_EVENT_LOSS_FAIL p) = 1 ∧ t.rd (SRV_STATUS_STATE p) = 7 ∧ t.srv[p].guided = false
      ∧ t.rd (FMT_CTX_FLAGS_FAULT p) ≠ 0
      ∧ s.keeps t (SRV_EVENT_LOSS_FAIL p :: unloadFields p)
      ∧ t = { s with regs := t.regs, srv := t.srv, ch := t.ch, fmt := t.fmt } ∧ s.otherPorts t p)
    ∧ (s.srv[p].seeking = true → s.srv[p].seekTold = false → s.rd (SRV_SEEK2_SEEK_TIMEOUT p) ≤ s.srv[p].seekWedges →
      ∃ t, exec (.seekTimeout p) s = .next (settle t)
      ∧ t.rd (SRV_EVENT_SEEK_TIMEOUT p) = 1 ∧ t.srv[p].seekTold = true
      ∧ s.keeps t [SRV_EVENT_SEEK_TIMEOUT p]
      ∧ t = { s with regs := t.regs, srv := t.srv } ∧ s.otherPorts t p)
    ∧ (s.srv[p].seekTold = true → exec (.seekTimeout p) s = .next (settle s))
    ∧ (s.rd (SRV_STATUS_STATE p) = 1 ∨ s.rd (SRV_STATUS_STATE p) = 2 → s.srv[p].loadPending = true →
      ∃ t, exec (.loadTimeout p) s = .next (settle t)
      ∧ t.rd (SRV_EVENT_LOAD_FAIL p) = 1 ∧ t.rd (SRV_STATUS_STATE p) = 7 ∧ t.srv[p].guided = false
      ∧ s.keeps t (SRV_EVENT_LOAD_FAIL p :: unloadFields p)
      ∧ t = { s with regs := t.regs, srv := t.srv, ch := t.ch, fmt := t.fmt } ∧ s.otherPorts t p)
    ∧ (∃ t, exec .shockNAssert s = .next (settle t) ∧ t.shockLow = true
      ∧ (∀ q : Fin 8, t.rd (SRV_STATUS_WI_LATCH q) ≠ 0 ∧ t.rd (SRV_STATUS_WRITE_OK q) = 0 ∧ t.rd (CH_STATUS_WG q) = 0
          ∧ t.srv[q].shockHeld = true)
      ∧ t = { s with regs := t.regs, shockLow := t.shockLow, srv := t.srv, ch := t.ch, fmt := t.fmt })
    ∧ (∃ t, exec .shockNRelease s = .next (settle t) ∧ t.shockLow = false
      ∧ (∀ q : Fin 8, t.srv[q].shockLeft = s.rd (SRV_WI_SHOCK_HOLD q) ∧ t.srv[q].shockHeld = s.srv[q].shockHeld)
      ∧ t = { s with shockLow := t.shockLow, srv := t.srv })
    ∧ (s.shockLow = false → s.srv[p].shockLeft = 0 → ∃ t, exec (.shockHoldEnd p) s = .next (settle t)
      ∧ t.srv[p].shockHeld = false ∧ t = { s with srv := t.srv } ∧ s.otherPorts t p)

/-- R214 and R340 (a servo gate opens), R217, R224 and R246 (a bad wedge), R208 to R211, R215, R220 to R222 (a good wedge's
cells and bursts read, its position, error and velocity), and the frame of a wedge, while the port's logic runs (R48).
The weights of the DFT are free values (log entry 23). -/
def Obligations.ServoWedges : Prop :=
  ∀ (p : Fin 8) (s : State), s.runs (2 + p.val) = true →
    (s.portRuns p = true → s.rd (SRV_STATUS_STATE p) ≠ 0 → ∃ t, exec (.servoGateOpen p) s = .next (settle t)
      ∧ t.rd (CH_STATUS_RG p) = 0 ∧ t.rd (CH_STATUS_WG p) = 0 ∧ t.srv[p].gateOpen = true
      ∧ (s.ch[p].writing = true → t.ch[p].cut = true)
      ∧ (s.rd (CH_STATUS_RG p) = 0 → s.keepsOutside t [portRegs p, fmtCtxRegs p, fldReg SYS_LOOP_SAT_AGC])
      ∧ t = { s with regs := t.regs, srv := t.srv, ch := t.ch, fmt := t.fmt } ∧ s.otherPorts t p)
    ∧ (∀ w : Wedge, 3 ≤ s.rd (SRV_STATUS_STATE p) → s.rd (SRV_STATUS_STATE p) ≤ 5 →
      w.start = none ∨ s.rd (SRV_SAM_ERR_TOL p) < countIdx (s.rd (SRV_SAM_SAM_LEN p)) (fun i =>
        w.cells.getD i false != (s.rd (SRV_SAM_PATTERN p)).testBit (s.rd (SRV_SAM_SAM_LEN p) - 1 - i)) →
      ∃ t, exec (.servoWedge p w) s = .next (settle t)
      ∧ t.rd (SRV_COUNT_BAD_WEDGE p) = satInc 16 (s.rd (SRV_COUNT_BAD_WEDGE p))
      ∧ t.rd (SRV_STATUS_WI_LATCH p) = 1 ∧ t.rd (SRV_STATUS_WRITE_OK p) = 0
      ∧ (s.srv[p].swLeft = 0 → t.srv[p].badRun = s.srv[p].badRun + 1)
      ∧ t.srv[p].expected = (s.srv[p].expected + 1) % s.wedges p
      ∧ s.keepsOutside t [portRegs p, fmtCtxRegs p, fldReg SYS_LOOP_SAT_AGC]
      ∧ t = { s with regs := t.regs, srv := t.srv, ch := t.ch, fmt := t.fmt, freeCtr := t.freeCtr }
      ∧ s.otherPorts t p)
    ∧ (∀ (w : Wedge) (o : Int) (g : Nat), s.rd (SRV_STATUS_STATE p) = 4 → s.srv[p].swLeft = 0 →
      w.start = some o → o.natAbs ≤ s.rd (SRV_GATE_SAM_WIN p) → s.samDiff p w.cells ≤ s.rd (SRV_SAM_ERR_TOL p) →
      dibits w.cells (s.rd (SRV_SAM_SAM_LEN p)) (s.rd (SRV_FMT_G_BITS p)) = some g →
      dibits w.cells (s.rd (SRV_SAM_SAM_LEN p) + 2 * s.rd (SRV_FMT_G_BITS p)) (s.rd (SRV_FMT_W_BITS p))
        = some s.srv[p].expected →
      ungray (s.rd (SRV_FMT_G_BITS p)) g / 2 ≤ s.rd (SRV_MAXTRACK_MAX_TRACK p) →
      let cell := s.rd (SRV_CELLS_CELL p)
      let x := fun k => s.cellSamples p (s.rd (SRV_CELLS_BURST p)) (w.bursts.getD k [])
      let fits := fun (i : Int) => -2147483648 ≤ i ∧ i ≤ 2147483647
      let a := fun k => burstAmp (s.rd (SRV_CELLS_SHIFT p)) (dftSum (dftCos cell) (x k), dftSum (dftSin cell) (x k))
      let n : Int := (a 0 : Int) - a 1
      let q : Int := (a 2 : Int) - a 3
      (∀ k : Fin 4, fits (dftSum (dftCos cell) (x k)) ∧ fits (dftSum (dftSin cell) (x k))) →
      s.rd (SRV_LOSS_BURST_MIN p) ≤ n.natAbs + q.natAbs →
      ∃ t, exec (.servoWedge p w) s = .next (settle t)
      ∧ (∃ free : Int,
        let pos := position (ungray (s.rd (SRV_FMT_G_BITS p)) g) n q (n.natAbs + q.natAbs) free;
        -128 ≤ free ∧ free ≤ 127 ∧ t.rd (SRV_POS_POS p) = unsignedOf (SRV_POS_POS p).w pos
        ∧ t.srv[p].vel = (if s.srv[p].posSeen then pos - s.rdI (SRV_POS_POS p) else 0))
      ∧ t.rd (SRV_BURST_AB_A p) = a 0 ∧ t.rd (SRV_BURST_AB_B p) = a 1 ∧ t.rd (SRV_BURST_CD_C p) = a 2
      ∧ t.rd (SRV_BURST_CD_D p) = a 3
      ∧ t.srv[p].badRun = 0 ∧ t.srv[p].posSeen = true
      ∧ t.rd (SRV_COUNT_BAD_WEDGE p) = s.rd (SRV_COUNT_BAD_WEDGE p)
      ∧ t = { s with regs := t.regs, srv := t.srv, sce := t.sce, ch := t.ch, fmt := t.fmt, freeCtr := t.freeCtr })

/-- R262, R283 and R284 (a driving update of the request that comes next), R258 and R281 (a tracking update), R259 (the spindle's
duty), R288 (initialisation), R290 (a coefficient), R292 (CLEAR_STATES) and R293 (a state captured). -/
def Obligations.ControlEngine : Prop :=
  ∀ (s : State), s.runs 14 = true →
    (∀ r : SceReq, s.dropIdle.pickReq 0 = some r → ∃ t, exec .sceDrivingUpdate s = .next (settle t)
      ∧ t.rd (CTX_STATUS_ROLE (ctxOf r.ctx)) = 1
      ∧ (∀ x ∈ t.sce.queue, x.ctx ≠ r.ctx) ∧ t.sce.ctx[ctxOf r.ctx].tracked = false
      ∧ (∀ c : Fin 24, c ≠ ctxOf r.ctx → t.sce.ctx[c] = s.sce.ctx[c])
      ∧ t = { s with regs := t.regs, spn := t.spn, srv := t.srv, sce := t.sce })
    ∧ (∀ r : SceReq, s.dropIdle.topClass = some 1 → s.dropIdle.pickReq 1 = some r → ctxKind (ctxOf r.ctx) = 2 →
      ∃ t, exec .sceSpindleUpdate s = .next (settle t)
      ∧ t.rd (CTX_STATUS_ROLE (ctxOf r.ctx)) = 1
      ∧ (t.spn[ctxPort (ctxOf r.ctx)].duty : Int) ≤ (s.ctxClamp (ctxOf r.ctx) 0).2
      ∧ (s.ctxClamp (ctxOf r.ctx) 0).1 ≤ (t.spn[ctxPort (ctxOf r.ctx)].duty : Int)
      ∧ (∀ x ∈ t.sce.queue, x.ctx ≠ r.ctx)
      ∧ t = { s with regs := t.regs, spn := t.spn, sce := t.sce })
    ∧ (∀ (r : SceReq) (sense : Word), s.dropIdle.topClass = some 2 → s.dropIdle.pickReq 2 = some r →
      ctxKind (ctxOf r.ctx) ≠ 2 → ∃ t, exec (.sceTrackingUpdate sense) s = .next (settle t)
      ∧ t.rd (CTX_STATUS_ROLE (ctxOf r.ctx)) = 2 ∧ t.rd (CTX_STATUS_BLENDING (ctxOf r.ctx)) = s.rd (CTX_STATUS_BLENDING (ctxOf r.ctx))
      ∧ t.rd (CTX_STATUS_BAND (ctxOf r.ctx)) = s.rd (CTX_STATUS_BAND (ctxOf r.ctx))
      ∧ t.sce.ctx[ctxOf r.ctx].sat = s.sce.ctx[ctxOf r.ctx].sat ∧ t.sce.ctx[ctxOf r.ctx].k = s.sce.ctx[ctxOf r.ctx].k
      ∧ t.sce.ctx[ctxOf r.ctx].m1 = signedOf 16 sense.toNat * 1048576
      ∧ t.sce.ctx[ctxOf r.ctx].m2 = 0 ∧ t.sce.ctx[ctxOf r.ctx].p1 = 0 ∧ t.sce.ctx[ctxOf r.ctx].q1 = 0
      ∧ t.sce.ctx[ctxOf r.ctx].tracked = true
      ∧ t = { s with regs := t.regs, sce := t.sce })
    ∧ (s.rd SCE_STATUS_INIT_DONE = 1 → exec .sceInitDone s = .next (settle s))
    ∧ (s.rd SCE_STATUS_INIT_DONE = 0 → ∃ t, exec .sceInitDone s = .next (settle t) ∧ t.rd SCE_STATUS_INIT_DONE = 1
      ∧ (∀ a, 0x300B0000 ≤ a → a < 0x300BC600 → t.reg a = regReset a)
      ∧ (∀ c : Fin 24, t.sce.ctx[c] = {})
      ∧ s.keepsOutside t [(0x300B0000, 0x300BC600), fldReg SCE_STATUS_INIT_DONE]
      ∧ t = { s with regs := t.regs, sce := t.sce })
    ∧ (∀ c : Fin 24, ∃ t, exec (.clearStates c) s = .next (settle t) ∧ t.sce.ctx[c].clear = true
      ∧ (∀ d : Fin 24, d ≠ c → t.sce.ctx[d] = s.sce.ctx[d]) ∧ t = { s with sce := t.sce })
    ∧ (∀ (c : Fin 24) (set : Fin 16) (w : Fin 32) (v : Word), s.flag SCE_STATUS_INIT_DONE = true → w.val < 18 →
      w.val ≠ 7 → ∃ t, exec (.coefficientWrite c set w v) s = .next (settle t)
      ∧ t.coef c set w = signedOf 24 v.toNat
      ∧ (s.role c = 1 → s.rd (CTX_STATUS_SET c) = set.val → t.bit SCE_LIVE_WRITE_CTX c = true)
      ∧ (s.role c ≠ 1 → s.keeps t [SCE_COEF_WORD c set w])
      ∧ s.keeps t [SCE_COEF_WORD c set w, SCE_LIVE_WRITE_CTX] ∧ t = { s with regs := t.regs })
    ∧ (∀ c : Fin 24, s.flag SCE_STATUS_INIT_DONE = true → ∃ t, exec (.stateCaptureRead c) s = .next (settle t)
      ∧ (let u := unsignedOf 64 (s.sce.ctx[c].pick (s.rd (CTX_STATE_IDX_IDX c)))
         t.rd (CTX_STATE_LO_LO c) = u % 2 ^ 32 ∧ t.rd (CTX_STATE_HI_WORD c) = u / 2 ^ 32 % 2 ^ 32)
      ∧ s.keeps t [CTX_STATE_LO_LO c, CTX_STATE_HI_WORD c] ∧ t = { s with regs := t.regs, sce := t.sce })
/-! ### The read and write channel (chapter 7) -/

/-- R297 (a zone load), R299 (held while a gate is open, and taken when it closes), R298 (its frames), R320 and R341
(a tap written), with their frames. -/
def Obligations.ChannelZones : Prop :=
  ∀ (p : Fin 8) (s : State),
    (∀ z : Fin 32, s.rd (CH_STATUS_RG p) = 0 → s.rd (CH_STATUS_WG p) = 0 →
      s.regOn (CH_ZONE_WORD p).addr = true → ∃ t, exec (.zoneLoad p z) s = .next (settle t)
      ∧ t.rd (CH_ZONE_ZONE p) = z.val
      ∧ (∀ i ∈ [0, 1, 2, 3, 10, 11, 12, 13], t.rd (CH_ACT_WORD p i) = s.rd (CH_ZMEM_WORD p z i))
      ∧ (∀ i : Fin 12, t.rd (EQ_TAP_VALUE p i) = s.rd (CH_ZMEM_WORD p z (4 + i / 2)) / 2 ^ (16 * (i.val % 2)) % 4096
          ∧ t.rd (EQ_TAP_BASE p i) = t.rd (EQ_TAP_VALUE p i))
      ∧ t.rd (TR_STATUS_FREQ p) = 0 ∧ t.rd (AGC_STATUS_D p) = 0
      ∧ (s.rd (AGC_ENV_PIN_EN p) = 0 → t.rd (AGC_STATUS_V p) = s.rd (CH_ZMEM_WORD p z 1) / 2 ^ 24)
      ∧ t.ch[p].loading = some z.val
      ∧ s.keepsOutside t [portRegs p] ∧ t = { s with regs := t.regs, ch := t.ch } ∧ s.otherPorts t p)
    ∧ (∀ z : Fin 32, s.rd (CH_STATUS_RG p) = 1 ∨ s.rd (CH_STATUS_WG p) = 1 →
      s.regOn (CH_ZONE_WORD p).addr = true → ∃ t, exec (.zoneLoad p z) s = .next (settle t)
      ∧ t.rd (CH_STATUS_LOAD_PENDING p) = 1 ∧ t.rd (CH_EVENT_LOAD_DEFERRED p) = 1 ∧ t.ch[p].held = some z.val
      ∧ s.keeps t [CH_STATUS_LOAD_PENDING p, CH_EVENT_LOAD_DEFERRED p]
      ∧ t = { s with regs := t.regs, ch := t.ch } ∧ s.otherPorts t p)
    ∧ (∀ z, s.ch[p].held = some z → z < 32 → s.rd (CH_STATUS_RG p) = 0 → s.rd (CH_STATUS_WG p) = 0 →
      s.runs (2 + p.val) = true → ∃ t, exec (.zoneLoadDeferred p) s = .next (settle t)
      ∧ t.rd (CH_STATUS_LOAD_PENDING p) = 0 ∧ t.rd (CH_ZONE_ZONE p) = z ∧ t.ch[p].held = none
      ∧ t.ch[p].loading = some z
      ∧ (∀ i ∈ [0, 1, 2, 3, 10, 11, 12, 13], t.rd (CH_ACT_WORD p i) = s.rd (CH_ZMEM_WORD p z i))
      ∧ s.keepsOutside t [portRegs p] ∧ t = { s with regs := t.regs, ch := t.ch } ∧ s.otherPorts t p)
    ∧ (∀ z, s.ch[p].loading = some z → s.runs (2 + p.val) = true → ∃ t, exec (.zoneLoadDone p) s = .next (settle t)
      ∧ t.ch[p].loading = none
      ∧ t.ch[p].frames = s.ch[p].frames
          ++ ([14, 15].filter (fun i => (s.rd (CH_ZMEM_WORD p z i)).testBit 31)).map (fun i =>
              { kind := 1, frame := s.rd (CH_ZMEM_WORD p z i) % 65536 : PaFrame })
      ∧ s.keeps t [PA_STATUS_BUSY p, PA_STATUS_HW_PENDING p, CH_STATUS_PA_FRAMES_PENDING p]
      ∧ t = { s with regs := t.regs, ch := t.ch } ∧ s.otherPorts t p)
    ∧ (∀ (i : Fin 12) (v : BitVec 12), s.regOn (EQ_TAP_WORD p i).addr = true → ∃ t, exec (.eqTapWrite p i v) s = .next (settle t)
      ∧ t.rdI (EQ_TAP_VALUE p i) = v.toInt ∧ t.rdI (EQ_TAP_BASE p i) = v.toInt ∧ t.ch[p].satLms = {}
      ∧ s.keeps t [EQ_TAP_WORD p i] ∧ t = { s with regs := t.regs, ch := t.ch } ∧ s.otherPorts t p)

/-- R301, R304 and R310 (the AGC's update on a window), R311, R313 to R315 (a CHAN cycle of the read path and the timing
loop), R321 to R323 (the sync mark and the input LLRs) and R316 to R319 (the LMS loop), while the port's logic runs (R48).
The detector's decisions come with a cycle's samples (log entry 23). -/
def Obligations.ChannelLoops : Prop :=
  ∀ (p : Fin 8) (s : State), s.runs (2 + p.val) = true →
    (∀ sum count : Nat, s.rd (CH_STATUS_RG p) = 1 → s.rd (AGC_ENV_PIN_EN p) = 0 →
      s.ch[p].agcWin = some (sum, count) → 0 < count →
      let k := if s.flag (CH_STATUS_SYNC_FOUND p) then s.rd (AGC_CFG_KG_TRK p) else s.rd (AGC_CFG_KG_ACQ p)
      let d := clampInt (-1536) 1535 (s.rdI (AGC_STATUS_D p)
        + (((s.rd (AGC_CFG_TARGET p) : Int) - ((sum / count : Nat) : Int)) * 256) / 2 ^ k)
      let env := fun v => s.agcClamp p v
      let v := env ((s.rd (AGC_STATUS_V p) : Int) + clampInt (-8) 8 (roundHalfAway d 64))
      ∃ t, exec (.agcWindowUpdate p) s = .next (settle t)
      ∧ (s.rd (AGC_CFG_FAST p) = 0 ∨ d.natAbs < 128 → t.rdI (AGC_STATUS_D p) = d
          ∧ t.rd (AGC_STATUS_V p) = s.rd (AGC_STATUS_V p) ∧ s.keeps t [AGC_STATUS_D p]
          ∧ t.ch[p].steps = s.ch[p].steps)
      ∧ (s.rd (AGC_CFG_FAST p) = 2 → 128 ≤ d.natAbs → (t.rd (AGC_STATUS_V p) : Int) = v
          ∧ (v ≠ s.rd (AGC_STATUS_V p) → t.rd (CH_EVENT_FA_STEP p) = 1
              ∧ t.rd (CH_COUNT_FA_STEP p) = satInc 16 (s.rd (CH_COUNT_FA_STEP p))
              ∧ t.ch[p].steps = s.ch[p].steps ++ [(s.ch[p].samples + 24, v - s.rd (AGC_STATUS_V p))]))
      ∧ t.ch[p].agcWin = none
      ∧ s.keeps t [AGC_STATUS_D p, AGC_STATUS_V p, CH_EVENT_FA_STEP p, CH_COUNT_FA_STEP p, CH_EVENT_AGC_SAT p,
          SYS_LOOP_SAT_AGC]
      ∧ t = { s with regs := t.regs, ch := t.ch } ∧ s.otherPorts t p)
    ∧ (s.rd (AGC_ENV_PIN_EN p) = 1 ∨ s.rd (CH_STATUS_RG p) = 0 → ∃ t, exec (.agcWindowUpdate p) s = .next (settle t)
      ∧ t = { s with ch := t.ch } ∧ s.otherPorts t p)
    ∧ (∀ (samples : List (BitVec 7)) (dec : Byte), 0 ≤ s.ch[p].acc → s.ch[p].acc < 16777216 →
      0 ≤ (s.rd (CH_NCO_STEP p) : Int) + s.rdI (TR_STATUS_FREQ p) →
      let c := s.ch[p]
      let sum := c.acc + samples.length * ((s.rd (CH_NCO_STEP p) : Int) + s.rdI (TR_STATUS_FREQ p))
      ∃ t, exec (.timingLoopUpdate p samples dec) s = .next (settle t)
      ∧ t.ch[p].samples = c.samples + samples.length
      ∧ (t.ch[p].symbols : Int) = c.symbols + sum / 16777216
      ∧ (s.rd (CH_STATUS_RG p) = 0 → t.ch[p].acc = sum % 16777216 ∧ t = { s with ch := t.ch } ∧ s.otherPorts t p))
    ∧ (∀ (samples : List (BitVec 7)) (dec : Byte), s.rd (CH_STATUS_RG p) = 1 → s.rd (TR_CFG_FREQ_LIM p) < 32768 →
      let after := s.ch[p].cycle ((s.rd (CH_NCO_STEP p) : Int) + s.rdI (TR_STATUS_FREQ p)) (s.rdI (AGC_STATUS_D p)) samples dec
      let syms := after.2
      let ys := s.ch[p].lastY :: syms.map (s.eqOut p)
      let rs := s.ch[p].lastR :: syms.map (s.ideal p)
      let pe := ((List.range syms.length).map (fun i =>
        if (syms.map Sym.erased).getD i true then 0 else ys.getD (i + 1) 0 * rs.getD i 0 - ys.getD i 0 * rs.getD (i + 1) 0)).sum
      ∃ t, exec (.timingLoopUpdate p samples dec) s = .next (settle t)
      ∧ (let found := s.flag (CH_STATUS_SYNC_FOUND p)
         let kp := if found then s.rd (TR_GAINS_KP_TRK p) else s.rd (TR_GAINS_KP_ACQ p)
         let ki := if found then s.rd (TR_GAINS_KI_TRK p) else s.rd (TR_GAINS_KI_ACQ p)
         t.ch[p].acc = (after.1.acc + pe / 2 ^ kp) % 16777216
         ∧ (s.rd (TR_PIN_PIN_EN p) = 0 → t.rdI (TR_STATUS_FREQ p) =
             clampInt (-(s.rd (TR_CFG_FREQ_LIM p) : Int)) (s.rd (TR_CFG_FREQ_LIM p))
               (s.rdI (TR_STATUS_FREQ p) + pe / 2 ^ ki)))
      ∧ (s.rd (TR_PIN_PIN_EN p) = 1 → t.rdI (TR_STATUS_FREQ p) = s.rdI (TR_PIN_PIN_FREQ p) ∧ t.ch[p].satTr = {})
      ∧ (∀ k, syms = [k] → t.ch[p].equalized = s.ch[p].equalized + 1
        ∧ t.ch[p].decs = ((k.a0, k.erased) :: s.ch[p].decs).take 32
        ∧ (let start := s.ch[p].equalized - 31
           let mid := 8 * s.rd (CH_FRAME_PRE_LEN p)
           s.ch[p].syncAt = none → t.ch[p].syncAt =
            (if 31 ≤ s.ch[p].equalized ∧ s.ch[p].missed = false
                ∧ mid ≤ start + s.rd (CH_FRAME_SYNC_WIN p) ∧ start ≤ mid + s.rd (CH_FRAME_SYNC_WIN p)
                ∧ countIdx 32 (fun i => (t.ch[p].decs.getD i (false, true)).1 != (s.rd (CH_SYNC_PATTERN p)).testBit i
                    || (t.ch[p].decs.getD i (false, true)).2) ≤ s.rd (CH_FRAME_SYNC_TOL p)
             then some start else none))
        ∧ (let j := s.ch[p].slot
           s.ch[p].syncAt.isSome = true → j < 48 → s.rd (IDU_SLOT_STATE j) = 1 → s.rd (IDU_SLOT_OWNER j) = p.val →
           s.ch[p].llrs < codeBits (s.flag (CH_AFE_CODE p)) → t.ch[p].llrs = s.ch[p].llrs + 1
            ∧ t.idu.slots[slotOf j].inp.getD s.ch[p].llrs 0 =
              (if k.erased then 0
               else clampInt (-15) 15 (roundHalfAway (s.eqOut p k * s.rd (CH_TARGET_LLR_SCALE p)) 256))))
      ∧ s.keeps t [TR_STATUS_FREQ p, CH_EVENT_TR_SAT p, SYS_LOOP_SAT_TIMING, INT_INJECT_ARM]
      ∧ t = { s with regs := t.regs, ecc := t.ecc, idu := t.idu, ch := t.ch } ∧ s.otherPorts t p)
    ∧ (∀ k : Sym, s.rd (CH_STATUS_RG p) = 1 → s.rd (CH_STATUS_SYNC_FOUND p) = 1 → s.ch[p].lastSym = some k →
      s.rd (EQ_CFG_FREEZE p) = 0 → ∃ t, exec (.lmsUpdate p) s = .next (settle t)
      ∧ (∀ i : Fin 12, t.rdI (EQ_TAP_VALUE p i) =
          (if s.bit (EQ_CFG_PIN p) i then s.rdI (EQ_TAP_VALUE p i)
           else clampInt (max (-2048) (s.rdI (EQ_TAP_BASE p i) - s.rd (EQ_CFG_DEV p)))
             (min 2047 (s.rdI (EQ_TAP_BASE p i) + s.rd (EQ_CFG_DEV p)))
             (s.rdI (EQ_TAP_VALUE p i)
               - ((s.eqOut p k - s.ideal p k) * k.x.getD i 0) / 2 ^ s.rd (EQ_CFG_MU_SHIFT p)))
          ∧ t.rd (EQ_TAP_BASE p i) = s.rd (EQ_TAP_BASE p i))
      ∧ t.ch[p].lastSym = none
      ∧ s.keepsOutside t [portRegs p, fldReg SYS_LOOP_SAT_LMS]
      ∧ t = { s with regs := t.regs, ch := t.ch } ∧ s.otherPorts t p)
    ∧ (s.rd (EQ_CFG_FREEZE p) = 1 → ∃ t, exec (.lmsUpdate p) s = .next (settle t)
      ∧ t = { s with ch := t.ch } ∧ s.otherPorts t p)
    ∧ (s.rd (CH_STATUS_RG p) = 1 → s.ch[p].syncAt.isSome = true → ∃ t, exec (.syncDetect p) s = .next (settle t)
      ∧ t.rd (CH_STATUS_SYNC_FOUND p) = 1 ∧ s.keeps t [CH_STATUS_SYNC_FOUND p] ∧ t = { s with regs := t.regs })
    ∧ (s.rd (CH_STATUS_RG p) = 1 → s.ch[p].syncAt = none → s.ch[p].missed = false →
      8 * s.rd (CH_FRAME_PRE_LEN p) + s.rd (CH_FRAME_SYNC_WIN p) + 32 ≤ s.ch[p].equalized →
      ∃ t, exec (.syncMiss p) s = .next (settle t)
      ∧ t.rd (CH_EVENT_SYNC_MISS p) = 1 ∧ t.rd (CH_COUNT_SYNC_MISS p) = satInc 16 (s.rd (CH_COUNT_SYNC_MISS p))
      ∧ t.ch[p].missed = true
      ∧ s.keeps t [CH_EVENT_SYNC_MISS p, CH_COUNT_SYNC_MISS p]
      ∧ t = { s with regs := t.regs, ch := t.ch } ∧ s.otherPorts t p)

/-- R359 (a slot FILLED), R325 and R302 (the read gate), R326 to R330, R332, R458 (the write gate and what it writes), R331
and R333 (a write's end), R336 to R339 (the preamp), while the port's logic runs (R48). -/
def Obligations.ChannelGates : Prop :=
  ∀ (p : Fin 8) (s : State), s.portRuns p = true → s.runs (2 + p.val) = true →
    (let j := s.ch[p].slot
     codeBits (s.flag (CH_AFE_CODE p)) ≤ s.ch[p].llrs → s.ch[p].llrDone = false → s.rd (IDU_SLOT_STATE j) = 1 → j < 48 →
      s.rd (IDU_SLOT_OWNER j) = p.val → ∃ t, exec (.llrSlotFilled p) s = .next (settle t)
      ∧ t.rd (IDU_SLOT_STATE j) = 2 ∧ t.ch[p].llrDone = true
      ∧ s.keeps t (slotFields [j])
      ∧ t = { s with regs := t.regs, ch := t.ch } ∧ s.otherPorts t p)
    ∧ (∀ (g : Gate) (j : Nat), startedGate false s.fmt[p].gates = some g → (s.portAlloc p).1 = some j →
      ∃ t, exec (.readGateOpen p) s = .next (settle t)
      ∧ t.rd (CH_STATUS_RG p) = 1 ∧ t.rd (CH_STATUS_SYNC_FOUND p) = 0 ∧ t.rd (IDU_SLOT_STATE j) = 1
      ∧ t.rd (IDU_SLOT_OWNER j) = p.val ∧ t.ch[p].slot = j ∧ t.ch[p].llrDone = false ∧ t.ch[p].missed = false
      ∧ t.ch[p].llrs = 0 ∧ t.ch[p].syncAt = none
      ∧ t.fmt[p].gates = mapStarted false (fun g => { g with isOpen := true, llr := some j }) s.fmt[p].gates
      ∧ s.keeps t [CH_STATUS_RG p, CH_STATUS_SYNC_FOUND p, IDU_SLOT_STATE j, IDU_SLOT_OWNER j, IDU_SLOT_FREE_FREE,
          IDU_SLOT_FREE_RESERVED_SUM]
      ∧ t = { s with regs := t.regs, ch := t.ch, fmt := t.fmt } ∧ s.otherPorts t p)
    ∧ (∀ g : Gate, startedGate false s.fmt[p].gates = some g → (s.portAlloc p).1 = none →
      ∃ t, exec (.readGateOpen p) s = .next (settle t)
      ∧ t.rd IDU_COUNT_ALLOC_FAIL = satInc IDU_COUNT_ALLOC_FAIL.w (s.rd IDU_COUNT_ALLOC_FAIL)
      ∧ t.fmt[p].gates = mapStarted false (fun g => { g with code := some 3 }) s.fmt[p].gates
      ∧ s.keeps t [IDU_COUNT_ALLOC_FAIL, IDU_EVENT_EV] ∧ t = { s with regs := t.regs, fmt := t.fmt }
      ∧ s.otherPorts t p)
    ∧ (s.rd (CH_STATUS_RG p) = 1 → s.ch[p].slot < 48 →
      let n := codeBits (s.flag (CH_AFE_CODE p))
      let ends := s.ch[p].llrDone || (decide (n ≤ s.ch[p].llrs) && s.rd (IDU_SLOT_STATE s.ch[p].slot) == 1
        && s.rd (IDU_SLOT_OWNER s.ch[p].slot) == p.val)
      ∃ t, exec (.readGateClose p) s = .next (settle t)
      ∧ t.rd (CH_STATUS_RG p) = 0
      ∧ t.rd (CH_EVENT_RG_CUT p) = (if s.ch[p].llrs < n then 1 else s.rd (CH_EVENT_RG_CUT p))
      ∧ t.fmt[p].gates = endOpen false (if ends then 0 else if s.ch[p].missed then 1 else 2) 0 s.fmt[p].gates
      ∧ (s.ch[p].llrDone = false → ends = true → t.rd (IDU_SLOT_STATE s.ch[p].slot) = 2)
      ∧ (s.ch[p].llrDone = true ∨ ends = false → t.rd (IDU_SLOT_STATE s.ch[p].slot) = s.rd (IDU_SLOT_STATE s.ch[p].slot))
      ∧ s.keeps t ([CH_STATUS_RG p, CH_EVENT_RG_CUT p, AGC_STATUS_D p, AGC_STATUS_V p, CH_EVENT_AGC_SAT p,
          SYS_LOOP_SAT_AGC] ++ slotFields [s.ch[p].slot])
      ∧ t = { s with regs := t.regs, ch := t.ch, fmt := t.fmt } ∧ s.otherPorts t p)
    ∧ (∀ g : Gate, startedGate true s.fmt[p].gates = some g → s.rd (SRV_STATUS_WI_LATCH p) = 0 →
      s.srv[p].gateOpen = false → s.rd (CH_STATUS_FLT p) = 0 → s.rd (CH_STATUS_PA_FRAMES_PENDING p) = 0 →
      s.rd CLK_STATUS_LINE_LOCK = 1 → ∃ t, exec (.writeGateOpen p) s = .next (settle t)
      ∧ t.rd (CH_STATUS_WG p) = 1 ∧ t.ch[p].writing = true ∧ t.ch[p].cut = false
      ∧ t.ch[p].wave = s.waveOf p (bits g.data)
      ∧ t.fmt[p].wlog = s.fmt[p].wlog ++ [{ slot := g.slot, frame := g.frame, sidx := g.sidx, buf := g.buf }]
      ∧ s.keeps t [CH_STATUS_WG p] ∧ t = { s with regs := t.regs, ch := t.ch, fmt := t.fmt } ∧ s.otherPorts t p)
    ∧ (∀ g : Gate, startedGate true s.fmt[p].gates = some g →
      s.rd (SRV_STATUS_WI_LATCH p) = 1 ∨ s.srv[p].gateOpen = true ∨ s.rd (CH_STATUS_FLT p) = 1
        ∨ s.rd (CH_STATUS_PA_FRAMES_PENDING p) = 1 ∨ s.rd CLK_STATUS_LINE_LOCK = 0 →
      ∃ t, exec (.writeGateOpen p) s = .next (settle t)
      ∧ t.rd (CH_EVENT_WRITE_CUT p) = 1
      ∧ t.fmt[p].gates = mapStarted true (fun g => { g with code := some 2, bitsDone := 0 }) s.fmt[p].gates
      ∧ t.fmt[p].wlog = s.fmt[p].wlog
      ∧ s.keeps t [CH_EVENT_WRITE_CUT p]
      ∧ t = { s with regs := t.regs, ch := t.ch, fmt := t.fmt } ∧ s.otherPorts t p)
    ∧ (∀ (block : List Byte) (k : Nat) (b b1 b2 b3 : Bool), let all := s.sectorBits p block
      all[k]? = some b2 → all[k + 1]? = some b1 → all[k + 2]? = some b → all[k + 3]? = some b3 →
      (s.waveOf p block)[k + 2]? = some ⟨b,
        if b1 = b then none
        else some (frac64 ((k + 2) * 16777216) (s.rd (CH_NCO_STEP p))
          + s.rd (CH_WRITE_PC p (2 * b2n (b2 != b1) + b2n (b3 != b))))⟩)
    ∧ (∀ n : Nat, s.ch[p].writing = true → s.ch[p].cut = true → ∃ t, exec (.writeCut p n) s = .next (settle t)
      ∧ t.rd (CH_STATUS_WG p) = 0 ∧ t.rd (CH_EVENT_WRITE_CUT p) = 1 ∧ t.ch[p].writing = false
      ∧ t.fmt[p].gates = endOpen true 2 n s.fmt[p].gates ∧ t.fmt[p].wlog = []
      ∧ t.ch[p].wave = s.ch[p].wave.take (8 * s.rd (CH_FRAME_PRE_LEN p) + 32 + n)
      ∧ s.keeps t ([CH_STATUS_WG p, CH_EVENT_WRITE_CUT p] ++ inhibitFields p)
      ∧ t = { s with regs := t.regs, ch := t.ch, fmt := t.fmt } ∧ s.otherPorts t p)
    ∧ (s.ch[p].writing = true → s.ch[p].cut = false → ∃ t, exec (.writeGateEnd p) s = .next (settle t)
      ∧ t.rd (CH_STATUS_WG p) = 0 ∧ t.ch[p].writing = false
      ∧ t.fmt[p].gates = endOpen true 0 (codeBits (s.flag (CH_AFE_CODE p))) s.fmt[p].gates
      ∧ s.keeps t [CH_STATUS_WG p] ∧ t = { s with regs := t.regs, ch := t.ch, fmt := t.fmt } ∧ s.otherPorts t p)
    ∧ (∀ w : BitVec 16, s.rd (PA_STATUS_BUSY p) = 0 → s.regOn (PA_CMD_WORD p).addr = true → ∃ t, exec (.paCommand p w) s = .next (settle t)
      ∧ t.rd (PA_STATUS_BUSY p) = 1 ∧ t.ch[p].frames = s.ch[p].frames ++ [{ kind := 2, frame := w.toNat }]
      ∧ s.keeps t [PA_STATUS_BUSY p, PA_STATUS_HW_PENDING p, CH_STATUS_PA_FRAMES_PENDING p]
      ∧ t = { s with regs := t.regs, ch := t.ch } ∧ s.otherPorts t p)
    ∧ (∀ w : BitVec 16, s.rd (PA_STATUS_BUSY p) = 1 → s.regOn (PA_CMD_WORD p).addr = true → ∃ t, exec (.paCommand p w) s = .next (settle t)
      ∧ t.rd (CH_EVENT_PA_REFUSED p) = 1 ∧ s.keeps t [CH_EVENT_PA_REFUSED p] ∧ t = { s with regs := t.regs })
    ∧ (∀ f : PaFrame, s.ch[p].current = none → s.ch[p].frames.find? (fun f => f.kind == 0) = some f
        ∨ s.ch[p].frames.find? (fun f => f.kind == 0) = none ∧ s.ch[p].frames.find? (fun f => f.kind == 1) = some f
        ∨ (∀ x ∈ s.ch[p].frames, 2 ≤ x.kind) ∧ s.ch[p].frames.head? = some f →
      ∃ t, exec (.paFrameStart p) s = .next (settle t)
      ∧ t.ch[p].current = some f ∧ t.ch[p].frames = s.ch[p].frames.erase f
      ∧ s.keeps t [PA_STATUS_BUSY p, PA_STATUS_HW_PENDING p, CH_STATUS_PA_FRAMES_PENDING p]
      ∧ t = { s with regs := t.regs, ch := t.ch } ∧ s.otherPorts t p)
    ∧ (∀ (f : PaFrame) (d : Byte), s.ch[p].current = some f → ∃ t, exec (.paFrameEnd p d) s = .next (settle t)
      ∧ t.ch[p].current = none
      ∧ (f.kind = 2 → t.rd (CH_EVENT_PA_DONE p) = 1)
      ∧ (2 ≤ f.kind → f.frame.testBit 15 = true → t.rd (PA_RDATA_DATA p) = d.toNat ∧ t.rd (PA_RDATA_VALID p) = 1)
      ∧ s.keeps t [PA_STATUS_BUSY p, PA_STATUS_HW_PENDING p, CH_STATUS_PA_FRAMES_PENDING p, CH_EVENT_PA_DONE p,
          PA_RDATA_DATA p, PA_RDATA_VALID p]
      ∧ t = { s with regs := t.regs, ch := t.ch } ∧ s.otherPorts t p)
    ∧ (∃ t, exec (.preampFault p) s = .next (settle t)
      ∧ t.rd (CH_STATUS_FLT p) = 1 ∧ t.rd (CH_EVENT_PA_FAULT p) = 1 ∧ t.rd (CH_STATUS_WG p) = 0
      ∧ t.ch[p].cut = (s.ch[p].cut || s.ch[p].writing)
      ∧ s.keeps t [CH_STATUS_FLT p, CH_EVENT_PA_FAULT p, CH_STATUS_WG p]
      ∧ t = { s with regs := t.regs, ch := t.ch } ∧ s.otherPorts t p)
    ∧ (∃ t, exec (.preampFaultClear p) s = .next (settle t)
      ∧ t.rd (CH_STATUS_FLT p) = 0 ∧ s.keeps t [CH_STATUS_FLT p] ∧ t = { s with regs := t.regs })

/-! ### The IDU Pool (chapter 8) -/

/-- R358 (allocation by firmware), R364 and R365 (release and withdrawal), R360 and R361 (a job taken), R366, R369 and
R371 (dispatch), R353, R361 and R363 (a job's end), R387 (a lost slot), R390 (completions held), R391 (the LLR window),
while PD_IDU's logic runs (R48). That INDEX stays at an area's last value is the model's choice (log entry 25). -/
def Obligations.IduSlots : Prop :=
  ∀ (s : State), s.runs 10 = true →
    (∀ j : Fin 48, s.rd (IDU_SLOT_STATE j) = 0 → (∀ i : Fin 48, i < j → s.rd (IDU_SLOT_STATE i) ≠ 0) →
      ∃ t, exec .slotAllocRead s = .next (settle t)
      ∧ t.rd IDU_SLOT_ALLOC_SLOT = j.val ∧ t.rd (IDU_SLOT_STATE j) = 1 ∧ t.rd (IDU_SLOT_OWNER j) = 9
      ∧ s.keeps t ([IDU_SLOT_ALLOC_SLOT, IDU_SLOT_OWNER j] ++ slotFields [j.val]) ∧ t = { s with regs := t.regs })
    ∧ ((∀ i : Fin 48, s.rd (IDU_SLOT_STATE i) ≠ 0) → ∃ t, exec .slotAllocRead s = .next (settle t)
      ∧ t.rd IDU_SLOT_ALLOC_SLOT = 0xFF ∧ s.keeps t [IDU_SLOT_ALLOC_SLOT] ∧ t = { s with regs := t.regs })
    ∧ (∀ j : Fin 64, j.val < 48 → s.rd (IDU_SLOT_STATE j) ≠ 3 → s.rd (IDU_SLOT_STATE j) ≠ 4 →
      s.rd (IDU_SLOT_STATE j) ≠ 0 → ∃ t, exec (.iduSlotRelease j) s = .next (settle t)
      ∧ t.rd (IDU_SLOT_STATE j) = 0 ∧ s.keeps t (slotFields [j.val]) ∧ t = { s with regs := t.regs })
    ∧ (∀ (j : Fin 64) (i : Fin 6) (x : Job), s.idu.running[i] = some x → x.slot = j.val → j.val < 48 →
      x.released = [] → s.rd (IDU_SLOT_STATE j) = 4 → ∃ t, exec (.iduSlotRelease j) s = .next (settle t)
      ∧ t.idu.running[i] = some { x with released := [j.val] } ∧ t = { s with idu := t.idu })
    ∧ (∀ (j : Fin 48) (n : Fin 16) (x : Job), s.idu.accepted = [x] → s.idu.reissue = [] → s.idu.redisp = [] →
      (∀ i : Fin 6, s.idu.running[i] = none) → x.released = [j.val] → x.slot = j.val → x.mirror = false →
      (∀ h ∈ s.idu.held, h.1 ≠ complRing x.ring) → s.enqTest (complRing x.ring) = .ok →
      ∃ t, exec (.jobWithdrawn j n) s = .next (settle t)
      ∧ t.rd (IDU_SLOT_STATE j) = 0 ∧ t.idu.accepted = [] ∧ s.posted t (complRing x.ring) (iduEntry x 5 0 0 0)
      ∧ (s.iduWake (complRing x.ring)).keeps t (INT_INJECT_ARM :: slotFields [j.val])
      ∧ t = { s.iduWake (complRing x.ring) with regs := t.regs, mem := t.mem, ecc := t.ecc, rings := t.rings, memDue := t.memDue, idu := t.idu })
    ∧ (∀ (n : Fin 9) (e : List PByte) (u : State), s.dequeue (if n.val = 8 then 208 else 192 + n.val) = (some e, u) →
      let ring := if n.val = 8 then 208 else 192 + n.val
      let x := jobOf ring (bits e)
      poisoned e = false → u.jobSlotOk ring x.slot = true → jobReserved (bits e) = false →
      x.mirror = false → ∃ t, exec (.iduJobAccept n) s = .next (settle t)
      ∧ t.rd (IDU_SLOT_STATE x.slot) = 3 ∧ t.rd (IDU_SLOT_JOB_ID x.slot) = x.id
      ∧ t.idu.accepted = u.idu.accepted ++ [{ x with held1 := u.rd (IDU_SLOT_STATE x.slot) == 6, held2 := false }]
      ∧ t.idu.slots[slotOf x.slot].params = some (x.code, x.p1)
      ∧ u.keeps t (IDU_SLOT_JOB_ID x.slot :: slotFields [x.slot])
      ∧ t = { u with regs := t.regs, idu := t.idu })
    ∧ (∀ (n : Fin 9) (e : List PByte) (u : State), s.dequeue (if n.val = 8 then 208 else 192 + n.val) = (some e, u) →
      let ring := if n.val = 8 then 208 else 192 + n.val
      let x := jobOf ring (bits e)
      poisoned e = false → u.jobSlotOk ring x.slot = false →
      (∀ h ∈ u.idu.held, h.1 ≠ complRing ring) → u.enqTest (complRing ring) = .ok →
      ∃ t, exec (.iduJobAccept n) s = .next (settle t)
      ∧ u.posted t (complRing ring) (iduEntry x 4 0 0 0)
      ∧ (u.iduWake (complRing ring)).keeps t [INT_INJECT_ARM]
      ∧ t = { u.iduWake (complRing ring) with regs := t.regs, mem := t.mem, ecc := t.ecc, rings := t.rings, memDue := t.memDue })
    ∧ (∀ (i : Fin 6) (x : Job), s.idu.accepted = [x] → s.fenced i = false → s.idu.running[i] = none →
      s.idu.kat[i] = 0 → s.idu.katDue.getLsbD i = false → s.idu.katLate.getLsbD i = false → s.idu.reissue = [] →
      s.idu.redisp = [] → 192 ≤ x.ring → x.ring < 200 → x.slot < 48 → x.mirror = false → x.released = [] →
      x.redone = false → x.again = false → ∃ t, exec (.iduDispatch i) s = .next (settle t)
      ∧ t.idu.running[i] = some { x with
          limit := min (min (s.jobF x) (s.rd IDU_GOV_STATUS_EFF_B)) s.iterCeiling, idu := i.val
          req := min (s.jobF x) (s.rd IDU_GOV_STATUS_EFF_B) }
      ∧ t.idu.accepted = [] ∧ t.rd (IDU_SLOT_STATE x.slot) = 4
      ∧ t.rd GOV_CLIP_ITER_COUNT = (if s.iterCeiling < min (s.jobF x) (s.rd IDU_GOV_STATUS_EFF_B)
          then satInc GOV_CLIP_ITER_COUNT.w (s.rd GOV_CLIP_ITER_COUNT) else s.rd GOV_CLIP_ITER_COUNT)
      ∧ s.keeps t (GOV_CLIP_ITER_COUNT :: slotFields [x.slot]) ∧ t = { s with regs := t.regs, idu := t.idu })
    ∧ (∀ (i : Fin 6) (x : Job), s.idu.accepted = [] → s.idu.reissue = [] → s.idu.redisp = [x] → s.fenced i = false →
      s.idu.running[i] = none → s.idu.kat[i] = 0 → s.idu.katDue.getLsbD i = false → s.idu.katLate.getLsbD i = false →
      x.slot < 48 → x.mirror = false → x.released = [] → x.redone = true → x.again = false →
      ∃ t, exec (.iduDispatch i) s = .next (settle t)
      ∧ t.idu.running[i] = some { x with limit := min (s.jobF x) s.iterCeiling, idu := i.val, req := s.jobF x }
      ∧ t.rd GOV_CLIP_ITER_COUNT = (if s.iterCeiling < s.jobF x
          then satInc GOV_CLIP_ITER_COUNT.w (s.rd GOV_CLIP_ITER_COUNT) else s.rd GOV_CLIP_ITER_COUNT)
      ∧ s.keeps t (GOV_CLIP_ITER_COUNT :: slotFields [x.slot]) ∧ t = { s with regs := t.regs, idu := t.idu })
    ∧ (∀ (i : Fin 6) (x : Job), s.idu.running[i] = some x → x.released = [] → x.mirror = false →
      x.usePrior = false → x.keep = false → x.slot < 48 → s.ecc = [] → s.rd (IDU_SLOT_STATE x.slot) ≠ 7 →
      (∀ h ∈ s.idu.held, h.1 ≠ complRing x.ring) → s.enqTest (complRing x.ring) = .ok →
      let d := runJob x.code (s.rd IDU_DEC_OFFSET) x.limit [] [(detPar x.p1, s.idu.slots[slotOf x.slot].inp)]
      let w := if d.ok = false ∧ x.limit < min (s.jobF x) s.iterCeiling ∧ x.redone = false then s
        else s.iduWake (complRing x.ring)
      ∃ t, exec (.iduJobEnd i) s = .next (settle t)
      ∧ t.idu.running[i] = none
      ∧ t.idu.slots[slotOf x.slot].dec = (List.range infoBits).map (fun v => decide (0 < at0 d.q v))
      ∧ (d.ok = true → t.rd (IDU_SLOT_STATE x.slot) = (if x.hold || x.held1 then 6 else 5)
          ∧ s.posted t (complRing x.ring) (iduEntry x 0 d.iters 0 0))
      ∧ (d.ok = false → x.limit < min (s.jobF x) s.iterCeiling ∧ x.redone = false → t.rd (IDU_SLOT_STATE x.slot) = 3
          ∧ t.idu.redisp = s.idu.redisp ++ [{ x with redone := true }])
      ∧ (d.ok = false → ¬ (x.limit < min (s.jobF x) s.iterCeiling ∧ x.redone = false) →
          t.rd (IDU_SLOT_STATE x.slot) = (if x.hold || x.held1 then 6 else 5)
          ∧ s.posted t (complRing x.ring) (iduEntry x 1 d.iters d.unsat (b2n (decide (x.limit < s.jobF x)))))
      ∧ w.keeps t (INT_INJECT_ARM :: slotFields [x.slot])
      ∧ t = { w with regs := t.regs, mem := t.mem, ecc := t.ecc, rings := t.rings, memDue := t.memDue, idu := t.idu })
    ∧ (∀ (j : Fin 48) (byte : Fin 65536), s.rd (IDU_SLOT_STATE j) ≠ 0 →
      ∃ t, exec (.slotLost j byte) s = .next (settle t)
      ∧ t.rd (IDU_SLOT_STATE j) = 7 ∧ t.bit IDU_EVENT_EV 2 = true
      ∧ (∀ x ∈ t.idu.accepted ++ t.idu.reissue ++ t.idu.redisp, x.slot ≠ j.val)
      ∧ (∀ i : Fin 6, ∀ x, t.idu.running[i] = some x → x.slot ≠ j.val)
      ∧ (t.pw = s.pw ∧ t.core = s.core
          ∨ s.pw.sleep = .idle ∧ t.pw = s.leaveIdle.pw ∧ t.core = s.leaveIdle.core)
      ∧ t = { s with regs := t.regs, mem := t.mem, ecc := t.ecc, caps := t.caps, rings := t.rings, memDue := t.memDue,
                     idu := t.idu, pw := t.pw, core := t.core })
    ∧ (s.idu.held ≠ [] → ∃ t, exec .complOverflow s = .next (settle t)
      ∧ t.bit IDU_EVENT_EV 5 = true ∧ s.keeps t [IDU_EVENT_EV] ∧ t = { s with regs := t.regs })
    ∧ (∀ (r : Nat) (e : List Byte), s.idu.held = [(r, e)] → e.length = 16 → s.enqTest r = .ok →
      ∃ t, exec .completionRetry s = .next (settle t)
      ∧ t.idu.held = [] ∧ s.posted t r e ∧ (s.ringWake r).keeps t [INT_INJECT_ARM]
      ∧ t = { s.ringWake r with regs := t.regs, mem := t.mem, ecc := t.ecc, rings := t.rings, memDue := t.memDue, idu := t.idu })
    ∧ (∀ (r : Nat) (e : List Byte), s.idu.held = [(r, e)] → s.enqTest r ≠ .ok →
      ∃ t, exec .completionRetry s = .next (settle t)
      ∧ t.idu = s.idu ∧ t = { s with rings := t.rings })
    ∧ (∀ v : Word, s.rd LLR_WIN_ADDR_SLOT < 48 →
      s.rd (IDU_SLOT_STATE (s.rd LLR_WIN_ADDR_SLOT)) = 2 ∨ s.rd (IDU_SLOT_STATE (s.rd LLR_WIN_ADDR_SLOT)) = 6 →
      s.rd (IDU_SLOT_OWNER (s.rd LLR_WIN_ADDR_SLOT)) = 9 → ∃ t, exec (.llrWindowWrite v) s = .next (settle t)
      ∧ t.rd LLR_WIN_ADDR_INDEX = (if s.rd LLR_WIN_ADDR_INDEX + 1 < areaSize (s.rd LLR_WIN_ADDR_AREA)
          then s.rd LLR_WIN_ADDR_INDEX + 1 else s.rd LLR_WIN_ADDR_INDEX)
      ∧ t.idu.slots[slotOf (s.rd LLR_WIN_ADDR_SLOT)].value (s.rd LLR_WIN_ADDR_AREA) (s.rd LLR_WIN_ADDR_INDEX) =
          (if areaSize (s.rd LLR_WIN_ADDR_AREA) ≤ s.rd LLR_WIN_ADDR_INDEX then 0
           else if s.rd LLR_WIN_ADDR_AREA = 0 then clampInt (-15) 15 v.toInt
           else if s.rd LLR_WIN_ADDR_AREA = 1 ∨ s.rd LLR_WIN_ADDR_AREA = 2 then clampInt (-31) 31 v.toInt
           else if 0 < v.toInt then 1 else 0)
      ∧ (∀ k : Fin 48, k.val ≠ s.rd LLR_WIN_ADDR_SLOT → t.idu.slots[k] = s.idu.slots[k])
      ∧ s.keeps t [LLR_WIN_ADDR_INDEX, INT_INJECT_ARM]
      ∧ t = { s with regs := t.regs, ecc := t.ecc, idu := t.idu })
    ∧ (s.rd LLR_WIN_ADDR_SLOT < 48 → s.ecc = [] → ∃ t, exec .llrWindowRead s = .next (settle t)
      ∧ t.rd LLR_WIN_DATA_VALUE = unsignedOf LLR_WIN_DATA_VALUE.w (s.idu.slots[slotOf (s.rd LLR_WIN_ADDR_SLOT)].value
          (s.rd LLR_WIN_ADDR_AREA) (s.rd LLR_WIN_ADDR_INDEX))
      ∧ t.rd LLR_WIN_ADDR_INDEX = (if s.rd LLR_WIN_ADDR_INDEX + 1 < areaSize (s.rd LLR_WIN_ADDR_AREA)
          then s.rd LLR_WIN_ADDR_INDEX + 1 else s.rd LLR_WIN_ADDR_INDEX)
      ∧ s.keeps t [LLR_WIN_DATA_VALUE, LLR_WIN_ADDR_INDEX] ∧ t = { s with regs := t.regs })

/-- R367 and R368 (the iteration governor), R372, R375 and R376 (a fence), R373, R374, R377 and R378 (tests), while PD_IDU's
logic runs (R48). -/
def Obligations.IduFences : Prop :=
  ∀ (i : Fin 6) (s : State), s.runs 10 = true →
    (let q := s.idu.accepted.length + s.idu.reissue.length + s.idu.redisp.length
     let b : Int := s.rd IDU_GOV_STATUS_B
     let want : Int := if s.rd IDU_GOV_HI_Q < q then b - 1
       else if q ≤ s.rd IDU_GOV_LO_Q ∧ s.idu.starved = true then b + 1 else b
     let lo : Int := s.rd IDU_ITER_ITER_MIN
     let hi : Int := max lo (s.rd IDU_ITER_ITER_MAX)
     ∃ t, exec .iduGovUpdate s = .next (settle t)
      ∧ (t.rd IDU_GOV_STATUS_B : Int) = clampInt lo hi want
      ∧ (s.rd IDU_ITER_PIN_EN = 0 → t.rd IDU_GOV_STATUS_EFF_B = t.rd IDU_GOV_STATUS_B
          ∧ t.rd IDU_GOV_STATUS_SATURATED = b2n (decide (want < lo ∨ hi < want)))
      ∧ (s.rd IDU_ITER_PIN_EN = 1 → t.rd IDU_GOV_STATUS_EFF_B = max 1 (s.rd IDU_ITER_PIN_ITER)
          ∧ t.rd IDU_GOV_STATUS_SATURATED = 0)
      ∧ t.idu.starved = false
      ∧ s.keeps t [IDU_GOV_STATUS_B, IDU_GOV_STATUS_EFF_B, IDU_GOV_STATUS_SATURATED, IDU_EVENT_EV,
          SYS_LOOP_SAT_IDU_ITER]
      ∧ t = { s with regs := t.regs, idu := t.idu })
    ∧ (∀ x : Job, s.idu.running[i] = some x → ∃ t, exec (.jobTimeout i) s = .next (settle t)
      ∧ t.bit IDU_FENCE_FENCED i = true ∧ bitsOf (t.rd IDU_FENCE_CAUSE) (3 * i) 3 = 1
      ∧ t.rd IDU_FENCE_POOL_DEGRADED = 1 ∧ t.bit IDU_EVENT_EV 0 = true
      ∧ t.idu.running[i] = none ∧ (s.idu.kat[i] = 0 → s.idu.katDue.getLsbD i = false → t.idu.kat[i] = 0)
      ∧ (s.idu.kat[i] = 0 → s.idu.katDue.getLsbD i = true → t.idu.kat[i] = 1 ∧ t.idu.katDue.getLsbD i = false)
      ∧ t.idu.reissue = s.idu.reissue ++ [{ x with reissued := true, again := true }]
      ∧ (∀ k : Fin 6, k ≠ i → t.idu.running[k] = s.idu.running[k] ∧ t.bit IDU_FENCE_FENCED k = s.bit IDU_FENCE_FENCED k)
      ∧ (s.iduWake 448).keeps t (fenceFields (some x))
      ∧ t = { s.iduWake 448 with regs := t.regs, mem := t.mem, ecc := t.ecc, rings := t.rings, memDue := t.memDue, idu := t.idu })
    ∧ (∃ t, exec (.iduFence i) s = .next (settle t)
      ∧ t.bit IDU_FENCE_FENCED i = true ∧ bitsOf (t.rd IDU_FENCE_CAUSE) (3 * i) 3 = 3
      ∧ t.rd IDU_FENCE_POOL_DEGRADED = 1 ∧ t.bit IDU_EVENT_EV 0 = true
      ∧ t.idu.running[i] = none
      ∧ (s.idu.katDue.getLsbD i = false → t.idu.kat[i] = (if s.idu.kat[i] = 2 then 1 else s.idu.kat[i]))
      ∧ (s.iduWake 448).keeps t (fenceFields s.idu.running[i])
      ∧ t = { s.iduWake 448 with regs := t.regs, mem := t.mem, ecc := t.ecc, rings := t.rings, memDue := t.memDue, idu := t.idu })
    ∧ (∀ byte : Fin 65536, ∃ t, exec (.iduMemoryError i byte) s = .next (settle t)
      ∧ t.bit IDU_FENCE_FENCED i = true ∧ bitsOf (t.rd IDU_FENCE_CAUSE) (3 * i) 3 = 2
      ∧ t.rd (INT_COUNT_UNCORR 7) = satInc (INT_COUNT_UNCORR 7).w (s.rd (INT_COUNT_UNCORR 7))
      ∧ t.bit INT_UE_STATUS_MEM 7 = true ∧ t.idu.running[i] = none
      ∧ t = { s.iduWake 448 with regs := t.regs, mem := t.mem, ecc := t.ecc, caps := t.caps, rings := t.rings, memDue := t.memDue, idu := t.idu })
    ∧ (s.fenced i = true → s.idu.kat[i] = 0 → s.idu.running[i] = none →
      ∃ t, exec (.iduUnfence i) s = .next (settle t)
      ∧ t.idu.kat[i] = 2 ∧ t.idu.katDue.getLsbD i = false ∧ (∀ k : Fin 6, k ≠ i → t.idu.kat[k] = s.idu.kat[k])
      ∧ t = { s with idu := t.idu })
    ∧ (s.idu.kat[i] = 0 → s.idu.running[i] = none → ∃ t, exec (.iduRunKat i) s = .next (settle t)
      ∧ t.idu.kat[i] = 1 ∧ (∀ k : Fin 6, k ≠ i → t.idu.kat[k] = s.idu.kat[k]) ∧ t = { s with idu := t.idu })
    ∧ (s.idu.kat[i] = 0 → s.idu.running[i] ≠ none → ∃ t, exec (.iduRunKat i) s = .next (settle t)
      ∧ t.idu.katDue.getLsbD i = true ∧ t.idu.kat = s.idu.kat ∧ t = { s with idu := t.idu })
    ∧ (s.rd IDU_KAT_PERIOD ≠ 0 → s.idu.katTurn = [] → ∃ t, exec .katPeriod s = .next (settle t)
      ∧ t.idu.katTurn = [0, 1, 2, 3, 4, 5]
      ∧ (s.idu.kat[(0 : Fin 6)] = 0 → s.idu.running[(0 : Fin 6)] = none → t.idu.kat[(0 : Fin 6)] = 1)
      ∧ (s.idu.kat[(0 : Fin 6)] = 0 → s.idu.running[(0 : Fin 6)] ≠ none → t.idu.katDue.getLsbD 0 = true)
      ∧ (∀ k : Fin 6, k ≠ 0 → t.idu.kat[k] = s.idu.kat[k]) ∧ t = { s with idu := t.idu })
    ∧ (∀ (k : Fin 6) (ks : List (Fin 6)), s.idu.katTurn = i :: k :: ks → k ≠ i → s.idu.kat[i] = 1 → s.idu.kat[k] = 0 →
      s.idu.running[k] = none → ∃ t, exec (.katDone i true) s = .next (settle t)
      ∧ t.idu.kat[k] = 1 ∧ t.idu.katTurn = (k :: ks).filter (fun m => m != i))
    ∧ (s.idu.katDue.getLsbD i = true → ∃ t, exec (.katWaitTimeout i) s = .next (settle t)
      ∧ t.idu.katLate.getLsbD i = true ∧ t = { s with idu := { s.idu with katLate := t.idu.katLate } })
    ∧ (s.idu.kat[i] = 1 → s.idu.katTurn = [] → ∃ t, exec (.katDone i true) s = .next (settle t)
      ∧ t.idu.kat[i] = 0 ∧ t.idu.katPass.getLsbD i = true ∧ t.idu.katLate.getLsbD i = false ∧ t = { s with idu := t.idu })
    ∧ (s.idu.kat[i] = 2 → s.idu.katTurn = [] → ∃ t, exec (.katDone i true) s = .next (settle t)
      ∧ t.idu.kat[i] = 0 ∧ t.bit IDU_FENCE_FENCED i = false ∧ bitsOf (t.rd IDU_FENCE_CAUSE) (3 * i) 3 = 0
      ∧ t.rd IDU_FENCE_POOL_DEGRADED = b2n (t.rd IDU_FENCE_FENCED != 0)
      ∧ (∀ k : Fin 6, k ≠ i → t.bit IDU_FENCE_FENCED k = s.bit IDU_FENCE_FENCED k)
      ∧ s.keeps t [IDU_FENCE_FENCED, IDU_FENCE_CAUSE, IDU_FENCE_POOL_DEGRADED]
      ∧ t = { s with regs := t.regs, idu := t.idu })
    ∧ (s.idu.kat[i] = 1 ∨ s.idu.kat[i] = 2 → s.idu.katTurn = [] → ∃ t, exec (.katDone i false) s = .next (settle t)
      ∧ t.bit IDU_FENCE_FENCED i = true ∧ bitsOf (t.rd IDU_FENCE_CAUSE) (3 * i) 3 = 3
      ∧ t.idu.katPass.getLsbD i = false ∧ t.idu.running[i] = none
      ∧ (s.iduWake 448).keeps t (fenceFields s.idu.running[i])
      ∧ t = { s.iduWake 448 with regs := t.regs, mem := t.mem, ecc := t.ecc, rings := t.rings, memDue := t.memDue, idu := t.idu })

/-- R380 to R386 (a stripe-joint request: its refusal, its first round, a member's completion, the result entry) and R593
(an enqueue held too long). -/
def Obligations.StripeJoint : Prop :=
  ∀ (s : State), s.runs 1 = true → s.on 10 = true →
    (∀ (e : List PByte) (u : State), s.dequeue 210 = (some e, u) → s.idu.sjdHeld = [] → s.idu.sjd = none →
      poisoned e = false → ({ bytes := bits e } : SjdSt).formOk = false → (fieldB (bits e) 24 1).testBit 0 = false →
      u.enqTest 211 = .ok → ∃ t, exec .sjdRequest s = .next (settle t)
      ∧ u.posted t 211 (sliceB (bits e) 0 2 ++ [3, 0, 0, 0] ++ zerosB 10)
      ∧ t.idu.sjd = none ∧ t.bit IDU_EVENT_EV 6 = true
      ∧ u.keeps t [IDU_EVENT_EV, INT_INJECT_ARM]
      ∧ t = { u with regs := t.regs, mem := t.mem, ecc := t.ecc, rings := t.rings, memDue := t.memDue, idu := t.idu })
    ∧ (∀ (e : List PByte) (u : State), s.dequeue 210 = (some e, u) → s.idu.sjdHeld = [] → s.idu.sjd = none →
      poisoned e = false → let q : SjdSt := { bytes := bits e }
      q.formOk = true → q.kind ≤ 1 → (∀ j ∈ q.slots, u.slotState j = 6) → fieldB (bits e) 12 1 = 0 →
      (fieldB (bits e) 24 1).testBit 0 = false → u.enqTest 211 = .ok → ∃ t, exec .sjdRequest s = .next (settle t)
      ∧ u.posted t 211 (sliceB (bits e) 0 2 ++ zerosB 14) ∧ t.idu.sjd = none ∧ t.bit IDU_EVENT_EV 6 = true)
    ∧ (∀ (e : List PByte) (u : State), s.dequeue 210 = (some e, u) → s.idu.sjdHeld = [] → s.idu.sjd = none →
      poisoned e = false → let q : SjdSt := { bytes := bits e }
      q.formOk = true → q.kind ≤ 1 → (∀ j ∈ q.slots, u.slotState j = 6) → fieldB (bits e) 12 1 ≠ 0 →
      0 < u.sjdRounds q → let failed := (List.range q.nmem).filter (fun i => (fieldB (bits e) 12 1).testBit i)
      ∃ t, exec .sjdRequest s = .next (settle t)
      ∧ t.idu.sjd = some { bytes := bits e, round := 1, failed := failed, waiting := failed, started := failed.length }
      ∧ (u.enqTest 208 ≠ .ok → t.idu.sjdHeld.length = failed.length)
      ∧ u.keeps t [INT_INJECT_ARM]
      ∧ t = { u with regs := t.regs, mem := t.mem, ecc := t.ecc, rings := t.rings, memDue := t.memDue, idu := t.idu,
                     freeCtr := t.freeCtr })
    ∧ (∀ (e : List PByte) (u : State), s.dequeue 209 = (some e, u) → s.idu.sjdHeld = [] → poisoned e = false →
      ∀ q : SjdSt, s.idu.sjd = some q → ∀ i k : Nat, q.waiting = [i, k] → q.kind ≠ 2 → i ≠ k →
      q.slot i = fieldB (bits e) 2 1 → fieldB (bits e) 3 1 = 0 →
      ∃ t, exec .sjdMemberCompletion s = .next (settle t)
      ∧ t.idu.sjd = some { q with failed := q.failed.filter (fun f => f != i), waiting := [k] }
      ∧ t = { u with idu := t.idu })
    ∧ (s.idu.sjdHeld ≠ [] → ∃ t, exec .sjdEnqueueTimeout s = .next (settle t)
      ∧ t.bit IDU_EVENT_EV 5 = true ∧ s.keeps t [IDU_EVENT_EV] ∧ t = { s with regs := t.regs })

/-! ### The Formatter Engine (chapter 10) -/

/-- R431 (the turn of a context), R436 to R438 and Table 10.2: the sequencing of a word whose nanoword chooses only a
condition; R436a (the end of a wait), R475 (an illegal SEQ), R448 and R447 (a stalled word goes on and takes its request). -/
def Obligations.FormatterSequence : Prop :=
  ∀ (p : Fin 8) (s : State), s.runs 1 = true → s.rd (FMT_CTX_STATUS_STATE p) = 1 → s.fmt[p].since < 1024 →
    (s.turn p = false → ∀ i ∈ microCommands p, exec i s = .next (settle s))
    ∧ ((∀ q : Fin 8, q ≠ p → s.rd (FMT_CTX_STATUS_STATE q) = 0) → s.turn p = true)
    ∧ (s.turn p = true → ∀ (m : Micro) (u : State), s.fetchMicro (s.rd (FMT_CTX_STATUS_PC p)) = (some m, u) →
      let pc := u.rd (FMT_CTX_STATUS_PC p)
      let page := (pc / 1024 * 1024 + m.arg) % 8192
      let c := u.cond p (m.nano.f 123 5)
      (m.seq = 1 → m.nano.condOnly = true → ∃ t, exec (.microJump p) s = .next (settle t)
        ∧ t.rd (FMT_CTX_STATUS_PC p) = page ∧ t.rd (FMT_CTX_STATUS_STATE p) = 1
        ∧ u.keeps t (fmtSeqFields p) ∧ t = { u with regs := t.regs, fmt := t.fmt, fmtLast := p } ∧ u.otherPorts t p)
      ∧ (m.seq = 2 → m.nano.condOnly = true → ∃ t, exec (.microJcc p) s = .next (settle t)
        ∧ t.rd (FMT_CTX_STATUS_PC p) = (if c then page else (pc + 1) % 8192)
        ∧ u.keeps t (fmtSeqFields p) ∧ t = { u with regs := t.regs, fmt := t.fmt, fmtLast := p } ∧ u.otherPorts t p)
      ∧ (m.seq = 3 → m.nano.condOnly = true → ∃ t, exec (.microJnc p) s = .next (settle t)
        ∧ t.rd (FMT_CTX_STATUS_PC p) = (if c then (pc + 1) % 8192 else page)
        ∧ u.keeps t (fmtSeqFields p) ∧ t = { u with regs := t.regs, fmt := t.fmt, fmtLast := p } ∧ u.otherPorts t p)
      ∧ (m.seq = 4 → m.nano.condOnly = true → u.fmt[p].stack.length < 4 → ∃ t, exec (.microCall p) s = .next (settle t)
        ∧ t.rd (FMT_CTX_STATUS_PC p) = page ∧ t.fmt[p].stack = ((pc + 1) % 8192, false) :: u.fmt[p].stack
        ∧ t.rd (FMT_CTX_STATUS_DEPTH p) = u.fmt[p].stack.length + 1
        ∧ u.keeps t (fmtSeqFields p) ∧ t = { u with regs := t.regs, fmt := t.fmt, fmtLast := p } ∧ u.otherPorts t p)
      ∧ (m.seq = 5 → m.arg < 64 → m.nano.condOnly = true → u.fmt[p].stack.length < 4 →
        ∃ t, exec (.microCallv p) s = .next (settle t)
        ∧ t.rd (FMT_CTX_STATUS_PC p) = u.rd (FMT_ENTRY_ADDR m.arg)
        ∧ t.fmt[p].stack = ((pc + 1) % 8192, false) :: u.fmt[p].stack
        ∧ u.keeps t (fmtSeqFields p) ∧ t = { u with regs := t.regs, fmt := t.fmt, fmtLast := p } ∧ u.otherPorts t p)
      ∧ (m.seq = 6 → m.nano.condOnly = true → ∀ e es, u.fmt[p].stack = e :: es →
        ∃ t, exec (.microRet p) s = .next (settle t)
        ∧ t.rd (FMT_CTX_STATUS_PC p) = e.1 % 8192 ∧ t.fmt[p].stack = es
        ∧ t.rd (FMT_CTX_STATUS_DEPTH p) = es.length % 8
        ∧ u.keeps t (fmtSeqFields p) ∧ t = { u with regs := t.regs, fmt := t.fmt, fmtLast := p } ∧ u.otherPorts t p)
      ∧ (m.seq = 8 → m.nano.condOnly = true → ∃ t, exec (.microLoop p) s = .next (settle t)
        ∧ t.rd (FMT_CTX_CNT0_LC p) = u.rd (FMT_CTX_CNT0_LC p) - 1
        ∧ t.rd (FMT_CTX_STATUS_PC p) = (if 1 < u.rd (FMT_CTX_CNT0_LC p) then page else (pc + 1) % 8192)
        ∧ u.keeps t (FMT_CTX_CNT0_LC p :: fmtSeqFields p)
        ∧ t = { u with regs := t.regs, fmt := t.fmt, fmtLast := p } ∧ u.otherPorts t p)
      ∧ (m.seq = 9 → m.nano.condOnly = true → u.rd (FMT_CTX_FLAGS_HALT_REQ p) = 0 → u.fmt[p].stack.length < 4 →
        ∃ t, exec (.microPoll p) s = .next (settle t)
        ∧ t.rd (FMT_CTX_STATUS_PC p) =
            (if (u.fmt[p].stack.any (fun e => e.2)) = true then (pc + 1) % 8192
             else if u.rd (FMT_CTX_FLAGS_FAULT p) = 1 then u.rd (FMT_ENTRY_ADDR 0)
             else if u.rd (FMT_CTX_FLAGS_INT p) ≠ 0 then u.rd (FMT_ENTRY_ADDR 1) else (pc + 1) % 8192)
        ∧ t.fmt[p].since = 0
        ∧ u.keeps t (fmtSeqFields p) ∧ t = { u with regs := t.regs, fmt := t.fmt, fmtLast := p } ∧ u.otherPorts t p)
      ∧ (m.seq = 9 → m.nano.condOnly = true → u.rd (FMT_CTX_FLAGS_HALT_REQ p) = 1 → u.fmt[p].stack.length < 4 →
        ∃ t, exec (.microPoll p) s = .next (settle t)
        ∧ t.rd (FMT_CTX_STATUS_STATE p) = 0 ∧ t.rd (FMT_CTX_EVENT_HALTED p) = 1
        ∧ u.keepsOutside t (fmtStopRegs p)
        ∧ t = { u with regs := t.regs, ch := t.ch, fmt := t.fmt, idu := t.idu,
                       fmtLast := p, freeCtr := t.freeCtr } ∧ u.otherPorts t p)
      ∧ (m.seq = 10 → m.nano.condOnly = true → u.fmt[p].stack.length < 4 → ∃ t, exec (.microDispatch p) s = .next (settle t)
        ∧ t.rd (FMT_CTX_STATUS_PC p) = u.rd (FMT_ENTRY_ADDR (16 + u.req p 2 1 % 16))
        ∧ t.fmt[p].stack = ((pc + 1) % 8192, false) :: u.fmt[p].stack
        ∧ u.keeps t (fmtSeqFields p) ∧ t = { u with regs := t.regs, fmt := t.fmt, fmtLast := p } ∧ u.otherPorts t p)
      ∧ (m.seq = 11 → m.nano.condOnly = true → ∃ t, exec (.microHalt p) s = .next (settle t)
        ∧ t.rd (FMT_CTX_STATUS_STATE p) = 0 ∧ t.rd (FMT_CTX_EVENT_HALTED p) = 1
        ∧ t.fmt[p].gates = [] ∧ t.fmt[p].results = []
        ∧ u.keepsOutside t (fmtStopRegs p)
        ∧ t = { u with regs := t.regs, ch := t.ch, fmt := t.fmt, idu := t.idu,
                       fmtLast := p, freeCtr := t.freeCtr } ∧ u.otherPorts t p)
      ∧ (12 ≤ m.seq → ∃ t, exec (.illegalSeq p) s = .next (settle t)
        ∧ t.rd (FMT_CTX_STATUS_HARD_CAUSE p) = 1 ∧ t.rd (FMT_CTX_EVENT_FAULT p) = 1
        ∧ t.rd (FMT_CTX_STATUS_STATE p) = 0 ∧ t.rd (FMT_CTX_EVENT_HALTED p) = 1
        ∧ u.keepsOutside t (fmtStopRegs p)
        ∧ t = { u with regs := t.regs, ch := t.ch, fmt := t.fmt, idu := t.idu,
                       fmtLast := p, freeCtr := t.freeCtr } ∧ u.otherPorts t p)
      ∧ (m.seq = 0 → m.nano.condOnly = true → ∃ t, exec (.microNext p false) s = .next (settle t)
        ∧ t.rd (FMT_CTX_STATUS_PC p) = (pc + 1) % 8192 ∧ t.rd (FMT_CTX_STATUS_STATE p) = 1
        ∧ u.keeps t (fmtSeqFields p) ∧ t = { u with regs := t.regs, fmt := t.fmt, fmtLast := p } ∧ u.otherPorts t p)
      ∧ (m.seq = 7 → m.arg ≤ 11 → m.nano.condOnly = true → ∃ t, exec (.microNext p false) s = .next (settle t)
        ∧ t.rd (FMT_CTX_STATUS_STATE p) = 2 ∧ t.fmt[p].waitSel = m.arg
        ∧ u.keeps t (fmtSeqFields p) ∧ t = { u with regs := t.regs, fmt := t.fmt, fmtLast := p } ∧ u.otherPorts t p))

/-- R436a (a wait's end), R447, R448 and R432 (a stalled word takes its request), R449, R445, R453 to R456 (gates), R454
(a write's prefetch), R464 and R465 (a DMA's end), R473, R472, R470, R475 and R476 (limits, starts, halts and stops), R435
(a nanoword's commit). -/
def Obligations.FormatterRuns : Prop :=
  ∀ (p : Fin 8) (s : State),
    (s.rd (FMT_CTX_STATUS_STATE p) = 2 → s.waitEvent p s.fmt[p].waitSel = true →
      s.runs 1 = true → ∃ t, exec (.microNext p false) s = .next (settle t)
      ∧ t.rd (FMT_CTX_STATUS_STATE p) = 1 ∧ t.rd (FMT_CTX_STATUS_PC p) = (s.rd (FMT_CTX_STATUS_PC p) + 1) % 8192
      ∧ t.fmt[p].waitTimeout = false ∧ t.fmt[p].waitInt = false
      ∧ s.keeps t (fmtSeqFields p) ∧ t = { s with regs := t.regs, fmt := t.fmt } ∧ s.otherPorts t p)
    ∧ (∀ (m : Micro) (u : State), s.fetchMicro (s.rd (FMT_CTX_STATUS_PC p)) = (some m, u) →
      s.rd (FMT_CTX_STATUS_STATE p) = 3 → s.turn p = true → m.seq = 0 → m.nano = (1 : Nano) <<< 87 →
      ∀ (e : List PByte) (v : State), u.dequeue (reqRing p) = (some e, v) → poisoned e = false →
      s.runs 1 = true → ∃ t, exec (.stalledWordComplete p) s = .next (settle t)
      ∧ t.fmt[p].req = sliceB (bits e) 0 32 ∧ t.rd (FMT_CTX_BUF_ADDR p) = fieldB (sliceB (bits e) 0 32) 28 4 / 64
      ∧ t.fmt[p].done = 0 ∧ t.fmt[p].failIdx = 0xFFFF ∧ t.fmt[p].poison = false
      ∧ t.rd (FMT_CTX_STATUS_STATE p) = 1 ∧ t.rd (FMT_CTX_STATUS_PC p) = (v.rd (FMT_CTX_STATUS_PC p) + 1) % 8192
      ∧ v.keeps t (FMT_CTX_BUF_ADDR p :: fmtSeqFields p)
      ∧ t = { v with regs := t.regs, fmt := t.fmt, fmtLast := p } ∧ v.otherPorts t p)
    ∧ (s.rd (FMT_CTX_STATUS_STATE p) = 3 → s.fmt[p].onRing = true → s.runs 1 = true → ∃ t, exec (.ringStallTimeout p) s = .next (settle t)
      ∧ t.rd (FMT_CTX_EVENT_RING_OVF p) = 1 ∧ t.rd (FMT_CTX_FLAGS_FAULT p) = 1
      ∧ (s.rd (FMT_CTX_FLAGS_FAULT p) = 0 → t.rd (FMT_CTX_FLAGS_ASYNC_CAUSE p) = 2)
      ∧ s.keeps t (FMT_CTX_EVENT_RING_OVF p :: fmtFaultFields p) ∧ t = { s with regs := t.regs })
    ∧ (s.runs 1 = true → ∃ t, exec (.contextTimerExpiry p) s = .next (settle t) ∧ t.rd (FMT_CTX_TIMER_COUNT p) = 0
      ∧ s.keeps t [FMT_CTX_TIMER_COUNT p] ∧ t = { s with regs := t.regs })
    ∧ (∀ g : Gate, s.fmt[p].gates.find? (fun g => !g.started && g.code.isNone) = some g →
      (g.frame + g.skew) % s.wedges p = (s.srv[p].expected + s.wedges p - 1) % s.wedges p →
      g.slot < s.zoneK p → s.loadPending p = false →
      (g.write = false → s.rd (SRV_STATUS_READ_OK p) = 1 → s.runs 1 = true → ∃ t, exec (.gateSlotStart p false) s = .next (settle t)
        ∧ t.fmt[p].gates = mapArmed (fun g => { g with started := true, code := none }) s.fmt[p].gates
        ∧ t = { s with fmt := t.fmt } ∧ s.otherPorts t p)
      ∧ (g.write = true → g.ready = true → g.bad = false → s.rd (SRV_STATUS_WRITE_OK p) = 1 →
        s.runs 1 = true → ∃ t, exec (.gateSlotStart p false) s = .next (settle t)
        ∧ t.fmt[p].gates = mapArmed (fun g => { g with started := true, code := none }) s.fmt[p].gates
        ∧ t.ch[p].wgReq = true ∧ t = { s with ch := t.ch, fmt := t.fmt } ∧ s.otherPorts t p)
      ∧ (g.write = false → s.rd (SRV_STATUS_READ_OK p) = 0 → s.runs 1 = true → ∃ t, exec (.gateSlotStart p false) s = .next (settle t)
        ∧ t.fmt[p].gates = mapArmed (fun g => { g with started := true, code := some 4 }) s.fmt[p].gates
        ∧ t = { s with fmt := t.fmt } ∧ s.otherPorts t p))
    ∧ (∀ g : Gate, s.fmt[p].gates.find? (fun g => g.write && !g.ready && g.code.isNone) = some g →
      g.bypass = true → g.raw = false → let r := s.dmaRead (6 + p.val) g.buf 4096
      s.runs 1 = true → ∃ t, exec (.writePrefetchDone p) s = .next (settle t)
      ∧ t.fmt[p].gates = mapPrefetch (fun x => { x with
          data := r.1.data.take 4096 ++ clean (piBytes (bits (r.1.data.take 4096)) g.wlba g.wgen), ready := true
          bad := r.1.bad || poisoned (r.1.data.take 4096) }) r.2.fmt[p].gates
      ∧ t = { r.2 with fmt := t.fmt } ∧ r.2.otherPorts t p)
    ∧ (∀ g : Gate, s.fmt[p].gates.find? (fun g => g.code.isSome) = some g → s.fmt[p].results.length < 2 →
      s.runs 1 = true → ∃ t, exec (.gateEnd p) s = .next (settle t)
      ∧ t.fmt[p].results = s.fmt[p].results ++ [g] ∧ t.fmt[p].gates = s.fmt[p].gates.erase g
      ∧ t.rd (FMT_CTX_COUNT_SKIPPED p) = (if g.code = some 4 then satInc 16 (s.rd (FMT_CTX_COUNT_SKIPPED p))
          else s.rd (FMT_CTX_COUNT_SKIPPED p))
      ∧ s.keeps t [FMT_CTX_COUNT_SKIPPED p] ∧ t = { s with regs := t.regs, fmt := t.fmt } ∧ s.otherPorts t p)
    ∧ (∀ d : FmtDma, s.fmt[p].dma = some d → d.bypass = true → d.raw = false →
      let block := bitsToBytes 4112 s.idu.slots[slotOf d.slot].dec
      let r := s.dmaWrite (6 + p.val) d.buf (clean (block.take 4096))
      s.runs 1 = true → ∃ t, exec (.fmtDmaDone p) s = .next (settle t)
      ∧ t.fmt[p].dma = none ∧ t.fmt[p].wgen = fieldB block 4104 4
      ∧ (r.1.blocked = false → r.1.error = false → t.fmt[p].pi = piCheck d.mode d.wlba block
          ∧ t = { r.2 with fmt := t.fmt })
      ∧ (r.1.blocked = true ∨ r.1.error = true → t.fmt[p].pi = 1 ∧ t.rd (FMT_CTX_FLAGS_FAULT p) = 1
          ∧ r.2.keeps t (fmtFaultFields p) ∧ t = { r.2 with regs := t.regs, fmt := t.fmt })
      ∧ r.2.otherPorts t p)
    ∧ (s.rd (FMT_CTX_STATUS_STATE p) ≠ 0 → 1024 ≤ s.fmt[p].since → s.runs 1 = true → ∃ t, exec (.safePointLimit p) s = .next (settle t)
      ∧ t.rd (FMT_CTX_STATUS_HARD_CAUSE p) = 3 ∧ t.rd (FMT_CTX_EVENT_FAULT p) = 1
      ∧ t.rd (FMT_CTX_STATUS_STATE p) = 0 ∧ s.keepsOutside t (fmtStopRegs p)
      ∧ t = { s with regs := t.regs, ch := t.ch, fmt := t.fmt, idu := t.idu, freeCtr := t.freeCtr } ∧ s.otherPorts t p)
    ∧ (∀ clr : Bool, s.rd (FMT_CTX_STATUS_STATE p) = 0 → s.rd FMT_CTRL_STORE_VALID = 1 →
      s.regOn (FMT_CTX_CMD_WORD p).addr = true → ∃ t, exec (.fmtStart p clr) s = .next (settle t)
      ∧ t.rd (FMT_CTX_STATUS_STATE p) = 1 ∧ t.rd (FMT_CTX_STATUS_PC p) = s.rd (FMT_CTX_PC_START_PC p)
      ∧ t.rd (FMT_CTX_STATUS_DEPTH p) = 0 ∧ t.fmt[p].stack = [] ∧ t.rd (FMT_CTX_FLAGS_FAULT p) = 0
      ∧ t.rd (FMT_CTX_FLAGS_INT p) = 0 ∧ t.rd (FMT_CTX_FLAGS_HALT_REQ p) = 0 ∧ t.rd (FMT_CTX_FLAGS_F p) = 0
      ∧ (clr = true → t.fmt[p].rwq = [] ∧ t.fmt[p].wlog = [] ∧ t.rd (FMT_CTX_RWQ_LEN_ENTRIES p) = 0)
      ∧ s.keeps t ([FMT_CTX_FLAGS_INT p, FMT_CTX_FLAGS_HALT_REQ p, FMT_CTX_FLAGS_F p, FMT_CTX_RWQ_LEN_ENTRIES p]
          ++ fmtFaultFields p ++ fmtSeqFields p)
      ∧ t = { s with regs := t.regs, fmt := t.fmt } ∧ s.otherPorts t p)
    ∧ (∀ clr : Bool, s.rd (FMT_CTX_STATUS_STATE p) ≠ 0 ∨ s.rd FMT_CTRL_STORE_VALID = 0 →
      s.regOn (FMT_CTX_CMD_WORD p).addr = true → ∃ t, exec (.fmtStart p clr) s = .next (settle t)
      ∧ t.rd (FMT_CTX_EVENT_CMD_REFUSED p) = 1 ∧ s.keeps t [FMT_CTX_EVENT_CMD_REFUSED p] ∧ t = { s with regs := t.regs })
    ∧ (s.regOn (FMT_CTX_CMD_WORD p).addr = true → ∃ t, exec (.fmtHalt p) s = .next (settle t) ∧ t.rd (FMT_CTX_FLAGS_HALT_REQ p) = 1
      ∧ s.keeps t [FMT_CTX_FLAGS_HALT_REQ p] ∧ t = { s with regs := t.regs })
    ∧ (s.rd (FMT_CTX_STATUS_STATE p) ≠ 0 → s.regOn (FMT_CTX_CMD_WORD p).addr = true → ∃ t, exec (.fmtStop p) s = .next (settle t)
      ∧ t.rd (FMT_CTX_STATUS_HARD_CAUSE p) = 7 ∧ t.rd (FMT_CTX_EVENT_FAULT p) = 1
      ∧ t.rd (FMT_CTX_STATUS_LOST_POST p) =
          (if s.rd (FMT_CTX_STATUS_STATE p) = 3 ∧ s.fmt[p].onRing = true then 1 else s.rd (FMT_CTX_STATUS_LOST_POST p))
      ∧ t.rd (FMT_CTX_STATUS_STATE p) = 0 ∧ t.fmt[p].gates = [] ∧ s.keepsOutside t (fmtStopRegs p)
      ∧ t = { s with regs := t.regs, ch := t.ch, fmt := t.fmt, idu := t.idu, freeCtr := t.freeCtr } ∧ s.otherPorts t p)
    ∧ (s.regOn (FMT_CTX_CMD_WORD p).addr = true → ∃ t, exec (.fmtFault p) s = .next (settle t) ∧ t.rd (FMT_CTX_FLAGS_FAULT p) = 1
      ∧ t.rd (FMT_CTX_FLAGS_ASYNC_CAUSE p) =
          (if s.rd (FMT_CTX_FLAGS_FAULT p) = 0 then 1 else s.rd (FMT_CTX_FLAGS_ASYNC_CAUSE p))
      ∧ s.keeps t (fmtFaultFields p) ∧ t = { s with regs := t.regs })
    ∧ (∀ (i : Fin 1024) (w3 : Word), i.val ≠ 0 → s.regOn (0x3008400C + 16 * i.val) = true → ∃ t, exec (.nanowordCommit i w3) s = .next (settle t)
      ∧ t.peekBytes (0x30084000 + 16 * i.val + 12) 4 = leBytes 4 w3.toNat
      ∧ (∀ k : Fin 3, ∀ v : Word, (s.nanoStage.find? (fun e => e.1 == 0x30084000 + 16 * i.val + 4 * k.val)).map Prod.snd = some v →
          t.peekBytes (0x30084000 + 16 * i.val + 4 * k.val) 4 = leBytes 4 v.toNat)
      ∧ s.memOutside t (0x30084000 + 16 * i.val) (0x30084000 + 16 * i.val + 16)
      ∧ s.keeps t [INT_INJECT_ARM]
      ∧ t = { s with regs := t.regs, mem := t.mem, ecc := t.ecc, nanoStage := t.nanoStage })
    ∧ (∀ w3 : Word, s.regOn 0x3008400C = true → ∃ t, exec (.nanowordCommit 0 w3) s = .next (settle t) ∧ t = { s with nanoStage := t.nanoStage })

/-! ### Queues and events (chapter 13) -/

/-- R579, R586, R587 and R596 (a doorbell), R594 (a consume), R589 and R591 (enqueues), R604 (a dequeue), R581, R582 and
R618 (a ring's configuration and reset), R1079 (the error record). -/
def Obligations.RingCommands : Prop :=
  ∀ (s : State),
    (∀ v : Word, let id := getF v 16 10
      let pi := getF v 0 16
      let r := s.ring id
      (r.en = true → (pi + 65536 - r.pi) % 65536 ≤ r.slots - r.count → s.regOn QM_DOORBELL_WORD.addr = true → ∃ t, exec (.qmDoorbell v) s = .next (settle t)
        ∧ t.ring id = { r with
            pi := pi, latch := r.latch || s.asleep r.consumer
            hiHit := r.hiHit || decide (r.hiWm ≠ 0 ∧ r.count < r.hiWm ∧ r.hiWm ≤ ({ r with pi := pi } : Ring).count) }
        ∧ (∀ k : Fin 1024, k.val ≠ id → t.ring k = s.ring k) ∧ t = { s.ringWake id with rings := t.rings })
      ∧ (r.en = true → r.slots - r.count < (pi + 65536 - r.pi) % 65536 → s.rd QM_ERR_INFO_CODE = 0 →
        s.regOn QM_DOORBELL_WORD.addr = true → ∃ t, exec (.qmDoorbell v) s = .next (settle t)
        ∧ t.rd QM_ERR_INFO_CODE = 1 ∧ t.rd QM_ERR_INFO_RING = id ∧ t.rd QM_ERR_INFO_VALUE = pi
        ∧ t.rd QM_COUNT_REJECT = satInc 16 (s.rd QM_COUNT_REJECT) ∧ t.evc = (pulse 6 s).evc
        ∧ s.leaveIdle.keeps t [QM_ERR_INFO_WORD, QM_COUNT_REJECT] ∧ t = { s.leaveIdle with regs := t.regs, evc := t.evc })
      ∧ (r.en = false → s.rd QM_ERR_INFO_CODE = 0 → s.regOn QM_DOORBELL_WORD.addr = true → ∃ t, exec (.qmDoorbell v) s = .next (settle t)
        ∧ t.rd QM_ERR_INFO_CODE = 3 ∧ t.rd QM_ERR_INFO_RING = id
        ∧ s.leaveIdle.keeps t [QM_ERR_INFO_WORD, QM_COUNT_REJECT] ∧ t = { s.leaveIdle with regs := t.regs, evc := t.evc })
      ∧ (r.en = true → (pi + 65536 - r.ci) % 65536 ≤ r.count → s.regOn QM_CONSUME_WORD.addr = true → ∃ t, exec (.qmConsume v) s = .next (settle t)
        ∧ t.ring id = { r with
            ci := pi, loHit := r.loHit || decide (r.loWm < r.count ∧ ({ r with ci := pi } : Ring).count ≤ r.loWm) }
        ∧ (∀ k : Fin 1024, k.val ≠ id → t.ring k = s.ring k) ∧ t = { s with rings := t.rings })
      ∧ (r.en = true → r.count < (pi + 65536 - r.ci) % 65536 → s.rd QM_ERR_INFO_CODE ≠ 0 →
        s.regOn QM_CONSUME_WORD.addr = true → ∃ t, exec (.qmConsume v) s = .next (settle t)
        ∧ t.rd QM_COUNT_REJECT = satInc 16 (s.rd QM_COUNT_REJECT)
        ∧ s.keeps t [QM_COUNT_REJECT] ∧ t = { s with regs := t.regs })
      ∧ (getF v 28 4 ≠ 0 → s.regOn QM_ERR_INFO_WORD.addr = true → ∃ t, exec (.qmErrInfoClear v) s = .next (settle t)
        ∧ t.rd QM_ERR_INFO_CODE = 0 ∧ t.rd QM_ERR_INFO_RING = 0 ∧ t.rd QM_ERR_INFO_VALUE = 0
        ∧ s.keeps t [QM_ERR_INFO_WORD] ∧ t = { s with regs := t.regs }))
    ∧ (∀ (b : Fin 3) (v : Word), let id := getF v 0 10
      let data := (List.range 8).flatMap (fun k => leBytes 4 (s.rd (banked (QM_ENQ_DATA_DATA k) b.val)))
      (s.enqTest id = .ok → s.mayIssue b = true → s.regOn QM_ENQ_RING_WORD.addr = true → ∃ t, exec (.qmStagedEnqueue b v) s = .next (settle t)
        ∧ s.posted t id (data.take (s.ring id).bytes) ∧ t.rd (banked QM_ENQ_RESULT_RESULT b.val) = 0
        ∧ s.keeps t [INT_INJECT_ARM, banked QM_ENQ_RESULT_RESULT b.val]
        ∧ t = { s with regs := t.regs, mem := t.mem, ecc := t.ecc, rings := t.rings, memDue := t.memDue })
      ∧ (s.enqTest id ≠ .ok → s.mayIssue b = true → s.regOn QM_ENQ_RING_WORD.addr = true → ∃ t, exec (.qmStagedEnqueue b v) s = .next (settle t)
        ∧ t.rd (banked QM_ENQ_RESULT_RESULT b.val) = (if (s.ring id).en then 1 else 2)
        ∧ s.keeps t [banked QM_ENQ_RESULT_RESULT b.val] ∧ t = { s with regs := t.regs }))
    ∧ (∀ (ring : Fin 1024) (e : List Byte),
      (s.enqTest ring = .ok → e.length = (s.ring ring).bytes →
        s.pw.lostLock.getLsbD 1 = false → ∃ t, exec (.qmHardwareEnqueue ring e) s = .next (settle t)
        ∧ s.posted t ring e ∧ (s.ringWake ring).keeps t [INT_INJECT_ARM]
        ∧ t = { s.ringWake ring with regs := t.regs, mem := t.mem, ecc := t.ecc, rings := t.rings, memDue := t.memDue })
      ∧ (s.enqTest ring = .full → s.pw.lostLock.getLsbD 1 = false → ∃ t, exec (.qmHardwareEnqueue ring e) s = .next (settle t)
        ∧ t.ring ring = { s.ring ring with fullSeen := true } ∧ t = { s.leaveIdle with rings := t.rings }))
    ∧ (∀ ring : Fin 1024, let r := s.ring ring
      let d := State.readMem (r.slotAddr r.ci) r.bytes (s.initMem 1)
      r.en = true → 0 < r.count → 3 ≤ r.consumer → poisoned d.1 = false →
      s.pw.lostLock.getLsbD 1 = false → ∃ t, exec (.qmHardwareDequeue ring) s = .next (settle t)
      ∧ t.bus.data = d.1 ∧ (t.ring ring).ci = (r.ci + 1) % 65536 ∧ (t.ring ring).pi = r.pi
      ∧ t = { d.2 with rings := t.rings, bus := t.bus })
    ∧ (∀ ring : Fin 1024, let r := s.ring ring
      let d := State.readMem (r.slotAddr r.ci) r.bytes (s.initMem 1)
      r.en = true → 0 < r.count → 3 ≤ r.consumer → poisoned d.1 = true →
      s.pw.lostLock.getLsbD 1 = false → ∃ t, exec (.qmHardwareDequeue ring) s = .next (settle t)
      ∧ t.bus.data = d.1 ∧ (t.ring ring).ci = (r.ci + 1) % 65536 ∧ (t.ring ring).poisonSeen = true
      ∧ t.rd QM_POISON_INFO_RING = ring.val ∧ t.rd QM_POISON_INFO_INDEX = r.ci % 65536
      ∧ t.rd QM_COUNT_POISON = satInc 16 (d.2.rd QM_COUNT_POISON)
      ∧ d.2.keeps t [QM_POISON_INFO_RING, QM_POISON_INFO_INDEX, QM_COUNT_POISON]
      ∧ t = { d.2 with regs := t.regs, rings := t.rings, bus := t.bus, evc := t.evc })
    ∧ (∀ (b : Fin 3) (v : Word), let r := s.ring (s.selRing b.val)
      (r.en = false → v.getLsbD 31 = false → v.getLsbD 29 = r.wakeEn → getF v 0 4 ≤ 8 → agentReserved (getF v 8 5) = false →
        s.mayIssue b = true → s.regOn QM_RING_CFG_WORD.addr = true → ∃ t, exec (.qmRingConfigWrite b true v) s = .next (settle t)
        ∧ t.ring (s.selRing b.val) = { r with
            size := getF v 0 4, esize := getF v 4 1, consumer := getF v 8 5, precious := v.getLsbD 30
            group := getF v 24 4, loEn := v.getLsbD 23, hiEn := v.getLsbD 22, neEn := v.getLsbD 21, en := false }
        ∧ (∀ k : Fin 1024, k.val ≠ s.selRing b.val → t.ring k = s.ring k) ∧ t = { s with rings := t.rings })
      ∧ (r.en = false → s.mayIssue b = true → s.regOn QM_RING_BASE_WORD.addr = true → ∃ t, exec (.qmRingConfigWrite b false v) s = .next (settle t)
        ∧ t.ring (s.selRing b.val) = { r with base := getF v 6 13 } ∧ t = { s with rings := t.rings })
      ∧ (r.en = true → getF v 6 13 ≠ r.base → s.rd QM_ERR_INFO_CODE = 0 →
        s.mayIssue b = true → s.regOn QM_RING_BASE_WORD.addr = true → ∃ t, exec (.qmRingConfigWrite b false v) s = .next (settle t)
        ∧ t.rd QM_ERR_INFO_CODE = 4 ∧ t.rd QM_ERR_INFO_RING = s.selRing b.val
        ∧ s.keeps t [QM_ERR_INFO_WORD, QM_COUNT_REJECT] ∧ t = { s with regs := t.regs, evc := t.evc })
      ∧ (r.en = false → s.mayIssue b = true → s.regOn QM_RING_CMD_WORD.addr = true → ∃ t, exec (.qmRingReset b) s = .next (settle t)
        ∧ t.ring (s.selRing b.val) = { r with pi := 0, ci := 0, hiHit := false, loHit := false, fullSeen := false,
                                              poisonSeen := false, latch := false }
        ∧ (∀ k : Fin 1024, k.val ≠ s.selRing b.val → t.ring k = s.ring k) ∧ t = { s with rings := t.rings })
      ∧ (r.en = true → s.rd QM_ERR_INFO_CODE = 0 → s.mayIssue b = true → s.regOn QM_RING_CMD_WORD.addr = true → ∃ t, exec (.qmRingReset b) s = .next (settle t)
        ∧ t.rd QM_ERR_INFO_CODE = 7 ∧ t.rd QM_ERR_INFO_RING = s.selRing b.val ∧ t.evc = (pulse 6 s).evc
        ∧ s.keeps t [QM_ERR_INFO_WORD, QM_COUNT_REJECT] ∧ t = { s with regs := t.regs, evc := t.evc }))

/-- R606 and R607 (an event input), R609 (a claim), R615 (EVC_SW), R605, R619 and R1070 (a source's configuration). -/
def Obligations.EventCommands : Prop :=
  ∀ (s : State),
    (∀ i : Fin 128, i.val ≠ 95 → i.val ≠ 127 → s.levels.any (fun e => e.1 == i.val) = false →
      (s.rd (EVC_SRC_CFG_MODE i) = 1 → ∃ t, exec (.eventInput i) s = .next (settle t)
        ∧ t.evc.pend.getLsbD i = true
        ∧ t.evc.coal.getLsbD i = (s.evc.coal.getLsbD i || s.evc.pend.getLsbD i)
        ∧ (∀ k : Fin 128, k ≠ i → t.evc.pend.getLsbD k = s.evc.pend.getLsbD k
            ∧ t.evc.coal.getLsbD k = s.evc.coal.getLsbD k)
        ∧ t = { s with evc := t.evc })
      ∧ (s.rd (EVC_SRC_CFG_MODE i) = 0 → exec (.eventInput i) s = .next (settle s)))
    ∧ (∀ (c : Fin 2) (dbg : Bool), (settle s).claimable c = none → s.mayIssue c = true → s.regOn (EVC_CLAIM_WORD c).addr = true → ∃ t, exec (.evcClaim c dbg) s = .next (settle t)
      ∧ bits t.bus.data = leBytes 4 0xFF ∧ t = { s with bus := t.bus, evc := t.evc })
    ∧ (∀ (c : Fin 2) (i : Nat), (settle s).claimable c = some i →
      (s.mayIssue c = true → s.regOn (EVC_CLAIM_WORD c).addr = true → ∃ t, exec (.evcClaim c true) s = .next (settle t)
        ∧ bits t.bus.data = leBytes 4 i ∧ t = { s with bus := t.bus, evc := t.evc })
      ∧ (s.rd (EVC_SRC_CFG_MODE i) = 1 → s.mayIssue c = true → s.regOn (EVC_CLAIM_WORD c).addr = true → ∃ t, exec (.evcClaim c false) s = .next (settle t)
        ∧ bits t.bus.data = leBytes 4 i ∧ t.evc.pend.getLsbD i = false
        ∧ (∀ k : Fin 128, k.val ≠ i → t.evc.pend.getLsbD k = (settle s).evc.pend.getLsbD k)
        ∧ t = { s with bus := t.bus, evc := t.evc }))
    ∧ (∀ v : Word, s.regOn EVC_SW_SET_WORD.addr = true → ∃ t, exec (.evcSwSet v) s = .next (settle t)
      ∧ (∀ i : Fin 8, t.evc.sw.getLsbD i = (s.evc.sw.getLsbD i || v.getLsbD i)) ∧ t = { s with evc := t.evc })
    ∧ (∀ v : Word, s.regOn EVC_SW_CLR_WORD.addr = true → ∃ t, exec (.evcSwClr v) s = .next (settle t)
      ∧ (∀ i : Fin 8, t.evc.sw.getLsbD i = (s.evc.sw.getLsbD i && !v.getLsbD i)) ∧ t = { s with evc := t.evc })
    ∧ (∀ (i : Fin 128) (v : Word), i.val ≠ 95 → i.val ≠ 127 → s.regOn (EVC_SRC_CFG_WORD i).addr = true → ∃ t, exec (.evcSourceConfig i v) s = .next (settle t)
      ∧ t.rd (EVC_SRC_CFG_MODE i) = getF v 0 1 ∧ t.rd (EVC_SRC_CFG_PRIO i) = getF v 3 3
      ∧ t.rd (EVC_SRC_CFG_TARGET i) = getF v 6 2 ∧ t.rd (EVC_SRC_CFG_WAKE i) = getF v 8 1
      ∧ s.keeps t [EVC_SRC_CFG_MODE i, EVC_SRC_CFG_PRIO i, EVC_SRC_CFG_TARGET i, EVC_SRC_CFG_WAKE i]
      ∧ t = { s with regs := t.regs, evc := t.evc })
    ∧ (∀ (i : Fin 128) (v : Word), (i.val = 95 ∨ i.val = 127) → s.regOn (EVC_SRC_CFG_WORD i).addr = true → exec (.evcSourceConfig i v) s = .next (settle s))

/-! ### The Host Port (chapter 19) -/

/-- R836 to R839 (registers), R841 and R868 (while the part sleeps), R843 (a reset under way), R845, R846 and R862 (the
window), R848 (the completion ring), R833, R854 and R871 (errors), R850, R853 and R856 (the data stream), R130. -/
def Obligations.HostPortCycles : Prop :=
  ∀ (s : State), s.hpServes = true →
    (s.pw.sleep = .idle → s.hpAwake = true → let w := s.idleWake 0
      (∀ a : Fin 16, a.val ≠ 4 → a.val ≠ 6 → a.val ≠ 9 → a.val ≠ 14 → exec (.hpRegisterRead a) s = exec (.hpRegisterRead a) w)
      ∧ exec .hpErrorRead s = exec .hpErrorRead w ∧ exec .hpWindowRead s = exec .hpWindowRead w
      ∧ exec .hpPeekRead s = exec .hpPeekRead w
      ∧ (s.bit SYS_STRAP_HP_MODE 1 = false → exec .hpStrobeConflict s = exec .hpStrobeConflict w)
      ∧ (∀ v : BitVec 16, exec (.hpByteHiWrite v) s = exec (.hpByteHiWrite v) w
        ∧ exec (.hpWindowWrite v) s = exec (.hpWindowWrite v) w ∧ exec (.hpCqWrite v) s = exec (.hpCqWrite v) w
        ∧ (∀ x : Bool, exec (.hpDataTransfer x v) s = exec (.hpDataTransfer x v) w)))
    ∧ (∀ x : Bool, s.hpAwake = true → s.hp.held = some x → ∃ t, exec (.hpWaitLimit) s = .next (settle t)
          ∧ s.hpErrs t 7 0 ∧ s.keeps t hpErrFields
          ∧ t.bus = (if x then s.bus else { data := clean (List.replicate s.hpUnit 0xFF) })
          ∧ t = { s with regs := t.regs, evc := t.evc, bus := t.bus, hp := { s.hp with held := none } })
    ∧ (s.pw.sleep ≠ .idle →
    let h : HostPort := { s.hp with held := none }
    let hw : HostPort := { s.hp with held := none, whi := if s.hpWide then s.hp.whi else 0 }
    let word (v : BitVec 16) : Nat := if s.hpWide then v.toNat else s.hp.whi * 256 + v.toNat % 256
    let out (l : List Byte) : List PByte := clean (if s.hpWide && s.flag HW_CONTROL_SWAP then l.reverse else l)
    (∀ a : Fin 16, a.val ≠ 4 → a.val ≠ 6 → a.val ≠ 9 → a.val ≠ 14 → a.val ≠ 15 → (s.hpAwake = true ∨ a.val = 0 ∨ a.val = 5) →
      ∃ t, exec (.hpRegisterRead a) s = .next (settle t)
        ∧ t.bus = { data := clean (leBytes s.hpUnit (s.hwRead a)) }
        ∧ t = { s with bus := t.bus, hp := { h with rhi := if s.hpWide then s.hp.rhi else s.hwRead a / 256 % 256 } })
    ∧ (s.hpAwake = true → ∃ t, exec (.hpRegisterRead 15) s = .next (settle t)
        ∧ t.bus = { data := clean (if s.hpWide then leBytes 2 0 else leBytes 1 s.hp.rhi) } ∧ t = { s with bus := t.bus, hp := h })
    ∧ (∃ t, exec (.hpErrorRead) s = .next (settle t)
        ∧ t.bus = { data := clean (leBytes s.hpUnit (256 * s.rd HW_ERROR_TAG + s.rd HW_ERROR_CODE)) }
        ∧ t.rd HW_ERROR_CODE = 0 ∧ t.rd HW_ERROR_TAG = 0 ∧ s.keeps t [HW_ERROR_CODE, HW_ERROR_TAG]
        ∧ t = { s with regs := t.regs, bus := t.bus,
                       hp := { h with rhi := if s.hpWide then s.hp.rhi else s.rd HW_ERROR_TAG } })
    ∧ (∀ v : BitVec 16, s.hpAwake = true → ∃ t, exec (.hpByteHiWrite v) s = .next (settle t)
        ∧ t = { s with hp := { h with whi := if s.hpWide then s.hp.whi else v.toNat % 256 } })
    ∧ (∀ v : BitVec 16, s.hpAwake = true → s.rd HW_INDEX_SPACE = 0 →
        let o := if s.hpWide then s.rd HW_INDEX_OFFSET / 2 * 2 else s.rd HW_INDEX_OFFSET
        let tag := tagOf (o / 32)
        let d := bits (out (leBytes s.hpUnit v.toNat))
        (s.tagState tag = 0 → s.usbTag tag = false → s.sbTag tag = false → ∃ t, exec (.hpWindowWrite v) s = .next (settle t)
          ∧ t.peekBytes (s.hqArea + o) s.hpUnit = d
          ∧ (s.memDue.getLsbD 1 = false → s.memOutside t (s.hqArea + o) (s.hqArea + o + s.hpUnit))
          ∧ t.rd HW_INDEX_OFFSET = (s.rd HW_INDEX_OFFSET + s.hpUnit) % 1024 ∧ s.keeps t [HW_INDEX_OFFSET, INT_INJECT_ARM]
          ∧ t = { s with regs := t.regs, mem := t.mem, ecc := t.ecc, memDue := t.memDue, hp := h })
        ∧ ((s.tagState tag ≠ 0 ∨ s.usbTag tag = true ∨ s.sbTag tag = true) → ∃ t, exec (.hpWindowWrite v) s = .next (settle t)
          ∧ s.hpErrs t 4 tag ∧ s.keeps t hpErrFields ∧ t = { s with regs := t.regs, evc := t.evc, hp := h }))
    ∧ (∀ v : BitVec 16, s.hpAwake = true → (s.rd HW_INDEX_SPACE = 1 ∨ s.rd HW_INDEX_SPACE = 2) →
        ∃ t, exec (.hpWindowWrite v) s = .next (settle t)
          ∧ s.hpErrs t 5 0 ∧ s.keeps t hpErrFields ∧ t = { s with regs := t.regs, evc := t.evc, hp := h })
    ∧ (∀ v : BitVec 16, s.hpAwake = true → s.rd HW_INDEX_SPACE = 3 → ∃ t, exec (.hpWindowWrite v) s = .next (settle t)
          ∧ t = { s with hp := { hw with peek := if s.rd HW_INDEX_OFFSET % 2 = 0 then s.hp.peek / 65536 * 65536 + word v
                                                 else word v * 65536 + s.hp.peek % 65536 } })
    ∧ (s.hpAwake = true → (s.rd HW_INDEX_SPACE = 0 ∨ s.rd HW_INDEX_SPACE = 1) →
        let o := if s.hpWide then s.rd HW_INDEX_OFFSET / 2 * 2 else s.rd HW_INDEX_OFFSET
        let d := State.readMem (s.hqArea + 0x400 * s.rd HW_INDEX_SPACE + o) s.hpUnit (s.initMem 1)
        poisoned d.1 = false → ∃ t, exec (.hpWindowRead) s = .next (settle t)
          ∧ t.bus = { data := out (bits d.1) } ∧ t.rd HW_INDEX_OFFSET = (s.rd HW_INDEX_OFFSET + s.hpUnit) % 1024
          ∧ d.2.keeps t [HW_INDEX_OFFSET] ∧ t = { d.2 with regs := t.regs, bus := t.bus, hp := h })
    ∧ (s.hpAwake = true → s.rd HW_INDEX_SPACE = 2 →
        let a := if s.hpWide then s.hp.peek / 2 * 2 else s.hp.peek
        let d := s.dmaRead 4 a s.hpUnit
        d.1.bad = false → ∃ t, exec (.hpPeekRead) s = .next (settle t)
          ∧ t.bus = { data := out (bits d.1.data) }
          ∧ t = { d.2 with bus := t.bus, hp := { h with peek := (s.hp.peek + s.hpUnit) % 2 ^ 32 } })
    ∧ (∀ v : BitVec 16, s.hpAwake = true →
        let room := decide ((word v % 128 + 128 - s.rd HQE_CQ_HP_HEAD) % 128 ≤ s.cqCount 0)
        (room = true → ∃ t, exec (.hpCqWrite v) s = .next (settle t)
          ∧ t.rd HQE_CQ_HP_HEAD = word v % 128 ∧ s.keeps t [HQE_CQ_HP_HEAD] ∧ t = { s with regs := t.regs, hp := hw })
        ∧ (room = false → ∃ t, exec (.hpCqWrite v) s = .next (settle t)
          ∧ s.hpErrs t 6 0 ∧ s.keeps t hpErrFields ∧ t = { s with regs := t.regs, evc := t.evc, hp := hw }))
    ∧ (s.bit SYS_STRAP_HP_MODE 1 = false → ∃ t, exec (.hpStrobeConflict) s = .next (settle t)
          ∧ s.hpErrs t 13 0 ∧ s.keeps t hpErrFields ∧ t = { s with regs := t.regs, evc := t.evc, hp := h })
    ∧ (∀ v : BitVec 16, s.hpAwake = true → s.hq.cur[(0 : Fin 2)] = none → s.hpUnit ≤ s.hp.fifo.length →
          ∃ t, exec (.hpDataTransfer false v) s = .next (settle t)
          ∧ t.bus = { data := out (bits (s.hp.fifo.take s.hpUnit)) }
          ∧ t = { s with bus := t.bus, hp := { h with fifo := s.hp.fifo.drop s.hpUnit } })
    ∧ (∀ x : HqXfer, s.hq.cur[(0 : Fin 2)] = some x → ∀ v : BitVec 16, s.hpAwake = true → x.fromHost = false →
          x.segs = [] → s.hpUnit ≤ s.hp.fifo.length → ∃ t, exec (.hpDataTransfer false v) s = .next (settle t)
          ∧ t.bus = { data := out (bits (s.hp.fifo.take s.hpUnit)) }
          ∧ t.hq.cur[(0 : Fin 2)] = some { x with given := x.given + s.hpUnit }
          ∧ t.bit HP_EVENT_EV 5 = (s.bit HP_EVENT_EV 5
              || (x.last && !x.fast && decide (x.total ≤ x.given + s.hpUnit)))
          ∧ s.keeps t [HP_EVENT_EV]
          ∧ t = { s with regs := t.regs, evc := t.evc, bus := t.bus, hq := { s.hq with cur := t.hq.cur },
                         hp := { h with fifo := s.hp.fifo.drop s.hpUnit } })
    ∧ (∀ x : HqXfer, s.hq.cur[(0 : Fin 2)] = some x → ∀ v : BitVec 16, s.hpAwake = true → x.fromHost = true →
          x.stop = none → x.moved + s.hp.fifo.length < x.total → s.hp.fifo.length + s.hpUnit < 64 →
          ∃ t, exec (.hpDataTransfer true v) s = .next (settle t)
          ∧ t = { s with hp := { h with fifo := s.hp.fifo ++ out (leBytes s.hpUnit v.toNat) } })
    ∧ (∀ (v : BitVec 16) (w : Bool), s.hpAwake = true → s.hq.cur[(0 : Fin 2)] = none → s.hp.fifo = [] →
          (s.flag HW_CONTROL_WAIT_EN = true → ∃ t, exec (.hpDataTransfer w v) s = .next (settle t)
            ∧ t = { s with hp := { s.hp with held := some w } })
          ∧ (s.flag HW_CONTROL_WAIT_EN = false → ∃ t, exec (.hpDataTransfer w v) s = .next (settle t)
            ∧ s.hpErrs t 7 0 ∧ s.keeps t hpErrFields
            ∧ t.bus = (if w then s.bus else { data := clean (List.replicate s.hpUnit 0xFF) })
            ∧ t = { s with regs := t.regs, evc := t.evc, bus := t.bus, hp := h })))

/-- R857, R858, R859 and R861 (the mailboxes), R864 and R866 (Simple Block mode), R843 and R120 (the end of an
interface-scope reset), R130 (the Host Port's enable), R847 (a doorbell). -/
def Obligations.HostPortModes : Prop :=
  ∀ (s : State),
    (s.hpServes = true → s.hpAwake = true → s.pw.sleep = .idle → let w := s.idleWake 0
      exec .hpMboxPush s = exec .hpMboxPush w ∧ exec .hpMboxEnd s = exec .hpMboxEnd w
      ∧ exec .hpMboxInClear s = exec .hpMboxInClear w ∧ exec .hpMboxOutFlush s = exec .hpMboxOutFlush w
      ∧ exec .hpMboxOutRead s = exec .hpMboxOutRead w
      ∧ (∀ v : BitVec 16, exec (.hpMboxInWrite v) s = exec (.hpMboxInWrite v) w ∧ exec (.hpSbRead v) s = exec (.hpSbRead v) w
        ∧ exec (.hpSbWrite v) s = exec (.hpSbWrite v) w ∧ exec (.hpDoorbellWrite v) s = exec (.hpDoorbellWrite v) w))
    ∧ (s.hpServes = true → s.hpAwake = true → s.pw.sleep ≠ .idle →
      let h : HostPort := { s.hp with held := none }
      (∀ v : BitVec 16,
        (s.hp.inWait = none → s.hp.inBuf.length < 29 → ∃ t, exec (.hpMboxInWrite v) s = .next (settle t)
          ∧ t = { s with hp := { h with inBuf := s.hp.inBuf ++ [v.setWidth 8] } })
        ∧ (s.hp.inWait = none → s.hp.inBuf.length = 29 → s.enqTest 2 = .ok →
          ∃ t, exec (.hpMboxInWrite v) s = .next (settle t)
          ∧ s.posted t 2 (sliceB (leBytes 1 30 ++ leBytes 1 0 ++ s.hp.inBuf ++ [v.setWidth 8]) 0 (s.ring 2).bytes)
          ∧ s.keeps t [INT_INJECT_ARM]
          ∧ t = { s with regs := t.regs, mem := t.mem, ecc := t.ecc, rings := t.rings, memDue := t.memDue,
                         hp := { h with inBuf := [] } })
        ∧ ((s.hp.inWait ≠ none ∨ 30 ≤ s.hp.inBuf.length) → ∃ t, exec (.hpMboxInWrite v) s = .next (settle t)
          ∧ s.hpErrs t 8 0 ∧ s.keeps t hpErrFields ∧ t = { s with regs := t.regs, evc := t.evc, hp := h }))
      ∧ (s.hp.inWait = none → s.hp.inBuf ≠ [] → s.hp.inBuf.length ≤ 30 → s.enqTest 2 = .ok →
          ∃ t, exec (.hpMboxPush) s = .next (settle t)
          ∧ s.posted t 2 (sliceB (leBytes 1 s.hp.inBuf.length ++ leBytes 1 0 ++ s.hp.inBuf) 0 (s.ring 2).bytes)
          ∧ s.keeps t [INT_INJECT_ARM]
          ∧ t = { s with regs := t.regs, mem := t.mem, ecc := t.ecc, rings := t.rings, memDue := t.memDue,
                         hp := { h with inBuf := [] } })
      ∧ ((s.hp.inWait ≠ none ∨ s.hp.inBuf = []) → ∃ t, exec (.hpMboxPush) s = .next (settle t) ∧ t = { s with hp := h })
      ∧ (s.hp.inWait = none → s.hp.inBuf.length ≤ 30 → s.enqTest 2 = .ok → ∃ t, exec (.hpMboxEnd) s = .next (settle t)
          ∧ s.posted t 2 (sliceB (leBytes 1 s.hp.inBuf.length ++ leBytes 1 1 ++ s.hp.inBuf) 0 (s.ring 2).bytes)
          ∧ t.bit HP_EVENT_EV 1 = true ∧ s.keeps t [INT_INJECT_ARM, HP_EVENT_EV]
          ∧ t = { s with regs := t.regs, mem := t.mem, ecc := t.ecc, rings := t.rings, memDue := t.memDue,
                         hp := { h with inBuf := [] } })
      ∧ (s.hp.inWait ≠ none → ∃ t, exec (.hpMboxEnd) s = .next (settle t)
          ∧ t = { s with hp := { h with inWait := some true } })
      ∧ (∃ t, exec (.hpMboxInClear) s = .next (settle t) ∧ t = { s with hp := { h with inBuf := [], inWait := none } })
      ∧ ((s.hp.outBuf = [] ∨ s.hp.outEnd = true) → ∃ t, exec (.hpMboxOutFlush) s = .next (settle t)
          ∧ t = { s with hp := { h with outBuf := [], outEnd := if s.hp.outBuf = [] then s.hp.outEnd else false } })
      ∧ (∀ b bs, s.hp.outBuf = b :: bs → b.2 = false → ∃ t, exec (.hpMboxOutRead) s = .next (settle t)
          ∧ t.bus = { data := clean (b.1 :: List.replicate (s.hpUnit - 1) 0) }
          ∧ t.bit HP_EVENT_EV 2 = (s.bit HP_EVENT_EV 2 || (bs.isEmpty && s.hp.outEnd && (s.ring 3).count == 0))
          ∧ s.keeps t [HP_EVENT_EV] ∧ t = { s with regs := t.regs, bus := t.bus, hp := { h with outBuf := bs } })
      ∧ (s.hp.outBuf = [] → ∃ t, exec (.hpMboxOutRead) s = .next (settle t)
          ∧ t.bus = { data := clean (List.replicate s.hpUnit 0) } ∧ s.hpErrs t 9 0 ∧ s.keeps t hpErrFields
          ∧ t = { s with regs := t.regs, evc := t.evc, bus := t.bus, hp := h })
      ∧ (∀ v : BitVec 16, let w := if s.hpWide then v.toNat else s.hp.whi * 256 + v.toNat % 256
          let hw : HostPort := { h with whi := if s.hpWide then s.hp.whi else 0 }
          let u : State := { s with hp := hw }
          let go := s.flag HP_CFG_SB_EN && s.flag HQE_CTRL_ENABLE && !s.flag HW_SB_CMD_BUSY && s.tagState 31 == 0
          let lba := s.rd HW_SB_LBA_HI_LBA * 65536 + s.rd HW_SB_LBA_LO_LBA
          let slot (op : Nat) : List Byte := leBytes 1 op ++ leBytes 1 0 ++ leBytes 1 (w / 4 % 4) ++ leBytes 1 0
            ++ leBytes 4 0xFFFFFFFF ++ leBytes 8 lba ++ leBytes 4 1 ++ List.replicate 12 0
          let q (op : Nat) : Nat × State := State.hqDoorbell
            (((u.wr HW_SB_CMD_VOLUME (w / 4 % 4)).initMem 1).store (u.slotAddr 31) (slot op)) false true 31
          (go = true → (∃ t, exec (.hpSbRead v) s = .next (settle t)
              ∧ (q 1).1 = 0 ∧ t.rd HW_SB_CMD_BUSY = 1 ∧ t.rd HW_SB_CMD_DONE = 0 ∧ t.bit HP_EVENT_EV 3 = true
              ∧ (q 1).2.keeps t [HW_SB_CMD_BUSY, HW_SB_CMD_DONE, HP_EVENT_EV]
              ∧ t = { (q 1).2 with regs := t.regs, evc := t.evc })
            ∧ (∃ t, exec (.hpSbWrite v) s = .next (settle t)
              ∧ (q 2).1 = 0 ∧ t.rd HW_SB_CMD_BUSY = 1 ∧ t.rd HW_SB_CMD_DONE = 0 ∧ t.bit HP_EVENT_EV 3 = true
              ∧ (q 2).2.keeps t [HW_SB_CMD_BUSY, HW_SB_CMD_DONE, HP_EVENT_EV]
              ∧ t = { (q 2).2 with regs := t.regs, evc := t.evc }))
          ∧ (go = false → (∃ t, exec (.hpSbRead v) s = .next (settle t)
              ∧ s.hpErrs t 11 0 ∧ s.keeps t hpErrFields ∧ t = { s with regs := t.regs, evc := t.evc, hp := hw })
            ∧ (∃ t, exec (.hpSbWrite v) s = .next (settle t)
              ∧ s.hpErrs t 11 0 ∧ s.keeps t hpErrFields ∧ t = { s with regs := t.regs, evc := t.evc, hp := hw }))
          ∧ (s.flag HQE_CTRL_ENABLE = true → s.usbTag (tagOf (w % 32)) = false → s.sbTag (tagOf (w % 32)) = false →
              s.tagState (tagOf (w % 32)) = 0 → exec (.hpDoorbellWrite v) s
                = .next (settle (State.hqDoorbell u false false (tagOf (w % 32))).2)
              ∧ (State.hqDoorbell u false false (tagOf (w % 32))).1 = 0)))
    ∧ (∀ e : Bool, s.hp.inWait = some e → s.hp.inBuf.length ≤ 30 → s.enqTest 2 = .ok → s.runs 13 = true →
        ∃ t, exec (.hpMboxInEnqueue) s = .next (settle t)
        ∧ s.posted t 2 (sliceB (leBytes 1 s.hp.inBuf.length ++ leBytes 1 (b2n e) ++ s.hp.inBuf) 0 (s.ring 2).bytes)
        ∧ t.bit HP_EVENT_EV 1 = (s.bit HP_EVENT_EV 1 || e) ∧ (s.ringWake 2).keeps t [INT_INJECT_ARM, HP_EVENT_EV]
        ∧ t = { s.ringWake 2 with regs := t.regs, mem := t.mem, ecc := t.ecc, rings := t.rings, memDue := t.memDue, hp := { s.hp with inBuf := [], inWait := none } })
    ∧ (let r := s.ring 3
        let d := State.readMem (r.slotAddr r.ci) r.bytes (s.initMem 1)
        let n := (d.1.headD (0, false)).1.toNat
        s.hp.outBuf = [] → r.consumer = 4 → r.en = true → 0 < r.count → poisoned d.1 = false → s.runs 13 = true →
        ∃ t, exec (.hpMboxOutTake) s = .next (settle t)
        ∧ t.hp = { s.hp with outBuf := (d.1.drop 2).take (min 30 n), outEnd := ((d.1.getD 1 (0, false)).1).getLsbD 0 }
        ∧ (t.ring 3).ci = (r.ci + 1) % 65536 ∧ t = { d.2 with rings := t.rings, hp := t.hp })
    ∧ (∀ e : List Byte, s.hq.tags[(31 : Fin 32)].entry = some e → s.tagState 31 = 5 → s.hq.tags[(31 : Fin 32)].sb = true →
        s.runs 13 = true → let u := State.freeTag (((s.wr HW_SB_CMD_RESULT (fieldB e 5 1)).down HW_SB_CMD_BUSY).up HW_SB_CMD_DONE) 31
        exec (.hpSbComplete) s = .next (settle u.hqDone)
        ∧ u.tagState 31 = 0 ∧ u.rd HW_SB_CMD_BUSY = 0 ∧ u.rd HW_SB_CMD_DONE = 1 ∧ u.rd HW_SB_CMD_RESULT = fieldB e 5 1)
    ∧ (∃ t, exec (.hpInterfaceResetDone) s = .next (settle t) ∧ t = { s with hp := { s.hp with resetting := false } })
    ∧ (∀ v : Word, s.on 13 = true → s.regOn HP_CFG_WORD.addr = true → ∃ t, exec (.hostPortEnable v) s = .next (settle t)
        ∧ t.rd HP_CFG_ENABLE = getF v 0 1 ∧ t.rd HP_CFG_SB_EN = getF v 1 1 ∧ t.rd HP_CFG_WAIT_LIMIT = getF v 16 16
        ∧ s.keeps t [HP_CFG_ENABLE, HP_CFG_SB_EN, HP_CFG_WAIT_LIMIT] ∧ t = { s with regs := t.regs })

/-! ### The host command queue (chapter 18) -/

/-- R787 to R789 (a doorbell), R797 (a descriptor), R799 (a transfer's end), R800 (a completion from firmware), R801 and
R802 (a completion posted), R818 (the Hit Fast Path's end), R785 (the tag split), R821 (the map synchronised). -/
def Obligations.HostQueue : Prop :=
  ∀ (s : State),
    (∀ (usb : Bool) (tag : Fin 32), s.flag HQE_CTRL_ENABLE = true → s.usbTag tag = usb → s.tagState tag = 0 →
      let d := State.readMem (s.slotAddr tag) 32 (s.leaveIdle.initMem 1)
      let c := bits d.1
      let x : HqTag := { usb := usb, sb := s.sbTag tag && !usb, seq := s.hq.seq + 1, slot := c,
                         ordered := (fieldB c 1 1).testBit 0 }
      let u : State := { d.2 with hq := { s.hq with seq := s.hq.seq + 1, tags := s.hq.tags.set tag x } }
      fieldB c 0 1 ≠ 4 → s.runs 1 = true → exec (.hqeDoorbell usb tag) s
        = .next (settle (if u.mustWait tag then u.setTag tag 1 else u.routeTag tag).hqDone))
    ∧ (∀ (usb : Bool) (tag : Fin 32),
      let code := if s.flag HQE_CTRL_ENABLE = false then 1 else if s.usbTag tag ≠ usb then 2 else 3
      (s.flag HQE_CTRL_ENABLE = false ∨ s.usbTag tag ≠ usb ∨ s.tagState tag ≠ 0) → s.rd HQE_ERR_INFO_CODE = 0 →
      s.runs 1 = true → ∃ t, exec (.hqeDoorbell usb tag) s = .next (settle t)
        ∧ t.rd HQE_ERR_INFO_CODE = code ∧ t.rd HQE_ERR_INFO_TAG = tag.val ∧ t.bit HQE_EVENT_EV 4 = true
        ∧ s.leaveIdle.keeps t [HQE_ERR_INFO_CODE, HQE_ERR_INFO_TAG, HQE_EVENT_EV] ∧ t = { s.leaveIdle with regs := t.regs })
    ∧ (∀ e : List PByte, (s.dequeue 7).1 = some e → (s.ring 7).consumer = 3 → poisoned e = false →
      s.descOk (bits e) = true → (s.dequeue 7).2.hq.stopped.contains (fieldB (bits e) 2 1, fieldB (bits e) 3 1 / 32) = false →
      let u := (s.dequeue 7).2
      let d := bits e
      let x : HqXfer := { fast := false, tag := fieldB d 2 1, gen := fieldB d 3 1 / 32, fromHost := (fieldB d 3 1).testBit 0,
                          last := (fieldB d 3 1).testBit 1, id := fieldB d 0 2, segs := [(fieldB d 8 4, fieldB d 4 4)],
                          total := fieldB d 4 4, moved := 0, given := 0, stop := none }
      s.runs 1 = true → exec (.transferDescriptor) s
        = .next (settle (u.queueXfer (trOf u.hq.tags[tagOf (fieldB d 2 1)].usb) x).hqDone))
    ∧ (∀ (usb : Bool) (x : HqXfer), s.hq.cur[trOf usb] = some x → x.stop = none → x.fast = false → x.segs = [] →
      x.total ≤ x.given → s.runs 1 = true → exec (.transferDone usb) s = .next (settle
        (((s.dropCur (trOf usb) x).post8 x.id x.tag x.gen 0 x.moved).startXfer (trOf usb)).hqDone))
    ∧ (∀ (usb : Bool) (x : HqXfer), s.hq.cur[trOf usb] = some x → x.stop = none → x.fast = true → x.segs = [] →
      x.total ≤ x.given → let g := tagOf x.tag
      let u := s.dropCur (trOf usb) x
      s.runs 1 = true → exec (.fastPathDone usb) s = .next (settle
        ((u.complete g (u.complEntry g 0 (fieldB s.hq.tags[g].slot 16 4) 1)).startXfer (trOf usb)).hqDone))
    ∧ (∀ e : List PByte, (s.dequeue 1).1 = some e → (s.ring 1).consumer = 3 → poisoned e = false →
      let u := (s.dequeue 1).2
      let d := bits e
      let g := tagOf (fieldB d 4 1)
      let x := u.hq.tags[g]
      (u.tagState g = 3 → x.unposted = false → x.fwDone = false → u.tagGen g = fieldB d 15 1 / 32 → fieldB x.slot 0 1 ≠ 4 →
        s.runs 1 = true → exec (.firmwareCompletion) s = .next (settle
          ({ u with hq := { u.hq with tags := u.hq.tags.set g { x with fwDone := true } } }.complete g
            (sliceB d 0 15 ++ zerosB 1)).hqDone)))
    ∧ (∀ (usb : Bool) (g : Nat) (gs : List Nat), s.hq.waiting[trOf usb] = g :: gs → s.cqCount (trOf usb) < 64 →
      s.runs 1 = true → exec (.postingRelease usb) s = .next (settle
        (({ s with hq := { s.hq with waiting := s.hq.waiting.set (trOf usb) gs } }.writeCq (tagOf g)
          (s.hq.tags[tagOf g].entry.getD [])).hqDone)))
    ∧ (s.regOn HQE_MAP_SYNC_WORD.addr = true → ∃ t, exec (.mapSync) s = .next (settle t) ∧ t.rd HQE_STATUS_SYNC_BUSY = 1 ∧ s.keeps t [HQE_STATUS_SYNC_BUSY]
      ∧ t = { s with regs := t.regs, hq := { s.hq with sync := s.hq.live } })
    ∧ (s.hq.sync = [] → s.runs 1 = true → ∃ t, exec (.mapSyncDone) s = .next (settle t)
      ∧ t.rd HQE_STATUS_SYNC_BUSY = 0 ∧ s.keeps t [HQE_STATUS_SYNC_BUSY] ∧ t = { s with regs := t.regs })
    ∧ (∀ v : Word, getF v 0 6 ≤ 32 → (∀ g : Fin 32, s.tagState g = 0) →
      s.regOn HQE_TAG_SPLIT_WORD.addr = true → ∃ t, exec (.tagSplitWrite v) s = .next (settle t)
      ∧ t.rd HQE_TAG_SPLIT_SPLIT = getF v 0 6 ∧ s.keeps t [HQE_TAG_SPLIT_SPLIT] ∧ t = { s with regs := t.regs })
    ∧ (∀ (v : Word) (g : Fin 32), s.tagState g ≠ 0 → s.rd HQE_ERR_INFO_CODE = 0 →
      s.regOn HQE_TAG_SPLIT_WORD.addr = true → ∃ t, exec (.tagSplitWrite v) s = .next (settle t)
      ∧ t.rd HQE_ERR_INFO_CODE = 5 ∧ s.keeps t [HQE_ERR_INFO_CODE, HQE_ERR_INFO_TAG, HQE_EVENT_EV]
      ∧ t = { s with regs := t.regs })

/-! ### The USB hub and storage function (chapter 20) -/

/-- R876 (the hub's requests), R877, R878, R927 and R933 (its ports), R879 (the transaction translator), R880 (the
status-change endpoint). A port's bits are those of USB 2.0 (log entry 19). -/
def Obligations.UsbHub : Prop :=
  ∀ (s : State), s.hubLive = true →
    let port (n : Nat) (v : Nat) : Prop := s.bit (USB_PORT_STATUS n) v = true
    (∀ a : BitVec 7, ∃ t, exec (.hubStandardRequest ⟨#[0, 5, a.setWidth 8, 0, 0, 0, 0, 0], rfl⟩) s = .next (settle t)
        ∧ t.answers .ack [] ∧ t.rd USB_STATUS_HUB_ADDR = a.toNat ∧ s.keeps t [USB_STATUS_HUB_ADDR]
        ∧ t = { s with regs := t.regs, bus := t.bus, usb := { s.usb with answer := .ack } })
    ∧ (∀ n : Byte, n.toNat ≤ 1 → ∃ t, exec (.hubStandardRequest ⟨#[0, 9, n, 0, 0, 0, 0, 0], rfl⟩) s = .next (settle t)
        ∧ t.answers .ack [] ∧ t = { s with bus := t.bus, usb := { s.usb with answer := .ack, hubConfig := n.toNat } })
    ∧ (∃ t, exec (.hubStandardRequest ⟨#[0xA0, 6, 0, 0x29, 0, 0, 9, 0], rfl⟩) s = .next (settle t)
        ∧ t.answers .data [9, 0x29, 5, 0x0D, 0, BitVec.ofNat 8 (s.rd USB_HUB_CFG_PWRGOOD), 0, 0x20, 0xFF]
        ∧ t = { s with bus := t.bus, usb := { s.usb with answer := .data } })
    ∧ (∃ t, exec (.hubGetStatus) s = .next (settle t)
        ∧ t.answers .data [0, 0, 0, 0] ∧ t = { s with bus := t.bus, usb := { s.usb with answer := .data } })
    ∧ (∀ n : Fin 5, ∃ t, exec (.getPortStatus n) s = .next (settle t)
        ∧ t.answers .data (leBytes 2 (s.rd (USB_PORT_STATUS n)) ++ leBytes 2 (s.rd (USB_PORT_CHANGE n)))
        ∧ t = { s with bus := t.bus, usb := { s.usb with answer := .data } })
    ∧ (∀ n : Fin 5, (n.val < 4 → ∃ t, exec (.setPortFeature n 8) s = .next (settle t)
          ∧ t.answers .ack [] ∧ t.bit (USB_PORT_STATUS n) 8 = true ∧ t.bit (USB_PORT_STATUS n) 3 = false
          ∧ s.keeps t [USB_PORT_STATUS n] ∧ t = { s with regs := t.regs, bus := t.bus, usb := { s.usb with answer := .ack } })
        ∧ (n.val < 4 → ∃ t, exec (.clearPortFeature n 8) s = .next (settle t)
          ∧ t.answers .ack [] ∧ t.rd (USB_PORT_STATUS n) = 8 * b2n (s.bit (USB_PORT_STATUS n) 3)
          ∧ s.keeps t [USB_PORT_STATUS n] ∧ t = { s with regs := t.regs, bus := t.bus, usb := { s.usb with answer := .ack } })
        ∧ (n.val = 4 → ∃ t, exec (.clearPortFeature n 8) s = .next (settle t)
          ∧ t.answers .ack [] ∧ t = { s with bus := t.bus, usb := { s.usb with answer := .ack } })
        ∧ (n.val < 4 → port n 0 → port n 8 → ∃ t, exec (.setPortFeature n 4) s = .next (settle t)
          ∧ t.answers .ack [] ∧ t.bit (USB_PORT_STATUS n) 1 = true ∧ t.bit (USB_PORT_STATUS n) 2 = false
          ∧ t.bit (USB_PORT_CHANGE n) 4 = true ∧ t.bit USB_EVENT_EV 5 = true
          ∧ s.keeps t [USB_PORT_STATUS n, USB_PORT_CHANGE n, USB_EVENT_EV]
          ∧ t = { s with regs := t.regs, bus := t.bus, usb := { s.usb with answer := .ack } })
        ∧ (port n 1 → ∃ t, exec (.setPortFeature n 2) s = .next (settle t)
          ∧ t.answers .ack [] ∧ t.bit (USB_PORT_STATUS n) 2 = true
          ∧ (n.val = 4 → t.rd USB_STATUS_FN_SUSPENDED = 1 ∧ t.bit USB_EVENT_EV 1 = true)
          ∧ (n.val < 4 → s.keeps t [USB_PORT_STATUS n])
          ∧ s.keeps t [USB_PORT_STATUS n, USB_STATUS_FN_SUSPENDED, USB_EVENT_EV]
          ∧ t = { s with regs := t.regs, evc := t.evc, bus := t.bus, usb := { s.usb with answer := .ack } })
        ∧ (∀ k : Fin 5, ∃ t, exec (.clearPortFeature n (16 + BitVec.ofNat 8 k.val)) s = .next (settle t)
          ∧ t.answers .ack [] ∧ t.bit (USB_PORT_CHANGE n) k = false
          ∧ (∀ i : Fin 16, i.val ≠ k.val → t.bit (USB_PORT_CHANGE n) i = s.bit (USB_PORT_CHANGE n) i)
          ∧ s.keeps t [USB_PORT_CHANGE n]
          ∧ t = { s with regs := t.regs, bus := t.bus, usb := { s.usb with answer := .ack } }))
    ∧ (∀ i : Fin 4, ∃ t, exec (.clearTtBuffer i) s = .next (settle t)
        ∧ t.answers .ack [] ∧ t.usb.ttBusy.getLsbD i = false
        ∧ (∀ j : Fin 4, j ≠ i → t.usb.ttBusy.getLsbD j = s.usb.ttBusy.getLsbD j)
        ∧ t = { s with bus := t.bus, usb := { s.usb with answer := .ack, ttBusy := t.usb.ttBusy } })
    ∧ (∃ t, exec (.resetTt) s = .next (settle t)
        ∧ t.answers .ack [] ∧ t = { s with bus := t.bus, usb := { s.usb with answer := .ack, ttBusy := 0 } })
    ∧ (∃ t, exec (.hubUnsupportedRequest) s = .next (settle t)
        ∧ t.answers .stall [] ∧ t = { s with bus := t.bus, usb := { s.usb with answer := .stall } })
    ∧ (∀ n : Fin 4, ∃ t, exec (.downstreamOvercurrent n) s = .next (settle t)
        ∧ t.rd (USB_PORT_STATUS n) = 8 ∧ t.bit (USB_PORT_CHANGE n) 3 = true ∧ t.bit USB_EVENT_EV 5 = true
        ∧ s.keeps t [USB_PORT_STATUS n, USB_PORT_CHANGE n, USB_EVENT_EV] ∧ t = { s with regs := t.regs })
    ∧ ((∀ n : Fin 5, s.rd (USB_PORT_CHANGE n) = 0) → s.usb.hubHalt = false → ∃ t, exec (.statusChangePoll) s = .next (settle t)
        ∧ t.answers .nak [] ∧ t = { s with bus := t.bus, usb := { s.usb with answer := .nak } })
    ∧ (∀ n : Fin 5, s.rd (USB_PORT_CHANGE n) ≠ 0 → s.usb.hubHalt = false → ∃ t, exec (.statusChangePoll) s = .next (settle t)
        ∧ ((bits t.bus.data).headD 0).getLsbD (n + 1) = true ∧ t = { s with bus := t.bus, usb := { s.usb with answer := .data } })
    ∧ (∀ n : Fin 4, port n 8 → (∃ t, exec (.downstreamPortChange n true .high) s = .next (settle t)
          ∧ t.rd (USB_PORT_STATUS n) = 1025 + (s.rd (USB_PORT_STATUS n) &&& 0x0108)
          ∧ t.bit (USB_PORT_CHANGE n) 0 = true ∧ t.bit USB_EVENT_EV 5 = true
          ∧ s.keeps t [USB_PORT_STATUS n, USB_PORT_CHANGE n, USB_EVENT_EV] ∧ t = { s with regs := t.regs })
        ∧ (∀ sp : UsbSpeed, ∃ t, exec (.downstreamPortChange n false sp) s = .next (settle t)
          ∧ t.rd (USB_PORT_STATUS n) = (s.rd (USB_PORT_STATUS n) &&& 0x0108) ∧ t.bit (USB_PORT_CHANGE n) 0 = true
          ∧ s.keeps t [USB_PORT_STATUS n, USB_PORT_CHANGE n, USB_EVENT_EV] ∧ t = { s with regs := t.regs }))
    ∧ (∀ n : Fin 4, s.flag USB_STATUS_SUSPENDED = true → s.flag USB_STATUS_RWE_HUB = true →
        ∃ t, exec (.downstreamResume n) s = .next (settle t) ∧ t = { s with usb := { s.usb with driving := true } })
    ∧ (∀ n : Fin 4, s.flag USB_STATUS_SUSPENDED = false → port n 2 → ∃ t, exec (.downstreamResume n) s = .next (settle t)
        ∧ t.bit (USB_PORT_STATUS n) 2 = false ∧ t.bit (USB_PORT_CHANGE n) 2 = true
        ∧ s.keeps t [USB_PORT_STATUS n, USB_PORT_CHANGE n, USB_EVENT_EV] ∧ t = { s with regs := t.regs })

/-- R884, R893 and R897 (the requests the block answers), R885 to R888 (those it posts, and firmware's answers), R890 and
R891 (debug requests), R920, R922, R925, R926 and R927 (suspend and resume), R928 to R930 (bus reset and VBUS), R881. -/
def Obligations.UsbFunction : Prop :=
  ∀ (s : State),
    (s.fnLive = true →
      let setup (p : List Byte) : Usb := { s.usb with setups := (s.usb.setups + 1) % 256, ep0 := { setup := p } }
      (∀ a : BitVec 7, ∃ t, exec (.fnSetAddress a) s = .next (settle t)
        ∧ t.answers .ack [] ∧ t.rd USB_STATUS_FN_ADDR = a.toNat ∧ s.keeps t [USB_STATUS_FN_ADDR, USB_EP_CTL_TOGGLE 0]
        ∧ t = { s with regs := t.regs, bus := t.bus,
                       usb := { setup ([0, 5] ++ leBytes 2 a.toNat ++ [0, 0, 0, 0]) with answer := .ack } })
      ∧ (∃ t, exec (.fnGetStatus .device) s = .next (settle t)
        ∧ t.answers .data [BitVec.ofNat 8 (1 + 2 * s.rd USB_STATUS_RWE_FN), 0] ∧ s.keeps t [USB_EP_CTL_TOGGLE 0]
        ∧ t = { s with regs := t.regs, bus := t.bus, usb := { setup [0x80, 0, 0, 0, 0, 0, 2, 0] with answer := .data } })
      ∧ (∀ e : Fin 7, ∃ t, exec (.fnGetStatus (.endpoint e)) s = .next (settle t)
        ∧ t.answers .data [BitVec.ofNat 8 (s.rd (USB_EP_CTL_HALT e)), 0] ∧ s.keeps t [USB_EP_CTL_TOGGLE 0]
        ∧ t = { s with regs := t.regs, bus := t.bus, usb := { setup [0x82, 0, 0, 0, 0, 0, 2, 0] with answer := .data } })
      ∧ (∀ e : Fin 7, ∃ t, exec (.fnSetFeature (.endpointHalt e)) s = .next (settle t)
        ∧ t.answers .ack [] ∧ t.rd (USB_EP_CTL_HALT e) = 1 ∧ s.keeps t [USB_EP_CTL_HALT e, USB_EP_CTL_TOGGLE 0]
        ∧ t = { s with regs := t.regs, bus := t.bus, usb := { setup [2, 3, 0, 0, 0, 0, 0, 0] with answer := .ack } })
      ∧ (∃ t, exec (.fnSetFeature .remoteWakeup) s = .next (settle t)
        ∧ t.answers .ack [] ∧ t.rd USB_STATUS_RWE_FN = 1 ∧ s.keeps t [USB_STATUS_RWE_FN, USB_EP_CTL_TOGGLE 0]
        ∧ t = { s with regs := t.regs, bus := t.bus, usb := { setup [0, 3, 1, 0, 0, 0, 0, 0] with answer := .ack } })
      ∧ (∀ e : Fin 7, ∃ t, exec (.fnClearFeature (.endpointHalt e)) s = .next (settle t)
        ∧ t.answers .ack []
        ∧ t.rd (USB_EP_CTL_HALT e) = (if s.usb.badCbw && (e == 1 || e == 2) then s.rd (USB_EP_CTL_HALT e) else 0)
        ∧ t.rd (USB_EP_CTL_TOGGLE e) = 0
        ∧ s.keeps t [USB_EP_CTL_HALT e, USB_EP_CTL_TOGGLE e, USB_EP_CTL_TOGGLE 0]
        ∧ t = { s with regs := t.regs, bus := t.bus, usb := { setup [2, 1, 0, 0, 0, 0, 0, 0] with answer := .ack } })
      ∧ (∀ req : Vector Byte 8, s.ownRequest req.toList = false → s.usb.posts = [] → s.enqTest 4 = .ok →
        (s.ring 4).bytes = 16 → ∃ t, exec (.controlRequestPost req []) s = .next (settle t)
        ∧ t.answers .ack []
        ∧ s.posted t 4 (req.toList ++ leBytes 1 ((s.usb.setups + 1) % 256) ++ leBytes 1 (4 * s.rd USB_STATUS_HS)
            ++ [0, 0, 0, 0, 0, 0])
        ∧ t.rd USB_SETUP_SEQ_SEQ = (s.usb.setups + 1) % 256 ∧ t.bit USB_EVENT_EV 3 = true
        ∧ s.keeps t [USB_EP_CTL_TOGGLE 0, USB_SETUP_SEQ_SEQ, USB_EVENT_EV, INT_INJECT_ARM]
        ∧ t = { s with regs := t.regs, bus := t.bus, mem := t.mem, ecc := t.ecc, rings := t.rings, memDue := t.memDue,
                       usb := { s.usb with setups := (s.usb.setups + 1) % 256, answer := .ack,
                                           ep0 := { setup := req.toList, stage := .posted } } })
      ∧ (∀ (req : Vector Byte 8) (d : List Byte), s.ownRequest req.toList = false → 1024 < d.length →
        ∃ t, exec (.controlRequestPost req d) s = .next (settle t)
        ∧ t.answers .stall [] ∧ s.keeps t [USB_EP_CTL_TOGGLE 0]
        ∧ t = { s with regs := t.regs, bus := t.bus,
                       usb := { s.usb with setups := (s.usb.setups + 1) % 256, answer := .stall,
                                           ep0 := { setup := req.toList, stage := .stalled } } })
      ∧ (∀ (a : BitVec 32), s.flag USB_CTRL_DBG_EN = true →
        let p : Vector Byte 8 := ⟨#[0xC0, 0xD0, a.extractLsb' 0 8, a.extractLsb' 8 8, a.extractLsb' 16 8,
                                    a.extractLsb' 24 8, 4, 0], rfl⟩
        let u : State := { s.up (USB_EP_CTL_TOGGLE 0) with usb := setup p.toList }
        let d := u.masterRead 5 true false false a.toNat 4
        (d.1.bad = false → ∃ t, exec (.debugReadRequest p) s = .next (settle t)
          ∧ t.answers .data (bits d.1.data) ∧ t = { d.2 with bus := t.bus, usb := { u.usb with answer := .data } })
        ∧ (d.1.bad = true → ∃ t, exec (.debugReadRequest p) s = .next (settle t)
          ∧ t.answers .stall [] ∧ t = { d.2 with bus := t.bus, usb := { u.usb with answer := .stall } }))
      ∧ (∀ (a v : BitVec 32), s.flag USB_CTRL_DBG_EN = true →
        let p : Vector Byte 8 := ⟨#[0x40, 0xD1, a.extractLsb' 0 8, a.extractLsb' 8 8, a.extractLsb' 16 8,
                                    a.extractLsb' 24 8, 4, 0], rfl⟩
        let u : State := { s.up (USB_EP_CTL_TOGGLE 0) with usb := setup p.toList }
        let d := u.masterWrite 5 true false a.toNat (clean (leBytes 4 v.toNat))
        (d.1.bad = false → ∃ t, exec (.debugWriteRequest p (leBytes 4 v.toNat)) s = .next (settle t)
          ∧ t.answers .ack [] ∧ t = { d.2 with bus := t.bus, usb := { u.usb with answer := .ack } })
        ∧ (d.1.bad = true → ∃ t, exec (.debugWriteRequest p (leBytes 4 v.toNat)) s = .next (settle t)
          ∧ t.answers .stall [] ∧ t = { d.2 with bus := t.bus, usb := { u.usb with answer := .stall } })))
    ∧ (∀ v : Word, getF v 24 8 ≠ s.rd USB_SETUP_SEQ_SEQ → s.regOn USB_EP0_CTL_WORD.addr = true → ∃ t, exec (.ep0Ack v) s = .next (settle t)
      ∧ s.usbErrs t 2 ∧ s.keeps t usbErrFields ∧ t = { s with regs := t.regs, evc := t.evc })
    ∧ (∀ v : Word, let x := s.usb.ep0
      getF v 24 8 = s.rd USB_SETUP_SEQ_SEQ → x.stage = .posted →
      (s.regOn USB_EP0_CTL_WORD.addr = true → ∃ t, exec (.ep0Stall v) s = .next (settle t) ∧ t = { s with usb := { s.usb with ep0 := { x with stage := .stalled } } })
      ∧ (s.regOn USB_EP0_CTL_WORD.addr = true → ∃ t, exec (.ep0Ack v) s = .next (settle t) ∧ t = { s with usb := { s.usb with ep0 := { x with stage := .status } } })
      ∧ (let want := fieldB x.setup 6 2
        let n := min (getF v 12 11) want
        128 ≤ fieldB x.setup 0 1 → 0 < want → getF v 12 11 ≤ 1024 → s.regOn USB_EP0_CTL_WORD.addr = true → ∃ t, exec (.ep0Send v) s = .next (settle t)
        ∧ t = { s with usb := { s.usb with
            ep := s.usb.ep.set 0 { lo := 0, hi := n }
            ep0 := { x with stage := .sending, left := n, zlp := decide (n < want ∧ n % 64 = 0) } } }))
    ∧ (s.hubLive = true →
      (s.flag USB_STATUS_SUSPENDED = false → ∃ t, exec (.usbSuspend) s = .next (settle t)
        ∧ t.rd USB_STATUS_SUSPENDED = 1 ∧ t.rd USB_STATUS_FN_SUSPENDED = 1 ∧ t.bit USB_EVENT_EV 1 = true
        ∧ t.evc = (pulse 97 s).evc
        ∧ (∀ n : Fin 5, t.usb.globalSuspended.getLsbD n = (s.bit (USB_PORT_STATUS n) 1 && !s.bit (USB_PORT_STATUS n) 2))
        ∧ s.keeps t [USB_STATUS_SUSPENDED, USB_STATUS_FN_SUSPENDED, USB_EVENT_EV]
        ∧ t = { s with regs := t.regs, evc := t.evc, usb := { s.usb with globalSuspended := t.usb.globalSuspended } })
      ∧ (s.flag USB_STATUS_SUSPENDED = true → ∃ t, exec (.usbResume) s = .next (settle t)
        ∧ t.rd USB_STATUS_SUSPENDED = 0 ∧ t.rd USB_STATUS_FN_SUSPENDED = b2n (s.bit (USB_PORT_STATUS 4) 2)
        ∧ t.bit USB_EVENT_EV 2 = true ∧ t.evc = (pulse 98 s).evc
        ∧ s.keeps t [USB_STATUS_SUSPENDED, USB_STATUS_FN_SUSPENDED, USB_EVENT_EV]
        ∧ t = { s with regs := t.regs, evc := t.evc,
                       usb := { s.usb with globalSuspended := 0, driving := false, rwakeWait := none } })
      ∧ (∀ chirp : Bool, ∃ t, exec (.usbBusReset chirp) s = .next (settle t)
        ∧ t.rd USB_STATUS_HUB_ADDR = 0 ∧ t.rd USB_STATUS_FN_ADDR = 0 ∧ t.rd USB_STATUS_SUSPENDED = 0
        ∧ t.rd USB_STATUS_RWE_HUB = 0 ∧ t.rd USB_STATUS_RWE_FN = 0
        ∧ t.rd USB_STATUS_HS = b2n (chirp && !s.flag USB_CTRL_FS_ONLY) ∧ t.usb.hubConfig = 0
        ∧ (∀ e : Fin 7, t.rd (USB_EP_CTL_HALT e) = 0 ∧ t.rd (USB_EP_CTL_TOGGLE e) = 0)
        ∧ (∀ c : Fin 16, t.rd (USB_MSE_CTX_STATE c) = 0)
        ∧ (∀ n : Fin 4, t.rd (USB_PORT_STATUS n) = 0) ∧ t.bit (USB_PORT_STATUS 4) 0 = s.flag USB_CTRL_FN_ATTACH
        ∧ t.bit USB_EVENT_EV 0 = true ∧ t.rd SYS_RESET_CAUSE_USB_BUS = 1
        ∧ (∀ g : Fin 32, t.tagState g ≠ 0 → t.hq.tags[g].usb = false)))
    ∧ (∀ v : Word, v.getLsbD 2 = true → s.flag USB_STATUS_FN_SUSPENDED = true → s.flag USB_STATUS_RWE_FN = true →
      (s.flag USB_STATUS_SUSPENDED = true → s.flag USB_STATUS_RWE_HUB = true) →
      s.regOn USB_CTRL_WORD.addr = true → ∃ t, exec (.remoteWakeRequest v) s = .next (settle t)
      ∧ t = { s with usb := { s.usb with rwakeWait := some (s.flag USB_STATUS_SUSPENDED) } })
    ∧ (∀ v : Word, v.getLsbD 2 = true → (s.flag USB_STATUS_FN_SUSPENDED = false ∨ s.flag USB_STATUS_RWE_FN = false) →
      s.regOn USB_CTRL_WORD.addr = true → ∃ t, exec (.remoteWakeRequest v) s = .next (settle t)
      ∧ s.usbErrs t 8 ∧ s.keeps t usbErrFields ∧ t = { s with regs := t.regs, evc := t.evc })
    ∧ (s.usb.rwakeWait = some true → ∃ t, exec (.remoteWakeStart) s = .next (settle t)
      ∧ t = { s with usb := { s.usb with rwakeWait := none, driving := true } })
    ∧ (s.usb.rwakeWait = some false → s.bit (USB_PORT_STATUS 4) 2 = true → ∃ t, exec (.remoteWakeStart) s = .next (settle t)
      ∧ t.bit (USB_PORT_STATUS 4) 2 = false ∧ t.bit (USB_PORT_CHANGE 4) 2 = true
      ∧ t.rd USB_STATUS_FN_SUSPENDED = s.rd USB_STATUS_SUSPENDED
      ∧ s.keeps t [USB_PORT_STATUS 4, USB_PORT_CHANGE 4, USB_STATUS_FN_SUSPENDED, USB_EVENT_EV]
      ∧ t = { s with regs := t.regs, usb := { s.usb with rwakeWait := none } })
    ∧ (s.runs 12 = true → s.flag USB_STATUS_VBUS = true → ∃ t, exec (.vbusLoss) s = .next (settle t)
      ∧ t.rd USB_STATUS_VBUS = 0 ∧ t.rd USB_STATUS_HUB_ADDR = 0 ∧ t.rd USB_STATUS_FN_ADDR = 0
      ∧ (∀ c : Fin 16, t.rd (USB_MSE_CTX_STATE c) = 0) ∧ t.bit USB_EVENT_EV 6 = true)
    ∧ (s.runs 12 = true → ∃ t, exec (.vbusArrival) s = .next (settle t)
      ∧ t.rd USB_STATUS_VBUS = 1 ∧ s.keeps t [USB_STATUS_VBUS] ∧ t = { s with regs := t.regs })
    ∧ (∀ v : Word, v.getLsbD 1 ≠ s.flag USB_CTRL_FN_ATTACH → s.regOn USB_CTRL_WORD.addr = true → ∃ t, exec (.fnAttachWrite v) s = .next (settle t)
      ∧ t.flag USB_CTRL_FN_ATTACH = v.getLsbD 1 ∧ t.bit (USB_PORT_STATUS 4) 0 = v.getLsbD 1
      ∧ t.bit (USB_PORT_CHANGE 4) 0 = true ∧ t.bit USB_EVENT_EV 5 = true
      ∧ s.keeps t [USB_CTRL_FN_ATTACH, USB_PORT_STATUS 4, USB_PORT_CHANGE 4, USB_EVENT_EV] ∧ t = { s with regs := t.regs })

/-- R895 to R898 (commands), R899 to R902 (a context's start), R903 to R906 (data phases and their packets), R907 to R911
(completions and status), R912 (resets), R886 (packets of endpoint 0), R917 and R918 (the vendor pipe). -/
def Obligations.UsbStorage : Prop :=
  ∀ (s : State),
    (s.fnLive = true → s.flag (USB_EP_CFG_EN 2) = true → s.flag USB_MSE_CFG_UAS = false → s.rd (USB_EP_CTL_HALT 2) = 0 →
      ∀ pkt : List Byte,
      (s.ctxState 0 = 0 → pkt.length = 31 → fieldB pkt 0 4 = 0x43425355 → ∃ t, exec (.cbwReceived pkt) s = .next (settle t)
        ∧ t.answers .ack [] ∧ t.ctxState 0 = 1 ∧ t.rd USB_EP_EVENT_CMD = 1 ∧ t.bit USB_EVENT_EV 4 = true
        ∧ t.rd USB_MSE_CMD_VALID = 1
        ∧ t.peekBytes (0x300E8000 + s.rd USB_MSE_CFG_REC_BASE) 32 = pkt ++ [0]
        ∧ s.keeps t ([USB_MSE_CTX_STATE 0, USB_MSE_CTX_UAS_TAG 0, USB_EP_EVENT_CMD, USB_EVENT_EV, USB_EP_CTL_TOGGLE 2,
            INT_INJECT_ARM] ++ mseCmdFields)
        ∧ t = { s with regs := t.regs, mem := t.mem, ecc := t.ecc, memDue := t.memDue, bus := t.bus,
                       usb := { s.usb with ctx := s.usb.ctx.set 0 { age := s.usb.age, cmd := pkt ++ [0] },
                                           age := s.usb.age + 1, answer := .ack } })
      ∧ (s.ctxState 0 ≠ 0 → ∃ t, exec (.cbwReceived pkt) s = .next (settle t)
        ∧ t.answers .nak [] ∧ t = { s with bus := t.bus, usb := { s.usb with answer := .nak } })
      ∧ (s.ctxState 0 = 0 → (pkt.length ≠ 31 ∨ fieldB pkt 0 4 ≠ 0x43425355) → ∃ t, exec (.cbwReceived pkt) s = .next (settle t)
        ∧ t.rd (USB_EP_CTL_HALT 1) = 1 ∧ t.rd (USB_EP_CTL_HALT 2) = 1 ∧ t.usb.badCbw = true ∧ s.usbErrs t 6
        ∧ s.keeps t ([USB_EP_CTL_HALT 1, USB_EP_CTL_HALT 2, USB_EP_CTL_TOGGLE 2] ++ usbErrFields)
        ∧ t = { s with regs := t.regs, evc := t.evc, bus := t.bus, usb := { s.usb with badCbw := true, answer := .ack } }))
    ∧ (s.fnLive = true → s.flag (USB_EP_CFG_EN 4) = true → s.flag USB_MSE_CFG_UAS = true → s.rd (USB_EP_CTL_HALT 4) = 0 →
      s.usbQuiet = true → ∀ pkt : List Byte, 4 ≤ pkt.length →
      let tag := beVal (sliceB pkt 2 2)
      let used := (List.finRange 16).any (fun c => s.ctxState c != 0 && s.rd (USB_MSE_CTX_UAS_TAG c) == tag)
      (∀ c, s.freeCtx = some c →
        (used = false → ∃ t, exec (.uasCommandIu pkt) s = .next (settle t)
          ∧ t.answers .ack [] ∧ t.ctxState c = 1 ∧ t.rd (USB_MSE_CTX_UAS_TAG c) = tag ∧ t.rd USB_MSE_CMD_VALID = 1
          ∧ t.rd USB_EP_EVENT_CMD = 1 ∧ t.bit USB_EVENT_EV 4 = true ∧ (t.usb.ctx[c]).task = false
          ∧ s.keeps t ([USB_MSE_CTX_STATE c, USB_MSE_CTX_UAS_TAG c, USB_EP_EVENT_CMD, USB_EVENT_EV, USB_EP_CTL_TOGGLE 4,
              INT_INJECT_ARM] ++ mseCmdFields)
          ∧ t = { s with regs := t.regs, mem := t.mem, ecc := t.ecc, memDue := t.memDue, bus := t.bus, usb := t.usb })
        ∧ (used = true → ∃ t, exec (.uasCommandIu pkt) s = .next (settle t)
          ∧ s.usbErrs t 7 ∧ s.keeps t ([USB_EP_CTL_TOGGLE 4] ++ mseCmdFields ++ usbErrFields)
          ∧ t = { s with regs := t.regs, evc := t.evc, bus := t.bus, usb := { s.usb with
                         answer := .ack
                         out := s.usb.out ++ [⟨none, false, iuHead 4 tag ++ [0, 0, 0, 0x0A]⟩] } })
        ∧ (∃ t, exec (.uasTaskManagementIu pkt) s = .next (settle t)
          ∧ t.answers .ack [] ∧ t.ctxState c = 1 ∧ t.rd (USB_MSE_CTX_UAS_TAG c) = tag ∧ (t.usb.ctx[c]).task = true
          ∧ t = { s with regs := t.regs, mem := t.mem, ecc := t.ecc, memDue := t.memDue, bus := t.bus, usb := t.usb }))
      ∧ (s.freeCtx = none → ∃ t, exec (.uasCommandIu pkt) s = .next (settle t)
        ∧ t.answers .nak [] ∧ s.keeps t mseCmdFields
        ∧ t = { s with regs := t.regs, bus := t.bus, usb := { s.usb with answer := .nak } }))
    ∧ (∀ v : Word, s.usbQuiet = true → s.hq.cur[(1 : Fin 2)] = none →
      let c : Fin 16 := Fin.ofNat 16 (getF v 0 4)
      let x := s.usb.ctx[c]
      let d := s.rd USB_MSE_DLEN_BYTES
      let tag := s.rd (USB_MSE_CTX_UAS_TAG c)
      let sense := (s.reg USB_MSE_SENSE_WORD.addr).toNat
      let q := s.hqDoorbell true false (tagOf (getF v 16 5))
      (s.ctxState c ≠ 1 → s.regOn USB_MSE_START_WORD.addr = true → ∃ t, exec (.mseStartNoData v) s = .next (settle t)
        ∧ s.usbErrs t 3 ∧ s.keeps t usbErrFields ∧ t = { s with regs := t.regs, evc := t.evc })
      ∧ (s.ctxState c = 1 → s.flag USB_MSE_CFG_UAS = true → x.moved = 0 → x.phased = false →
        (q.1 = 0 → s.regOn USB_MSE_START_WORD.addr = true → ∃ t, exec (.mseStartHqe v) s = .next (settle t)
          ∧ t.ctxState c = 2 ∧ (t.usb.ctx[c]).hq = some ((tagOf (getF v 16 5)).val, s.tagGen (tagOf (getF v 16 5)))
          ∧ (t.usb.ctx[c]).len = d ∧ (t.usb.ctx[c]).toHost = v.getLsbD 12)
        ∧ (q.1 ≠ 0 → s.regOn USB_MSE_START_WORD.addr = true → ∃ t, exec (.mseStartHqe v) s = .next (settle t)
          ∧ t.ctxState c = 1 ∧ t.rd USB_COUNT_ERRORS = satInc 16 (s.rd USB_COUNT_ERRORS)
          ∧ t.rd USB_ERR_CODE = (if s.rd USB_ERR_CODE = 0 then 1 else s.rd USB_ERR_CODE)
          ∧ t = { q.2 with regs := t.regs, evc := t.evc })
        ∧ (0 < d → s.regOn USB_MSE_START_WORD.addr = true → ∃ t, exec (.mseStartBuffer v) s = .next (settle t)
          ∧ t.ctxState c = 2 ∧ t.usb.ready = s.usb.ready ++ [c] ∧ (t.usb.ctx[c]).len = d
          ∧ (t.usb.ctx[c]).buf = s.rd USB_MSE_BUF_ADDR * 64 ∧ (t.usb.ctx[c]).toHost = v.getLsbD 12
          ∧ s.keeps t ([USB_MSE_CTX_STATE c] ++ mseCmdFields) ∧ t = { s with regs := t.regs, usb := t.usb })
        ∧ (let sd : List Byte := if sense / 2 ^ 24 = 2 then
              [0x70, 0] ++ leBytes 1 (sense / 65536 % 16) ++ [0, 0, 0, 0, 10, 0, 0, 0, 0] ++ leBytes 1 (sense / 256)
                ++ leBytes 1 sense ++ [0, 0, 0, 0]
            else []
          s.regOn USB_MSE_START_WORD.addr = true → ∃ t, exec (.mseStartNoData v) s = .next (settle t)
          ∧ t.ctxState c = 5 ∧ s.keeps t ([USB_MSE_CTX_STATE c] ++ mseHaltFields)
          ∧ t.usb.out = s.usb.out ++ [⟨some c, false, [3, 0] ++ beBytes 2 tag ++ [0, 0] ++ leBytes 1 (sense / 2 ^ 24) ++ [0, 0, 0, 0, 0, 0, 0]
                  ++ beBytes 2 sd.length ++ sd⟩]
          ∧ t = { s with regs := t.regs, usb := t.usb })
        ∧ (x.task = true → s.regOn USB_MSE_START_WORD.addr = true → ∃ t, exec (.mseStartTmResponse v) s = .next (settle t)
          ∧ t.ctxState c = 5 ∧ s.keeps t ([USB_MSE_CTX_STATE c] ++ mseHaltFields)
          ∧ t.usb.out = s.usb.out ++ [⟨some c, false, [4, 0] ++ beBytes 2 tag ++ [0, 0, 0] ++ leBytes 1 sense⟩]
          ∧ t = { s with regs := t.regs, usb := t.usb }))
      ∧ (s.ctxState c = 1 → s.flag USB_MSE_CFG_UAS = false → x.moved = 0 →
        let h := fieldB x.cmd 8 4
        s.regOn USB_MSE_START_WORD.addr = true → ∃ t, exec (.mseStartNoData v) s = .next (settle t)
        ∧ t.ctxState c = 5
        ∧ (0 < h → t.rd (USB_EP_CTL_HALT (if (fieldB x.cmd 12 1).testBit 7 then 1 else 2)) = 1)
        ∧ t.usb.out = s.usb.out ++ [⟨some c, false, [0x55, 0x53, 0x42, 0x53] ++ sliceB x.cmd 4 4 ++ leBytes 4 h
                ++ leBytes 1 (if sense / 2 ^ 24 = 0 then 0 else 1)⟩]
        ∧ s.keeps t ([USB_MSE_CTX_STATE c] ++ mseHaltFields) ∧ t = { s with regs := t.regs, usb := t.usb }))
    ∧ (∀ c r, s.usb.ready = c :: r → s.usbQuiet = true → s.hq.cur[(1 : Fin 2)] = none →
      let x := s.usb.ctx[c]
      x.toHost = false → x.moved < x.len → x.compl = none → x.phased = true → ∃ t, exec (.dataPhaseStart) s = .next (settle t)
      ∧ t.ctxState c = 3 ∧ t.usb.cur = some c ∧ t.usb.ready = r ∧ t.usb.ep[(2 : Fin 7)] = {}
      ∧ t.usb.out = s.usb.out ++ (if s.flag USB_MSE_CFG_UAS then
          [⟨none, true, [7, 0] ++ beBytes 2 (s.rd (USB_MSE_CTX_UAS_TAG c))⟩] else [])
      ∧ s.keeps t ([USB_MSE_CTX_STATE c] ++ mseCmdFields) ∧ t = { s with regs := t.regs, usb := t.usb })
    ∧ (∀ c r, s.usb.ready = c :: r → s.usbQuiet = true → s.hq.cur[(1 : Fin 2)] = none →
      let x := s.usb.ctx[c]
      let n := min (s.epSize 1) (x.len - x.filled)
      let m := State.dmaRead (s.wr (USB_MSE_CTX_STATE c) 3) 5 (x.buf + x.filled) n
      x.toHost = true → x.kind = 1 → x.moved < x.len → x.compl = none → 0 < n → m.1.blocked = false → m.1.error = false →
      ∃ t, exec (.dataPhaseStart) s = .next (settle t)
      ∧ t.ctxState c = 3 ∧ t.usb.cur = some c ∧ t.usb.ep[(1 : Fin 7)] = { lo := 0, hi := m.1.data.length }
      ∧ (t.usb.ctx[c]).filled = x.filled + n)
    ∧ (s.fnLive = true →
      (∀ ack : Bool, s.usb.ep0.stage = .status → s.flag (USB_EP_CFG_EN 0) = true → fieldB s.usb.ep0.setup 0 1 < 128 →
        ∃ t, exec (.usbInToken 0 ack) s = .next (settle t)
        ∧ t.answers .data [] ∧ t = { s with bus := t.bus, usb := { s.usb with
            answer := .data
            ep0 := { s.usb.ep0 with stage := if ack then .idle else .status } } })
      ∧ (∀ (e : Fin 7) (ack : Bool), e ≠ 0 → s.flag (USB_EP_CFG_EN e) = true → s.flag (USB_EP_CFG_DIR e) = true →
        s.rd (USB_EP_CTL_HALT e) = 1 → ∃ t, exec (.usbInToken e ack) s = .next (settle t)
        ∧ t.answers .stall [] ∧ t = { s with bus := t.bus, usb := { s.usb with answer := .stall } })
      ∧ (∀ (i : MseIu) (r : List MseIu), s.usb.out = i :: r → s.flag USB_MSE_CFG_UAS = true → s.flag (USB_EP_CFG_EN 3) = true →
        s.flag (USB_EP_CFG_DIR 3) = true → s.rd (USB_EP_CTL_HALT 3) = 0 → s.usbQuiet = true →
        (∃ t, exec (.usbInToken 3 false) s = .next (settle t)
          ∧ t.answers .data i.bytes ∧ t = { s with bus := t.bus, usb := { s.usb with answer := .data } })
        ∧ (i.ctx = none → ∃ t, exec (.usbInToken 3 true) s = .next (settle t)
          ∧ t.answers .data i.bytes ∧ t.rd (USB_EP_CTL_TOGGLE 3) = 1 - s.rd (USB_EP_CTL_TOGGLE 3)
          ∧ s.keeps t ([USB_EP_CTL_TOGGLE 3] ++ mseCmdFields)
          ∧ t = { s with regs := t.regs, bus := t.bus, usb := { s.usb with answer := .data, out := r } }))
      ∧ (∀ c, s.usb.cur = some c → let x := s.usb.ctx[c]
        let n := min (s.rd (USB_EP_CFG_MAXPKT 1)) (s.epHeld 1)
        let m := State.epBytes 1 s.usb.ep[(1 : Fin 7)].lo n s
        x.toHost = true → s.iuWaits = false → s.epHeld 1 ≠ 0 → s.rd (USB_EP_CTL_HALT 1) = 0 → poisoned m.1 = false →
        s.flag (USB_EP_CFG_EN 1) = true → s.flag (USB_EP_CFG_DIR 1) = true →
        (∃ t, exec (.usbInToken 1 false) s = .next (settle t)
          ∧ t.answers .data (bits m.1) ∧ t = { m.2 with bus := t.bus, usb := { s.usb with answer := .data } })
        ∧ (x.kind = 1 → n < s.epHeld 1 → x.moved + n < x.len → x.compl = none → s.usb.posts = [] → s.usb.drains = [] →
          ∃ t, exec (.usbInToken 1 true) s = .next (settle t)
          ∧ t.answers .data (bits m.1) ∧ (t.usb.ctx[c]).moved = x.moved + n
          ∧ (t.usb.ep[(1 : Fin 7)]).lo = (s.usb.ep[(1 : Fin 7)]).lo + n
          ∧ t.rd (USB_EP_CTL_TOGGLE 1) = 1 - s.rd (USB_EP_CTL_TOGGLE 1)
          ∧ m.2.keeps t ([USB_EP_CTL_TOGGLE 1] ++ mseCmdFields)
          ∧ t = { m.2 with regs := t.regs, bus := t.bus, usb := t.usb }))
      ∧ (∀ d : List Byte, s.flag (USB_EP_CFG_EN 5) = true → s.flag (USB_EP_CFG_DIR 5) = false →
        d.length ≤ s.rd (USB_EP_CFG_MAXPKT 5) → s.rd (USB_EP_CTL_HALT 5) = 0 →
        (d.length ≤ s.epRoom 5 → ∃ t, exec (.usbOutPacket 5 d) s = .next (settle t)
          ∧ (t.usb.answer = .ack ∨ t.usb.answer = .nyet) ∧ t.usb.pkts = s.usb.pkts ++ [(d.length, decide (d.length < s.rd (USB_EP_CFG_MAXPKT 5)))]
          ∧ (t.usb.ep[(5 : Fin 7)]).hi = (s.usb.ep[(5 : Fin 7)]).hi + d.length
          ∧ t.rd (USB_EP_CTL_TOGGLE 5) = 1 - s.rd (USB_EP_CTL_TOGGLE 5) ∧ s.keeps t [USB_EP_CTL_TOGGLE 5, INT_INJECT_ARM]
          ∧ t = { s with regs := t.regs, mem := t.mem, ecc := t.ecc, memDue := t.memDue, bus := t.bus, usb := t.usb })
        ∧ (s.epRoom 5 < d.length → ∃ t, exec (.usbOutPacket 5 d) s = .next (settle t)
          ∧ t.answers .nak [] ∧ t = { s with bus := t.bus, usb := { s.usb with answer := .nak } })))
    ∧ (∀ c, (List.finRange 16).find? (fun c => (s.ctxState c == 2 || s.ctxState c == 3) && s.usb.ctx[c].compl.isNone
          && (s.usb.ctx[c].hq.map Prod.fst) == some (fieldB (s.peekBytes (s.hqArea + 0x800 + 16 * (s.rd HQE_CQ_USB_HEAD % 64)) 16) 4 1))
        = some c → s.cqCount 1 ≠ 0 → s.usbQuiet = true → s.hq.cur[(1 : Fin 2)] = none → s.ecc = [] → s.memDue.getLsbD 1 = false →
      let st := fieldB (s.peekBytes (s.hqArea + 0x800 + 16 * (s.rd HQE_CQ_USB_HEAD % 64)) 16) 5 1
      (st ≠ 0 → ∃ t, exec (.mseCompletion) s = .next (settle t)
        ∧ t.rd HQE_CQ_USB_HEAD = (s.rd HQE_CQ_USB_HEAD + 1) % 128
        ∧ t.ctxState c = 4 ∧ t.rd (USB_MSE_CTX_OCS_STATUS c) = st ∧ t.rd USB_EP_EVENT_CPL_FW = 1 ∧ t.bit USB_EVENT_EV 4 = true
        ∧ s.keeps t ([HQE_CQ_USB_HEAD, USB_MSE_CTX_STATE c, USB_MSE_CTX_OCS_STATUS c, USB_EP_EVENT_CPL_FW, USB_EVENT_EV]
            ++ mseHaltFields)
        ∧ t = { s with regs := t.regs, usb := t.usb })
      ∧ (st = 0 → ∃ t, exec (.mseCompletion) s = .next (settle t)
        ∧ t.rd HQE_CQ_USB_HEAD = (s.rd HQE_CQ_USB_HEAD + 1) % 128 ∧ t.ctxState c = 5
        ∧ t.usb.out.map (fun i => i.ctx) = s.usb.out.map (fun i => i.ctx) ++ [some c]
        ∧ s.keeps t ([HQE_CQ_USB_HEAD, USB_MSE_CTX_STATE c] ++ mseHaltFields) ∧ t = { s with regs := t.regs, usb := t.usb }))
    ∧ (∀ v : Word, let c : Fin 16 := Fin.ofNat 16 (getF v 0 4)
      let x := s.usb.ctx[c]
      let sense := (s.reg USB_MSE_SENSE_WORD.addr).toNat
      s.ctxState c = 4 → s.usbQuiet = true → s.hq.cur[(1 : Fin 2)] = none → s.flag USB_MSE_CFG_UAS = false → x.csw = none →
      s.regOn USB_MSE_FINISH_WORD.addr = true → ∃ t, exec (.mseFinish v) s = .next (settle t)
      ∧ t.ctxState c = 5
      ∧ t.usb.out = s.usb.out ++ [⟨some c, false, [0x55, 0x53, 0x42, 0x53] ++ sliceB x.cmd 4 4 ++ leBytes 4 (fieldB x.cmd 8 4 - x.moved)
              ++ leBytes 1 (if sense / 2 ^ 24 = 0 then 0 else 1)⟩]
      ∧ s.keeps t ([USB_MSE_CTX_STATE c] ++ mseCmdFields) ∧ t = { s with regs := t.regs, usb := t.usb })
    ∧ (∀ (i : MseIu) (r : List MseIu), s.usb.out = i :: r → ∀ c : Fin 16, i.ctx = some c → s.fnLive = true → s.usbQuiet = true →
      s.hq.cur[(1 : Fin 2)] = none → let e := if s.flag USB_MSE_CFG_UAS then 3 else 1
      s.rd (USB_EP_CTL_HALT e) = 0 → ∃ t, exec (.statusAcknowledged c) s = .next (settle t)
      ∧ t.ctxState c = 0 ∧ t.rd (USB_EP_CTL_TOGGLE e) = 1 - s.rd (USB_EP_CTL_TOGGLE e)
      ∧ s.keeps t ([USB_MSE_CTX_STATE c, USB_EP_CTL_TOGGLE e] ++ mseCmdFields)
      ∧ t = { s with regs := t.regs, usb := { s.usb with out := r } })
    ∧ (let reset (t : State) : Prop := (∀ c : Fin 16, t.ctxState c = 0)
        ∧ (∀ e : Fin 7, e.val = 1 ∨ e.val = 2 → t.rd (USB_EP_CTL_HALT e) = 0 ∧ t.rd (USB_EP_CTL_TOGGLE e) = 0 ∧ t.usb.ep[e] = {})
        ∧ t.usb.ready = [] ∧ t.usb.cur = none ∧ t.usb.out = [] ∧ t.usb.badCbw = false ∧ t.rd USB_MSE_CMD_VALID = 0
      let fs := [USB_EP_CTL_HALT 1, USB_EP_CTL_HALT 2, USB_EP_CTL_TOGGLE 1, USB_EP_CTL_TOGGLE 2] ++ mseCmdFields
        ++ List.ofFn (fun c : Fin 16 => USB_MSE_CTX_STATE c)
      s.usb.posts = [] → s.hq.cur[(1 : Fin 2)] = none →
      (∀ v : Word, v.getLsbD 0 ≠ s.flag USB_MSE_CFG_UAS → s.regOn USB_MSE_CFG_WORD.addr = true → ∃ t, exec (.uasModeWrite v) s = .next (settle t)
        ∧ t.flag USB_MSE_CFG_UAS = v.getLsbD 0 ∧ reset t ∧ s.keeps t (USB_MSE_CFG_UAS :: fs)
        ∧ t = { s with regs := t.regs, usb := t.usb })
      ∧ (s.fnLive = true → s.enqTest 4 = .ok → (s.ring 4).bytes = 16 → ∃ t, exec (.bulkOnlyReset) s = .next (settle t)
        ∧ t.answers .ack [] ∧ reset t
        ∧ s.posted t 4 ([0x21, 0xFF, 0, 0, 0, 0, 0, 0] ++ leBytes 1 ((s.usb.setups + 1) % 256)
            ++ leBytes 1 (2 + 4 * s.rd USB_STATUS_HS) ++ [0, 0, 0, 0, 0, 0])
        ∧ s.keeps t ([USB_EP_CTL_TOGGLE 0, USB_SETUP_SEQ_SEQ, USB_EVENT_EV, INT_INJECT_ARM] ++ fs)
        ∧ t = { s with regs := t.regs, mem := t.mem, ecc := t.ecc, rings := t.rings, memDue := t.memDue, bus := t.bus, usb := t.usb }))
    ∧ (let m := transferAvail s.usb.pkts
      let n := min 30 m.1
      let last := m.2 && decide (m.1 ≤ 30)
      let d := State.epBytes 5 s.usb.ep[(5 : Fin 7)].lo n s
      (last = true ∨ 30 < m.1) → s.enqTest 5 = .ok → poisoned d.1 = false → s.memDue.getLsbD 1 = false →
      ∃ t, exec (.vendorPipeOut) s = .next (settle t)
      ∧ d.2.posted t 5 (sliceB (leBytes 1 n ++ leBytes 1 (b2n last) ++ bits d.1) 0 (s.ring 5).bytes)
      ∧ t.usb.pkts = dropBytes n s.usb.pkts ∧ (t.usb.ep[(5 : Fin 7)]).lo = (s.usb.ep[(5 : Fin 7)]).lo + n
      ∧ d.2.keeps t [INT_INJECT_ARM]
      ∧ t = { d.2 with regs := t.regs, mem := t.mem, ecc := t.ecc, rings := t.rings, memDue := t.memDue, usb := t.usb })
    ∧ (∀ e : List PByte, (s.dequeue 6).1 = some e → s.usb.vendorEnd = false → 30 ≤ s.epRoom 6 → (s.ring 6).consumer = 5 →
      let n := min (min 30 (fieldB (bits e) 0 1)) (e.length - 2)
      ∃ t, exec (.vendorPipeIn) s = .next (settle t)
      ∧ (t.usb.ep[(6 : Fin 7)]).hi = (s.usb.ep[(6 : Fin 7)]).hi + n ∧ t.usb.vendorEnd = (fieldB (bits e) 1 1).testBit 0
      ∧ (s.dequeue 6).2.keeps t [INT_INJECT_ARM]
      ∧ t = { (s.dequeue 6).2 with regs := t.regs, mem := t.mem, ecc := t.ecc, memDue := t.memDue, usb := t.usb })

/-! ### Clocks, sleep and the Power Governor (chapter 2) -/

/-- R45, R46 and R48 (clocks), R56 and R57 (IDLE), R86 to R88 and R1080 (the Power Governor). -/
def Obligations.PowerClocks : Prop :=
  ∀ (s : State),
    (∃ t, exec (.xtal32Select) s = .next (settle t)
      ∧ t.rd CLK_STATUS_AON_SRC = 0 ∧ s.keeps t [CLK_STATUS_AON_SRC] ∧ t = { s with regs := t.regs })
    ∧ (s.flag CLK_STATUS_AON_SRC = false → ∃ t, exec (.xtal32Loss) s = .next (settle t)
      ∧ t.rd CLK_STATUS_AON_SRC = 1 ∧ t.bit PWR_EVENT_EV 2 = true
      ∧ s.keeps t [CLK_STATUS_AON_SRC, PWR_EVENT_EV] ∧ t = { s with regs := t.regs })
    ∧ (∀ p : Fin 5,
      (s.pw.lostLock.getLsbD p = false → s.pllNeeded p = true → ∃ t, exec (.pllLockLoss p) s = .next (settle t)
        ∧ t.pw.lostLock.getLsbD p = true ∧ (∀ q : Fin 5, q ≠ p → t.pw.lostLock.getLsbD q = s.pw.lostLock.getLsbD q)
        ∧ (t.reg CLK_STATUS_WORD.addr).getLsbD p = false ∧ t.bit PWR_EVENT_EV 2 = true
        ∧ (p = 0 → ∀ q : Fin 8, t.rd (CH_STATUS_WG q) = 0
            ∧ t.ch[q] = { s.ch[q] with cut := s.ch[q].cut || s.ch[q].writing })
        ∧ (p ≠ 0 → t.ch = s.ch)
        ∧ s.keeps t ([⟨CLK_STATUS_WORD.addr, p, 1⟩, PWR_EVENT_EV]
            ++ (if p = 0 then (List.range 8).map (fun q => CH_STATUS_WG q) else []))
        ∧ t = { s with regs := t.regs, ch := t.ch, pw := { s.pw with lostLock := t.pw.lostLock } })
      ∧ (s.pllNeeded p = false → exec (.pllLockLoss p) s = .next (settle s))
      ∧ (s.pw.lostLock.getLsbD p = true → ∃ t, exec (.pllLockReturn p) s = .next (settle t)
        ∧ t.pw.lostLock.getLsbD p = false ∧ (∀ q : Fin 5, q ≠ p → t.pw.lostLock.getLsbD q = s.pw.lostLock.getLsbD q)
        ∧ (t.reg CLK_STATUS_WORD.addr).getLsbD p = s.pllNeeded p ∧ s.keeps t [⟨CLK_STATUS_WORD.addr, p, 1⟩]
        ∧ t = { s with regs := t.regs, pw := { s.pw with lostLock := t.pw.lostLock } }))
    ∧ (s.pw.sleep = .active → s.pw.goal = .none → s.on 1 = true → s.flag PWR_CTRL_IDLE_AUTO = true → s.enginesIdle = true →
      s.irqPending 0 = false → s.irqPending 1 = false → ∃ t, exec (.idleEntry) s = .next (settle t)
      ∧ t.pw = { s.pw with sleep := .idle } ∧ t.core[(0 : Fin 2)] = { s.core[(0 : Fin 2)] with wfi := true }
      ∧ t.core[(1 : Fin 2)] = { s.core[(1 : Fin 2)] with wfi := true } ∧ t = { s with pw := t.pw, core := t.core })
    ∧ ((s.pw.sleep ≠ .active ∨ s.flag PWR_CTRL_IDLE_AUTO = false ∨ s.enginesIdle = false ∨ s.irqPending 0 = true) →
      exec (.idleEntry) s = .next (settle s))
    ∧ (s.pw.sleep = .idle → ∃ t, exec (.idleExit) s = .next (settle t)
      ∧ t.pw = { s.pw with sleep := .active } ∧ t.rd PWR_STATE_LAST_SLEEP = 1
      ∧ t.core[(0 : Fin 2)] = { s.core[(0 : Fin 2)] with wfi := false }
      ∧ t.core[(1 : Fin 2)] = { s.core[(1 : Fin 2)] with wfi := false }
      ∧ s.keeps t [PWR_STATE_LAST_SLEEP] ∧ t = { s with regs := t.regs, pw := t.pw, core := t.core })
    ∧ (∀ (tp : BitVec 8) (vm iv ic : BitVec 16), s.runs 14 = true →
      let lo := s.rd GOV_CTRL_LEVEL_MIN
      let hi := max lo (s.rd GOV_CTRL_LEVEL_MAX)
      let hy : Int := s.rd GOV_THRESH_T_HYST_T
      let tooHigh (i : Nat) : Bool := match i with
        | 0 => decide (s.rdI GOV_THRESH_T_T_LOGIC < s.rdI THERM_STATUS_TEMP)
        | 1 => decide (s.rdI GOV_THRESH_T_T_POWER < tp.toInt)
        | 2 => decide (32 * s.rd GOV_THRESH_I_I_VMOT < iv.toNat)
        | _ => decide (64 * s.rd GOV_THRESH_I_I_CORE < ic.toNat)
      let past := tooHigh 0 || tooHigh 1 || tooHigh 2 || tooHigh 3
      let quiet := decide (s.rdI THERM_STATUS_TEMP ≤ s.rdI GOV_THRESH_T_T_LOGIC - hy)
        && decide (tp.toInt ≤ s.rdI GOV_THRESH_T_T_POWER - hy) && decide (iv.toNat * 16 ≤ 32 * s.rd GOV_THRESH_I_I_VMOT * 15)
        && decide (ic.toNat * 16 ≤ 64 * s.rd GOV_THRESH_I_I_CORE * 15)
      let grown := !past && quiet && decide (max 1 (s.rd GOV_HOLD_HOLD) ≤ s.pw.calm + 1)
      let comp := s.rd GOV_STATUS_COMPUTED
      ∃ t, exec (.govUpdate tp vm iv ic) s = .next (settle t)
      ∧ t.rd PS_TEMP_TEMP = tp.toNat ∧ t.rd PS_VMOT_VOLTAGE = vm.toNat ∧ t.rd PS_VMOT_CURRENT = iv.toNat
      ∧ (∀ i : Fin 4, t.bit GOV_STATUS_OVER i = tooHigh i)
      ∧ (s.flag GOV_CTRL_ENABLE = false → t.rd GOV_STATUS_EFFECTIVE = hi ∧ t.rd GOV_STATUS_COMPUTED = comp
          ∧ t.rd GOV_STATUS_SATURATED = 0 ∧ t.pw.calm = s.pw.calm)
      ∧ (s.flag GOV_CTRL_ENABLE = true →
          t.rd GOV_STATUS_COMPUTED = max lo (min hi (if past then comp - 1 else if grown then comp + 1 else comp))
          ∧ t.rd GOV_STATUS_EFFECTIVE
            = (if s.flag GOV_CTRL_PIN_EN then s.rd GOV_CTRL_PIN_LEVEL else t.rd GOV_STATUS_COMPUTED)
          ∧ t.pw.calm = (if past || grown || !quiet then 0 else s.pw.calm + 1))
      ∧ (t.rd GOV_STATUS_EFFECTIVE ≠ s.rd GOV_STATUS_EFFECTIVE → t.bit PWR_EVENT_EV 7 = true)
      ∧ s.keeps t [PS_TEMP_TEMP, PS_VMOT_VOLTAGE, PS_VMOT_CURRENT, GOV_STATUS_OVER, GOV_STATUS_EFFECTIVE,
          GOV_STATUS_COMPUTED, GOV_STATUS_SATURATED, SYS_LOOP_SAT_GOV, PWR_EVENT_EV]
      ∧ t = { s with regs := t.regs, pw := { s.pw with calm := t.pw.calm, sat := t.pw.sat } })

/-- R48 (and, of a domain that is off, R634): what a unit does of its own does not happen while its clock's PLL has lost its
lock, or its domain is off: the command changes nothing. A Host Port so stopped drives no data. A command on a register whose
domain is off has no effect, reads as 0, and is recorded in SYS_BUS_ERR while that holds no error (R634, R1068); the requester
shown where a row names none is the model's choice (log entry 26). Which domain holds each register is Table 14.4's. -/
def Obligations.StoppedClocks : Prop :=
  ∀ (s : State),
    (∀ (p : Fin 8), s.portRuns p = false → ∀ c ∈ [Instr.alignEnd p, .lossOfLock p, .flyRestartTimeout p, .spinupFail p,
      .spindleStopped p, .commutation p, .pwmPeriodBoundary p, .servoGateOpen p, .servoLoss p, .servoRecoveryTimeout p,
      .seekTimeout p, .loadTimeout p, .unloadDone p, .paFrameStart p, .preampFault p, .preampFaultClear p],
      exec c s = .next (settle s))
    ∧ (∀ (p : Fin 8) (ticks : Nat) (off : Int) (data : Byte), s.portRuns p = false →
      exec (.zeroCrossing p ticks off) s = .next (settle s) ∧ exec (.paFrameEnd p data) s = .next (settle s))
    ∧ (∀ (p : Fin 8), s.runs (2 + p.val) = false → ∀ c ∈ [Instr.zoneLoadDeferred p, .zoneLoadDone p, .agcWindowUpdate p,
      .lmsUpdate p, .syncDetect p, .syncMiss p, .llrSlotFilled p, .readGateOpen p, .readGateClose p, .writeGateOpen p,
      .writeGateEnd p], exec c s = .next (settle s))
    ∧ (∀ (p : Fin 8) (w : Wedge) (x : List (BitVec 7)) (dec : Byte), s.runs (2 + p.val) = false →
      exec (.servoWedge p w) s = .next (settle s) ∧ exec (.timingLoopUpdate p x dec) s = .next (settle s))
    ∧ (s.runs 14 = false → (∀ c ∈ [Instr.spinupAdmit, .sceDrivingUpdate, .sceSpindleUpdate, .sceInitDone],
        exec c s = .next (settle s))
      ∧ (∀ v : Word, exec (.sceTrackingUpdate v) s = .next (settle s))
      ∧ (∀ (tp : BitVec 8) (vm iv ic : BitVec 16), exec (.govUpdate tp vm iv ic) s = .next (settle s)))
    ∧ (s.runs 10 = false → (∀ c ∈ [Instr.complOverflow, .completionRetry, .iduGovUpdate, .katPeriod],
        exec c s = .next (settle s))
      ∧ (∀ n : Fin 9, exec (.iduJobAccept n) s = .next (settle s))
      ∧ (∀ (n : Fin 6) (b : Fin 65536) (pass : Bool), ∀ c ∈ [Instr.iduDispatch n, .iduJobEnd n, .jobTimeout n,
        .iduMemoryError n b, .katWaitTimeout n, .katDone n pass], exec c s = .next (settle s))
      ∧ (∀ (j : Fin 48) (k : Fin 16) (b : Fin 65536), exec (.jobWithdrawn j k) s = .next (settle s)
        ∧ exec (.slotLost j b) s = .next (settle s)))
    ∧ (s.runs 1 = false → (∀ (p : Fin 8) (e : Bool), ∀ c ∈ [Instr.microNext p e, .microJump p, .microJcc p, .microJnc p,
          .microCall p, .microCallv p, .microRet p, .microLoop p, .microPoll p, .microDispatch p, .microHalt p, .illegalSeq p,
          .stalledWordComplete p, .ringStallTimeout p, .contextTimerExpiry p, .gateSlotStart p e, .writePrefetchDone p,
          .gateEnd p, .fmtDmaDone p, .safePointLimit p], exec c s = .next (settle s))
      ∧ (∀ (req : Fin 17) (i h : Bool) (a : Word) (n : Fin 65) (d : List Byte) (k : Nat) (w : Fin 16),
        ∀ c ∈ [Instr.lcRead req i h a n, .lcWrite req h a d, .lcFillDone k, .wcbDrain w, .wcbDrainDone w,
          .streamDetectorUpdate, .lcOpDone, .lcInitDone, .reencryptionDone, .authHoldEnd], exec c s = .next (settle s))
      ∧ (∀ (usb : Bool) (tag : Fin 32), ∀ c ∈ [Instr.aeGen, .aeSolve, .aeCopy, .aeCheck, .aeZero, .aeCommandComplete,
          .aeComplOverflow, .hqeDoorbell usb tag, .transferDescriptor, .transferDone usb, .fastPathDone usb,
          .firmwareCompletion, .postingRelease usb, .mapSyncDone, .almanacRecord, .almanacIndexBuild, .sjdRequest,
          .sjdMemberCompletion], exec c s = .next (settle s))
      ∧ (∀ (healthy : Bool), ∀ c ∈ [Instr.bcRekey, .bcDiscard, .keyGenerate healthy, .keyLoad, .keyUnload, .keyErase healthy,
          .keyDelete, .keyRewrap healthy, .rootProgram healthy, .keyStatus], exec c s = .next (settle s))
      ∧ (∀ (f x type seq : Byte) (tr : Transport) (good : Bool) (d : List Byte), ∀ c ∈ [Instr.bootRomStart f x,
          .bootRomWakePath, .recoveryHello tr seq good d, .recoveryWrite tr seq good d, .recoveryVerify type tr seq good d,
          .recoveryBoot tr seq good d, .recoveryAlmanac tr seq good d], exec c s = .next (settle s))
      ∧ (∀ (c : Fin 2) (b : Byte) (stop : Bool), s.coreLive c = false
        ∧ exec (.uartRxByte b stop) s = .next (settle s) ∧ exec .uartTxByteSent s = .next (settle s))
      ∧ s.otRuns = false)
    ∧ (s.pw.lostLock.getLsbD 1 = true → ∀ (r : Fin 1024) (e : List Byte),
      exec (.qmHardwareEnqueue r e) s = .next (settle s) ∧ exec (.qmHardwareDequeue r) s = .next (settle s))
    ∧ (s.runs 11 = false → ∀ (req : Fin 17) (a : Word), exec (.dramRetryRead req a) s = .next (settle s))
    ∧ (s.runs 12 = false → s.hubLive = false ∧ exec .vbusLoss s = .next (settle s) ∧ exec .vbusArrival s = .next (settle s)
      ∧ (∀ n : Fin 4, exec (.downstreamOvercurrent n) s = .next (settle s)))
    ∧ (s.runs 13 = false → (∀ c ∈ [Instr.hpMboxInEnqueue, .hpMboxOutTake, .hpSbComplete], exec c s = .next (settle s))
      ∧ ∀ (rd out : Bool) (g : State → State), s.hpCycle rd out g = s.drive [])
    ∧ (∀ type req a w, type < 4 → req < 32 → a < 2 ^ 32 →
      (s.flag SYS_BUS_ERR_VALID = true → s.busError type req a w = s)
      ∧ (s.flag SYS_BUS_ERR_VALID = false → let t := s.busError type req a w
        t.rd SYS_BUS_ERR_VALID = 1 ∧ t.rd SYS_BUS_ERR_TYPE = type ∧ t.rd SYS_BUS_ERR_WRITE = b2n w
        ∧ t.rd SYS_BUS_ERR_REQ_ID = req ∧ t.rd SYS_BUS_ERR_ADDR_ADDR = a
        ∧ s.keeps t [SYS_BUS_ERR_VALID, SYS_BUS_ERR_TYPE, SYS_BUS_ERR_WRITE, SYS_BUS_ERR_REQ_ID, SYS_BUS_ERR_ADDR_ADDR]
        ∧ t = { s with regs := t.regs }))
    ∧ (∀ (p : Fin 8) (still : Bool), s.regOn (SPN_CMD_WORD p).addr = false →
      exec (.spnStart p) s = .next (settle (s.busError 3 0 (SPN_CMD_WORD p).addr true))
      ∧ exec (.spnStop p) s = .next (settle (s.busError 3 0 (SPN_CMD_WORD p).addr true))
      ∧ exec (.spnMeasure p) s = .next (settle (s.busError 3 0 (SPN_CMD_WORD p).addr true))
      ∧ exec (.spnClearFault p still) s = .next (settle (s.busError 3 0 (SPN_CMD_WORD p).addr true)))
    ∧ (∀ (holds : Bool), s.regOn PS_RETRACT_CLR_WORD.addr = false →
      exec (.retractClear holds) s = .next (settle (s.busError 3 0 PS_RETRACT_CLR_WORD.addr true)))
    ∧ (s.regOn HQE_MAP_SYNC_WORD.addr = false →
      exec (.mapSync) s = .next (settle (s.busError 3 0 HQE_MAP_SYNC_WORD.addr true)))
    ∧ (∀ (v : Word), s.regOn HQE_TAG_SPLIT_WORD.addr = false →
      exec (.tagSplitWrite v) s = .next (settle (s.busError 3 0 HQE_TAG_SPLIT_WORD.addr true)))
    ∧ (s.regOn ALM_CMD_WORD.addr = false →
      exec (.almErase) s = .next (settle (s.busError 3 0 ALM_CMD_WORD.addr true))
      ∧ exec (.almClearDropped) s = .next (settle (s.busError 3 0 ALM_CMD_WORD.addr true)))
    ∧ (∀ (v : Word), s.regOn HP_CFG_WORD.addr = false →
      exec (.hostPortEnable v) s = .next (settle (s.busError 3 0 HP_CFG_WORD.addr true)))
    ∧ (∀ (c : Fin 24), s.regOn (CTX_CMD_WORD c).addr = false →
      exec (.clearStates c) s = .next (settle (s.busError 3 0 (CTX_CMD_WORD c).addr true)))
    ∧ (∀ (c : Fin 24) (set : Fin 16) (w : Fin 32) (v : Word), s.regOn (SCE_COEF_WORD c set w).addr = false →
      exec (.coefficientWrite c set w v) s = .next (settle (s.busError 3 0 (SCE_COEF_WORD c set w).addr true)))
    ∧ (∀ (c : Fin 24), s.regOn (CTX_STATE_LO_WORD c).addr = false →
      exec (.stateCaptureRead c) s
        = .next (settle { s.busError 3 0 (CTX_STATE_LO_WORD c).addr false with bus := { data := clean (zerosB 4) } }))
    ∧ (∀ (p : Fin 8) (head : Fin 16) (accel : Fin 16), s.regOn (SRV_CMD_WORD p).addr = false →
      exec (.srvLoad p) s = .next (settle (s.busError 3 0 (SRV_CMD_WORD p).addr true))
      ∧ exec (.srvUnload p) s = .next (settle (s.busError 3 0 (SRV_CMD_WORD p).addr true))
      ∧ exec (.srvSeek p head accel) s = .next (settle (s.busError 3 0 (SRV_CMD_WORD p).addr true)))
    ∧ (s.regOn SYS_CORE_RUN_WORD.addr = false →
      exec (.coreBRelease) s = .next (settle (s.busError 3 0 SYS_CORE_RUN_WORD.addr true)))
    ∧ (∀ (p : Fin 8) (z : Fin 32), s.regOn (CH_ZONE_WORD p).addr = false →
      exec (.zoneLoad p z) s = .next (settle (s.busError 3 0 (CH_ZONE_WORD p).addr true)))
    ∧ (∀ (p : Fin 8) (frame : BitVec 16), s.regOn (PA_CMD_WORD p).addr = false →
      exec (.paCommand p frame) s = .next (settle (s.busError 3 0 (PA_CMD_WORD p).addr true)))
    ∧ (∀ (p : Fin 8) (i : Fin 12) (v : BitVec 12), s.regOn (EQ_TAP_WORD p i).addr = false →
      exec (.eqTapWrite p i v) s = .next (settle (s.busError 3 0 (EQ_TAP_WORD p i).addr true)))
    ∧ (∀ (v : Word), s.regOn QM_DOORBELL_WORD.addr = false →
      exec (.qmDoorbell v) s = .next (settle (s.busError 3 0 QM_DOORBELL_WORD.addr true)))
    ∧ (∀ (v : Word), s.regOn QM_CONSUME_WORD.addr = false →
      exec (.qmConsume v) s = .next (settle (s.busError 3 0 QM_CONSUME_WORD.addr true)))
    ∧ (∀ (b : Fin 3) (v : Word), s.regOn QM_ENQ_RING_WORD.addr = false →
      (s.mayIssue b.val = true → exec (.qmStagedEnqueue b v) s
        = .next (settle (s.busError 3 b.val QM_ENQ_RING_WORD.addr true))))
    ∧ (∀ (b : Fin 3) (v : Word), s.regOn QM_RING_CFG_WORD.addr = false →
      (s.mayIssue b.val = true → exec (.qmRingConfigWrite b true v) s
        = .next (settle (s.busError 3 b.val QM_RING_CFG_WORD.addr true))))
    ∧ (∀ (b : Fin 3) (v : Word), s.regOn QM_RING_BASE_WORD.addr = false →
      (s.mayIssue b.val = true → exec (.qmRingConfigWrite b false v) s
        = .next (settle (s.busError 3 b.val QM_RING_BASE_WORD.addr true))))
    ∧ (∀ (b : Fin 3), s.regOn QM_RING_CMD_WORD.addr = false →
      (s.mayIssue b.val = true → exec (.qmRingReset b) s = .next (settle (s.busError 3 b.val QM_RING_CMD_WORD.addr true))))
    ∧ (∀ (v : Word), s.regOn QM_ERR_INFO_WORD.addr = false →
      exec (.qmErrInfoClear v) s = .next (settle (s.busError 3 0 QM_ERR_INFO_WORD.addr true)))
    ∧ (∀ (c : Fin 2) (dbg : Bool), s.regOn (EVC_CLAIM_WORD c).addr = false →
      (s.mayIssue (if dbg then 2 else c.val) = true → exec (.evcClaim c dbg) s
        = .next (settle { s.busError 3 0 (EVC_CLAIM_WORD c).addr false with bus := { data := clean (zerosB 4) } })))
    ∧ (∀ (v : Word), s.regOn EVC_SW_SET_WORD.addr = false →
      exec (.evcSwSet v) s = .next (settle (s.busError 3 0 EVC_SW_SET_WORD.addr true)))
    ∧ (∀ (v : Word), s.regOn EVC_SW_CLR_WORD.addr = false →
      exec (.evcSwClr v) s = .next (settle (s.busError 3 0 EVC_SW_CLR_WORD.addr true)))
    ∧ (∀ (i : Fin 128) (v : Word), s.regOn (EVC_SRC_CFG_WORD i).addr = false →
      exec (.evcSourceConfig i v) s = .next (settle (s.busError 3 0 (EVC_SRC_CFG_WORD i).addr true)))
    ∧ (∀ (v : Word), s.regOn BC_CTRL_WORD.addr = false →
      exec (.windowEnableWrite v) s = .next (settle (s.busError 3 0 BC_CTRL_WORD.addr true)))
    ∧ (∀ (v : Word), s.regOn INT_INJECT_WORD.addr = false →
      exec (.errorInjectArm v) s = .next (settle (s.busError 3 0 INT_INJECT_WORD.addr true)))
    ∧ (∀ (p : Fin 8) (clr : Bool), s.regOn (FMT_CTX_CMD_WORD p).addr = false →
      exec (.fmtStart p clr) s = .next (settle (s.busError 3 0 (FMT_CTX_CMD_WORD p).addr true))
      ∧ exec (.fmtHalt p) s = .next (settle (s.busError 3 0 (FMT_CTX_CMD_WORD p).addr true))
      ∧ exec (.fmtStop p) s = .next (settle (s.busError 3 0 (FMT_CTX_CMD_WORD p).addr true))
      ∧ exec (.fmtFault p) s = .next (settle (s.busError 3 0 (FMT_CTX_CMD_WORD p).addr true)))
    ∧ (∀ (i : Fin 1024) (w3 : Word), s.regOn (0x3008400C + 16 * i.val) = false →
      exec (.nanowordCommit i w3) s = .next (settle (s.busError 3 0 (0x3008400C + 16 * i.val) true)))
    ∧ (∀ (mode : Bool) (req : Fin 3) (ways : BitVec 16), s.regOn LC_OP_WORD.addr = false →
      exec (.lcClean mode) s = .next (settle (s.busError 3 0 LC_OP_WORD.addr true))
      ∧ exec (.lcInvalidate mode) s = .next (settle (s.busError 3 0 LC_OP_WORD.addr true))
      ∧ exec (.lcCleanInvalidate mode) s = .next (settle (s.busError 3 0 LC_OP_WORD.addr true))
      ∧ exec (.lcPreloadLock req mode ways) s = .next (settle (s.busError 3 req.val LC_OP_WORD.addr true))
      ∧ exec (.lcUnlock mode) s = .next (settle (s.busError 3 0 LC_OP_WORD.addr true))
      ∧ exec (.lcDrainAll) s = .next (settle (s.busError 3 0 LC_OP_WORD.addr true))
      ∧ exec (.lcInvalidateAll) s = .next (settle (s.busError 3 0 LC_OP_WORD.addr true))
      ∧ exec (.lcUnlockAll) s = .next (settle (s.busError 3 0 LC_OP_WORD.addr true)))
    ∧ (∀ (v : Word), s.regOn LC_CTRL_WORD.addr = false →
      exec (.lcDisable v) s = .next (settle (s.busError 3 0 LC_CTRL_WORD.addr true)))
    ∧ (∀ (n : Fin 4) (v : Word), s.regOn (TIMER_LOAD_WORD n).addr = false →
      exec (.timerLoadWrite n v) s = .next (settle (s.busError 3 0 (TIMER_LOAD_WORD n).addr true)))
    ∧ (∀ (n : Fin 4) (v : Word), s.regOn (TIMER_CTRL_WORD n).addr = false →
      exec (.timerCtrlWrite n v) s = .next (settle (s.busError 3 0 (TIMER_CTRL_WORD n).addr true)))
    ∧ (s.regOn MTIME_LO_WORD.addr = false →
      exec (.mtimeCaptureRead) s
        = .next (settle { s.busError 3 0 MTIME_LO_WORD.addr false with bus := { data := clean (zerosB 4) } }))
    ∧ (∀ (c : Fin 2) (v : Word), s.regOn (WDT_KICK_WORD c).addr = false →
      exec (.wdtKick c v) s = .next (settle (s.busError 3 0 (WDT_KICK_WORD c).addr true)))
    ∧ (∀ (c : Fin 2) (v : Word), s.regOn (WDT_CTRL_WORD c).addr = false →
      exec (.wdtArm c v) s = .next (settle (s.busError 3 0 (WDT_CTRL_WORD c).addr true)))
    ∧ (∀ (v : Word), s.regOn UART_DATA_WORD.addr = false →
      exec (.uartTxWrite v) s = .next (settle (s.busError 3 0 UART_DATA_WORD.addr true))
      ∧ exec (.uartRxRead) s
        = .next (settle { s.busError 3 0 UART_DATA_WORD.addr false with bus := { data := clean (zerosB 4) } }))
    ∧ (∀ (v : Word), s.regOn USB_EP0_CTL_WORD.addr = false →
      exec (.ep0Send v) s = .next (settle (s.busError 3 0 USB_EP0_CTL_WORD.addr true))
      ∧ exec (.ep0Ack v) s = .next (settle (s.busError 3 0 USB_EP0_CTL_WORD.addr true))
      ∧ exec (.ep0Stall v) s = .next (settle (s.busError 3 0 USB_EP0_CTL_WORD.addr true)))
    ∧ (∀ (v : Word), s.regOn USB_MSE_START_WORD.addr = false →
      exec (.mseStartHqe v) s = .next (settle (s.busError 3 0 USB_MSE_START_WORD.addr true))
      ∧ exec (.mseStartBuffer v) s = .next (settle (s.busError 3 0 USB_MSE_START_WORD.addr true))
      ∧ exec (.mseStartNoData v) s = .next (settle (s.busError 3 0 USB_MSE_START_WORD.addr true))
      ∧ exec (.mseStartTmResponse v) s = .next (settle (s.busError 3 0 USB_MSE_START_WORD.addr true)))
    ∧ (∀ (v : Word), s.regOn USB_MSE_FINISH_WORD.addr = false →
      exec (.mseFinish v) s = .next (settle (s.busError 3 0 USB_MSE_FINISH_WORD.addr true)))
    ∧ (∀ (v : Word), s.regOn USB_MSE_CFG_WORD.addr = false →
      exec (.uasModeWrite v) s = .next (settle (s.busError 3 0 USB_MSE_CFG_WORD.addr true)))
    ∧ (∀ (v : Word), s.regOn USB_CTRL_WORD.addr = false →
      exec (.remoteWakeRequest v) s = .next (settle (s.busError 3 0 USB_CTRL_WORD.addr true))
      ∧ exec (.fnAttachWrite v) s = .next (settle (s.busError 3 0 USB_CTRL_WORD.addr true)))
    ∧ (s.regOn IDU_SLOT_ALLOC_WORD.addr = false →
      exec (.slotAllocRead) s
        = .next (settle { s.busError 3 0 IDU_SLOT_ALLOC_WORD.addr false with bus := { data := clean (zerosB 4) } }))
    ∧ (∀ (slot : Fin 64), s.regOn IDU_SLOT_RELEASE_WORD.addr = false →
      exec (.iduSlotRelease slot) s = .next (settle (s.busError 3 0 IDU_SLOT_RELEASE_WORD.addr true)))
    ∧ (∀ (i : Fin 6), s.regOn IDU_CMD_WORD.addr = false →
      exec (.iduFence i) s = .next (settle (s.busError 3 0 IDU_CMD_WORD.addr true))
      ∧ exec (.iduUnfence i) s = .next (settle (s.busError 3 0 IDU_CMD_WORD.addr true))
      ∧ exec (.iduRunKat i) s = .next (settle (s.busError 3 0 IDU_CMD_WORD.addr true)))
    ∧ (∀ (v : Word), s.regOn LLR_WIN_DATA_WORD.addr = false →
      exec (.llrWindowWrite v) s = .next (settle (s.busError 3 0 LLR_WIN_DATA_WORD.addr true))
      ∧ exec (.llrWindowRead) s
        = .next (settle { s.busError 3 0 LLR_WIN_DATA_WORD.addr false with bus := { data := clean (zerosB 4) } }))
    ∧ (∀ (p : Fin 8), s.regOn (SPN_CMD_WORD p).addr = s.on (2 + p.val))
    ∧ s.regOn PS_RETRACT_CLR_WORD.addr = s.on 14
    ∧ s.regOn HQE_MAP_SYNC_WORD.addr = s.on 0
    ∧ s.regOn HQE_TAG_SPLIT_WORD.addr = s.on 0
    ∧ s.regOn ALM_CMD_WORD.addr = s.on 1
    ∧ s.regOn HP_CFG_WORD.addr = s.on 13
    ∧ (∀ (c : Fin 24), s.regOn (CTX_CMD_WORD c).addr = s.on 14)
    ∧ (∀ (c : Fin 24) (set : Fin 16) (w : Fin 32), s.regOn (SCE_COEF_WORD c set w).addr = s.on 14)
    ∧ (∀ (c : Fin 24), s.regOn (CTX_STATE_LO_WORD c).addr = s.on 14)
    ∧ (∀ (p : Fin 8), s.regOn (SRV_CMD_WORD p).addr = s.on (2 + p.val))
    ∧ s.regOn SYS_CORE_RUN_WORD.addr = s.on 1
    ∧ (∀ (p : Fin 8), s.regOn (CH_ZONE_WORD p).addr = s.on (2 + p.val))
    ∧ (∀ (p : Fin 8), s.regOn (PA_CMD_WORD p).addr = s.on (2 + p.val))
    ∧ (∀ (p : Fin 8) (i : Fin 12), s.regOn (EQ_TAP_WORD p i).addr = (s.on (2 + p.val) && !s.pw.afeOff))
    ∧ s.regOn QM_DOORBELL_WORD.addr = s.on 0
    ∧ s.regOn QM_CONSUME_WORD.addr = s.on 0
    ∧ s.regOn QM_ENQ_RING_WORD.addr = s.on 0
    ∧ s.regOn QM_RING_CFG_WORD.addr = s.on 0
    ∧ s.regOn QM_RING_BASE_WORD.addr = s.on 0
    ∧ s.regOn QM_RING_CMD_WORD.addr = s.on 0
    ∧ s.regOn QM_ERR_INFO_WORD.addr = s.on 0
    ∧ (∀ (c : Fin 2), s.regOn (EVC_CLAIM_WORD c).addr = s.on 0)
    ∧ s.regOn EVC_SW_SET_WORD.addr = s.on 0
    ∧ s.regOn EVC_SW_CLR_WORD.addr = s.on 0
    ∧ (∀ (i : Fin 128), s.regOn (EVC_SRC_CFG_WORD i).addr = s.on 0)
    ∧ s.regOn BC_CTRL_WORD.addr = s.on 0
    ∧ s.regOn INT_INJECT_WORD.addr = s.on 0
    ∧ (∀ (p : Fin 8), s.regOn (FMT_CTX_CMD_WORD p).addr = s.on 1)
    ∧ (∀ (i : Fin 1024), s.regOn (0x3008400C + 16 * i.val) = s.on 1)
    ∧ s.regOn LC_OP_WORD.addr = s.on 1
    ∧ s.regOn LC_CTRL_WORD.addr = s.on 1
    ∧ (∀ (n : Fin 4), s.regOn (TIMER_LOAD_WORD n).addr = s.on 0)
    ∧ (∀ (n : Fin 4), s.regOn (TIMER_CTRL_WORD n).addr = s.on 0)
    ∧ s.regOn MTIME_LO_WORD.addr = s.on 0
    ∧ (∀ (c : Fin 2), s.regOn (WDT_KICK_WORD c).addr = s.on 1)
    ∧ (∀ (c : Fin 2), s.regOn (WDT_CTRL_WORD c).addr = s.on 1)
    ∧ s.regOn UART_DATA_WORD.addr = s.on 1
    ∧ s.regOn USB_EP0_CTL_WORD.addr = s.on 12
    ∧ s.regOn USB_MSE_START_WORD.addr = s.on 12
    ∧ s.regOn USB_MSE_FINISH_WORD.addr = s.on 12
    ∧ s.regOn USB_MSE_CFG_WORD.addr = s.on 12
    ∧ s.regOn USB_CTRL_WORD.addr = s.on 12
    ∧ s.regOn IDU_SLOT_ALLOC_WORD.addr = s.on 10
    ∧ s.regOn IDU_SLOT_RELEASE_WORD.addr = s.on 10
    ∧ s.regOn IDU_CMD_WORD.addr = s.on 10
    ∧ s.regOn LLR_WIN_DATA_WORD.addr = s.on 10

/-- R58 to R61 (sleep requests), R64, R85, R96 and R97 (wake sources), R103 (the wake timer), R93 (the rails), R71 to R76,
R80 and R101 (Dusk and Dawn of a domain, and of the device), R98, R100 and R102 (domain requests), R51. -/
def Obligations.PowerTransitions : Prop :=
  ∀ (s : State),
    (s.flag PWR_STATE_AON_BUSY = false → s.aonStalled 0 = false →
      (s.sleepReason false = none → ∃ t, exec (.standbyRequest) s = .next (settle t)
        ∧ t.pw = { s.pw with goal := .toStandby, todo := [10, 15, 1, 11].filter (fun d => d == 15 || s.on d), done := [],
                             wakePend := false, onBefore := s.rd PWR_DOMAIN_STATUS_ON }
        ∧ t.rd PWR_STATE_AON_BUSY = 1 ∧ s.keeps t [PWR_STATE_AON_BUSY] ∧ t = { s with regs := t.regs, pw := t.pw })
      ∧ (s.sleepReason true = none → ∃ t, exec (.nadirRequest) s = .next (settle t)
        ∧ t.pw.goal = .toNadir ∧ t.pw.onBefore = s.rd PWR_DOMAIN_STATUS_ON
        ∧ (∀ d : Fin 15, t.pw.todo.contains d.val = s.on d) ∧ t.rd PWR_STATE_AON_BUSY = 1
        ∧ s.keeps t [PWR_STATE_AON_BUSY] ∧ t = { s with regs := t.regs, pw := t.pw })
      ∧ (∀ x, s.sleepReason false = some x → ∃ t, exec (.standbyRequest) s = .next (settle t)
        ∧ t.rd PWR_REFUSE_REASON = x.1 ∧ t.rd PWR_REFUSE_DETAIL = x.2 % 1024 ∧ t.bit PWR_EVENT_EV 0 = true
        ∧ s.keeps t [PWR_STATE_AON_BUSY, PWR_REFUSE_REASON, PWR_REFUSE_DETAIL, PWR_EVENT_EV] ∧ t = { s with regs := t.regs })
      ∧ (∀ p : Fin 8, s.rd (SPN_STATUS_STATE p) ≠ 0 → s.sleepReason true ≠ none)
      ∧ (∀ v : Word, (∀ d : Fin 15, (s.reg PWR_DOMAIN_REQ_WORD.addr).getLsbD d = true → v.getLsbD d = false →
          s.domainBusy d = none) → (v.getLsbD 14 = true ∨ getF v 2 8 = 0) → v.getLsbD 0 = false → v.getLsbD 1 = false →
          v.getLsbD 11 = false → ∃ t, exec (.domainRequest v) s = .next (settle t)
        ∧ (∀ d : Fin 15, 2 ≤ d.val → d.val ≠ 11 → (t.reg PWR_DOMAIN_REQ_WORD.addr).getLsbD d = v.getLsbD d
            ∧ t.pw.phases.contains (d.val, .dawn) = (s.pw.phases.contains (d.val, .dawn)
                || (!(s.reg PWR_DOMAIN_REQ_WORD.addr).getLsbD d && v.getLsbD d))
            ∧ t.pw.phases.contains (d.val, .dusk) = (s.pw.phases.contains (d.val, .dusk)
                || ((s.reg PWR_DOMAIN_REQ_WORD.addr).getLsbD d && !v.getLsbD d)))
        ∧ t.rd PWR_STATE_AON_BUSY = 1 ∧ s.keeps t [PWR_STATE_AON_BUSY, PWR_DOMAIN_REQ_WORD]
        ∧ t = { s with regs := t.regs, pw := { s.pw with phases := t.pw.phases } })
      ∧ (∀ (v : Word) (d : Fin 14), 2 ≤ d.val → d.val ≠ 11 → (s.reg PWR_DOMAIN_REQ_WORD.addr).getLsbD d = true →
          v.getLsbD d = false → s.domainBusy d ≠ none → ∃ t, exec (.domainRequest v) s = .next (settle t)
        ∧ (t.reg PWR_DOMAIN_REQ_WORD.addr).getLsbD d = true ∧ t.bit PWR_EVENT_EV 0 = true))
    ∧ (s.aonStalled 0 = true → exec (.standbyRequest) s = .next (settle s)
      ∧ (∀ v : Word, exec (.domainRequest v) s = .next (settle s)))
    ∧ (s.flag PWR_STATE_AON_BUSY = true → s.aonStalled 0 = false →
      (∃ t, exec (.standbyRequest) s = .next (settle t) ∧ t = { s with pw := { s.pw with
          aonWait := s.pw.aonWait ++ [(0, PWR_CTRL_WORD.addr, (s.reg PWR_CTRL_WORD.addr).toNat + 512)] } })
      ∧ (∀ v : Word, ∃ t, exec (.domainRequest v) s = .next (settle t) ∧ t = { s with pw := { s.pw with
          aonWait := s.pw.aonWait ++ [(0, PWR_DOMAIN_REQ_WORD.addr, v.toNat)] } }))
    ∧ (∀ src : Fin 6, src.val ≠ 0 → src.val ≠ 2 → src.val ≠ 3 →
      (s.pw.sleep = .active → s.pw.goal = .none → exec (.wakeEvent src) s = .next (settle s))
      ∧ (s.pw.sleep = .standby → s.pw.goal = .none → s.bit PWR_WAKE_EN_EN src = true →
        ∃ t, exec (.wakeEvent src) s = .next (settle t)
        ∧ t.pw = { s.pw with goal := .fromStandby, wakePend := false, done := [],
                             todo := [11, 1, 10, 15].filter (fun d => d == 15 || s.pw.onBefore.testBit d) }
        ∧ t.bit PWR_WAKE_CAUSE_CAUSE src = true ∧ s.keeps t [PWR_WAKE_CAUSE_CAUSE] ∧ t = { s with regs := t.regs, pw := t.pw })
      ∧ (s.pw.sleep = .standby → s.pw.goal = .none → s.bit PWR_WAKE_EN_EN src = false →
        ∃ t, exec (.wakeEvent src) s = .next (settle t)
        ∧ t.bit PWR_WAKE_CAUSE_CAUSE src = true ∧ s.keeps t [PWR_WAKE_CAUSE_CAUSE] ∧ t = { s with regs := t.regs })
      ∧ (s.pw.sleep = .nadir → s.pw.goal = .none → s.bit PWR_WAKE_EN_EN src = true → s.rd PWR_PMIC_USE ≠ 0 →
        ∃ t, exec (.wakeEvent src) s = .next (settle t)
        ∧ t.pw = { s.pw with goal := .fromNadir, wakePend := false, done := [], todo := [], railWait := true }
        ∧ t.rd PWR_PMIC_LEVEL = 7 ∧ t.bit PWR_WAKE_CAUSE_CAUSE src = true
        ∧ s.keeps t [PWR_WAKE_CAUSE_CAUSE, PWR_PMIC_LEVEL] ∧ t = { s with regs := t.regs, pw := t.pw })
      ∧ ((s.pw.goal = .toStandby ∨ s.pw.goal = .toNadir) → s.bit PWR_WAKE_EN_EN src = true →
        ∃ t, exec (.wakeEvent src) s = .next (settle t)
        ∧ t.pw = { s.pw with wakePend := true } ∧ t.bit PWR_WAKE_CAUSE_CAUSE src = true
        ∧ s.keeps t [PWR_WAKE_CAUSE_CAUSE] ∧ t = { s with regs := t.regs, pw := t.pw }))
    ∧ (s.pw.sleep = .standby → s.pw.goal = .none → s.rd PWR_WAKE_TIMER_TICKS ≠ 0 → s.bit PWR_WAKE_EN_EN 4 = true →
      ∃ t, exec (.wakeTimerExpiry) s = .next (settle t)
      ∧ t.pw.goal = .fromStandby ∧ t.rd PWR_WAKE_TIMER_TICKS = 0 ∧ t.bit PWR_WAKE_CAUSE_CAUSE 4 = true
      ∧ s.keeps t [PWR_WAKE_TIMER_TICKS, PWR_WAKE_CAUSE_CAUSE] ∧ t = { s with regs := t.regs, pw := t.pw })
    ∧ (s.pw.railWait = true → (∃ t, exec (.pmicRailWaitEnd true) s = .next (settle t)
        ∧ t.rd SYS_RESET_CAUSE_NADIR_DAWN = 1 ∧ t.rd OTP_STATUS_SHADOW_VALID = 0 ∧ t.rd PWR_DOMAIN_STATUS_ON = 0
        ∧ t.pw.railWait = false ∧ t.pw.goal = s.pw.goal ∧ t.pw.sleep = s.pw.sleep ∧ t.pw.onBefore = s.pw.onBefore
        ∧ t.pw.todo = [0, 11, 1, 14] ++ [13, 12].filter (fun d => (s.reg PWR_DOMAIN_REQ_WORD.addr).getLsbD d)
        ∧ (∀ d : Fin 15, (t.reg PWR_DOMAIN_REQ_WORD.addr).getLsbD d
            = (d.val == 14 || (!(decide (2 ≤ d.val) && decide (d.val ≤ 10)) && (s.reg PWR_DOMAIN_REQ_WORD.addr).getLsbD d)))
        ∧ t.boot = { s.boot with otpLoading := true }
        ∧ (∀ a, 0x10000000 ≤ a → a < 0x10100000 → t.byteAt a = s.byteAt a)
        ∧ (∀ a, a ≠ PWR_DOMAIN_REQ_WORD.addr → a ≠ OTP_STATUS_SHADOW_VALID.addr → a ≠ SYS_RESET_CAUSE_WORD.addr →
            a ≠ PWR_DOMAIN_STATUS_ON.addr → t.reg a = if keepsDom none (regDom a) then s.reg a else regReset a)
        ∧ t.pending = s.pending ∧ t.die = s.die)
      ∧ (s.boot.reset = none → ∃ t, exec (.pmicRailWaitEnd false) s = .next (settle t)
        ∧ t.boot.reset = some .pin ∧ t.rd SYS_RESET_CAUSE_POR_RAIL = 1 ∧ t.pw.railWait = false))
    ∧ (∀ d : Fin 16,
      (d.val < 15 → s.phaseDue d .dusk = true → (d.val = 14 → s.anyPort = false) → ∃ t, exec (.duskComplete d) s = .next (settle t)
        ∧ t.on d = false ∧ (∀ e : Fin 15, e.val ≠ d.val → t.on e = s.on e)
        ∧ t.pw.phases = s.pw.phases.erase (d.val, .dusk) ∧ t.pw.goal = s.pw.goal)
      ∧ ((d.val = 12 ∨ d.val = 13) → s.phaseDue d .dusk = true → ∃ t, exec (.duskComplete d) s = .next (settle t)
        ∧ s.keeps t [PWR_DOMAIN_STATUS_ON, CLK_STATUS_WORD]
        ∧ t = { s with regs := t.regs, pw := { s.pw with phases := t.pw.phases } })
      ∧ (d.val < 15 → s.phaseDue d .dusk = false → s.pw.goal = .toStandby → s.pw.todo = [d.val] → s.pw.wakePend = false →
        s.bit PWR_WAKE_EN_EN 2 = false → s.bit PWR_WAKE_EN_EN 3 = false → ∃ t, exec (.duskComplete d) s = .next (settle t)
        ∧ t.on d = false ∧ t.pw.sleep = .standby ∧ t.pw.goal = .none ∧ t.pw.todo = [])
      ∧ (∀ left : BitVec 16,
        (s.phaseDue d .dusk = true →
          (∃ t, exec (.duskStopTimeout d left) s = .next (settle t)
            ∧ t.rd PWR_DUSK_FAIL_DOMAIN = d.val ∧ t.rd PWR_DUSK_FAIL_STEP = 0 ∧ t.rd PWR_DUSK_FAIL_OUTSTANDING = left.toNat
            ∧ t.bit PWR_EVENT_EV 1 = true ∧ (t.reg PWR_DOMAIN_REQ_WORD.addr).getLsbD d = true
            ∧ t.pw = { s.pw with phases := s.pw.phases.erase (d.val, .dusk) }
            ∧ s.keeps t [PWR_DUSK_FAIL_DOMAIN, PWR_DUSK_FAIL_STEP, PWR_DUSK_FAIL_OUTSTANDING, PWR_EVENT_EV,
                ⟨PWR_DOMAIN_REQ_WORD.addr, d, 1⟩]
            ∧ t = { s with regs := t.regs, pw := t.pw, rings := t.rings })
          ∧ (∃ t, exec (.duskDrainTimeout d left) s = .next (settle t)
            ∧ t.rd PWR_DUSK_FAIL_DOMAIN = d.val ∧ t.rd PWR_DUSK_FAIL_STEP = 1 ∧ t.rd PWR_DUSK_FAIL_OUTSTANDING = left.toNat
            ∧ t.bit PWR_EVENT_EV 1 = true ∧ (t.reg PWR_DOMAIN_REQ_WORD.addr).getLsbD d = true
            ∧ t.pw = { s.pw with phases := s.pw.phases.erase (d.val, .dusk) }
            ∧ t = { s with regs := t.regs, pw := t.pw, rings := t.rings }))
        ∧ (s.phaseDue d .dusk = false → (s.pw.goal = .toStandby ∨ s.pw.goal = .toNadir) → s.pw.todo.head? = some d.val →
          s.pw.done = [] → ∃ t, exec (.duskStopTimeout d left) s = .next (settle t)
          ∧ t.rd PWR_DUSK_FAIL_DOMAIN = d.val ∧ t.rd PWR_DUSK_FAIL_STEP = 0 ∧ t.bit PWR_EVENT_EV 1 = true
          ∧ t.pw = { s.pw with goal := .none, todo := [], wakePend := false }))
      ∧ (∀ healthy : Bool, (d.val = 12 ∨ d.val = 13) → s.phaseDue d .dawn = true → ∃ t, exec (.dawnComplete d healthy) s = .next (settle t)
        ∧ t.on d = true ∧ t.pw = { s.pw with phases := s.pw.phases.erase (d.val, .dawn) }
        ∧ (d.val = 12 → t.memDue.getLsbD 2 = true) ∧ s.keeps t [PWR_DOMAIN_STATUS_ON, CLK_STATUS_WORD]
        ∧ t = { s with regs := t.regs, pw := t.pw, rings := t.rings, memDue := t.memDue })
      ∧ (∀ healthy : Bool, 2 ≤ d.val → d.val ≤ 9 → s.phaseDue d .dawn = true → s.servoUp = false →
        exec (.dawnComplete d healthy) s = .next (settle s))
      ∧ (∀ healthy : Bool, d.val < 15 → s.phaseDue d .dawn = true → (2 ≤ d.val → d.val ≤ 9 → s.servoUp = true) →
        ∃ t, exec (.dawnComplete d healthy) s = .next (settle t)
        ∧ t.on d = true ∧ (∀ e : Fin 15, e.val ≠ d.val → t.on e = s.on e)
        ∧ t.pw.phases = s.pw.phases.erase (d.val, .dawn))
      ∧ (∀ healthy : Bool, d.val = 10 → s.phaseDue d .dawn = false → s.pw.goal = .fromStandby → s.pw.todo = [d.val] →
        s.pw.done.contains 1 = false → ∃ t, exec (.dawnComplete d healthy) s = .next (settle t)
        ∧ t.on d = true ∧ t.pw.sleep = .active ∧ t.pw.goal = .none ∧ t.rd PWR_STATE_LAST_SLEEP = 2))

/-! ### Resets, OTP, the Boot ROM and recovery (chapter 3) -/

/-- R109 to R118, R123, R127, R150, R151, R1071 and R1072 with Table 3.3 (resets and their release), R842 (the Host Port's
CONTROL reset), R630 (an MRAM store torn by loss of supply, whose bits are free, log entry 28). That LINK_OK returns with the release is the model's choice (log entry 22). -/
def Obligations.ResetCommands : Prop :=
  ∀ (s : State),
    (s.boot.reset = none →
      (∃ t, exec (.logicThermalShutdown) s = .next (settle t) ∧ s.resetBy t .pin ∧ t.rd SYS_RESET_CAUSE_THERM_SHUTDOWN = 1
        ∧ t.pw.thermHold = true ∧ t.rd OTP_STATUS_SHADOW_VALID = 0 ∧ t.boot.otpLoading = true)
      ∧ (∃ t, exec (.coldPowerOnReset) s = .next (settle t) ∧ t.boot.reset = some .cold ∧ t.boot.coldHeld = true
        ∧ t.rd SYS_RESET_CAUSE_POR_COLD = 1 ∧ t.rd OTP_STATUS_SHADOW_VALID = 0 ∧ t.alm.ticks = 0 ∧ t.boot.otpBit = none
        ∧ ∀ a, 0x10000000 ≤ a → a < 0x10100000 → t.byteAt a = s.tear.byteAt a)
      ∧ (∀ ana : Bool, s.bit PWR_PMIC_LEVEL (b2n ana) = true → ∃ t, exec (.railPowerOnReset ana) s = .next (settle t)
        ∧ s.tear.resetBy t .pin ∧ (t.reg SYS_RESET_CAUSE_WORD.addr).toNat = 2 ∧ t.boot.otpLoading = true
        ∧ (ana = true → t.pw.vddAnaGood = false ∧ t.boot.otpBit = none))
      ∧ (∃ t, exec (.resetNAssert) s = .next (settle t)
        ∧ s.resetBy t .pin ∧ (t.reg SYS_RESET_CAUSE_WORD.addr).toNat = 4 ∧ t.rd OTP_STATUS_SHADOW_VALID = 0
        ∧ t.boot.otpLoading = true)
      ∧ (∀ v : Word, getF v 16 16 = 0xA5C3 → v.getLsbD 2 = true → ∃ t, exec (.softwareSystemReset v) s = .next (settle t)
        ∧ s.resetBy t .system ∧ t.rd SYS_RESET_CAUSE_SW_SYSTEM = 1
        ∧ (∀ i : Fin 32, i.val ≠ 3 → (t.reg SYS_RESET_CAUSE_WORD.addr).getLsbD i = (s.reg SYS_RESET_CAUSE_WORD.addr).getLsbD i)
        ∧ t.boot.otpLoading = false ∧ t.rd OTP_STATUS_SHADOW_VALID = s.rd OTP_STATUS_SHADOW_VALID)
      ∧ (∀ v : Word, getF v 16 16 = 0xA5C3 → v.getLsbD 2 = false → v.getLsbD 0 = true → v.getLsbD 1 = false →
        s.restartVec 0 ≠ 0 → ∃ t, exec (.softwareCoreReset v) s = .next (settle t)
        ∧ t.core[(0 : Fin 2)] = { run := true, pc := BitVec.ofNat 32 (s.restartVec 0) }
        ∧ t.core[(1 : Fin 2)] = s.core[(1 : Fin 2)] ∧ t.rd SYS_RESET_CAUSE_SW_CORE_A = 1 ∧ t.rd (WDT_CTRL_ARM 0) = 0
        ∧ s.keeps t [SYS_RESET_CAUSE_SW_CORE_A, WDT_CTRL_ARM 0]
        ∧ t = { s with regs := t.regs, core := t.core, dbg := { s.dbg with havereset := t.dbg.havereset } })
      ∧ (∀ v : Word, getF v 16 16 = 0xA5C3 → v.getLsbD 2 = false → v.getLsbD 0 = false → v.getLsbD 1 = true →
        s.coreBRuns = false → ∃ t, exec (.softwareCoreReset v) s = .next (settle t)
        ∧ t.rd SYS_RESET_CAUSE_SW_CORE_B = 1 ∧ t.rd (WDT_CTRL_ARM 1) = 0
        ∧ s.keeps t [SYS_RESET_CAUSE_SW_CORE_B, WDT_CTRL_ARM 1] ∧ t = { s with regs := t.regs }))
    ∧ (s.mram.last = none → s.tear = s)
    ∧ (∀ (a : Nat) (old : List (Byte × BitVec 5)), s.mram.last = some (a, old) →
      s.tear = { s with mem := s.tear.mem, ecc := s.tear.ecc, mram := {}, freeCtr := s.tear.freeCtr }
      ∧ (∀ b, (b < a ∨ a + old.length ≤ b) → s.tear.byteAt b = s.byteAt b)
      ∧ (∀ (i j : Nat) (x : Byte × BitVec 5), old[i]? = some x → j < 8 →
        (s.tear.byteAt (a + i)).getLsbD j = (s.byteAt (a + i)).getLsbD j
        ∨ (s.tear.byteAt (a + i)).getLsbD j = x.1.getLsbD j))
    ∧ (∀ v : Word, getF v 16 16 ≠ 0xA5C3 → exec (.softwareSystemReset v) s = .next (settle s)
      ∧ exec (.softwareCoreReset v) s = .next (settle s))
    ∧ ((s.boot.reset = some .pin ∨ s.boot.reset = some .cold) → ∃ t, exec (.resetNAssert) s = .next (settle t)
      ∧ t.rd SYS_RESET_CAUSE_RESET_N = 1 ∧ s.keeps t [SYS_RESET_CAUSE_RESET_N] ∧ t = { s with regs := t.regs })
    ∧ (∀ ana : Bool, s.bit PWR_PMIC_LEVEL (b2n ana) = false → exec (.railPowerOnReset ana) s = .next (settle s))
    ∧ (s.boot.coldHeld = true → ∃ t, exec (.coldResetRelease) s = .next (settle t)
      ∧ t = { s with boot := { s.boot with coldHeld := false, otpLoading := true } })
    ∧ (s.boot.otpLoading = true → s.boot.otpBit = none → s.boot.partFuses = [] →
      ∃ t, exec (.otpShadowLoadDone) s = .next (settle t)
      ∧ t.rd OTP_STATUS_SHADOW_VALID = 1 ∧ t.boot.otpLoading = false ∧ t.rd SYS_CAP_TEMP_GRADE = otpField s.boot.fuses 552 2
      ∧ (∀ i : Nat, i < 544 ∨ 549 ≤ i → otpBit t.boot.shadow i = otpBit s.boot.fuses i)
      ∧ (∀ i : Fin 5, otpBit t.boot.shadow (544 + i) = majority (otpBit s.boot.fuses (544 + i))
          (otpBit s.boot.fuses (3568 + i)) (otpBit s.boot.fuses (3576 + i)))
      ∧ s.keeps t [OTP_STATUS_SHADOW_VALID, SYS_CAP_TEMP_GRADE]
      ∧ t = { s with regs := t.regs, boot := { s.boot with shadow := t.boot.shadow, otpLoading := false }, cip := t.cip })
    ∧ (∀ (straps : BitVec 4) (h : Bool) (c : RClass), s.boot.reset = some c → s.boot.coldHeld = false →
      s.boot.otpLoading = false → s.pw.thermHold = false → ∃ t, exec (.internalResetRelease straps h) s = .next (settle t)
      ∧ t.boot = { s.boot with reset := none, stage := .rom } ∧ t.core[(0 : Fin 2)] = { run := true, pc := 0 }
      ∧ (s.jtag.ir ≠ 3 → s.jtag.ir ≠ 4 → t.rd PS_STATUS_LINK_OK = 1) ∧ t.rd BC_STATUS_KEY_FAIL = b2n (!h)
      ∧ (c = .system → t.reg SYS_STRAP_WORD.addr = s.reg SYS_STRAP_WORD.addr)
      ∧ (c ≠ .system → t.rd SYS_STRAP_HP_MODE = straps.toNat / 4
          ∧ t.rd SYS_STRAP_BOOT_SEL = (if otpBit s.boot.shadow 546 ∨ (otpBit s.boot.shadow 545 = true ∧ straps.toNat % 4 = 2)
              then 0 else straps.toNat % 4)))
    ∧ ((s.boot.coldHeld = true ∨ s.boot.otpLoading = true ∨ s.pw.thermHold = true ∨ s.boot.reset = none) →
      ∀ (straps : BitVec 4) (h : Bool), exec (.internalResetRelease straps h) s = .next (settle s))
    ∧ (s.boot.reset = none → s.coreBRuns = false → s.restartVec 1 ≠ 0 → s.regOn SYS_CORE_RUN_WORD.addr = true → ∃ t, exec (.coreBRelease) s = .next (settle t)
      ∧ t.rd SYS_CORE_RUN_B = 1 ∧ t.core[(1 : Fin 2)] = { run := true, pc := BitVec.ofNat 32 (s.restartVec 1) }
      ∧ t.core[(0 : Fin 2)] = s.core[(0 : Fin 2)] ∧ s.keeps t [SYS_CORE_RUN_B]
      ∧ t = { s with regs := t.regs, core := t.core, dbg := { s.dbg with havereset := t.dbg.havereset } })
    ∧ (s.hpServes = true → s.hpWide = true → ∀ v : BitVec 16,
      let h : HostPort := { s.hp with held := none }
      (v.getLsbD 7 = false → ∃ t, exec (.hpControlReset v) s = .next (settle t)
        ∧ t.rd HW_CONTROL_SWAP = bitsOf v.toNat 6 1 ∧ t.rd HW_CONTROL_WAIT_EN = bitsOf v.toNat 5 1
        ∧ t.rd HW_CONTROL_DRQ_EN = bitsOf v.toNat 4 1 ∧ t.rd HW_CONTROL_IE = bitsOf v.toNat 0 4
        ∧ s.keeps t [HW_CONTROL_SWAP, HW_CONTROL_WAIT_EN, HW_CONTROL_DRQ_EN, HW_CONTROL_IE]
        ∧ t = { s with regs := t.regs, hp := h })
      ∧ (v.getLsbD 7 = true → bitsOf v.toNat 8 8 ≠ 0xA5 → ∃ t, exec (.hpControlReset v) s = .next (settle t)
        ∧ s.hpErrs t 12 0 ∧ t = { s with regs := t.regs, evc := t.evc, hp := h })
      ∧ (v.getLsbD 7 = true → bitsOf v.toNat 8 8 = 0xA5 → s.flag SYS_RST_CFG_HP_SCOPE = false → s.boot.reset = none →
        ∃ t, exec (.hpControlReset v) s = .next (settle t) ∧ s.resetBy t .system ∧ t.rd SYS_RESET_CAUSE_HP_DEVICE = 1)
      ∧ (v.getLsbD 7 = true → bitsOf v.toNat 8 8 = 0xA5 → s.flag SYS_RST_CFG_HP_SCOPE = true →
        ∃ t, exec (.hpControlReset v) s = .next (settle t)
        ∧ t.hp = { resetting := true } ∧ t.rd SYS_RESET_CAUSE_HP_INTERFACE = 1 ∧ t.bit HP_EVENT_EV 0 = true
        ∧ (∀ a : Fin 16, t.reg (0x100000000 + 4 * a) = regReset (0x100000000 + 4 * a)
            ∨ (a.val = 13 ∧ s.tagState 31 ≠ 0 ∧ t.rd HW_SB_CMD_RESULT = 0xFF ∧ t.rd HW_SB_CMD_DONE = 1))
        ∧ (∀ g : Fin 32, t.tagState g ≠ 0 → t.hq.tags[g].usb = true)))

/-- R129, R130, R132, R135, R149 and R1078 (the Boot ROM), R136 to R140 (recovery), R127, R128, R153 and R1073 (OTP). -/
def Obligations.BootCommands : Prop :=
  ∀ (s : State),
    (s.boot.stage = .rom → s.boot.reset = none →
      let sel := s.rd SYS_STRAP_BOOT_SEL
      let hd (b : Bool) : List Byte := s.peekBytes (slotBase b) 256
      let good (b : Bool) : Prop := checkHeader (slotBase b) (hd b) = 7
        ∧ sha256 (s.peekBytes (slotBase b) 32 ++ s.peekBytes (slotBase b + 0x100) (fieldB (hd b) 8 4)) = sliceB (hd b) 0x20 32
        ∧ otpBit s.boot.shadow 544 = false ∧ countIdx 32 (fun i => otpBit s.boot.shadow (512 + i)) ≤ fieldB (hd b) 0x10 4
      (∀ f e : BitVec 8, f ≠ 0 → s.runs 1 = true → ∃ t, exec (.bootRomStart f e) s = .next (settle t)
        ∧ t.boot = { s.boot with stage := .stopped } ∧ t.rd HP_STATE_STATE = 4 ∧ t.rd HP_STATE_DETAIL = f.toNat
        ∧ t.rd HP_CFG_ENABLE = 1
        ∧ s.keeps t [HP_STATE_STATE, HP_STATE_DETAIL, HP_CFG_ENABLE, CLK_STATUS_WORD]
        ∧ t = { s with regs := t.regs, boot := t.boot, mem := t.mem, ecc := t.ecc,
                       pw := { s.pw with lostLock := t.pw.lostLock } })
      ∧ (∀ e : BitVec 8, sel = 2 → s.runs 1 = true → ∃ t, exec (.bootRomStart 0 e) s = .next (settle t)
        ∧ t.boot = { s.boot with stage := .debugHalt } ∧ t.rd SYS_BOOT_INFO_PATH = 3 ∧ t.rd HP_STATE_STATE = 1
        ∧ t.rd HP_CFG_ENABLE = 1 ∧ t.core[(0 : Fin 2)] = { s.core[(0 : Fin 2)] with wfi := true }
        ∧ (∀ a, 0x20000000 ≤ a → a < 0x20080000 → t.byteAt a = 0)
        ∧ (∀ a, 0x300E8000 ≤ a → a < 0x300EC000 → t.byteAt a = 0)
        ∧ s.keeps t [HP_STATE_STATE, HP_STATE_DETAIL, HP_CFG_ENABLE, CLK_STATUS_WORD, SYS_BOOT_INFO_PATH]
        ∧ t = { s with regs := t.regs, boot := t.boot, mem := t.mem, ecc := t.ecc, core := t.core,
                       pw := { s.pw with lostLock := t.pw.lostLock } })
      ∧ (∀ e : BitVec 8, sel < 2 → s.ecc = [] → checkHeader (slotBase false) (hd false) ≠ 7 → checkHeader (slotBase true) (hd true) ≠ 7 →
        s.runs 1 = true → ∃ t, exec (.bootRomStart 0 e) s = .next (settle t)
        ∧ t.boot = { s.boot with stage := .recovery, owner := none, dfu := .idle, target := false }
        ∧ t.rd SYS_BOOT_INFO_PATH = 2 ∧ t.rd UART_CTRL_TX_EN = 1 ∧ t.rd UART_CTRL_RX_EN = 1
        ∧ (t.ring 2).en = true ∧ (t.ring 3).en = true ∧ (t.ring 2).consumer = 1 ∧ (t.ring 3).consumer = 4
        ∧ t.rd SYS_BOOT_INFO_SLOT_A = checkHeader (slotBase false) (hd false)
        ∧ t.rd SYS_BOOT_INFO_SLOT_B = checkHeader (slotBase true) (hd true)
        ∧ t.rd HP_STATE_STATE = 3 ∧ t.rd USB_CTRL_PULLUP = 1 ∧ t.rd USB_CTRL_FN_ATTACH = 1)
      ∧ (∀ e : BitVec 8, sel = 0 → s.ecc = [] → good false → checkHeader (slotBase true) (hd true) ≠ 7 →
        s.runs 1 = true → ∃ t, exec (.bootRomStart 0 e) s = .next (settle t)
        ∧ t.boot = { s.boot with stage := .firmware, owner := none } ∧ t.rd SYS_BOOT_INFO_SLOT_A = 0
        ∧ t.rd SYS_BOOT_INFO_SLOT_RUN = 0 ∧ t.rd SYS_CORE_RUN_B = 1
        ∧ t.core[(0 : Fin 2)] = { run := true, pc := BitVec.ofNat 32 (fieldB (hd false) 0x14 4) }
        ∧ t.core[(1 : Fin 2)] = { run := true, pc := BitVec.ofNat 32 (fieldB (hd false) 0x18 4) }))
    ∧ (s.boot.stage = .wakeRom → s.boot.reset = none → s.ecc = [] →
      checkHeader (slotBase false) (s.peekBytes (slotBase false) 256) ≠ 7 →
      checkHeader (slotBase true) (s.peekBytes (slotBase true) 256) ≠ 7 →
      s.runs 1 = true → ∃ t, exec (.bootRomWakePath) s = .next (settle t)
      ∧ t.boot = { s.boot with stage := .recovery, owner := none, dfu := .idle, target := false }
      ∧ t.rd SYS_BOOT_INFO_PATH = 2 ∧ t.rd HP_CFG_ENABLE = 1
      ∧ t.rd HP_STATE_STATE = 3)
    ∧ (∀ (tr : Transport) (seq : Byte), s.boot.stage = .recovery → (tr = .uart → otpBit s.boot.shadow 547 = false) →
      (s.boot.owner = none ∨ s.boot.owner = some tr) → s.ecc = [] →
      let b := s.boot.target
      let u := s.takeRequest tr
      let w (f : Fld) : List Byte := leBytes 4 (s.reg f.addr).toNat
      (let d := w SYS_ID_WORD ++ w SYS_REV_WORD ++ w SYS_BOOT_INFO_WORD ++ w SYS_STRAP_WORD
          ++ leBytes 1 (otpField s.boot.shadow 544 5) ++ leBytes 1 (b2n b);
        s.runs 1 = true → exec (.recoveryHello tr seq true []) s
          = .next (settle ({ u with boot := { u.boot with owner := some tr } }.says tr 1 seq.toNat 0 d)))
      ∧ (∀ p : List Byte, 5 ≤ p.length → p.length ≤ 1024 →
        let off := fieldB p 0 4
        (off + (p.length - 4) ≤ 393216 → (∀ i : Fin 16, s.rd (PROT_CTRL_EN i) = 0) →
          ∃ v : State, s.runs 1 = true → exec (.recoveryWrite tr seq true p) s = .next (settle (v.says tr 2 seq.toNat 0 []))
          ∧ v.peekBytes (slotBase b + off) (p.length - 4) = p.drop 4
          ∧ u.memOutside v (slotBase b + off) (slotBase b + off + (p.length - 4))
          ∧ u.keeps v [MRAM_STATUS_WRITES, INT_INJECT_ARM]
          ∧ v = { u with regs := v.regs, mem := v.mem, ecc := v.ecc, core := v.core, mram := v.mram })
        ∧ (393216 < off + (p.length - 4) →
          s.runs 1 = true → exec (.recoveryWrite tr seq true p) s = .next (settle (u.says tr 2 seq.toNat 3 []))))
      ∧ (let c := (s.slotResult b).1;
        s.runs 1 = true → exec (.recoveryVerify 3 tr seq true []) s
          = .next (settle (u.says tr 3 seq.toNat (if c = 0 then 0 else 4) (leBytes 1 c))))
      ∧ (∀ (type : Byte) (p : List Byte), type.toNat < 128 → (type = 0 ∨ 5 < type.toNat) →
        s.runs 1 = true → exec (.recoveryVerify type tr seq true p) s = .next (settle (u.says tr type.toNat seq.toNat 2 [])))
      ∧ (checkHeader (slotBase false) (s.peekBytes (slotBase false) 256) ≠ 7 →
        checkHeader (slotBase true) (s.peekBytes (slotBase true) 256) ≠ 7 →
        s.runs 1 = true → ∃ t, exec (.recoveryBoot tr seq true []) s = .next (settle t)
        ∧ t.boot.stage = .recovery ∧ t.boot.owner = none ∧ t.boot.reply = recoveryBytes 4 seq.toNat 0 []
        ∧ t.boot.dfu = .idle ∧ t.rd SYS_BOOT_INFO_PATH = 2)
      ∧ (∀ (first : BitVec 16) (n : BitVec 8), n ≠ 0 → n.toNat ≤ 31 →
        let d := (List.range n.toNat).flatMap (fun i => s.peekBytes (almSlotAddr ((first.toNat + i) % 4096)) 32);
        s.runs 1 = true → exec (.recoveryAlmanac tr seq true (leBytes 2 first.toNat ++ [n])) s
          = .next (settle (u.says tr 5 seq.toNat 0 d))))
    ∧ (∀ (tr : Transport) (seq : Byte) (p : List Byte), s.boot.stage = .recovery →
      let u := s.takeRequest tr
      (∀ o, s.boot.owner = some o → o ≠ tr → (tr = .uart → otpBit s.boot.shadow 547 = false) →
        s.runs 1 = true → exec (.recoveryWrite tr seq true p) s = .next (settle (u.says tr 2 seq.toNat 6 [])))
      ∧ (tr = .uart → otpBit s.boot.shadow 547 = true →
        s.runs 1 = true → exec (.recoveryWrite tr seq true p) s = .next (settle (u.says tr 2 seq.toNat 5 [])))
      ∧ (tr ≠ .uart → s.runs 1 = true → exec (.recoveryVerify 3 tr seq false p) s = .next (settle (u.says tr 3 seq.toNat 1 [])))
      ∧ (tr = .uart → s.runs 1 = true → exec (.recoveryVerify 3 tr seq false p) s = .next (settle (u.says tr 127 0 1 []))))
    ∧ (∀ (type seq status : Nat) (d : List Byte), let m := recoveryBytes type seq status d
      ((s.says .uart type seq status d).io.uartTx ++ (s.says .uart type seq status d).io.uartWait
        = s.io.uartTx ++ s.io.uartWait
          ++ ([0x7E] ++ m.flatMap (fun b => if b = 0x7E ∨ b = 0x7D then [0x7D, b ^^^ 0x20] else [b]) ++ [0x7E]))
      ∧ (s.says .uart type seq status d).boot = { s.boot with reply := m }
      ∧ (m.length ≤ 30 → (s.ring 3).bytes = 32 → s.enqTest 3 = .ok → s.memDue = 0 → s.ecc = [] →
        s.flag INT_INJECT_ARM = false → s.gave (s.says .hostPort type seq status d) 3 (leBytes 1 m.length ++ leBytes 1 1 ++ m)))
    ∧ (s.fnLive = true → s.boot.stage = .recovery → s.dfuOwn = true → s.ecc = [] →
      let b := s.boot.target
      (∀ (k : BitVec 16) (d : List Byte), d.length ≤ 1024 → d ≠ [] → k.toNat * 1024 + d.length ≤ 393216 →
        (∀ i : Fin 16, s.rd (PROT_CTRL_EN i) = 0) → s.runs 1 = true → ∃ t, exec (.dfuDnload k d) s = .next (settle t)
        ∧ t.answers .ack [] ∧ t.boot = { s.boot with dfu := .dnload }
        ∧ t.peekBytes (slotBase b + k.toNat * 1024) d.length = d
        ∧ s.memOutside t (slotBase b + k.toNat * 1024) (slotBase b + k.toNat * 1024 + d.length)
        ∧ s.keeps t [MRAM_STATUS_WRITES, INT_INJECT_ARM]
        ∧ t = { s with regs := t.regs, mem := t.mem, ecc := t.ecc, core := t.core, mram := t.mram, boot := t.boot, bus := t.bus,
                       usb := { s.usb with answer := .ack } })
      ∧ ((s.slotResult b).1 ≠ 0 → s.runs 1 = true → ∃ t, exec (.dfuManifest) s = .next (settle t)
        ∧ t.answers .ack [] ∧ t = { s with boot := { s.boot with dfu := .errVerify }, bus := t.bus,
                                           usb := { s.usb with answer := .ack } })
      ∧ (∀ k : BitVec 16, exec (.dfuDnload k []) s = exec .dfuManifest s)
      ∧ (∀ (k : BitVec 16) (d : List Byte), 1024 < d.length → s.runs 1 = true → ∃ t, exec (.dfuDnload k d) s = .next (settle t)
        ∧ t.answers .stall [] ∧ t = { s with bus := t.bus, usb := { s.usb with answer := .stall } })
      ∧ (s.runs 1 = true → ∃ t, exec (.dfuUpload) s = .next (settle t)
        ∧ t.answers .stall [] ∧ t = { s with bus := t.bus, usb := { s.usb with answer := .stall } }))
    ∧ (∀ v : Word, let i := getF v 0 12
      (getF v 16 16 ≠ 0x6B1D → exec (.otpProgram v) s = .next (settle s))
      ∧ (getF v 16 16 = 0x6B1D → s.flag OTP_STATUS_BUSY = false → s.pw.vddAnaGood = true →
        (s.otpLocked = false ∨ (512 ≤ i ∧ i < 544) ∨ 576 ≤ i) → ∃ t, exec (.otpProgram v) s = .next (settle t)
        ∧ t.rd OTP_STATUS_BUSY = 1 ∧ s.keeps t [OTP_STATUS_BUSY]
        ∧ t = { s with regs := t.regs, boot := { s.boot with otpBit := some i } })
      ∧ (getF v 16 16 = 0x6B1D → (s.flag OTP_STATUS_BUSY = true ∨ s.pw.vddAnaGood = false ∨ (s.otpLocked = true ∧ i < 512)) →
        ∃ t, exec (.otpProgram v) s = .next (settle t)
        ∧ t.rd OTP_STATUS_REFUSED = 1 ∧ s.keeps t [OTP_STATUS_REFUSED] ∧ t = { s with regs := t.regs }))
    ∧ (∀ i, s.boot.otpBit = some i → ∃ t, exec (.otpProgramDone) s = .next (settle t)
      ∧ t.rd OTP_STATUS_BUSY = 0 ∧ t.rd OTP_STATUS_DONE = 1 ∧ t.boot.otpBit = none ∧ otpBit t.boot.fuses i = true
      ∧ (544 ≤ i → i ≤ 548 → otpBit t.boot.fuses (i + 3024) = true ∧ otpBit t.boot.fuses (i + 3032) = true)
      ∧ (∀ j : Nat, j ≠ i → j ≠ i + 3024 → j ≠ i + 3032 → otpBit t.boot.fuses j = otpBit s.boot.fuses j)
      ∧ s.keeps t [OTP_STATUS_BUSY, OTP_STATUS_DONE]
      ∧ t = { s with regs := t.regs, boot := { s.boot with fuses := t.boot.fuses, otpBit := none,
                                                           partFuses := s.boot.partFuses.erase i } })

/-! ### Control cores, timers and debug (chapter 14) -/

/-- R638 and R640 (MTIME), R641 and R642 (timers), R643 to R647 (watchdogs), R653 to R655 (the Console UART), R656 and
R657 (GPIO), R658 and R1071 (the logic-die temperature). -/
def Obligations.TimersAndPins : Prop :=
  ∀ (s : State),
    (s.on 0 = true → s.io.timerDue = 0 → (s.io.mtime + 1) % 2 ^ 64 % 1000 ≠ 0 → ∃ t, exec (.mtimeTick) s = .next (settle t)
      ∧ t.io.mtime = (s.io.mtime + 1) % 2 ^ 64
      ∧ (∀ n : Fin 4, s.flag (TIMER_CTRL_EN n) = true →
          t.rd (TIMER_COUNT_COUNT n) = s.rd (TIMER_COUNT_COUNT n) - 1
          ∧ t.io.timerDue.getLsbD n = decide (s.rd (TIMER_COUNT_COUNT n) = 1))
      ∧ (∀ n : Fin 4, s.flag (TIMER_CTRL_EN n) = false → t.rd (TIMER_COUNT_COUNT n) = s.rd (TIMER_COUNT_COUNT n))
      ∧ s.keeps t (List.ofFn (fun n : Fin 4 => TIMER_COUNT_COUNT n))
      ∧ t = { s with regs := t.regs, io := { s.io with mtime := t.io.mtime, timerDue := t.io.timerDue } })
    ∧ (∀ c : Fin 2, s.on 0 = true → s.io.timerDue = 0 → (s.io.mtime + 1) % 2 ^ 64 % 1000 = 0 → s.flag (WDT_CTRL_ARM c) = true →
      s.rd (WDT_STATUS_COUNT c) ≠ 0 → s.rd (WDT_CTRL_ARM (1 - c)) = 0 →
      (s.on 1 = true → s.flag (WDT_CTRL_PAUSE_WFI c) = false ∨ s.irqPending c = true →
        s.flag (WDT_CTRL_PAUSE_DEBUG c) = false ∨ s.core[c].debug = false →
        ∃ t, exec (.mtimeTick) s = .next (settle t)
        ∧ t.rd (WDT_STATUS_COUNT c) = s.rd (WDT_STATUS_COUNT c) - 1 ∧ t.rd (WDT_STATUS_STAGE c) = s.rd (WDT_STATUS_STAGE c))
      ∧ (s.on 1 = false ∨ (s.flag (WDT_CTRL_PAUSE_WFI c) = true ∧ s.core[c].wfi = true ∧ s.irqPending c = false)
          ∨ (s.flag (WDT_CTRL_PAUSE_DEBUG c) = true ∧ s.core[c].debug = true) →
        ∃ t, exec (.mtimeTick) s = .next (settle t)
        ∧ t.rd (WDT_STATUS_COUNT c) = s.rd (WDT_STATUS_COUNT c) ∧ t.rd (WDT_STATUS_STAGE c) = s.rd (WDT_STATUS_STAGE c)))
    ∧ (∀ n : Fin 4, s.io.timerDue.getLsbD n = true → ∃ t, exec (.timerExpiry n) s = .next (settle t)
      ∧ t.evc = (pulse n s).evc ∧ t.io.timerDue.getLsbD n = false
      ∧ (∀ m : Fin 4, m ≠ n → t.io.timerDue.getLsbD m = s.io.timerDue.getLsbD m)
      ∧ (s.flag (TIMER_CTRL_PERIODIC n) = true → t.rd (TIMER_COUNT_COUNT n) = s.rd (TIMER_LOAD_LOAD n)
          ∧ s.keeps t [TIMER_COUNT_COUNT n])
      ∧ (s.flag (TIMER_CTRL_PERIODIC n) = false → t.rd (TIMER_CTRL_EN n) = 0 ∧ s.keeps t [TIMER_CTRL_EN n])
      ∧ t = { s with regs := t.regs, evc := t.evc, io := { s.io with timerDue := t.io.timerDue } })
    ∧ (∀ (n : Fin 4) (v : Word), s.regOn (TIMER_LOAD_WORD n).addr = true → ∃ t, exec (.timerLoadWrite n v) s = .next (settle t)
      ∧ t.rd (TIMER_LOAD_LOAD n) = v.toNat
      ∧ t.rd (TIMER_COUNT_COUNT n) = (if s.flag (TIMER_CTRL_EN n) then s.rd (TIMER_COUNT_COUNT n) else v.toNat)
      ∧ s.keeps t [TIMER_LOAD_LOAD n, TIMER_COUNT_COUNT n] ∧ t = { s with regs := t.regs })
    ∧ (∀ (n : Fin 4) (v : Word), s.regOn (TIMER_CTRL_WORD n).addr = true → ∃ t, exec (.timerCtrlWrite n v) s = .next (settle t)
      ∧ t.rd (TIMER_CTRL_EN n) = getF v 0 1 ∧ t.rd (TIMER_CTRL_PERIODIC n) = getF v 1 1
      ∧ t.rd (TIMER_COUNT_COUNT n) = (if v.getLsbD 0 ∧ s.rd (TIMER_COUNT_COUNT n) = 0 then s.rd (TIMER_LOAD_LOAD n)
          else s.rd (TIMER_COUNT_COUNT n))
      ∧ s.keeps t [TIMER_CTRL_EN n, TIMER_CTRL_PERIODIC n, TIMER_COUNT_COUNT n] ∧ t = { s with regs := t.regs })
    ∧ (s.regOn MTIME_LO_WORD.addr = true → ∃ t, exec (.mtimeCaptureRead) s = .next (settle t)
      ∧ t.bus = { data := clean (leBytes 4 (s.io.mtime % 2 ^ 32)) } ∧ t.rd MTIME_HI_TIME = s.io.mtime / 2 ^ 32 % 2 ^ 32
      ∧ s.keeps t [MTIME_HI_TIME] ∧ t = { s with regs := t.regs, bus := t.bus })
    ∧ (∀ c : Fin 2, s.flag (WDT_CTRL_ARM c) = true → s.rd (WDT_STATUS_COUNT c) = 0 →
      (s.rd (WDT_STATUS_STAGE c) = 0 → ∃ t, exec (.wdtStage1Expiry c) s = .next (settle t)
        ∧ t.evc = (pulse (125 + c) s).evc ∧ t.rd (WDT_STATUS_STAGE c) = 1
        ∧ t.rd (WDT_STATUS_COUNT c) = max 1 (s.rd (WDT_TIME_STAGE2 c))
        ∧ s.keeps t [WDT_STATUS_STAGE c, WDT_STATUS_COUNT c] ∧ t = { s with regs := t.regs, evc := t.evc })
      ∧ (s.rd (WDT_STATUS_STAGE c) = 1 → s.boot.reset = none → s.restartVec c ≠ 0 → (c = 1 → s.coreBRuns = true) →
        ∃ t, exec (.wdtStage2Expiry c) s = .next (settle t)
        ∧ t.rd (if c = 0 then SYS_RESET_CAUSE_WDT_A else SYS_RESET_CAUSE_WDT_B) = 1 ∧ t.rd (WDT_CTRL_ARM c) = 0
        ∧ t.core[c] = { run := true, pc := BitVec.ofNat 32 (s.restartVec c) } ∧ (∀ q : Fin 2, q ≠ c → t.core[q] = s.core[q])
        ∧ s.keeps t [WDT_STATUS_STAGE c, WDT_CTRL_ARM c, SYS_RESET_CAUSE_WDT_A, SYS_RESET_CAUSE_WDT_B]
        ∧ t = { s with regs := t.regs, core := t.core, dbg := { s.dbg with havereset := t.dbg.havereset } }))
    ∧ (∀ (c : Fin 2) (v : Word),
      (getF v 0 16 = 0x6D1A → s.regOn (WDT_KICK_WORD c).addr = true → ∃ t, exec (.wdtKick c v) s = .next (settle t)
        ∧ t.rd (WDT_STATUS_COUNT c) = max 1 (s.rd (WDT_TIME_STAGE1 c)) ∧ t.rd (WDT_STATUS_STAGE c) = 0
        ∧ s.keeps t [WDT_STATUS_STAGE c, WDT_STATUS_COUNT c] ∧ t = { s with regs := t.regs })
      ∧ (getF v 0 16 ≠ 0x6D1A → s.regOn (WDT_KICK_WORD c).addr = true → ∃ t, exec (.wdtKick c v) s = .next (settle t)
        ∧ t.rd (WDT_STATUS_BAD_KICKS c) = satInc (WDT_STATUS_BAD_KICKS c).w (s.rd (WDT_STATUS_BAD_KICKS c))
        ∧ s.keeps t [WDT_STATUS_BAD_KICKS c] ∧ t = { s with regs := t.regs })
      ∧ (s.flag (WDT_CTRL_ARM c) = true → s.regOn (WDT_CTRL_WORD c).addr = true → exec (.wdtArm c v) s = .next (settle s))
      ∧ (s.flag (WDT_CTRL_ARM c) = false → v.getLsbD 0 = true → s.regOn (WDT_CTRL_WORD c).addr = true → ∃ t, exec (.wdtArm c v) s = .next (settle t)
        ∧ t.rd (WDT_CTRL_ARM c) = 1 ∧ t.rd (WDT_CTRL_PAUSE_DEBUG c) = getF v 2 1 ∧ t.rd (WDT_CTRL_PAUSE_WFI c) = getF v 1 1
        ∧ t.rd (WDT_STATUS_COUNT c) = max 1 (s.rd (WDT_TIME_STAGE1 c)) ∧ t.rd (WDT_STATUS_STAGE c) = 0
        ∧ s.keeps t [WDT_CTRL_ARM c, WDT_CTRL_PAUSE_DEBUG c, WDT_CTRL_PAUSE_WFI c, WDT_STATUS_STAGE c, WDT_STATUS_COUNT c]
        ∧ t = { s with regs := t.regs }))
    ∧ (∀ b : Byte, s.runs 1 = true → s.flag UART_CTRL_RX_EN = true →
      (s.io.uartRx.length < 16 → ∀ stop : Bool, ∃ t, exec (.uartRxByte b stop) s = .next (settle t)
        ∧ t.io = { s.io with uartRx := s.io.uartRx ++ [b] }
        ∧ t.rd UART_STATUS_FRAMING = (if stop then s.rd UART_STATUS_FRAMING else 1)
        ∧ t.rd UART_STATUS_RX_LEVEL = s.io.uartRx.length + 1
        ∧ s.keeps t [UART_STATUS_FRAMING, UART_STATUS_RX_LEVEL, UART_STATUS_TX_LEVEL] ∧ t = { s with regs := t.regs, io := t.io })
      ∧ (16 ≤ s.io.uartRx.length → ∃ t, exec (.uartRxByte b true) s = .next (settle t)
        ∧ t.rd UART_STATUS_OVERRUN = 1 ∧ s.keeps t [UART_STATUS_OVERRUN] ∧ t = { s with regs := t.regs }))
    ∧ (∀ v : Word, s.io.uartTx.length < 16 → s.regOn UART_DATA_WORD.addr = true → ∃ t, exec (.uartTxWrite v) s = .next (settle t)
      ∧ t.io = { s.io with uartTx := s.io.uartTx ++ [v.setWidth 8] } ∧ t.rd UART_STATUS_TX_LEVEL = s.io.uartTx.length + 1
      ∧ s.keeps t [UART_STATUS_RX_LEVEL, UART_STATUS_TX_LEVEL] ∧ t = { s with regs := t.regs, io := t.io })
    ∧ (∀ b r, s.io.uartRx = b :: r → s.regOn UART_DATA_WORD.addr = true → ∃ t, exec (.uartRxRead) s = .next (settle t)
      ∧ t.bus = { data := clean (leBytes 4 b.toNat) } ∧ t.io = { s.io with uartRx := r }
      ∧ s.keeps t [UART_STATUS_RX_LEVEL, UART_STATUS_TX_LEVEL] ∧ t = { s with regs := t.regs, io := t.io, bus := t.bus })
    ∧ (s.io.uartRx = [] → s.regOn UART_DATA_WORD.addr = true → ∃ t, exec (.uartRxRead) s = .next (settle t)
      ∧ t.bus = { data := clean [0, 0, 0, 0] } ∧ t = { s with bus := t.bus })
    ∧ (∀ b r, s.io.uartTx = b :: r → s.runs 1 = true → s.flag UART_CTRL_TX_EN = true →
      ∃ t, exec (.uartTxByteSent) s = .next (settle t)
      ∧ t.io = { s.io with uartTx := r } ∧ s.keeps t [UART_STATUS_RX_LEVEL, UART_STATUS_TX_LEVEL]
      ∧ t = { s with regs := t.regs, io := t.io })
    ∧ (∀ (p : Fin 16) (level : Bool), s.on 1 = true → 4 ≤ p.val → ∃ t, exec (.gpioEdge p level) s = .next (settle t)
      ∧ t.io.gpioPins.getLsbD p = level ∧ (∀ q : Fin 16, q ≠ p → t.io.gpioPins.getLsbD q = s.io.gpioPins.getLsbD q)
      ∧ (∀ q : Fin 16, t.bit GPIO_STAT_STAT q = (s.bit GPIO_STAT_STAT q
          || (q == p && !s.bit GPIO_OE_OE p && s.io.gpioPins.getLsbD p != level
              && (if level then s.bit GPIO_EDGE_RISE_EN p else s.bit GPIO_EDGE_FALL_EN p))))
      ∧ s.keeps t [GPIO_STAT_STAT] ∧ t = { s with regs := t.regs, io := { s.io with gpioPins := t.io.gpioPins } })
    ∧ (∀ v : BitVec 8, ∃ t, exec (.logicTempUpdate v) s = .next (settle t)
      ∧ t.rd THERM_STATUS_TEMP = v.toNat ∧ t.io.tLogic = v.toInt
      ∧ t.pw.thermHold = (s.pw.thermHold && decide (100 ≤ v.toInt)) ∧ s.keeps t [THERM_STATUS_TEMP]
      ∧ t = { s with regs := t.regs, io := { s.io with tLogic := v.toInt }, pw := { s.pw with thermHold := t.pw.thermHold } })

/-- R621 to R623, R636 and R637 (a core's loads, stores and fetches), R625 to R627, R659 and R675 (its atomics), R650 to
R652 (System Bus Access), R12 to R15 and R634 (writes and reads of a register), R51 (a crossing that ends), R620 and R648
(the counters of a core and its triggers). -/
def Obligations.CoreAccesses : Prop :=
  ∀ (s : State),
    (s.pw.sleep = .idle → let w := s.leaveIdle
      (∀ c : Fin 2, s.coreLive c = true →
        (∀ k z a pc, exec (.coreAccess c k z a pc) s = exec (.coreAccess c k z a pc) w)
        ∧ (∀ op rd a v pc, exec (.coreAmo c op rd a v pc) s = exec (.coreAmo c op rd a v pc) w)
        ∧ (∀ rd a pc, exec (.coreLr c rd a pc) s = exec (.coreLr c rd a pc) w)
        ∧ (∀ rd a v pc late, exec (.coreSc c rd a v pc late) s = exec (.coreSc c rd a v pc late) w)
        ∧ (∀ k rd a pc, regionAt a.toNat = .uncachedWin → exec (.lcAliasAmo c k rd a pc) s = exec (.lcAliasAmo c k rd a pc) w))
      ∧ (∀ (b : Fin 4) (a v : Word), b ≠ 3 → s.mayIssue b.val = true →
        exec (.registerWrite b a v) s = exec (.registerWrite b a v) w)
      ∧ (∀ (b : Fin 3) (a : Word), s.mayIssue b.val = true → exec (.rcRegisterRead b a) s = exec (.rcRegisterRead b a) w)
      ∧ (∀ (x : Bool) (z : Fin 3) (a v : Word), s.debugOff = false → s.dbg.sberror = 0 → s.mayIssue 2 = true →
        a.toNat % 2 ^ z.val = 0 → (regionAt a.toNat = .page → z = 2) →
        exec (.systemBusAccess x z a v) s = exec (.systemBusAccess x z a v) w))
    ∧ (∀ c : Fin 2, s.coreLive c = false →
      (∀ k z a pc, exec (.coreAccess c k z a pc) s = .next (settle s))
      ∧ (∀ op rd a v pc, exec (.coreAmo c op rd a v pc) s = .next (settle s))
      ∧ (∀ rd a pc, exec (.coreLr c rd a pc) s = .next (settle s))
      ∧ (∀ rd a v pc late, exec (.coreSc c rd a v pc late) s = .next (settle s))
      ∧ (∀ k rd a pc, exec (.lcAliasAmo c k rd a pc) s = .next (settle s)))
    ∧ (∀ (b : Fin 4) (a v : Word), b ≠ 3 → s.mayIssue b.val = false → exec (.registerWrite b a v) s = .next (settle s))
    ∧ (∀ (b : Fin 3) (a : Word), s.mayIssue b.val = false → exec (.rcRegisterRead b a) s = .next (settle s))
    ∧ (∀ (x : Bool) (z : Fin 3) (a v : Word), s.mayIssue 2 = false → exec (.systemBusAccess x z a v) s = .next (settle s))
    ∧ (∀ c : Fin 2, s.pw.sleep ≠ .idle → s.coreLive c = true → (s.core[c]).debug = false →
      let w := s.coreCount c
      let k := w.core[c]
      (k = { s.core[c] with wfi := false, mcycle := k.mcycle, minstret := k.minstret }
        ∧ (∀ q : Fin 2, q ≠ c → w.core[q] = s.core[q]) ∧ w = { s with core := w.core, freeCtr := w.freeCtr })
      ∧ (∀ (x : CoreAccess) (z : Fin 3) (a pc : Word) (act : Nat), k.trigger (accessBit x) a.toNat (2 ^ z.val) = some act →
        ∃ t, exec (.coreAccess c x z a pc) s = .next (settle t)
        ∧ (act = 1 → t.core[c] = k.enterDebug 2 pc ∧ (∀ q : Fin 2, q ≠ c → t.core[q] = w.core[q]))
        ∧ (act ≠ 1 → w.trapped t c 3 a.toNat pc.toNat) ∧ t = { w with core := t.core })
      ∧ (∀ (rd : Fin 32) (sg : Bool) (z : Fin 3) (a pc : Word), k.trigger 0 a.toNat (2 ^ z.val) = none →
        a.toNat % 2 ^ z.val ≠ 0 →
        ∃ t, exec (.coreAccess c (.load rd sg) z a pc) s = .next (settle t)
        ∧ w.trapped t c 4 a.toNat pc.toNat ∧ t = { w with core := t.core })
      ∧ (∀ (v : Word) (z : Fin 3) (a pc : Word), k.trigger 1 a.toNat (2 ^ z.val) = none →
        a.toNat % 2 ^ z.val ≠ 0 →
        ∃ t, exec (.coreAccess c (.store v) z a pc) s = .next (settle t)
        ∧ w.trapped t c 6 a.toNat pc.toNat ∧ t = { w with core := t.core })
      ∧ (∀ (rd : Fin 32) (sg : Bool) (z : Fin 3) (a pc : Word), k.trigger 0 a.toNat (2 ^ z.val) = none →
        a.toNat % 2 ^ z.val = 0 → k.pmpOk 0 a.toNat (2 ^ z.val) = true →
        (regionAt a.toNat = .ringSram ∨ regionAt a.toNat = .mram ∨ regionAt a.toNat = .tcm) →
        (w.gate c.val false a.toNat false).1 = .pass →
        let d := State.readMem a.toNat (2 ^ z.val) (w.initAt a.toNat)
        (poisoned d.1 = false → ∃ t, exec (.coreAccess c (.load rd sg) z a pc) s = .next (settle t)
          ∧ (rd ≠ 0 → t.core[c].gpr[rd] = extend sg (2 ^ z.val) (leVal (bits d.1)))
          ∧ (∀ q : Fin 32, (q ≠ rd ∨ q = 0) → t.core[c].gpr[q] = k.gpr[q])
          ∧ t.core[c] = { k with gpr := t.core[c].gpr } ∧ (∀ q : Fin 2, q ≠ c → t.core[q] = w.core[q])
          ∧ t = { d.2 with core := t.core, bus := t.bus })
        ∧ (poisoned d.1 = true → ∃ t, exec (.coreAccess c (.load rd sg) z a pc) s = .next (settle t)
          ∧ w.trapped t c 5 a.toNat pc.toNat ∧ t = { d.2 with core := t.core }))
      ∧ (∀ (a pc : Word), k.trigger 2 a.toNat 4 = none → a.toNat % 4 = 0 → k.pmpOk 2 a.toNat 4 = true → regionAt a.toNat = .ownItcm →
        let d := State.readMem (a.toNat + 0x01000000 * (c.val + 1)) 4 w
        poisoned d.1 = false → ∃ t, exec (.coreAccess c .fetch 2 a pc) s = .next (settle t)
          ∧ t.bus = { data := d.1 } ∧ t = { d.2 with bus := t.bus })
      ∧ (∀ (v : Word) (z : Fin 3) (a pc : Word), k.trigger 1 a.toNat (2 ^ z.val) = none →
        a.toNat % 2 ^ z.val = 0 → k.pmpOk 1 a.toNat (2 ^ z.val) = true →
        (regionAt a.toNat = .ringSram ∨ regionAt a.toNat = .mram ∨ regionAt a.toNat = .tcm) →
        (w.gate c.val false a.toNat true).1 = .pass → w.memDue = 0 →
        ∃ t, exec (.coreAccess c (.store v) z a pc) s = .next (settle t)
        ∧ t.peekBytes a.toNat (2 ^ z.val) = leBytes (2 ^ z.val) v.toNat
        ∧ w.memOutside t a.toNat (a.toNat + 2 ^ z.val) ∧ t.core[c] = k
        ∧ (∀ q : Fin 2, q ≠ c → ((w.core[q]).resv = some (a.toNat / 64) → t.core[q].resv = none)
            ∧ t.core[q] = { w.core[q] with resv := t.core[q].resv })
        ∧ w.keeps t [INT_INJECT_ARM, MRAM_STATUS_WRITES] ∧ t = { w with regs := t.regs, mem := t.mem, ecc := t.ecc, core := t.core, mram := t.mram })
      ∧ (∀ (op : AmoOp) (rd : Fin 32) (a v pc : Word), k.trigger 0 a.toNat 4 = none → k.trigger 1 a.toNat 4 = none →
        a.toNat % 4 ≠ 0 →
        ∃ t, exec (.coreAmo c op rd a v pc) s = .next (settle t)
        ∧ w.trapped t c 6 a.toNat pc.toNat ∧ t = { w with core := t.core })
      ∧ (∀ (rd : Fin 32) (a v pc : Word), k.trigger 0 a.toNat 4 = none → k.trigger 1 a.toNat 4 = none →
        a.toNat % 4 = 0 → k.pmpOk 0 a.toNat 4 = true → k.pmpOk 1 a.toNat 4 = true →
        regionAt a.toNat = .ringSram → (w.gate c.val false a.toNat true).1 = .pass → (w.gate c.val false a.toNat false).1 = .pass →
        w.memDue = 0 →
        let d := State.readMem a.toNat 4 w
        let old := BitVec.ofNat 32 (leVal (bits d.1))
        poisoned d.1 = false →
        (∀ op : AmoOp, ∃ t, exec (.coreAmo c op rd a v pc) s = .next (settle t)
          ∧ t.peekBytes a.toNat 4 = leBytes 4 (amoApply op old v).toNat ∧ w.memOutside t a.toNat (a.toNat + 4)
          ∧ (rd ≠ 0 → t.core[c].gpr[rd] = old) ∧ (∀ q : Fin 32, (q ≠ rd ∨ q = 0) → t.core[c].gpr[q] = k.gpr[q])
          ∧ d.2.keeps t [INT_INJECT_ARM] ∧ t = { d.2 with regs := t.regs, mem := t.mem, ecc := t.ecc, core := t.core })
        ∧ (∃ t, exec (.coreLr c rd a pc) s = .next (settle t)
          ∧ t.core[c].resv = some (a.toNat / 64) ∧ (rd ≠ 0 → t.core[c].gpr[rd] = old) ∧ t = { d.2 with core := t.core })
        ∧ (k.resv = some (a.toNat / 64) → ∃ t, exec (.coreSc c rd a v pc false) s = .next (settle t)
          ∧ t.peekBytes a.toNat 4 = leBytes 4 v.toNat ∧ w.memOutside t a.toNat (a.toNat + 4)
          ∧ t.core[c].resv = none ∧ (rd ≠ 0 → t.core[c].gpr[rd] = 0)
          ∧ w.keeps t [INT_INJECT_ARM] ∧ t = { w with regs := t.regs, mem := t.mem, ecc := t.ecc, core := t.core })
        ∧ (∀ late : Bool, (k.resv ≠ some (a.toNat / 64) ∨ late = true) → ∃ t, exec (.coreSc c rd a v pc late) s = .next (settle t)
          ∧ t.core[c].resv = none ∧ (rd ≠ 0 → t.core[c].gpr[rd] = 1) ∧ t = { w with core := t.core }))
      ∧ (∀ (op : AmoOp) (rd : Fin 32) (a v pc : Word), k.trigger 0 a.toNat 4 = none → k.trigger 1 a.toNat 4 = none →
        a.toNat % 4 = 0 → k.pmpOk 0 a.toNat 4 = true → k.pmpOk 1 a.toNat 4 = true →
        regionAt a.toNat = .uncachedWin → (w.gate c.val false a.toNat true).1 = .pass →
        let d := State.atomicRead w c.val a.toNat
        let old := BitVec.ofNat 32 (leVal (bits d.1))
        poisoned d.1 = false → ∃ t, exec (.lcAliasAmo c (.amo op v) rd a pc) s = .next (settle t)
        ∧ (rd ≠ 0 → t.core[c].gpr[rd] = old)
        ∧ t = { d.2.atomicWrite c.val a.toNat (amoApply op old v) with core := t.core }))
    ∧ (∀ (z : Fin 3) (a v : Word), s.debugOff = false → s.dbg.sberror = 0 → s.mayIssue 2 = true → s.pw.sleep ≠ .idle →
      (a.toNat % 2 ^ z.val ≠ 0 → ∃ t, exec (.systemBusAccess true z a v) s = .next (settle t)
        ∧ t = { s with dbg := { s.dbg with sberror := 3 } })
      ∧ (a.toNat % 2 ^ z.val = 0 → regionAt a.toNat = .ringSram → (s.gate 2 false a.toNat true).1 = .pass → s.memDue = 0 →
        (∃ t, exec (.systemBusAccess true z a v) s = .next (settle t)
          ∧ t.peekBytes a.toNat (2 ^ z.val) = leBytes (2 ^ z.val) v.toNat ∧ s.memOutside t a.toNat (a.toNat + 2 ^ z.val)
          ∧ s.keeps t [INT_INJECT_ARM] ∧ t = { s with regs := t.regs, mem := t.mem, ecc := t.ecc, core := t.core })
        ∧ ((s.gate 2 false a.toNat false).1 = .pass → let d := State.readMem a.toNat (2 ^ z.val) s
          ∃ t, exec (.systemBusAccess false z a v) s = .next (settle t)
          ∧ t.dbg = { s.dbg with sbdata := BitVec.ofNat 32 (leVal (bits d.1)) } ∧ t = { d.2 with dbg := t.dbg, bus := t.bus }))
      ∧ (a.toNat % 2 ^ z.val = 0 → regionAt a.toNat ≠ .page → (s.gate 2 false a.toNat true).1 = .error →
        ∃ t, exec (.systemBusAccess true z a v) s = .next (settle t) ∧ t.dbg = { s.dbg with sberror := 2 }
        ∧ t = { s with regs := t.regs, dbg := t.dbg }))
    ∧ (∀ (b : Fin 4) (a v : Word), b ≠ 3 → s.mayIssue b.val = true → s.pw.sleep ≠ .idle →
      (s.gate b.val false a.toNat true).1 = .pass → regionAt a.toNat = .page →
      a.toNat % 4 = 0 → (a.toNat < 0x300E8000 ∨ 0x300EC000 ≤ a.toNat) → (a.toNat < 0x30084000 ∨ 0x30090000 ≤ a.toNat) →
      (s.regOn a.toNat = true → aonResident a.toNat = false →
        (regAt a.toNat = none → exec (.registerWrite b a v) s = .next (settle s))
        ∧ (∀ x, regAt a.toNat = some x → hooks.lookup x.1.addr = none → ∃ t, exec (.registerWrite b a v) s = .next (settle t)
          ∧ (∀ f ∈ x.1.fields, let o := getF (s.reg a.toNat) f.lo f.w
              let n := getF v f.lo f.w
              getF (t.reg a.toNat) f.lo f.w = (match f.acc with
                | .rw => if f.ok n then n else o
                | .rwl => if s.regLocked a.toNat || !f.ok n then o else n
                | .w1c => o &&& (2 ^ f.w - 1 - n)
                | .w1s => o ||| n
                | _ => o))
          ∧ (∀ a', a' ≠ a.toNat → t.reg a' = s.reg a') ∧ t = { s with regs := t.regs }))
      ∧ (s.regOn a.toNat = false → s.flag SYS_BUS_ERR_VALID = false → ∃ t, exec (.registerWrite b a v) s = .next (settle t)
        ∧ t.rd SYS_BUS_ERR_TYPE = 3 ∧ t.rd SYS_BUS_ERR_REQ_ID = b.val ∧ t.rd SYS_BUS_ERR_ADDR_ADDR = a.toNat
        ∧ t = { s with regs := t.regs }))
    ∧ (∀ (b : Fin 4) (a v : Word), b ≠ 3 → s.mayIssue b.val = true → s.pw.sleep ≠ .idle →
      (s.gate b.val false a.toNat true).1 = .pass → s.regOn a.toNat = true →
      regionAt a.toNat = .page → a.toNat % 4 = 0 → aonResident a.toNat = true → s.flag PWR_STATE_AON_BUSY = true →
      ∃ t, exec (.registerWrite b a v) s = .next (settle t)
      ∧ t = { s with pw := { s.pw with aonWait := s.pw.aonWait ++ [(b.val, a.toNat, v.toNat)] } })
    ∧ (s.hpServes = true → s.hpAwake = true → s.pw.sleep = .idle →
      ∀ a v : Word, exec (.registerWrite 3 a v) s = exec (.registerWrite 3 a v) (s.idleWake 0))
    ∧ (∀ v : Word, s.pw.sleep ≠ .idle → s.hpServes = true → s.hpAwake = true → s.hpWide = true →
      let h : HostPort := { s.hp with held := none }
      (∃ t, exec (.registerWrite 3 3 v) s = .next (settle t)
        ∧ t.rd HW_INDEX_SPACE = getF v 14 2 ∧ t.rd HW_INDEX_OFFSET = getF v 0 10
        ∧ s.keeps t [HW_INDEX_SPACE, HW_INDEX_OFFSET] ∧ t = { s with regs := t.regs, hp := h })
      ∧ (∃ t, exec (.registerWrite 3 11 v) s = .next (settle t)
        ∧ t.rd HW_SB_LBA_LO_LBA = getF v 0 16 ∧ s.keeps t [HW_SB_LBA_LO_LBA] ∧ t = { s with regs := t.regs, hp := h })
      ∧ (∃ t, exec (.registerWrite 3 0 v) s = .next (settle t)
        ∧ s.hpErrs t 5 0 ∧ s.keeps t hpErrFields ∧ t = { s with regs := t.regs, evc := t.evc, hp := h }))
    ∧ (∀ (b : Fin 3) (a : Word), s.mayIssue b.val = true → s.pw.sleep ≠ .idle → (s.gate b.val false a.toNat false).1 = .pass → regionAt a.toNat = .page →
      a.toNat % 4 = 0 → (a.toNat < 0x300E8000 ∨ 0x300EC000 ≤ a.toNat) → (a.toNat < 0x30084000 ∨ 0x30090000 ≤ a.toNat) →
      (s.regOn a.toNat = true → ∀ x, regAt a.toNat = some x → views.lookup x.1.addr = none →
        ∃ t, exec (.rcRegisterRead b a) s = .next (settle t)
        ∧ t.bus = { data := clean (leBytes 4 (s.reg a.toNat).toNat) }
        ∧ (∀ f ∈ x.1.fields, getF (t.reg a.toNat) f.lo f.w = if f.acc = .rc then f.reset % 2 ^ f.w else getF (s.reg a.toNat) f.lo f.w)
        ∧ (∀ a', a' ≠ a.toNat → t.reg a' = s.reg a') ∧ t = { s with regs := t.regs, bus := t.bus })
      ∧ (s.regOn a.toNat = false → ∃ t, exec (.rcRegisterRead b a) s = .next (settle t)
        ∧ t.bus = { data := clean [0, 0, 0, 0] } ∧ t = { s with regs := t.regs, bus := t.bus }))
    ∧ (s.pw.aonWait = [] → ∃ t, exec (.aonWriteCrossed) s = .next (settle t)
      ∧ t.rd PWR_STATE_AON_BUSY = 0 ∧ (∀ i : Fin 1024, (t.ring i) = { s.ring i with wakeCopy := (s.ring i).wakeEn })
      ∧ s.keeps t [PWR_STATE_AON_BUSY] ∧ t = { s with regs := t.regs, rings := t.rings })

/-! ### The Line Cache and memory integrity (chapters 15 and 16) -/

/-- R663 to R666, R668, R673, R678, R680, R685, R694 to R696, R702, R760, R761: reads, writes and fills of the Line
Cache. -/
def Obligations.LineCacheAccesses : Prop :=
  ∀ (s : State),
    (∀ (req : Fin 17) (instr hint : Bool) (a : Word) (n : Fin 65), inDram a.toNat = true →
      (∀ i, s.blockedBy req.val (req.val == 2 || req.val == 4) a.toNat = some i →
        s.runs 1 = true → ∃ t, exec (.lcRead req instr hint a n) s = .next (settle t)
        ∧ t.bus = { data := clean (zerosB (min n.val (64 - a.toNat % 64))), blocked := true }
        ∧ t.rd PROT_COUNT_COUNT = satInc PROT_COUNT_COUNT.w (s.rd PROT_COUNT_COUNT)
        ∧ t.flag PROT_STATUS_VALID = true
        ∧ (s.flag PROT_STATUS_VALID = true → s.keeps t [PROT_COUNT_COUNT])
        ∧ (s.flag PROT_STATUS_VALID = false → t.rd PROT_STATUS_REQ_ID = req.val ∧ t.rd PROT_STATUS_RANGE = i
          ∧ t.rd PROT_STATUS_WRITE = 0 ∧ t.rd PROT_STATUS_DEBUG = b2n (req.val == 2 || req.val == 4)
          ∧ t.rd PROT_ADDR_ADDR = a.toNat
          ∧ s.keeps t [PROT_COUNT_COUNT, PROT_STATUS_VALID, PROT_STATUS_WRITE, PROT_STATUS_REQ_ID, PROT_STATUS_DEBUG,
              PROT_STATUS_RANGE, PROT_ADDR_ADDR])
        ∧ t = { s with regs := t.regs, bus := t.bus })
      ∧ (s.blockedBy req.val (req.val == 2 || req.val == 4) a.toNat = none → s.ecc = [] →
        (s.lc.wcb.any (fun e => e.line == dramOff a.toNat / 64)) = false → s.flag INT_INJECT_ARM = false →
        (s.lcOn = false →
          s.runs 1 = true → ∃ t, exec (.lcRead req instr hint a n) s = .next (settle t)
          ∧ t = { s with
              lc := { s.lc with fills := s.lc.fills ++ [{
                line := dramOff a.toNat / 64, way := none, req := req.val, addr := a.toNat
                len := min n.val (64 - a.toNat % 64), late := [] }] } })
        ∧ (s.lcOn = true → regionAt a.toNat = .uncachedWin → s.findWay (dramOff a.toNat / 64) = none →
          s.runs 1 = true → ∃ t, exec (.lcRead req instr hint a n) s = .next (settle t)
          ∧ t = { s with
              lc := { s.lc with
                trackers := (s.trackMiss (fin8 (lcClass req.val instr)) (dramOff a.toNat / 64) true).2.lc.trackers
                fills := s.lc.fills ++ [{
                  line := dramOff a.toNat / 64, way := none, req := req.val, addr := a.toNat
                  len := min n.val (64 - a.toNat % 64), late := [] }] } })
        ∧ (∀ i, s.findWay (dramOff a.toNat / 64) = some i → s.lcOn = true → regionAt a.toNat = .uncachedWin →
          (s.way i).pend = false → s.runs 1 = true → ∃ t, exec (.lcRead req instr hint a n) s = .next (settle t)
          ∧ t = { s with bus := { data := ((s.way i).data.drop (a.toNat % 64)).take (min n.val (64 - a.toNat % 64)) } })
        ∧ (∀ i, s.findWay (dramOff a.toNat / 64) = some i → s.lcOn = true → regionAt a.toNat = .dram →
          s.rd LC_CTRL_AGE_PERIOD = 0 → s.lc.outcomes < 255 → (s.way i).pend = false →
          s.runs 1 = true → ∃ t, exec (.lcRead req instr hint a n) s = .next (settle t)
          ∧ t.bus = { data := ((s.way i).data.drop (a.toNat % 64)).take (min n.val (64 - a.toNat % 64)) }
          ∧ t.rd LC_COUNT_HIT_COUNT = satInc LC_COUNT_HIT_COUNT.w (s.rd LC_COUNT_HIT_COUNT)
          ∧ t.way i = { s.way i with nru := (s.way i).nru || !hint, strm := false }
          ∧ t.lc.regret = s.lc.regret + b2n (s.way i).strm ∧ t.lc.outcomes = s.lc.outcomes + b2n (s.way i).strm
          ∧ (∀ j, j ≠ i → t.way j = s.way j) ∧ s.keeps t [LC_COUNT_HIT_COUNT]
          ∧ t = { s with
              regs := t.regs, bus := t.bus
              lc := { s.lc with lines := t.lc.lines, regret := t.lc.regret, outcomes := t.lc.outcomes } })
        ∧ (∀ i k f, s.findWay (dramOff a.toNat / 64) = some i → (s.way i).pend = true → s.lcOn = true →
          regionAt a.toNat = .dram → s.rd LC_CTRL_AGE_PERIOD = 0 → s.lc.outcomes < 255 →
          s.fillOf i (dramOff a.toNat / 64) = some k → s.lc.fills[k]? = some f →
          s.runs 1 = true → ∃ t, exec (.lcRead req instr hint a n) s = .next (settle t)
          ∧ ((t.rd LC_COUNT_MISS_COUNT = satInc LC_COUNT_MISS_COUNT.w (s.rd LC_COUNT_MISS_COUNT)
              ∧ s.keeps t [LC_COUNT_MISS_COUNT] ∧ t.lc.trackers = (s.trackMiss (fin8 (lcClass req.val instr)) (dramOff a.toNat / 64) false).2.lc.trackers)
            ∨ (t.rd LC_COUNT_HIT_COUNT = satInc LC_COUNT_HIT_COUNT.w (s.rd LC_COUNT_HIT_COUNT)
              ∧ s.keeps t [LC_COUNT_HIT_COUNT] ∧ t.lc.trackers = s.lc.trackers))
          ∧ t.way i = { s.way i with nru := (s.way i).nru || !hint, strm := false }
          ∧ (∀ j, j ≠ i → t.way j = s.way j)
          ∧ t.lc.fills = s.lc.fills.set k { f with
              more := f.more ++ [(req.val, a.toNat, min n.val (64 - a.toNat % 64))] }
          ∧ t.lc.regret = s.lc.regret + b2n (s.way i).strm ∧ t.lc.outcomes = s.lc.outcomes + b2n (s.way i).strm
          ∧ t = { s with
              regs := t.regs, freeCtr := t.freeCtr
              lc := { s.lc with lines := t.lc.lines, trackers := t.lc.trackers, fills := t.lc.fills,
                                regret := t.lc.regret, outcomes := t.lc.outcomes } })
        ∧ (s.findWay (dramOff a.toNat / 64) = none → s.lcOn = true →
          regionAt a.toNat = .dram → s.rd LC_CTRL_AGE_PERIOD = 0 → s.lc.outcomes < 255 →
          (∀ v, lowestIdx 16 (fun w => s.candidate (lineSet (dramOff a.toNat / 64)) (lcClass req.val instr) w
              && !(s.way (wayIdx (lineSet (dramOff a.toNat / 64)) w)).valid) = some v →
            s.runs 1 = true → ∃ t, exec (.lcRead req instr hint a n) s = .next (settle t)
            ∧ t.rd LC_COUNT_MISS_COUNT = satInc LC_COUNT_MISS_COUNT.w (s.rd LC_COUNT_MISS_COUNT)
            ∧ t.lc.trackers = (s.trackMiss (fin8 (lcClass req.val instr)) (dramOff a.toNat / 64) false).2.lc.trackers
            ∧ t.lc.fills = s.lc.fills ++ [{
                line := dramOff a.toNat / 64, way := some (wayIdx (lineSet (dramOff a.toNat / 64)) v)
                req := req.val, addr := a.toNat, len := min n.val (64 - a.toNat % 64), late := [] }]
            ∧ t.way (wayIdx (lineSet (dramOff a.toNat / 64)) v) = {
                valid := true, tag := lineTag (dramOff a.toNat / 64), pend := true
                nru := !(hint || (s.trackMiss (fin8 (lcClass req.val instr)) (dramOff a.toNat / 64) false).1)
                strm := (s.trackMiss (fin8 (lcClass req.val instr)) (dramOff a.toNat / 64) false).1 && !hint
                lock := (s.way (wayIdx (lineSet (dramOff a.toNat / 64)) v)).lock }
            ∧ (∀ j, j ≠ wayIdx (lineSet (dramOff a.toNat / 64)) v → t.way j = s.way j)
            ∧ s.keeps t [LC_COUNT_MISS_COUNT]
            ∧ t = { s with
                regs := t.regs
                lc := { s.lc with lines := t.lc.lines, fills := t.lc.fills, trackers := t.lc.trackers } })
          ∧ ((∀ w : Fin 16, s.candidate (lineSet (dramOff a.toNat / 64)) (lcClass req.val instr) w.val = true →
                (s.way (wayIdx (lineSet (dramOff a.toNat / 64)) w)).valid = true) →
            ∀ v, lowestIdx 16 (fun w => s.candidate (lineSet (dramOff a.toNat / 64)) (lcClass req.val instr) w
              && !(s.way (wayIdx (lineSet (dramOff a.toNat / 64)) w)).nru) = some v →
            s.runs 1 = true → ∃ t, exec (.lcRead req instr hint a n) s = .next (settle t)
            ∧ t.rd LC_COUNT_MISS_COUNT = satInc LC_COUNT_MISS_COUNT.w (s.rd LC_COUNT_MISS_COUNT)
            ∧ t.way (wayIdx (lineSet (dramOff a.toNat / 64)) v) = {
                valid := true, tag := lineTag (dramOff a.toNat / 64), pend := true
                nru := !(hint || (s.trackMiss (fin8 (lcClass req.val instr)) (dramOff a.toNat / 64) false).1)
                strm := (s.trackMiss (fin8 (lcClass req.val instr)) (dramOff a.toNat / 64) false).1 && !hint
                lock := (s.way (wayIdx (lineSet (dramOff a.toNat / 64)) v)).lock }
            ∧ (∀ j, j ≠ wayIdx (lineSet (dramOff a.toNat / 64)) v → t.way j = s.way j)
            ∧ t.lc.outcomes = s.lc.outcomes + b2n (s.way (wayIdx (lineSet (dramOff a.toNat / 64)) v)).strm
            ∧ s.keeps t [LC_COUNT_MISS_COUNT]
            ∧ t = { s with
                regs := t.regs
                lc := { s.lc with lines := t.lc.lines, fills := t.lc.fills, trackers := t.lc.trackers,
                                  outcomes := t.lc.outcomes } })
          ∧ (∀ v, lowestIdx 16 (fun w => s.candidate (lineSet (dramOff a.toNat / 64)) (lcClass req.val instr) w) = some v →
            (∀ w : Fin 16, s.candidate (lineSet (dramOff a.toNat / 64)) (lcClass req.val instr) w.val = true →
              (s.way (wayIdx (lineSet (dramOff a.toNat / 64)) w)).valid = true ∧ (s.way (wayIdx (lineSet (dramOff a.toNat / 64)) w)).nru = true) →
            s.runs 1 = true → ∃ t, exec (.lcRead req instr hint a n) s = .next (settle t)
            ∧ (t.way (wayIdx (lineSet (dramOff a.toNat / 64)) v)).tag = lineTag (dramOff a.toNat / 64)
            ∧ (t.way (wayIdx (lineSet (dramOff a.toNat / 64)) v)).valid = true ∧ (t.way (wayIdx (lineSet (dramOff a.toNat / 64)) v)).pend = true
            ∧ (∀ w : Fin 16, w.val ≠ v → t.way (wayIdx (lineSet (dramOff a.toNat / 64)) w) =
                (if s.candidate (lineSet (dramOff a.toNat / 64)) (lcClass req.val instr) w.val = true
                 then { s.way (wayIdx (lineSet (dramOff a.toNat / 64)) w) with nru := false } else s.way (wayIdx (lineSet (dramOff a.toNat / 64)) w))))
          ∧ ((∀ w : Fin 16, s.candidate (lineSet (dramOff a.toNat / 64)) (lcClass req.val instr) w.val = false) →
            s.runs 1 = true → ∃ t, exec (.lcRead req instr hint a n) s = .next (settle t)
            ∧ t.rd LC_COUNT_MISS_COUNT = satInc LC_COUNT_MISS_COUNT.w (s.rd LC_COUNT_MISS_COUNT)
            ∧ t.rd LC_COUNT_BYPASS_COUNT = satInc LC_COUNT_BYPASS_COUNT.w (s.rd LC_COUNT_BYPASS_COUNT)
            ∧ s.keeps t [LC_COUNT_MISS_COUNT, LC_COUNT_BYPASS_COUNT]
            ∧ t = { s with
                regs := t.regs
                lc := { s.lc with
                  trackers := (s.trackMiss (fin8 (lcClass req.val instr)) (dramOff a.toNat / 64) false).2.lc.trackers,
                  fills := s.lc.fills ++ [{
                    line := dramOff a.toNat / 64, way := none, req := req.val, addr := a.toNat
                    len := min n.val (64 - a.toNat % 64), late := [] }] } }))))
    ∧ (∀ c : Fin 8, ∀ l, ∀ unc : Bool, 0 < l →
      (s.bit LC_STREAM_CFG_CLASS_EN c = false → s.trackMiss c l unc = (false, s))
      ∧ (s.bit LC_STREAM_CFG_CLASS_EN c = true →
        (s.trackMiss c l unc).2.lc.trackers[c].last = some l
        ∧ (s.trackMiss c l unc).2.lc.trackers[c].run
          = (if unc = false ∧ s.lc.trackers[c].last = some (l - 1) then min 63 (s.lc.trackers[c].run + 1) else 1)
        ∧ (s.trackMiss c l unc).1
          = decide (s.rd LC_STREAM_STATUS_EFF_K ≤ (s.trackMiss c l unc).2.lc.trackers[c].run)))
    ∧ (∀ (req : Fin 17) (hint : Bool) (a : Word) (d : List Byte), inDram a.toNat = true → d ≠ [] →
      a.toNat % 64 + d.length ≤ 64 → s.ecc = [] →
      gateAll req.val false true (granules a.toNat d.length) s = (.pass, s) →
      (regionAt a.toNat = .dram → s.rd LC_CTRL_AGE_PERIOD = 0) → s.lc.outcomes < 255 →
      s.flag INT_INJECT_ARM = false →
      s.runs 1 = true → ∃ t, exec (.lcWrite req hint a d) s = .next (settle t)
      ∧ t.bus = {}
      ∧ (∀ i, s.lcOn = true → s.findWay (dramOff a.toNat / 64) = some i → (s.way i).pend = true →
        (t.way i).data = (s.way i).data ∧ (t.way i).pend = true ∧ (∀ j, j ≠ i → t.way j = s.way j))
      ∧ (∀ i, s.lcOn = true → s.findWay (dramOff a.toNat / 64) = some i → (s.way i).pend = false →
        (t.way i).data = overlay (s.way i).data (atOffset (a.toNat % 64) (clean d)) ∧ (t.way i).valid = true
        ∧ (t.way i).tag = (s.way i).tag ∧ (t.way i).lock = (s.way i).lock ∧ (∀ j, j ≠ i → t.way j = s.way j))
      ∧ ((s.lcOn = false ∨ s.findWay (dramOff a.toNat / 64) = none) → t.lc.lines = s.lc.lines)
      ∧ (s.openEntry (dramOff a.toNat / 64) = none → s.lc.wcb.length < 16 →
        t.lc.wcb = s.lc.wcb ++ [{
          line := dramOff a.toNat / 64, bytes := atOffset (a.toNat % 64) (clean d), req := req.val,
          draining := decide (d.length = 64), sent := false }]
        ∧ t = { s with lc := { s.lc with lines := t.lc.lines, fills := t.lc.fills, wcb := t.lc.wcb, regret := t.lc.regret,
                                         outcomes := t.lc.outcomes }, core := t.core, bus := t.bus })
      ∧ (∀ k, s.openEntry (dramOff a.toNat / 64) = some k → t.lc.wcb.length = s.lc.wcb.length
        ∧ (∀ j, j ≠ k → t.lc.wcb[j]? = s.lc.wcb[j]?)
        ∧ (t.lc.wcb[k]?).map Wcb.bytes = (s.lc.wcb[k]?).map
            (fun e => List.zipWith (fun o n => n.or o) e.bytes (atOffset (a.toNat % 64) (clean d)))
        ∧ t = { s with lc := { s.lc with lines := t.lc.lines, fills := t.lc.fills, wcb := t.lc.wcb, regret := t.lc.regret,
                                         outcomes := t.lc.outcomes }, core := t.core, bus := t.bus })
      ∧ (∀ (k : Nat) (f : FillReq), s.lc.fills[k]? = some f → f.line ≠ dramOff a.toNat / 64 → t.lc.fills[k]? = some f)
      ∧ (∀ (k : Nat) (f : FillReq), s.lc.fills[k]? = some f → f.line = dramOff a.toNat / 64 →
        (t.lc.fills[k]?).map FillReq.late = some (f.late ++ (List.range d.length).filterMap
          (fun b => (d[b]?).map (fun p => (a.toNat % 64 + b, (p, false))))))
      ∧ (∀ q : Fin 2, t.core[q] = (if s.core[q].resv = some (resvBlock a.toNat) ∧ q.val ≠ req.val then
          { s.core[q] with resv := none } else s.core[q]))
      ∧ (16 ≤ s.lc.wcb.length → s.openEntry (dramOff a.toNat / 64) = none → t.lc.wcb.length = s.lc.wcb.length))
    ∧ (∀ (k : Nat) (f : FillReq), s.lc.fills[k]? = some f → f.got = none → s.flag BC_STATUS_INIT_DONE = true →
      s.rekeying (f.line / 64) = false → s.major (f.line / 64) = 0 → s.flag INT_INJECT_ARM = false → s.ecc = [] →
      s.runs 1 = true → s.runs 11 = true → ∃ t, exec (.lcFillDone k) s = .next (settle t)
      ∧ t.bus = {
          data := ((f.late.foldl (fun d e => d.set e.1 e.2) (clean (zerosB 64))).drop (f.addr % 64)).take f.len
          joined := f.more.map (fun r =>
            (r.1, ((f.late.foldl (fun d e => d.set e.1 e.2) (clean (zerosB 64))).drop (r.2.1 % 64)).take r.2.2)) }
      ∧ t.lc.fills = s.lc.fills.eraseIdx k
      ∧ (∀ i, f.way = some i → (s.way i).valid = true → (s.way i).pend = true → (s.way i).tag = lineTag f.line →
        t.way i = { s.way i with
          pend := false, data := f.late.foldl (fun d e => d.set e.1 e.2) (clean (zerosB 64)) }
        ∧ (∀ j, j ≠ i → t.way j = s.way j))
      ∧ ((∀ i, f.way = some i → (s.way i).valid = false ∨ (s.way i).pend = false ∨ (s.way i).tag ≠ lineTag f.line) →
        t.lc.lines = s.lc.lines)
      ∧ t = { s with lc := { s.lc with fills := t.lc.fills, lines := t.lc.lines }, bus := t.bus })
    ∧ (∀ (k : Nat) (f : FillReq) (d : List PByte), s.lc.fills[k]? = some f → f.got = some d →
      s.runs 1 = true → s.runs 11 = true → ∃ t, exec (.lcFillDone k) s = .next (settle t)
      ∧ t = { s with lc := { s.lc with fills := s.lc.fills.eraseIdx k }, bus := {
          data := (d.drop (f.addr % 64)).take f.len
          joined := f.more.map (fun r => (r.1, (d.drop (r.2.1 % 64)).take r.2.2)) } })
    ∧ (∀ (k : Nat) (f : FillReq), s.lc.fills[k]? = some f → f.got = none → s.flag BC_STATUS_INIT_DONE = true →
      s.rekeying (f.line / 64) = false → s.major (f.line / 64) ≠ 0 → (s.checkLine f.line).2 ≠ 0 →
      s.runs 1 = true → s.runs 11 = true → ∃ t, exec (.lcFillDone k) s = .next (settle t)
      ∧ t.lc = { s.lc with fills := s.lc.fills.eraseIdx k, lines := t.lc.lines } ∧ t.mem = s.mem
      ∧ (∀ i, f.way = some i → (s.way i).valid = true → (s.way i).pend = true → (s.way i).tag = lineTag f.line →
        t.way i = { lock := (s.way i).lock } ∧ (∀ j, j ≠ i → t.way j = s.way j))
      ∧ ((∀ i, f.way = some i → (s.way i).valid = false ∨ (s.way i).pend = false ∨ (s.way i).tag ≠ lineTag f.line) →
        t.lc.lines = s.lc.lines)
      ∧ t.bus = {
          data := ((f.late.foldl (fun d e => d.set e.1 e.2) ((s.checkLine f.line).1.map (fun b => (b, true)))).drop
            (f.addr % 64)).take f.len
          joined := f.more.map (fun r => (r.1, ((f.late.foldl (fun d e => d.set e.1 e.2)
            ((s.checkLine f.line).1.map (fun b => (b, true)))).drop (r.2.1 % 64)).take r.2.2)) }
      ∧ t.rd INT_DRAM_COUNT_FAIL = satInc INT_DRAM_COUNT_FAIL.w (s.rd INT_DRAM_COUNT_FAIL)
      ∧ t.flag INT_DRAM_STATUS_FAIL = true)

/-- R670 to R673, R681, R684 to R694: drains of the write-combining buffer, the streaming detector and the maintenance
operations. How many lines an operation without a range has processed is the model's free value (log entry 3). -/
def Obligations.LineCacheOperations : Prop :=
  ∀ (s : State),
    (∀ (k : Fin 16) (e : Wcb), s.lc.wcb[k.val]? = some e →
      (e.sent = false → (s.lc.wcb.take k.val).any (fun o => !o.sent && (o.line == e.line || o.draining)) = false →
        e.bytes.length = 64 →
        e.line < 0xE00000 → s.flag BC_STATUS_INIT_DONE = true → s.rekeying (e.line / 64) = false →
        s.major (e.line / 64) ≠ 0 → s.flag INT_INJECT_ARM = false → s.ecc = [] →
        (s.windowOn e.line = true → s.side e.line / 2 ^ 48 < 0xFFFF) →
        s.runs 1 = true → s.runs 11 = true → ∃ t, exec (.wcbDrain k) s = .next (settle t)
        ∧ t.lc.wcb = s.lc.wcb.modify k.val (fun e => { e with draining := true, sent := true })
        ∧ (e.bytes.all Option.isSome = true → t.checkLine e.line = (e.bytes.map (fun b => (b.getD (0, false)).1),
            if e.bytes.any (fun b => (b.getD (0, false)).2) then 2 else 0) ∧ t.regs = s.regs)
        ∧ (∀ i, e.bytes.all Option.isSome = false → s.lcOn = true → s.findWay e.line = some i → (s.way i).pend = false →
          (s.way i).data.length = 64 →
          t.checkLine e.line = (bits (s.way i).data, if poisoned (s.way i).data then 2 else 0) ∧ t.regs = s.regs)
        ∧ (e.bytes.all Option.isSome = false →
          (s.lcOn = false ∨ (s.findWay e.line).all (fun i => (s.way i).pend) = true) → (s.checkLine e.line).2 = 0 →
          t.checkLine e.line = (bits (overlay (clean (s.checkLine e.line).1) e.bytes),
            if e.bytes.any (fun b => (b.getD (0, false)).2) then 2 else 0) ∧ t.regs = s.regs)
        ∧ (e.bytes.all Option.isSome = false →
          (s.lcOn = false ∨ (s.findWay e.line).all (fun i => (s.way i).pend) = true) → (s.checkLine e.line).2 ≠ 0 →
          t.checkLine e.line = (bits (overlay (clean (s.checkLine e.line).1) e.bytes), 2)
          ∧ t.rd INT_DRAM_COUNT_FAIL = satInc INT_DRAM_COUNT_FAIL.w (s.rd INT_DRAM_COUNT_FAIL))
        ∧ (e.bytes.any (fun b => (b.getD (0, false)).2) = false → t.lc.lines = s.lc.lines)
        ∧ (∀ i, s.lcOn = true → s.findWay e.line = some i → e.bytes.any (fun b => (b.getD (0, false)).2) = true →
          (t.way i).valid = false ∧ (t.way i).lock = (s.way i).lock ∧ (∀ j, j ≠ i → t.way j = s.way j))
        ∧ (∀ a, ¬ (lineAddr e.line ≤ a ∧ a < lineAddr e.line + 64) → ¬ (sideAddr e.line ≤ a ∧ a < sideAddr e.line + 8) →
          t.byteAt a = s.byteAt a))
      ∧ ((e.sent = true ∨ (s.lc.wcb.take k.val).any (fun o => !o.sent && (o.line == e.line || o.draining)) = true) →
        s.runs 1 = true → s.runs 11 = true → ∃ t, exec (.wcbDrain k) s = .next (settle t)
        ∧ t = { s with lc := { s.lc with wcb := s.lc.wcb.modify k.val (fun e => { e with draining := true }) } })
      ∧ (e.sent = true → s.runs 1 = true → s.runs 11 = true → ∃ t, exec (.wcbDrainDone k) s = .next (settle t)
        ∧ t = { s with lc := { s.lc with wcb := s.lc.wcb.eraseIdx k.val } })
      ∧ (e.sent = false → exec (.wcbDrainDone k) s = .next (settle s)))
    ∧ (s.lc.outcomes ≠ 0 → s.rd LC_STREAM_ENV_K_MIN ≤ s.rd LC_STREAM_STATUS_K →
      s.rd LC_STREAM_STATUS_K ≤ s.rd LC_STREAM_ENV_K_MAX → s.runs 1 = true → ∃ t, exec (.streamDetectorUpdate) s = .next (settle t)
      ∧ (s.rd LC_STREAM_CFG_HI_R < s.lc.regret * 256 / s.lc.outcomes → t.rd LC_STREAM_STATUS_K
          = (if s.rd LC_STREAM_STATUS_K < s.rd LC_STREAM_ENV_K_MAX then s.rd LC_STREAM_STATUS_K + 1 else s.rd LC_STREAM_STATUS_K))
      ∧ (s.lc.regret * 256 / s.lc.outcomes ≤ s.rd LC_STREAM_CFG_HI_R →
          s.lc.regret * 256 / s.lc.outcomes < s.rd LC_STREAM_CFG_LO_R → t.rd LC_STREAM_STATUS_K
          = (if s.rd LC_STREAM_ENV_K_MIN < s.rd LC_STREAM_STATUS_K then s.rd LC_STREAM_STATUS_K - 1 else s.rd LC_STREAM_STATUS_K))
      ∧ (s.lc.regret * 256 / s.lc.outcomes ≤ s.rd LC_STREAM_CFG_HI_R →
          s.rd LC_STREAM_CFG_LO_R ≤ s.lc.regret * 256 / s.lc.outcomes →
          t.rd LC_STREAM_STATUS_K = s.rd LC_STREAM_STATUS_K ∧ t.flag LC_STREAM_STATUS_SATURATED = false)
      ∧ t.rd LC_STREAM_STATUS_EFF_K
        = (if s.flag LC_STREAM_ENV_PIN_EN then s.rd LC_STREAM_ENV_PIN_K else t.rd LC_STREAM_STATUS_K)
      ∧ t.lc.regret = 0 ∧ t.lc.outcomes = 0 ∧ s.keeps t streamFields
      ∧ t = { s with regs := t.regs, lc := { s.lc with regret := 0, outcomes := 0, sat := t.lc.sat } })
    ∧ (∀ (mode : Bool) (req : Fin 3) (ways : BitVec 16), s.flag LC_STATUS_OP_BUSY = true →
      (s.regOn LC_OP_WORD.addr = true → ∃ t, exec (.lcClean mode) s = .next (settle t) ∧ s.lcRefuses t 1)
      ∧ (s.regOn LC_OP_WORD.addr = true → ∃ t, exec (.lcInvalidate mode) s = .next (settle t) ∧ s.lcRefuses t 1)
      ∧ (s.regOn LC_OP_WORD.addr = true → ∃ t, exec (.lcCleanInvalidate mode) s = .next (settle t) ∧ s.lcRefuses t 1)
      ∧ (s.regOn LC_OP_WORD.addr = true → ∃ t, exec (.lcPreloadLock req mode ways) s = .next (settle t) ∧ s.lcRefuses t 1)
      ∧ (s.regOn LC_OP_WORD.addr = true → ∃ t, exec (.lcUnlock mode) s = .next (settle t) ∧ s.lcRefuses t 1)
      ∧ (s.regOn LC_OP_WORD.addr = true → ∃ t, exec (.lcDrainAll) s = .next (settle t) ∧ s.lcRefuses t 1)
      ∧ (s.regOn LC_OP_WORD.addr = true → ∃ t, exec (.lcInvalidateAll) s = .next (settle t) ∧ s.lcRefuses t 1)
      ∧ (s.regOn LC_OP_WORD.addr = true → ∃ t, exec (.lcUnlockAll) s = .next (settle t) ∧ s.lcRefuses t 1))
    ∧ (∀ (req : Fin 3) (ways : BitVec 16), s.flag LC_STATUS_OP_BUSY = false →
      (s.lcInView = false →
        (s.regOn LC_OP_WORD.addr = true → ∃ t, exec (.lcClean false) s = .next (settle t) ∧ s.lcRefuses t 2)
        ∧ (s.regOn LC_OP_WORD.addr = true → ∃ t, exec (.lcInvalidate false) s = .next (settle t) ∧ s.lcRefuses t 2)
        ∧ (s.regOn LC_OP_WORD.addr = true → ∃ t, exec (.lcCleanInvalidate false) s = .next (settle t) ∧ s.lcRefuses t 2)
        ∧ (s.regOn LC_OP_WORD.addr = true → ∃ t, exec (.lcPreloadLock req false ways) s = .next (settle t) ∧ s.lcRefuses t 2)
        ∧ (s.regOn LC_OP_WORD.addr = true → ∃ t, exec (.lcUnlock false) s = .next (settle t) ∧ s.lcRefuses t 2))
      ∧ (ways = 0 → s.lcInView = true → s.regOn LC_OP_WORD.addr = true → ∃ t, exec (.lcPreloadLock req false ways) s = .next (settle t) ∧ s.lcRefuses t 3)
      ∧ (ways = 0 → s.regOn LC_OP_WORD.addr = true → ∃ t, exec (.lcPreloadLock req true ways) s = .next (settle t) ∧ s.lcRefuses t 3)
      ∧ (ways ≠ 0 → s.regOn LC_OP_WORD.addr = true → ∃ t, exec (.lcPreloadLock req true ways) s = .next (settle t) ∧ s.lcRefuses t 4))
    ∧ (∀ (op req ways l : Nat), s.lcLine op req ways l = (s.awaitFills l).lcLine op req ways l
      ∧ (s.awaitFills l).lc.fills.length = s.lc.fills.length
      ∧ (∀ (k : Nat) (f : FillReq), s.lc.fills[k]? = some f → f.line ≠ l → (s.awaitFills l).lc.fills[k]? = some f)
      ∧ (∀ (k : Nat) (f g : FillReq), s.lc.fills[k]? = some f → (s.awaitFills l).lc.fills[k]? = some g → f.line = l →
        g = { f with way := none, got := g.got } ∧ g.got.isSome = true))
    ∧ (s.flag LC_STATUS_OP_BUSY = false → s.lcInView = true → s.ecc = [] → s.flag INT_INJECT_ARM = false →
      s.lc.fills.any (fun f => s.lcInRange f.line) = false →
      (s.regOn LC_OP_WORD.addr = true → ∃ t, exec (.lcClean false) s = .next (settle t) ∧ s.lcStarts t 1 false 0
        ∧ t.lc.wcb = s.lc.wcb.filter (fun e => !s.lcInRange e.line)
        ∧ (s.lc.wcb.any (fun e => s.lcInRange e.line) = false → s.keeps t lcOpFields
          ∧ t = { s with regs := t.regs, lc := { s.lc with op := t.lc.op } }))
      ∧ (s.regOn LC_OP_WORD.addr = true → ∃ t, exec (.lcInvalidate false) s = .next (settle t) ∧ s.lcStarts t 2 false 0
        ∧ (∀ l i, s.lcInRange l = true → s.findWay l = some i → (t.way i).valid = false ∧ (t.way i).lock = (s.way i).lock)
        ∧ (∀ i, s.lcInRange (heldLine i (s.way i)) = false → t.way i = s.way i)
        ∧ s.keeps t (lcOpFields ++ streamFields)
        ∧ t = { s with regs := t.regs, lc := { s.lc with lines := t.lc.lines, regret := t.lc.regret, outcomes := t.lc.outcomes,
                                                         sat := t.lc.sat, op := t.lc.op } })
      ∧ (s.regOn LC_OP_WORD.addr = true → ∃ t, exec (.lcCleanInvalidate false) s = .next (settle t) ∧ s.lcStarts t 3 false 0
        ∧ t.lc.wcb = s.lc.wcb.filter (fun e => !s.lcInRange e.line)
        ∧ (s.lc.wcb.any (fun e => s.lcInRange e.line) = false →
          (∀ l i, s.lcInRange l = true → s.findWay l = some i → (t.way i).valid = false ∧ (t.way i).lock = (s.way i).lock)
          ∧ (∀ i, s.lcInRange (heldLine i (s.way i)) = false → t.way i = s.way i)
          ∧ s.keeps t (lcOpFields ++ streamFields)))
      ∧ (s.regOn LC_OP_WORD.addr = true → ∃ t, exec (.lcUnlock false) s = .next (settle t) ∧ s.lcStarts t 5 false 0
        ∧ (∀ l i, s.lcInRange l = true → s.findWay l = some i → t.way i = { s.way i with lock := false })
        ∧ (∀ i, s.lcInRange (heldLine i (s.way i)) = false → t.way i = s.way i)
        ∧ s.keeps t lcOpFields ∧ t = { s with regs := t.regs, lc := { s.lc with lines := t.lc.lines, op := t.lc.op } }))
    ∧ (s.flag LC_STATUS_OP_BUSY = false → s.ecc = [] → s.flag INT_INJECT_ARM = false → (s.way s.lcSetWayIdx).pend = false →
      (s.regOn LC_OP_WORD.addr = true → ∃ t, exec (.lcClean true) s = .next (settle t) ∧ s.lcStarts t 1 true 0
        ∧ ((s.way s.lcSetWayIdx).valid = true →
          t.lc.wcb = s.lc.wcb.filter (fun e => e.line != heldLine s.lcSetWayIdx (s.way s.lcSetWayIdx)))
        ∧ ((s.way s.lcSetWayIdx).valid = false → s.keeps t lcOpFields
          ∧ t = { s with regs := t.regs, lc := { s.lc with op := t.lc.op } }))
      ∧ (s.regOn LC_OP_WORD.addr = true → ∃ t, exec (.lcInvalidate true) s = .next (settle t) ∧ s.lcStarts t 2 true 0
        ∧ (t.way s.lcSetWayIdx).valid = false ∧ (t.way s.lcSetWayIdx).lock = (s.way s.lcSetWayIdx).lock
        ∧ (∀ i, i ≠ s.lcSetWayIdx → t.way i = s.way i) ∧ s.keeps t (lcOpFields ++ streamFields)
        ∧ t = { s with regs := t.regs, lc := { s.lc with lines := t.lc.lines, regret := t.lc.regret, outcomes := t.lc.outcomes,
                                                         sat := t.lc.sat, op := t.lc.op } })
      ∧ (s.regOn LC_OP_WORD.addr = true → ∃ t, exec (.lcCleanInvalidate true) s = .next (settle t) ∧ s.lcStarts t 3 true 0
        ∧ (t.way s.lcSetWayIdx).valid = false ∧ (t.way s.lcSetWayIdx).lock = (s.way s.lcSetWayIdx).lock
        ∧ ((s.way s.lcSetWayIdx).valid = true →
          t.lc.wcb = s.lc.wcb.filter (fun e => e.line != heldLine s.lcSetWayIdx (s.way s.lcSetWayIdx))))
      ∧ (s.regOn LC_OP_WORD.addr = true → ∃ t, exec (.lcUnlock true) s = .next (settle t) ∧ s.lcStarts t 5 true 0
        ∧ t.way s.lcSetWayIdx = { s.way s.lcSetWayIdx with lock := false }
        ∧ (∀ i, i ≠ s.lcSetWayIdx → t.way i = s.way i)
        ∧ s.keeps t lcOpFields ∧ t = { s with regs := t.regs, lc := { s.lc with lines := t.lc.lines, op := t.lc.op } })
      ∧ (s.regOn LC_OP_WORD.addr = true → ∃ t, exec (.lcDrainAll) s = .next (settle t) ∧ s.lcStarts t 6 false 0 ∧ t.lc.wcb = []
        ∧ (s.lc.wcb = [] → s.keeps t lcOpFields ∧ t = { s with regs := t.regs, lc := { s.lc with op := t.lc.op } }))
      ∧ (s.regOn LC_OP_WORD.addr = true → ∃ t, exec (.lcInvalidateAll) s = .next (settle t) ∧ s.lcStarts t 7 false 0
        ∧ (∀ i, (t.way i).valid = false ∧ (t.way i).lock = (s.way i).lock) ∧ s.keeps t (lcOpFields ++ streamFields)
        ∧ t = { s with regs := t.regs, lc := { s.lc with lines := t.lc.lines, regret := t.lc.regret, outcomes := t.lc.outcomes,
                                                         sat := t.lc.sat, op := t.lc.op } })
      ∧ (s.regOn LC_OP_WORD.addr = true → ∃ t, exec (.lcUnlockAll) s = .next (settle t) ∧ s.lcStarts t 8 false 0
        ∧ (∀ i, t.way i = { s.way i with lock := false }) ∧ s.keeps t lcOpFields
        ∧ t = { s with regs := t.regs, lc := { s.lc with lines := t.lc.lines, op := t.lc.op } }))
    ∧ (∀ (req : Fin 3) (ways : BitVec 16), s.flag LC_STATUS_OP_BUSY = false → s.lcInView = true → ways ≠ 0 →
      s.ecc = [] → s.flag INT_INJECT_ARM = false → s.lc.fills.any (fun f => s.lcInRange f.line) = false →
      (s.lcOn = false → s.regOn LC_OP_WORD.addr = true → ∃ t, exec (.lcPreloadLock req false ways) s = .next (settle t)
        ∧ s.lcStarts t 4 false ways.toNat ∧ t.rd LC_OP_FAILED_LINES = s.rd LC_OP_LINES_LINES ∧ s.keeps t lcOpFields
        ∧ t = { s with regs := t.regs, lc := { s.lc with op := t.lc.op } })
      ∧ (∀ l, s.lcOn = true → s.rd LC_OP_LINES_LINES = 1 → l = dramOff (s.rd LC_OP_ADDR_ADDR * 64) / 64 →
        (∀ i, s.findWay l = some i → ((s.way i).lock = true ∨ ways.getLsbD (i % 16) = true) →
          s.regOn LC_OP_WORD.addr = true → ∃ t, exec (.lcPreloadLock req false ways) s = .next (settle t)
          ∧ s.lcStarts t 4 false ways.toNat ∧ t.rd LC_OP_FAILED_LINES = 0 ∧ t.way i = { s.way i with lock := true }
          ∧ (∀ j, j ≠ i → t.way j = s.way j) ∧ s.keeps t lcOpFields
          ∧ t = { s with regs := t.regs, lc := { s.lc with lines := t.lc.lines, op := t.lc.op } })
        ∧ (s.findWay l = none → (∀ w : Fin 16, ways.getLsbD w = true → (s.way (wayIdx (lineSet l) w)).lock = true) →
          s.regOn LC_OP_WORD.addr = true → ∃ t, exec (.lcPreloadLock req false ways) s = .next (settle t)
          ∧ s.lcStarts t 4 false ways.toNat ∧ t.rd LC_OP_FAILED_LINES = 1 ∧ s.keeps t lcOpFields
          ∧ t = { s with regs := t.regs, lc := { s.lc with op := t.lc.op } })
        ∧ (∀ w, s.findWay l = none →
          lowestIdx 16 (fun w => ways.getLsbD w && !(s.way (wayIdx (lineSet l) w)).lock) = some w →
          s.rd LC_CTRL_AGE_PERIOD = 0 → s.lc.wcb = [] → s.lc.outcomes < 255 → s.pw.lostLock.getLsbD 2 = false →
          s.flag BC_STATUS_INIT_DONE = true → s.rekeying (l / 64) = false → s.major (l / 64) = 0 →
          s.regOn LC_OP_WORD.addr = true → ∃ t, exec (.lcPreloadLock req false ways) s = .next (settle t)
          ∧ s.lcStarts t 4 false ways.toNat ∧ t.rd LC_OP_FAILED_LINES = 0
          ∧ t.way (wayIdx (lineSet l) w)
            = { valid := true, tag := lineTag l, nru := true, strm := false, lock := true, data := clean (zerosB 64) }
          ∧ (∀ j, j ≠ wayIdx (lineSet l) w → t.way j = s.way j) ∧ s.keeps t lcOpFields
          ∧ t = { s with regs := t.regs, lc := { s.lc with lines := t.lc.lines, outcomes := t.lc.outcomes, op := t.lc.op } })))
    ∧ (∀ o, s.lc.op = some o → s.runs 1 = true → ∃ t, exec (.lcOpDone) s = .next (settle t)
      ∧ t.flag LC_STATUS_OP_BUSY = false ∧ t.flag LC_EVENT_OP_DONE = true ∧ t.lc.op = none
      ∧ (o.op < 6 → t.rd LC_OP_DONE_LINES = (if o.mode = 1 then 1 else o.lines % 2 ^ 24) ∧ t.freeCtr = s.freeCtr)
      ∧ t.rd LC_EVENT_PRELOAD_FAIL
        = (if o.op = 4 ∧ s.rd LC_OP_FAILED_LINES ≠ 0 then 1 else s.rd LC_EVENT_PRELOAD_FAIL)
      ∧ s.keeps t [LC_STATUS_OP_BUSY, LC_EVENT_OP_DONE, LC_OP_DONE_LINES, LC_EVENT_PRELOAD_FAIL]
      ∧ t = { s with regs := t.regs, lc := { s.lc with op := none }, freeCtr := t.freeCtr })
    ∧ (s.on 1 = true → s.runs 1 = true → ∃ t, exec (.lcInitDone) s = .next (settle t)
      ∧ t.flag LC_STATUS_INIT_DONE = true ∧ (∀ i, t.way i = {}) ∧ t.lc.acc = []
      ∧ t.lc.fills = s.lc.fills.map (fun (f : FillReq) => { f with way := none })
      ∧ s.keeps t [LC_STATUS_INIT_DONE]
      ∧ t = { s with regs := t.regs, ecc := t.ecc, lc := { s.lc with lines := [], acc := [], fills := t.lc.fills,
                                                                      outcomes := t.lc.outcomes } })
    ∧ (∀ v : Word, s.regOn LC_CTRL_WORD.addr = true → ∃ t, exec (.lcDisable v) s = .next (settle t)
      ∧ t.rd LC_CTRL_ENABLE = getF v 0 1 ∧ t.rd LC_CTRL_AGE_PERIOD = getF v 8 8
      ∧ (getF v 0 1 = 0 → (∀ i, t.way i = {}) ∧ t.lc.fills = s.lc.fills.map (fun (f : FillReq) => { f with way := none })
        ∧ s.keeps t ([LC_CTRL_ENABLE, LC_CTRL_AGE_PERIOD] ++ streamFields))
      ∧ (getF v 0 1 = 1 → s.keeps t [LC_CTRL_ENABLE, LC_CTRL_AGE_PERIOD] ∧ t = { s with regs := t.regs })
      ∧ t = { s with
          regs := t.regs, ecc := t.ecc
          lc := { s.lc with lines := t.lc.lines, fills := t.lc.fills, regret := t.lc.regret, outcomes := t.lc.outcomes
                            sat := t.lc.sat } })

/-- R708, R715, R722 to R724, R731, R737: the retry of a failing line, initialisation, error injection and repair. That
a retry may find the stored line passing is an operand of the command (log entry 1). -/
def Obligations.MemoryIntegrity : Prop :=
  ∀ (s : State),
    (∀ (req : Fin 17) (a : Word), inDram a.toNat = true → s.flag BC_STATUS_INIT_DONE = true →
      s.rekeying (dramOff a.toNat / 64 / 64) = false → s.lc.wcb.any (fun e => e.line == dramOff a.toNat / 64) = false →
      (s.major (dramOff a.toNat / 64 / 64) = 0 → s.runs 11 = true → ∃ t, exec (.dramRetryRead req a) s = .next (settle t)
        ∧ t = { s with bus := { data := clean (zerosB 64) } })
      ∧ (s.major (dramOff a.toNat / 64 / 64) ≠ 0 → s.flag INT_CTRL_DRAM_RETRY = true →
        (s.checkLine (dramOff a.toNat / 64)).2 = 0 → s.runs 11 = true → ∃ t, exec (.dramRetryRead req a) s = .next (settle t)
        ∧ t.bus = { data := clean (s.checkLine (dramOff a.toNat / 64)).1 }
        ∧ t.rd INT_DRAM_COUNT_TRANSIENT = satInc INT_DRAM_COUNT_TRANSIENT.w (s.rd INT_DRAM_COUNT_TRANSIENT)
        ∧ t.flag INT_DRAM_STATUS_TRANSIENT = true ∧ s.keeps t [INT_DRAM_COUNT_TRANSIENT, INT_DRAM_STATUS_TRANSIENT]
        ∧ t = { s with regs := t.regs, bus := t.bus })
      ∧ (s.major (dramOff a.toNat / 64 / 64) ≠ 0 →
        (s.flag INT_CTRL_DRAM_RETRY = false ∨ (s.checkLine (dramOff a.toNat / 64)).2 ≠ 0) →
        s.runs 11 = true → ∃ t, exec (.dramRetryRead req a) s = .next (settle t)
        ∧ t.bus = { data := (s.checkLine (dramOff a.toNat / 64)).1.map (fun b => (b, true)) }
        ∧ t.rd INT_DRAM_COUNT_FAIL = satInc INT_DRAM_COUNT_FAIL.w (s.rd INT_DRAM_COUNT_FAIL)
        ∧ t.flag INT_DRAM_STATUS_FAIL = true
        ∧ (∀ k, lowestIdx 4 (fun k => !s.flag (INT_DRAM_CAP1_VALID k)) = some k →
          t.flag (INT_DRAM_CAP1_VALID k) = true ∧ t.rd (INT_DRAM_CAP1_REQ_ID k) = req.val
          ∧ t.rd (INT_DRAM_CAP0_ADDR k) = lineAddr (dramOff a.toNat / 64) / 64
          ∧ t.rd (INT_DRAM_CAP1_CAUSE k) = (if (s.checkLine (dramOff a.toNat / 64)).2 = 2 then 2 else 1)
          ∧ s.keeps t [INT_DRAM_COUNT_FAIL, INT_DRAM_STATUS_FAIL, INT_DRAM_CAP1_VALID k, INT_DRAM_CAP1_REQ_ID k,
              INT_DRAM_CAP0_ADDR k, INT_DRAM_CAP1_CAUSE k, INT_DRAM_CAP1_SEQ k])
        ∧ (lowestIdx 4 (fun k => !s.flag (INT_DRAM_CAP1_VALID k)) = none → t.flag INT_DRAM_STATUS_CAP_LOST = true
          ∧ s.keeps t [INT_DRAM_COUNT_FAIL, INT_DRAM_STATUS_FAIL, INT_DRAM_STATUS_CAP_LOST])
        ∧ t = { s with regs := t.regs, caps := t.caps, bus := t.bus }))
    ∧ (∀ v : Word,
      (getF v 24 8 = 0xC9 → s.regOn INT_INJECT_WORD.addr = true → ∃ t, exec (.errorInjectArm v) s = .next (settle t)
        ∧ t.rd INT_INJECT_ARM = getF v 0 1 ∧ t.rd INT_INJECT_FLIP = getF v 16 5
        ∧ t.rd INT_INJECT_MEM = (if getF v 8 4 ≤ 13 then getF v 8 4 else s.rd INT_INJECT_MEM)
        ∧ s.keeps t [INT_INJECT_ARM, INT_INJECT_FLIP, INT_INJECT_MEM] ∧ t = { s with regs := t.regs })
      ∧ (getF v 24 8 ≠ 0xC9 → s.regOn INT_INJECT_WORD.addr = true → exec (.errorInjectArm v) s = .next (settle s)))
    ∧ (∀ (a : Nat) (b : PByte) m l, memAt a = some (m, l) → s.flag INT_INJECT_ARM = true →
      (s.rd INT_INJECT_MEM = m → (s.writeByte a b).flag INT_INJECT_ARM = false
        ∧ (s.writeByte a b).eccOf m l = (if b.2 then 3 else 0) ^^^ BitVec.ofNat 5 (s.rd INT_INJECT_FLIP))
      ∧ (s.rd INT_INJECT_MEM ≠ m → (s.writeByte a b).flag INT_INJECT_ARM = true
        ∧ (s.writeByte a b).eccOf m l = (if b.2 then 3 else 0)))
    ∧ (∀ l m n d p, l < 0xE00000 → n < 2 ^ 16 → d.length = 64 → s.flag INT_INJECT_ARM = true →
      s.rd INT_INJECT_MEM = 13 → (s.putLine l m n d p).flag INT_INJECT_ARM = false
      ∧ (s.putLine l m n d p).side l = ((s.down INT_INJECT_ARM).putLine l m n d p).side l ^^^ s.rd INT_INJECT_FLIP)
    ∧ (∀ m : Fin 3,
      (s.memDue.getLsbD m = true → ∃ t, exec (.memoryInitDone m) s = .next (settle t)
        ∧ t.memDue.getLsbD m = false ∧ (∀ k : Fin 3, k ≠ m → t.memDue.getLsbD k = s.memDue.getLsbD k)
        ∧ (∀ a, inRanges (if m = 0 then [(0x02100000, 0x02108000), (0x03100000, 0x03108000)] else if m = 1 then
              [(0x20000000, 0x20080000)] else [(0x300E8000, 0x300EC000)]) a →
            t.byteAt a = 0 ∧ ∀ x l, memAt a = some (x, l) → t.eccOf x l = 0)
        ∧ (∀ a, ¬ inRanges (if m = 0 then [(0x02100000, 0x02108000), (0x03100000, 0x03108000)] else if m = 1 then
              [(0x20000000, 0x20080000)] else [(0x300E8000, 0x300EC000)]) a → t.byteAt a = s.byteAt a)
        ∧ t = { s with mem := t.mem, ecc := t.ecc, memDue := t.memDue })
      ∧ (s.memDue.getLsbD m = false → exec (.memoryInitDone m) s = .next (settle s)))
    ∧ (s.flag BC_STATUS_INIT_DONE = false → s.runs 11 = true → ∃ t, exec (.regionTableInitDone) s = .next (settle t)
      ∧ t.flag BC_STATUS_INIT_DONE = true ∧ (∀ x, x < 0x38000 → t.major x = 0)
      ∧ s.memOutside t 0xBF000000 0xBF1C0000 ∧ s.keeps t [BC_STATUS_INIT_DONE]
      ∧ t = { s with regs := t.regs, mem := t.mem, ecc := t.ecc })
    ∧ (s.flag BC_STATUS_INIT_DONE = true ∨ s.runs 11 = false → exec (.regionTableInitDone) s = .next (settle s))
    ∧ (∀ (m : Fin 13) (k : Fin 4) (img : Byte),
      ((s.flag (INT_CAP1_VALID m k) = false ∨ s.flag (INT_CAP1_UNCORR m k) = true) →
        exec (.eccRepair m k img) s = .next (settle s))
      ∧ (s.flag (INT_CAP1_VALID m k) = true → s.flag (INT_CAP1_UNCORR m k) = false →
        s.ot.repaired.find? (fun e => e.1 == m.val && e.2.1 == s.rd (INT_CAP0_LOC m k)) = none →
        s.flag INT_INJECT_ARM = false →
        ((m = 2 ∨ m = 9 ∨ m = 11 ∨ m = 12) → memAt (s.rd (INT_CAP0_LOC m k)) = some (m.val, s.rd (INT_CAP0_LOC m k)) →
          eccClass (s.eccOf m (s.rd (INT_CAP0_LOC m k))) ≠ .uncorr → ∃ t, exec (.eccRepair m k img) s = .next (settle t)
          ∧ t.byteAt (s.rd (INT_CAP0_LOC m k))
            = s.byteAt (s.rd (INT_CAP0_LOC m k)) ^^^ eccFlip (s.eccOf m (s.rd (INT_CAP0_LOC m k)))
          ∧ t.eccOf m (s.rd (INT_CAP0_LOC m k)) = 0 ∧ t.flag (INT_CAP1_VALID m k) = false
          ∧ s.memOutside t (s.rd (INT_CAP0_LOC m k)) (s.rd (INT_CAP0_LOC m k) + 1))
        ∧ ((m = 8 ∨ m = 10) → memAt (s.rd (INT_CAP0_LOC m k)) = some (m.val, s.rd (INT_CAP0_LOC m k)) →
          ∃ t, exec (.eccRepair m k img) s = .next (settle t)
          ∧ t.byteAt (s.rd (INT_CAP0_LOC m k)) = img ∧ t.eccOf m (s.rd (INT_CAP0_LOC m k)) = 0
          ∧ s.memOutside t (s.rd (INT_CAP0_LOC m k)) (s.rd (INT_CAP0_LOC m k) + 1)
          ∧ t.flag (INT_CAP1_VALID m k) = false ∧ s.keeps t [INT_CAP1_VALID m k]
          ∧ t = { s with regs := t.regs, mem := t.mem, ecc := t.ecc, ot := { s.ot with repaired := t.ot.repaired } })
        ∧ (∀ a, ((m = 4 ∧ a = 0x30088000 + s.rd (INT_CAP0_LOC m k)) ∨ (m = 5 ∧ a = 0x30084000 + s.rd (INT_CAP0_LOC m k))) →
          memAt a = some (m.val, s.rd (INT_CAP0_LOC m k)) →
          (s.allHalted = true → ∃ t, exec (.eccRepair m k img) s = .next (settle t)
            ∧ t.byteAt a = img ∧ t.eccOf m (s.rd (INT_CAP0_LOC m k)) = 0 ∧ s.memOutside t a (a + 1)
            ∧ t.flag (INT_CAP1_VALID m k) = false
            ∧ t = { s with regs := t.regs, mem := t.mem, ecc := t.ecc, fmt := t.fmt, ot := { s.ot with repaired := t.ot.repaired } })
          ∧ (s.allHalted = false → exec (.eccRepair m k img) s = .next (settle s.haltAll)))
        ∧ ((m = 0 ∨ m = 1) → (s.way (s.rd (INT_CAP0_LOC m k) / 512)).lock = false →
          ∃ t, exec (.eccRepair m k img) s = .next (settle t)
          ∧ (t.way (s.rd (INT_CAP0_LOC m k) / 512)).valid = false
          ∧ (∀ j, j ≠ s.rd (INT_CAP0_LOC m k) / 512 → t.way j = s.way j) ∧ t.flag (INT_CAP1_VALID m k) = false
          ∧ s.keeps t (INT_CAP1_VALID m k :: streamFields) ∧ t.mem = s.mem)
        ∧ ((m = 6 ∨ m = 7) → exec (.eccRepair m k img) s = .next (settle s))))
/-! ### The Buffer and Media Ciphers (chapter 17) -/

/-- R747, R749 to R755: re-encryption of a region, the region commands of ring 322, and a write to BC_CTRL. -/
def Obligations.RegionCommands : Prop :=
  ∀ (s : State),
    (∀ r, s.cip.reenc = some r → s.cip.reencWait = [] → r.region < 229376 → s.major r.region + 1 < 2 ^ 64 →
      s.flag INT_INJECT_ARM = false → s.ecc = [] →
      (∀ w, r.write = some w → w.1 / 64 = r.region ∧ w.2.1.length = 64) → s.runs 1 = true → s.runs 11 = true →
        ∃ t, exec (.reencryptionDone) s = .next (settle t)
      ∧ t.major r.region = s.major r.region + 1 ∧ t.cip.reenc = none ∧ t.flag BC_STATUS_REKEY_BUSY = false
      ∧ t.rd BC_COUNT_REKEY = satInc BC_COUNT_REKEY.w (s.rd BC_COUNT_REKEY) ∧ t.evc = (pulse 108 s).evc
      ∧ (r.write = none → (∀ i : Fin 64, t.checkLine (64 * r.region + i) = ((s.checkLine (64 * r.region + i)).1,
          if (s.checkLine (64 * r.region + i)).2 = 0 then 0 else 2))
        ∧ ((∀ i : Fin 64, (s.checkLine (64 * r.region + i)).2 = 0) →
          s.keeps t [BC_STATUS_REKEY_BUSY, BC_COUNT_REKEY]))
      ∧ (∀ w, r.write = some w → t.checkLine w.1 = (bits w.2.1, if poisoned w.2.1 then 2 else 0)
        ∧ (s.windowOn w.1 = true → t.side w.1 / 2 ^ 48 = 1))
      ∧ s.memKept t [(lineAddr (64 * r.region), lineAddr (64 * r.region + 64)),
          (sideAddr (64 * r.region), sideAddr (64 * r.region + 64)), (majorAddr r.region, majorAddr (r.region + 1))])
    ∧ (∀ e, s.headEntry 322 = some e → s.cmdReady 322 323 10 = true → s.cip.reenc = none → s.cip.reencWait = [] →
      let bad := fieldB e 3 5 ≠ 0 ∨ fieldB e 24 8 ≠ 0 ∨ fieldB e 12 4 = 0 ∨ 229376 < fieldB e 8 4 + fieldB e 12 4
      let ends := fun (t : State) (st n : Nat) => s.took t 322
        ∧ s.gave t 323 (leBytes 2 (fieldB e 0 2) ++ leBytes 1 st ++ zerosB 1 ++ leBytes 4 n ++ sliceB e 16 8)
      (fieldB e 2 1 = 2 → ¬ bad → ∃ t, exec (.bcDiscard) s = .next (settle t)
        ∧ ends t 0 0 ∧ (∀ x, fieldB e 8 4 ≤ x → x < fieldB e 8 4 + fieldB e 12 4 → t.major x = 0)
        ∧ s.memKept t [(majorAddr (fieldB e 8 4), majorAddr (fieldB e 8 4 + fieldB e 12 4)), s.slotAt 323]
        ∧ t = { s with mem := t.mem, ecc := t.ecc, rings := t.rings })
      ∧ (fieldB e 2 1 = 2 → bad → ∃ t, exec (.bcDiscard) s = .next (settle t)
        ∧ ends t 1 0 ∧ s.memKept t [s.slotAt 323] ∧ t = { s with mem := t.mem, ecc := t.ecc, rings := t.rings })
      ∧ ((fieldB e 2 1 = 0 ∨ 2 < fieldB e 2 1 ∨ (fieldB e 2 1 = 1 ∧ bad)) → ∃ t, exec (.bcRekey) s = .next (settle t)
        ∧ ends t 1 0 ∧ s.memKept t [s.slotAt 323] ∧ t = { s with mem := t.mem, ecc := t.ecc, rings := t.rings })
      ∧ (fieldB e 2 1 = 1 → ¬ bad →
        (∀ x, fieldB e 8 4 ≤ x → x < fieldB e 8 4 + fieldB e 12 4 → s.major x = 0 ∨ s.windowOn (64 * x) = false) →
        ∃ t, exec (.bcRekey) s = .next (settle t)
        ∧ ends t 0 0 ∧ s.memKept t [s.slotAt 323] ∧ t = { s with mem := t.mem, ecc := t.ecc, rings := t.rings })
      ∧ (∀ x, fieldB e 2 1 = 1 → ¬ bad → fieldB e 12 4 = 1 → x = fieldB e 8 4 → s.major x ≠ 0 →
        s.major x + 1 < 2 ^ 64 → s.windowOn (64 * x) = true → ∃ t, exec (.bcRekey) s = .next (settle t)
        ∧ ends t (if countIdx 64 (fun i => (s.checkLine (64 * x + i)).2 != 0) = 0 then 0 else 2)
            (countIdx 64 (fun i => (s.checkLine (64 * x + i)).2 != 0))
        ∧ t.major x = s.major x + 1 ∧ t.rd BC_COUNT_REKEY = satInc BC_COUNT_REKEY.w (s.rd BC_COUNT_REKEY)
        ∧ t.evc = (pulse 108 s).evc
        ∧ (∀ i : Fin 64, t.checkLine (64 * x + i) = ((s.checkLine (64 * x + i)).1,
            if (s.checkLine (64 * x + i)).2 = 0 then 0 else 2))
        ∧ s.memKept t [(lineAddr (64 * x), lineAddr (64 * x + 64)), (sideAddr (64 * x), sideAddr (64 * x + 64)),
            (majorAddr x, majorAddr (x + 1)), s.slotAt 323]))
    ∧ (∀ v : Word,
      (s.flag BC_LOCK_LOCK = true → s.regOn BC_CTRL_WORD.addr = true → exec (.windowEnableWrite v) s = .next (settle s))
      ∧ (s.flag BC_LOCK_LOCK = false → s.cip.reenc = none → s.cip.reencWait = [] →
        s.regOn BC_CTRL_WORD.addr = true → ∃ t, exec (.windowEnableWrite v) s = .next (settle t)
        ∧ t.rd BC_CTRL_WINDOW_EN = getF v 0 14
        ∧ (∀ x, x < 229376 → s.bit BC_CTRL_WINDOW_EN (x / 16384) ≠ (getF v 0 14).testBit (x / 16384) → t.major x = 0)
        ∧ (∀ x, x < 229376 → s.bit BC_CTRL_WINDOW_EN (x / 16384) = (getF v 0 14).testBit (x / 16384) →
          t.major x = s.major x)
        ∧ s.memKept t [(0xBF000000, 0xBF1C0000)] ∧ s.keeps t [BC_CTRL_WINDOW_EN]
        ∧ t = { s with regs := t.regs, mem := t.mem, ecc := t.ecc }))

/-- R767 to R775, R777 to R779 and R783: the key-band commands of ring 320, for bands whose two copies agree. The drawn
keys and salts are free values (log entry 3). -/
def Obligations.KeyCommands : Prop :=
  ∀ (s : State), ∀ e, s.headEntry 320 = some e → s.mediaReady = true →
    let b := fieldB e 3 1
    let key := State.drawBytes 64 s
    let salt := State.drawBytes 16 key.2
    let salt1 := State.drawBytes 16 s
    (∀ healthy : Bool, fieldB e 2 1 = 1 → keyBad e = false → s.bandEmpty b = true →
      (s.noRoot = true → ∃ t, exec (.keyGenerate healthy) s = .next (settle t)
        ∧ s.keyEnds t e 2 [] ∧ s.memKept t [s.slotAt 321] ∧ t = { s with mem := t.mem, ecc := t.ecc, rings := t.rings })
      ∧ (s.noRoot = false → (fieldB e 4 1).testBit 1 = false → healthy = false →
        ∃ t, exec (.keyGenerate healthy) s = .next (settle t)
        ∧ s.keyEnds t e 6 [] ∧ t.flag MC_STATUS_ENTROPY_OK = false ∧ t.flag MC_EVENT_ENTROPY_FAIL = true
        ∧ s.keeps t [MC_STATUS_ENTROPY_OK, MC_EVENT_ENTROPY_FAIL] ∧ s.memKept t [s.slotAt 321]
        ∧ t = { s with regs := t.regs, mem := t.mem, ecc := t.ecc, rings := t.rings })
      ∧ (∀ r, s.noRoot = false → (fieldB e 4 1).testBit 1 = false → healthy = true →
        r = sealRecord (keyedRecord b 1 false (sliceB e 8 8) salt.1
          (keyWrap (bandKek s.cip.root b 1 salt.1 none) key.1)) 1 →
        ∃ t, exec (.keyGenerate healthy) s = .next (settle t)
        ∧ s.keyEnds t e 0 r ∧ t.bandIs b r ∧ t.cip.slots[keyBand b] = some { key := key.1 }
        ∧ t.bit MC_STATUS_LOADED b = true ∧ s.memKept t (s.keyMem b)
        ∧ s.keeps t [MC_STATUS_ENTROPY_OK, MC_STATUS_LOADED, MRAM_STATUS_WRITES]
        ∧ t = { s with regs := t.regs, mem := t.mem, ecc := t.ecc, rings := t.rings, mram := t.mram, freeCtr := t.freeCtr,
                       cip := { s.cip with slots := t.cip.slots } }))
    ∧ ((fieldB e 2 1 = 1 ∨ fieldB e 2 1 = 0 ∨ 8 < fieldB e 2 1) → keyBad e = true → s.ecc = [] →
      ∃ t, exec (.keyGenerate true) s = .next (settle t)
      ∧ (16 ≤ b → s.keyEnds t e 1 []) ∧ (∀ r, b < 16 → s.bandRecord b = some r → s.keyEnds t e 1 r)
      ∧ s.memKept t [s.slotAt 321] ∧ t = { s with mem := t.mem, ecc := t.ecc, rings := t.rings })
    ∧ (∀ r, s.bandRecord b = some r → keyBad e = false →
      (fieldB e 2 1 = 1 → fieldB r 7 1 = 1 → ∃ t, exec (.keyGenerate true) s = .next (settle t)
        ∧ s.keyEnds t e 4 r ∧ s.memKept t [s.slotAt 321] ∧ t = { s with mem := t.mem, ecc := t.ecc, rings := t.rings })
      ∧ (fieldB e 2 1 = 8 → ∃ t, exec (.keyStatus) s = .next (settle t)
        ∧ s.keyEnds t e 0 r ∧ s.memKept t [s.slotAt 321] ∧ t = { s with mem := t.mem, ecc := t.ecc, rings := t.rings })
      ∧ (fieldB e 2 1 = 2 →
        ((fieldB r 7 1 ≠ 1 ∨ ((fieldB r 16 1).testBit 0 = true ∧ (fieldB e 4 1).testBit 0 = false)) →
          ∃ t, exec (.keyLoad) s = .next (settle t)
          ∧ s.keyEnds t e 4 r ∧ s.memKept t [s.slotAt 321] ∧ t = { s with mem := t.mem, ecc := t.ecc, rings := t.rings })
        ∧ (fieldB r 7 1 = 1 → (fieldB r 16 1).testBit 0 = false → s.noRoot = true → ∃ t, exec (.keyLoad) s = .next (settle t)
          ∧ s.keyEnds t e 2 r ∧ s.memKept t [s.slotAt 321] ∧ t = { s with mem := t.mem, ecc := t.ecc, rings := t.rings })
        ∧ (∀ k, keyUnwrap (bandKek s.cip.root b (fieldB r 12 4) (sliceB r 40 16) none) (sliceB r 56 72) = some k →
          fieldB r 7 1 = 1 → (fieldB r 16 1).testBit 0 = false → s.noRoot = false →
          ∃ t, exec (.keyLoad) s = .next (settle t)
          ∧ s.keyEnds t e 0 r ∧ t.cip.slots[keyBand b] = some { key := k } ∧ t.bit MC_STATUS_LOADED b = true
          ∧ s.memKept t [s.slotAt 321] ∧ s.keeps t [MC_STATUS_LOADED]
          ∧ t = { s with regs := t.regs, mem := t.mem, ecc := t.ecc, rings := t.rings,
                         cip := { s.cip with slots := t.cip.slots } })
        ∧ (fieldB r 7 1 = 1 → (fieldB r 16 1).testBit 0 = false → s.noRoot = false →
          keyUnwrap (bandKek s.cip.root b (fieldB r 12 4) (sliceB r 40 16) none) (sliceB r 56 72) = none →
          ∃ t, exec (.keyLoad) s = .next (settle t)
          ∧ s.keyEnds t e 3 r ∧ t.cip.authHold = true ∧ t.flag MC_EVENT_AUTH_FAIL = true ∧ t.flag MC_STATUS_BUSY = true
          ∧ t.rd MC_COUNT_AUTH_FAIL = satInc MC_COUNT_AUTH_FAIL.w (s.rd MC_COUNT_AUTH_FAIL)
          ∧ s.keeps t [MC_EVENT_AUTH_FAIL, MC_STATUS_BUSY, MC_COUNT_AUTH_FAIL] ∧ s.memKept t [s.slotAt 321]
          ∧ t = { s with regs := t.regs, mem := t.mem, ecc := t.ecc, rings := t.rings, cip := { s.cip with authHold := true } })
        ∧ (∀ c, (s.readCred (fieldB e 16 4)).1 = some c → fieldB r 7 1 = 1 → (fieldB r 16 1).testBit 0 = true →
          (fieldB e 4 1).testBit 0 = true → s.noRoot = false → ∃ t, exec (.keyLoad) s = .next (settle t)
          ∧ (∀ k, keyUnwrap (bandKek s.cip.root b (fieldB r 12 4) (sliceB r 40 16) (some c)) (sliceB r 56 72) = some k →
            s.keyEnds t e 0 r ∧ t.cip.slots[keyBand b] = some { key := k } ∧ t.cip.authHold = false)
          ∧ (keyUnwrap (bandKek s.cip.root b (fieldB r 12 4) (sliceB r 40 16) (some c)) (sliceB r 56 72) = none →
            s.keyEnds t e 3 r ∧ t.cip.slots = s.cip.slots ∧ t.cip.authHold = true)))
      ∧ (∀ r', fieldB e 2 1 = 4 → fieldB r 7 1 = 1 → s.noRoot = false →
        r' = sealRecord (keyedRecord b ((fieldB r 12 4 + 1) % 2 ^ 32) false (sliceB e 8 8) salt.1
          (keyWrap (bandKek s.cip.root b ((fieldB r 12 4 + 1) % 2 ^ 32) salt.1 none) key.1)) (fieldB r 8 4 + 1) →
        ∃ t, exec (.keyErase true) s = .next (settle t)
        ∧ s.keyEnds t e 0 r' ∧ t.bandIs b r' ∧ t.cip.slots[keyBand b] = some { key := key.1 }
        ∧ t.bit MC_STATUS_LOADED b = true ∧ s.memKept t (s.keyMem b)
        ∧ s.keeps t [MC_STATUS_ENTROPY_OK, MC_STATUS_LOADED, MRAM_STATUS_WRITES]
        ∧ t = { s with regs := t.regs, mem := t.mem, ecc := t.ecc, rings := t.rings, mram := t.mram, freeCtr := t.freeCtr,
                       cip := { s.cip with slots := t.cip.slots } })
      ∧ (fieldB e 2 1 = 4 → fieldB r 7 1 ≠ 1 → ∃ t, exec (.keyErase true) s = .next (settle t)
        ∧ s.keyEnds t e 4 r ∧ s.memKept t [s.slotAt 321] ∧ t = { s with mem := t.mem, ecc := t.ecc, rings := t.rings })
      ∧ (∀ r', fieldB e 2 1 = 5 → fieldB r 7 1 = 1 →
        r' = sealRecord (spliceB (spliceB r 7 (zerosB 1)) 40 (zerosB 88)) (fieldB r 8 4 + 1) →
        ∃ t, exec (.keyDelete) s = .next (settle t)
        ∧ s.keyEnds t e 0 r' ∧ t.bandIs b r' ∧ t.cip.slots[keyBand b] = none ∧ t.bit MC_STATUS_LOADED b = false
        ∧ s.memKept t (s.keyMem b) ∧ s.keeps t [MC_STATUS_LOADED, MRAM_STATUS_WRITES]
        ∧ t = { s with regs := t.regs, mem := t.mem, ecc := t.ecc, rings := t.rings, mram := t.mram,
                       cip := { s.cip with slots := t.cip.slots } })
      ∧ (∀ k r', keyUnwrap (bandKek s.cip.root b (fieldB r 12 4) (sliceB r 40 16) none) (sliceB r 56 72) = some k →
        fieldB e 2 1 = 6 → fieldB r 7 1 = 1 → (fieldB r 16 1).testBit 0 = false → (fieldB e 4 1).testBit 1 = false →
        s.noRoot = false →
        r' = sealRecord (keyedRecord b (fieldB r 12 4) false (sliceB r 32 8) salt1.1
          (keyWrap (bandKek s.cip.root b (fieldB r 12 4) salt1.1 none) k)) (fieldB r 8 4 + 1) →
        ∃ t, exec (.keyRewrap true) s = .next (settle t)
        ∧ s.keyEnds t e 0 r' ∧ t.bandIs b r' ∧ t.cip = s.cip ∧ s.memKept t (s.keyMem b)
        ∧ s.keeps t [MC_STATUS_ENTROPY_OK, MRAM_STATUS_WRITES]
        ∧ t = { s with regs := t.regs, mem := t.mem, ecc := t.ecc, rings := t.rings, mram := t.mram, freeCtr := t.freeCtr }))
    ∧ (∀ r, s.bandRecord b = some r → keyBad e = false → fieldB e 2 1 = 7 →
      (otpField s.boot.fuses 0 256 = 0 → s.otpLocked = false → s.pw.vddAnaGood = true →
        ∃ t, exec (.rootProgram true) s = .next (settle t)
        ∧ s.keyEnds t e 0 r ∧ t.cip.root = (State.drawBytes 32 s).1 ∧ otpRoot t.boot.fuses = t.cip.root
        ∧ (∀ i, 256 ≤ i → otpBit t.boot.fuses i = otpBit s.boot.fuses i) ∧ s.memKept t [s.slotAt 321]
        ∧ t.rd MC_STATUS_ROOT_SET = b2n (t.cip.root.any (fun x => x != 0))
        ∧ s.keeps t [MC_STATUS_ROOT_SET, MC_STATUS_ENTROPY_OK]
        ∧ t = { s with regs := t.regs, mem := t.mem, ecc := t.ecc, rings := t.rings, freeCtr := t.freeCtr,
                       cip := { s.cip with root := t.cip.root }, boot := { s.boot with fuses := t.boot.fuses } })
      ∧ ((otpField s.boot.fuses 0 256 ≠ 0 ∨ s.otpLocked = true ∨ s.pw.vddAnaGood = false) →
        ∃ t, exec (.rootProgram true) s = .next (settle t)
        ∧ s.keyEnds t e 7 r ∧ s.memKept t [s.slotAt 321] ∧ t = { s with mem := t.mem, ecc := t.ecc, rings := t.rings }))
    ∧ (∀ r, s.bandRecord b = some r → keyBad e = false → fieldB e 2 1 = 3 →
      (s.cip.inFlight[keyBand b] = 0 → ∃ t, exec (.keyUnload) s = .next (settle t)
        ∧ s.keyEnds t e 0 r ∧ t.cip.slots[keyBand b] = none ∧ t.bit MC_STATUS_LOADED b = false
        ∧ s.memKept t [s.slotAt 321] ∧ s.keeps t [MC_STATUS_LOADED, MC_STATUS_BUSY]
        ∧ t = { s with regs := t.regs, mem := t.mem, ecc := t.ecc, rings := t.rings,
                       cip := { s.cip with slots := t.cip.slots } })
      ∧ (s.cip.inFlight[keyBand b] ≠ 0 → ∃ t, exec (.keyUnload) s = .next (settle t)
        ∧ s.took t 320 ∧ t.cip = { s.cip with unloadWait := some e } ∧ t.flag MC_STATUS_BUSY = true
        ∧ s.keeps t [MC_STATUS_BUSY] ∧ t = { s with regs := t.regs, rings := t.rings, cip := t.cip }))
    ∧ (s.runs 1 = true → ∃ t, exec (.authHoldEnd) { s with cip := { s.cip with authHold := true } } = .next (settle t)
      ∧ t.cip = s.cip ∧ t.flag MC_STATUS_BUSY = false ∧ s.keeps t [MC_STATUS_BUSY]
      ∧ t = { s with regs := t.regs })
/-! ### Debug, JTAG and the VIO_GEN bank (chapters 14 and 24) -/

/-- R648 to R650 (the Debug Module, a halt with dpc, a resume into the mode of dcsr.prv), R1024 (the VIO_GEN sense), R1042 to R1044 (the boundary register). The numbers of
the Debug Module's registers and abstract commands are those of the debug specification that R648 names (log entry 18). -/
def Obligations.DebugAndJtag : Prop :=
  ∀ (s : State),
    (s.debugOff = true → exec (.debugActivate) s = .next (settle s))
    ∧ (s.debugOff = false → s.dbg.haltreq = 0 → ∃ t, exec (.debugActivate) s = .next (settle t)
      ∧ t.dbg = { s.dbg with dmactive := true, hartsel := 0, hasel := false } ∧ t.evc = (pulse 124 s).evc
      ∧ t = { s with dbg := t.dbg, evc := t.evc })
    ∧ (∃ t, exec (.jtagIdcode) s = .next (settle t)
      ∧ t.bus = { data := clean (leBytes 4 0x18100F5B) } ∧ t = { s with jtag := { s.jtag with ir := 1, balls := none }, bus := t.bus })
    ∧ (∀ balls cells : BitVec 232, ∃ t, exec (.jtagSamplePreload balls cells) s = .next (settle t)
      ∧ t = { s with jtag := { ir := 2, cells := cells }, bus := { data := clean (leBytes 29 balls.toNat) } })
    ∧ (∃ t, exec (.jtagExtest) s = .next (settle t)
      ∧ exec (.linkLoss) { s with jtag := { s.jtag with ir := 3, balls := some (boundaryLevels s.jtag.cells) } } = .next (settle t)
      ∧ t.jtag = { s.jtag with ir := 3, balls := some (boundaryLevels s.jtag.cells) })
    ∧ (∃ t, exec (.jtagClamp) s = .next (settle t)
      ∧ exec (.linkLoss) { s with jtag := { s.jtag with ir := 4, balls := some (boundaryLevels s.jtag.cells) } } = .next (settle t)
      ∧ t.jtag = { s.jtag with ir := 4, balls := some (boundaryLevels s.jtag.cells) })
    ∧ (∃ t, exec (.jtagHighz) s = .next (settle t)
      ∧ t = { s with jtag := { s.jtag with ir := 5, balls := some (boundaryBalls.map (fun _ => none)) } })
    ∧ (boundaryBalls.map (fun b => b.kind.cells)).sum = 232
    ∧ (∀ (cells : BitVec 232) (k : Nat) (b : Ball), boundaryBalls[k]? = some b →
      ∃ q, q = ((boundaryBalls.take k).map (fun b => b.kind.cells)).sum ∧ boundaryCells[k]? = some (b, q)
      ∧ (b.kind = .output → (boundaryLevels cells)[k]?
          = some (if cells.getLsbD (q + 1) then some (cells.getLsbD q) else none))
      ∧ (b.kind = .drain → (boundaryLevels cells)[k]?
          = some (if cells.getLsbD (q + 1) && !cells.getLsbD q then some false else none))
      ∧ (b.kind = .bidir → (boundaryLevels cells)[k]?
          = some (if cells.getLsbD (q + 2) then some (cells.getLsbD (q + 1)) else none))
      ∧ (b.kind = .input → (boundaryLevels cells)[k]? = some none))
    ∧ (∀ v33 : Bool, ∃ t, exec (.vioGenSense v33) s = .next (settle t)
      ∧ t.rd IO_STATUS_GEN_3V3 = b2n v33 ∧ t.rd IO_STATUS_GEN_VALID = 1
      ∧ s.keeps t [IO_STATUS_GEN_3V3, IO_STATUS_GEN_VALID] ∧ t = { s with regs := t.regs })
    ∧ (s.dbg.haltreq = 0 → s.debugOff = true →
      (∀ a v, ∃ t, exec (.jtagDmiAccess true a v) s = .next (settle t) ∧ t = { s with jtag := { s.jtag with ir := 0x11, balls := none } })
      ∧ (∀ a v, a ≠ 0x11 → ∃ t, exec (.jtagDmiAccess false a v) s = .next (settle t)
        ∧ t = { s with jtag := { s.jtag with ir := 0x11, balls := none }, bus := { data := clean (leBytes 4 0) } })
      ∧ (∀ v, ∃ t, exec (.jtagDmiAccess false 0x11 v) s = .next (settle t)
        ∧ t.bus.data[0]? = some (2, false) ∧ t = { s with jtag := { s.jtag with ir := 0x11, balls := none }, bus := t.bus }))
    ∧ (s.dbg.haltreq = 0 → s.debugOff = false →
      (∀ (v : Word) (c : Fin 2), v.getLsbD 0 = true → v.getLsbD 26 = false → getF v 16 10 = c.val → getF v 6 10 = 0 →
        v.getLsbD 31 = true → v.getLsbD 28 = false → s.coreLive c = true → ∃ t, exec (.jtagDmiAccess true 0x10 v) s = .next (settle t)
        ∧ t.core[c].debug = true
        ∧ (s.core[c].debug = false → t.core[c] = (s.core[c]).enterDebug 3 t.core[c].dpc ∧ t.core[c].dpc.getLsbD 0 = false)
        ∧ (s.core[c].debug = true → t.core[c] = s.core[c]) ∧ (∀ q : Fin 2, q ≠ c → t.core[q] = s.core[q])
        ∧ t.dbg.hartsel = c.val ∧ t.dbg.dmactive = true ∧ t.evc = (pulse 124 s).evc
        ∧ t = { s with core := t.core, dbg := t.dbg, evc := t.evc, freeCtr := t.freeCtr, jtag := { s.jtag with ir := 0x11, balls := none } })
      ∧ (∀ (v : Word) (c : Fin 2), v.getLsbD 0 = true → v.getLsbD 26 = false → getF v 16 10 = c.val → getF v 6 10 = 0 →
        v.getLsbD 31 = false → v.getLsbD 30 = true → v.getLsbD 28 = false → s.core[c].debug = true →
        ∃ t, exec (.jtagDmiAccess true 0x10 v) s = .next (settle t)
        ∧ t.core[c] = { s.core[c] with debug := false, pc := s.core[c].dpc,
                                       user := getF ((s.core[c]).csrAt 0x7B0) 0 2 == 0 } ∧ (∀ q : Fin 2, q ≠ c → t.core[q] = s.core[q])
        ∧ t.dbg.resumeack.getLsbD c = true ∧ t.evc = (pulse 124 s).evc)
      ∧ (∀ v : Word, v.getLsbD 0 = false → ∃ t, exec (.jtagDmiAccess true 0x10 v) s = .next (settle t)
        ∧ t = { s with dbg := { havereset := s.dbg.havereset }, jtag := { s.jtag with ir := 0x11, balls := none } })
      ∧ (∀ (a : BitVec 7) v, s.dbg.dmactive = false → a ≠ 0x10 → ∃ t, exec (.jtagDmiAccess true a v) s = .next (settle t)
        ∧ t = { s with jtag := { s.jtag with ir := 0x11, balls := none } })
      ∧ (∀ v, s.dbg.dmactive = true → s.dbg.autoexec = 0 → ∃ t, exec (.jtagDmiAccess true 0x04 v) s = .next (settle t)
        ∧ t = { s with dbg := { s.dbg with data0 := v }, jtag := { s.jtag with ir := 0x11, balls := none } })
      ∧ (∀ v, s.dbg.autoexec = 0 → ∃ t, exec (.jtagDmiAccess false 0x04 v) s = .next (settle t)
        ∧ t = { s with jtag := { s.jtag with ir := 0x11, balls := none }, bus := { data := clean (leBytes 4 s.dbg.data0.toNat) } })
      ∧ (∀ (c : Fin 2) (v : Word), s.dbg.dmactive = true → s.dbg.cmderr = 0 → s.dbg.hartsel = c.val → getF v 24 8 = 0 →
        (s.core[c].debug = false → ∃ t, exec (.jtagDmiAccess true 0x17 v) s = .next (settle t)
          ∧ t = { s with dbg := { s.dbg with command := v, cmderr := 4 }, jtag := { s.jtag with ir := 0x11, balls := none } })
        ∧ (∀ r : Fin 32, s.core[c].debug = true → getF v 0 16 = 0x1000 + r.val → v.getLsbD 17 = true → getF v 20 3 = 2 →
          (v.getLsbD 16 = true → ∃ t, exec (.jtagDmiAccess true 0x17 v) s = .next (settle t)
            ∧ t.core[c].gpr[r] = (if r = 0 then s.core[c].gpr[r] else s.dbg.data0)
            ∧ (∀ q : Fin 32, q ≠ r → t.core[c].gpr[q] = s.core[c].gpr[q])
            ∧ t.core[c] = { s.core[c] with gpr := t.core[c].gpr } ∧ (∀ q : Fin 2, q ≠ c → t.core[q] = s.core[q])
            ∧ t = { s with core := t.core, dbg := { s.dbg with command := v }, jtag := { s.jtag with ir := 0x11, balls := none } })
          ∧ (v.getLsbD 16 = false → ∃ t, exec (.jtagDmiAccess true 0x17 v) s = .next (settle t)
            ∧ t = { s with dbg := { s.dbg with command := v, data0 := s.core[c].gpr[r] }, jtag := { s.jtag with ir := 0x11, balls := none } }))
        ∧ (s.core[c].debug = true → getF v 0 16 = 0x341 → v.getLsbD 17 = true → getF v 20 3 = 2 →
          (v.getLsbD 16 = true → ∃ t, exec (.jtagDmiAccess true 0x17 v) s = .next (settle t)
            ∧ t.core[c] = { s.core[c] with mepc := s.dbg.data0 &&& ~~~1 } ∧ (∀ q : Fin 2, q ≠ c → t.core[q] = s.core[q]))
          ∧ (v.getLsbD 16 = false → ∃ t, exec (.jtagDmiAccess true 0x17 v) s = .next (settle t)
            ∧ t.dbg.data0 = s.core[c].mepc ∧ t.core = s.core)))
      ∧ (∀ v, s.dbg.dmactive = true → s.dbg.cmderr ≠ 0 → ∃ t, exec (.jtagDmiAccess true 0x17 v) s = .next (settle t)
        ∧ t = { s with jtag := { s.jtag with ir := 0x11, balls := none } })
      ∧ (∀ v, s.dbg.dmactive = true → s.dbg.sbaccess = 2 → s.dbg.sbauto = true → s.dbg.sberror = 0 → s.mayIssue 2 = true →
        s.dbg.sbaddr.toNat % 4 = 0 → regionAt s.dbg.sbaddr.toNat = .ringSram → s.memDue = 0 → s.flag INT_INJECT_ARM = false →
        s.blockedBy 2 true s.dbg.sbaddr.toNat = none → s.blockedBy 2 true (s.dbg.sbaddr.toNat + 3) = none →
        ∃ t, exec (.jtagDmiAccess true 0x3C v) s = .next (settle t)
        ∧ t.peekBytes s.dbg.sbaddr.toNat 4 = leBytes 4 v.toNat ∧ t.dbg.sbaddr = s.dbg.sbaddr + 4 ∧ t.dbg.sbdata = v
        ∧ s.memOutside t s.dbg.sbaddr.toNat (s.dbg.sbaddr.toNat + 4)))
/-! ### The Almanac (chapter 22) and the Array Engine (chapter 12) -/

/-- R985, R989 to R992, R995, R997, R999 to R1006 and R1010 to R1012: the tick, the index build, records and commands of
the Almanac. -/
def Obligations.AlmanacCommands : Prop :=
  ∀ (s : State),
    let allowed := (List.range 16).all (fun i => !s.flag (PROT_CTRL_EN i) || s.bit (PROT_ALLOW_ALLOW i) 18)
    let writer := s.flag INT_INJECT_ARM = false ∧ s.ecc = [] ∧ s.memDue = 0
    let indexFields := [ALM_NEWEST_VALID, ALM_NEWEST_INDEX, ALM_COUNT_LO_TRACE, ALM_COUNT_LO_NOTICE, ALM_COUNT_HI_FAULT,
      ALM_COUNT_HI_CRITICAL]
    (s.runs 1 = false → ∃ t, exec (.timeTick) s = .next (settle t)
      ∧ t.rd ALM_TIME_TIME = satInc 32 (s.rd ALM_TIME_TIME) ∧ t.alm.ticks = s.alm.ticks + 1
      ∧ t.alm.rc = s.flag CLK_STATUS_AON_SRC ∧ s.keeps t [ALM_TIME_TIME]
      ∧ t = { s with regs := t.regs, alm := { s.alm with ticks := t.alm.ticks, rc := t.alm.rc } })
    ∧ (s.runs 1 = true → writer → ∃ t, exec (.timeTick) s = .next (settle t)
      ∧ t.rd ALM_TIME_TIME = satInc 32 (s.rd ALM_TIME_TIME) ∧ t.alm.rc = s.flag CLK_STATUS_AON_SRC
      ∧ (∀ x, s.stateBlock = some x → t.peekBytes (stateCopy x.1) 32 = s.peekBytes (stateCopy x.1) 32
        ∧ t.peekBytes (stateCopy (1 - x.1)) 28 = leBytes 4 (t.rd ALM_TIME_TIME) ++ leBytes 3 (s.rd ALM_CYCLES_CYCLES) ++ [0]
            ++ (List.range 4).flatMap (fun k => leBytes 4 (s.rd (ALM_DROPPED_COUNT k))) ++ leBytes 4 (fieldB x.2 24 4 + 1)
        ∧ (t.copyAt (1 - x.1)).isSome = true
        ∧ (fieldB x.2 24 4 + 1 < 2 ^ 32 → (t.stateBlock).map Prod.fst = some (1 - x.1)))
      ∧ (s.stateBlock = none → (t.copyAt 0).isSome = true ∧ s.memKept t [(stateCopy 0, stateCopy 1)])
      ∧ s.memKept t [(stateCopy 0, stateCopy 2)] ∧ s.keeps t [ALM_TIME_TIME, MRAM_STATUS_WRITES]
      ∧ t = { s with regs := t.regs, mem := t.mem, ecc := t.ecc, mram := t.mram, alm := { s.alm with rc := t.alm.rc } })
    ∧ ((s.runs 1 = false ∨ s.flag ALM_STATUS_READY = true) → exec (.almanacIndexBuild) s = .next (settle s))
    ∧ (s.runs 1 = true → s.flag ALM_STATUS_READY = false → s.ecc = [] → s.alm.lostDue = false →
      ∃ t, exec (.almanacIndexBuild) s = .next (settle t)
      ∧ t.alm.recs = (List.range 4096).filterMap (fun i => almParse i (s.peekBytes (almSlotAddr i) 32))
      ∧ (∀ r ∈ t.alm.recs, (r.cycles, r.time) = (s.rd ALM_CYCLES_CYCLES, s.rd ALM_TIME_TIME) → r.subseq < t.alm.nextSub)
      ∧ t.alm.subKey = (s.rd ALM_CYCLES_CYCLES, s.rd ALM_TIME_TIME) ∧ t.flag ALM_STATUS_READY = true
      ∧ t.rd ALM_COUNT_LO_TRACE = (t.alm.recs.filter (fun r => r.sev == 0)).length
      ∧ t.rd ALM_COUNT_LO_NOTICE = (t.alm.recs.filter (fun r => r.sev == 1)).length
      ∧ t.rd ALM_COUNT_HI_FAULT = (t.alm.recs.filter (fun r => r.sev == 2)).length
      ∧ t.rd ALM_COUNT_HI_CRITICAL = (t.alm.recs.filter (fun r => r.sev == 3)).length
      ∧ (∀ n, newest t.alm.recs = some n → t.rd ALM_NEWEST_VALID = 1 ∧ t.rd ALM_NEWEST_INDEX = n.slot
        ∧ ∀ r ∈ t.alm.recs, r.age ≤ n.age)
      ∧ (t.alm.recs = [] → t.rd ALM_NEWEST_VALID = 0) ∧ s.keeps t (ALM_STATUS_READY :: indexFields)
      ∧ t = { s with regs := t.regs, alm := t.alm })
    ∧ (∀ e, s.headEntry 448 = some e → s.flag ALM_STATUS_READY = true → s.flag ALM_CTRL_ENABLE = true → s.runs 1 = true →
      (s.ring 448).consumer = 11 → (s.ring 448).bytes = 32 → writer → allowed = true →
      let sev := fieldB e 7 1 / 64
      let sub := if s.alm.subKey = (s.rd ALM_CYCLES_CYCLES, s.rd ALM_TIME_TIME) then min s.alm.nextSub 63 else 0
      (∀ i, almTarget s.alm.recs sev = some i → i < 4096 → ∃ t, exec (.almanacRecord) s = .next (settle t)
        ∧ s.took t 448
        ∧ t.peekBytes (almSlotAddr i) 32
          = almRecord (s.rd ALM_TIME_TIME) (s.rd ALM_CYCLES_CYCLES) sub s.alm.rc e
        ∧ t.alm.recs = { slot := i, sev := sev, cycles := s.rd ALM_CYCLES_CYCLES, time := s.rd ALM_TIME_TIME, subseq := sub }
            :: s.alm.recs.filter (fun o => o.slot != i)
        ∧ t.alm.subKey = (s.rd ALM_CYCLES_CYCLES, s.rd ALM_TIME_TIME) ∧ t.rd ALM_STATUS_WRITE_INDEX = i
        ∧ t.rd ALM_EVENT_WRITTEN = (if s.rd ALM_CTRL_IRQ_SEV ≤ sev then 1 else s.rd ALM_EVENT_WRITTEN)
        ∧ s.memKept t [(almSlotAddr i, almSlotAddr (i + 1))]
        ∧ s.keeps t ([ALM_STATUS_WRITE_INDEX, ALM_EVENT_WRITTEN, MRAM_STATUS_WRITES] ++ indexFields)
        ∧ t = { s with regs := t.regs, mem := t.mem, ecc := t.ecc, rings := t.rings, core := t.core, mram := t.mram,
                       alm := { s.alm with recs := t.alm.recs, nextSub := t.alm.nextSub, subKey := t.alm.subKey } })
      ∧ (almTarget s.alm.recs sev = none → ∃ t, exec (.almanacRecord) s = .next (settle t)
        ∧ s.took t 448 ∧ t.rd (ALM_DROPPED_COUNT sev) = satInc 32 (s.rd (ALM_DROPPED_COUNT sev))
        ∧ t.flag ALM_EVENT_DROP = true ∧ t.evc = (pulse 120 s).evc
        ∧ s.keeps t [ALM_DROPPED_COUNT sev, ALM_EVENT_DROP]
        ∧ t = { s with regs := t.regs, rings := t.rings, evc := t.evc }))
    ∧ (∀ sev, (∀ i, lowestIdx 4096 (fun i => !s.alm.recs.any (fun r => r.slot == i)) = some i →
        almTarget s.alm.recs sev = some i)
      ∧ (lowestIdx 4096 (fun i => !s.alm.recs.any (fun r => r.slot == i)) = none → (∀ r ∈ s.alm.recs, sev < r.sev) →
        almTarget s.alm.recs sev = none)
      ∧ (∀ o, lowestIdx 4096 (fun i => !s.alm.recs.any (fun r => r.slot == i)) = none →
        almTarget s.alm.recs sev = some o → (∀ r ∈ s.alm.recs, r.sev < 4) →
        s.alm.recs.any (fun v => v.slot == o && decide (v.sev ≤ sev)
          && s.alm.recs.all (fun r => decide (v.sev < r.sev ∨ (v.sev = r.sev ∧ v.age ≤ r.age)))) = true))
    ∧ ((s.flag ALM_STATUS_READY = false ∨ s.flag ALM_STATUS_CMD_BUSY = true) →
      (s.regOn ALM_CMD_WORD.addr = true → ∃ t, exec (.almErase) s = .next (settle t)
        ∧ t.rd ALM_ERR_CODE = (if s.rd ALM_ERR_CODE = 0 then 4 else s.rd ALM_ERR_CODE) ∧ t.flag ALM_EVENT_ERROR = true
        ∧ t.evc = (pulse 121 s).evc ∧ s.keeps t [ALM_ERR_CODE, ALM_EVENT_ERROR] ∧ t = { s with regs := t.regs, evc := t.evc })
      ∧ (s.regOn ALM_CMD_WORD.addr = true → ∃ t, exec (.almClearDropped) s = .next (settle t)
        ∧ t.rd ALM_ERR_CODE = (if s.rd ALM_ERR_CODE = 0 then 4 else s.rd ALM_ERR_CODE) ∧ t.flag ALM_EVENT_ERROR = true
        ∧ t.evc = (pulse 121 s).evc ∧ s.keeps t [ALM_ERR_CODE, ALM_EVENT_ERROR] ∧ t = { s with regs := t.regs, evc := t.evc }))
    ∧ (s.flag ALM_STATUS_READY = true → s.flag ALM_STATUS_CMD_BUSY = false → writer → allowed = true →
      s.regOn ALM_CMD_WORD.addr = true → ∃ t, exec (.almErase) s = .next (settle t)
      ∧ (∀ i, 0 < i → i < 4096 → t.byteAt (almSlotAddr i + 11) = 0)
      ∧ t.peekBytes (almSlotAddr 0) 4 = leBytes 4 (s.rd ALM_TIME_TIME)
      ∧ t.peekBytes (almSlotAddr 0 + 7) 4 = [0x4C, 0x02, 0x0C, 121]
      ∧ t.peekBytes (almSlotAddr 0 + 12) 16 = (List.range 4).flatMap (fun k => leBytes 4 (s.rd (ALM_DROPPED_COUNT k)))
      ∧ t.alm.recs.map AlmRec.slot = [0] ∧ t.alm.recs.map AlmRec.sev = [1]
      ∧ s.memKept t [(almSlotAddr 0, almSlotAddr 4096)]
      ∧ s.keeps t ([ALM_STATUS_WRITE_INDEX, ALM_EVENT_WRITTEN, MRAM_STATUS_WRITES] ++ indexFields))
    ∧ (s.flag ALM_STATUS_READY = true → s.flag ALM_STATUS_CMD_BUSY = false →
      s.regOn ALM_CMD_WORD.addr = true → ∃ t, exec (.almClearDropped) s = .next (settle t)
      ∧ (∀ k : Fin 4, t.rd (ALM_DROPPED_COUNT k) = 0)
      ∧ s.keeps t ((List.range 4).map (fun k => ALM_DROPPED_COUNT k)) ∧ t = { s with regs := t.regs })

/-- R568 to R571, R573 to R577: a command taken from ring 256, what it reads and writes, and its completion. -/
def Obligations.ArrayCommands : Prop :=
  ∀ (s : State),
    (∀ e, s.headEntry 256 = some e → s.ecc = [] → s.memDue = 0 → s.ae.cur = none → s.flag AE_CTRL_ENABLE = true →
      (s.ring 256).bytes = 32 →
      let u := (((s.dequeue 256).2.up AE_STATUS_BUSY).wr AE_STATUS_CMD_ID (fieldB e 0 2))
      let r := u.aeRun e
      let runs := fun (t : State) => s.took t 256 ∧ t.rd AE_STATUS_CMD_ID = r.2.rd AE_STATUS_CMD_ID
        ∧ t.ae.cur = some (sliceB e 0 2 ++ leBytes 1 r.1.1 ++ zerosB 1 ++ leBytes 4 r.1.2 ++ sliceB e 24 8)
        ∧ ((aeCmdOf e).ok e = false → r.1 = (4, 0) ∧ t.mem = s.mem ∧ t.flag AE_STATUS_BUSY = true
          ∧ t.rd AE_STATUS_CMD_ID = fieldB e 0 2 ∧ s.keeps t [AE_STATUS_BUSY, AE_STATUS_CMD_ID])
        ∧ t = { r.2 with ae := t.ae }
      (fieldB e 2 1 = 1 → s.runs 1 = true → ∃ t, exec (.aeGen) s = .next (settle t) ∧ runs t)
      ∧ (fieldB e 2 1 = 2 → s.runs 1 = true → ∃ t, exec (.aeSolve) s = .next (settle t) ∧ runs t)
      ∧ (fieldB e 2 1 = 3 → s.runs 1 = true → ∃ t, exec (.aeCopy) s = .next (settle t) ∧ runs t)
      ∧ (fieldB e 2 1 = 4 → s.runs 1 = true → ∃ t, exec (.aeCheck) s = .next (settle t) ∧ runs t)
      ∧ (fieldB e 2 1 = 5 → s.runs 1 = true → ∃ t, exec (.aeZero) s = .next (settle t) ∧ runs t))
    ∧ (∀ e, (aeCmdOf e).ok e = true → (aeCmdOf e).lines = 1 → (aeCmdOf e).flags = 0 →
      ∀ l, (s.aeSources (aeCmdOf e)).1 = .ok l → ∀ d, (aeReadAll false 0 ((aeCmdOf e).uses l) (s.aeSources (aeCmdOf e)).2).1 = .ok d →
      let v := (aeReadAll false 0 ((aeCmdOf e).uses l) (s.aeSources (aeCmdOf e)).2).2
      let o := (aeCmdOf e).outputs d
      ((aeCmdOf e).op = 4 → (s.aeRun e).2 = v
        ∧ (o.1 = zerosB 64 → o.2 = zerosB 64 → (s.aeRun e).1 = (0, 0))
        ∧ (∀ i, firstNonZero o.1 = some i → o.2 = zerosB 64 → (s.aeRun e).1 = (1, i)))
      ∧ (((aeCmdOf e).op = 5 ∨ ((aeCmdOf e).op ≠ 4 ∧ (aeCmdOf e).dst1 = 0)) → (aeCmdOf e).dst0 ≠ 0 →
        s.aeRun e = ((0, 0), (v.masterWrite 14 false false (aeCmdOf e).dst0 (clean o.1)).2))
      ∧ (((aeCmdOf e).op = 1 ∨ (aeCmdOf e).op = 3) → (aeCmdOf e).dst0 = 0 → (aeCmdOf e).dst1 ≠ 0 →
        s.aeRun e = ((0, 0), (v.masterWrite 14 false false (aeCmdOf e).dst1 (clean o.2)).2)))
    ∧ (∀ (c : AeCmd) (x y : AeSrc × List Byte), x.2.length = 64 → y.2.length = 64 →
      ((c.op = 1 ∨ c.op = 4) → x.1.p = true → y.1.p = true → (c.outputs [x, y]).1 = xorB x.2 y.2)
      ∧ ((c.op = 1 ∨ c.op = 4) → x.1.q = true → y.1.q = true →
        (c.outputs [x, y]).2 = xorB (gfScale (gfPow2 x.1.exp) x.2) (gfScale (gfPow2 y.1.exp) y.2))
      ∧ (c.op = 3 → c.outputs [x] = (x.2, x.2)) ∧ (c.op = 5 → c.outputs [] = (zerosB 64, zerosB 64)))
    ∧ (∀ c, s.ae.cur = some c → s.enqTest 257 = .ok → s.ae.refused = false → c.length ≤ (s.ring 257).bytes →
      s.runs 1 = true → ∃ t, exec (.aeCommandComplete) s = .next (settle t)
      ∧ t.ae = {} ∧ t.rd AE_COUNT_CMDS = satInc 16 (s.rd AE_COUNT_CMDS) ∧ t.flag AE_STATUS_BUSY = false
      ∧ (fieldB c 2 1 = 0 → s.posted t 257 c ∧ s.keeps t [AE_COUNT_CMDS, AE_STATUS_BUSY, INT_INJECT_ARM])
      ∧ (fieldB c 2 1 ≠ 0 → s.posted t 257 c ∧ t.rd AE_COUNT_ERRORS = satInc 16 (s.rd AE_COUNT_ERRORS)
        ∧ t.rd AE_LAST_ERR_CMD_ID = fieldB c 0 2 ∧ t.rd AE_LAST_ERR_STATUS = fieldB c 2 1
        ∧ t.bit AE_EVENT_EV (if fieldB c 2 1 = 1 ∨ fieldB c 2 1 = 2 then 1 else 0) = true
        ∧ s.keeps t [AE_COUNT_CMDS, AE_STATUS_BUSY, AE_COUNT_ERRORS, AE_LAST_ERR_CMD_ID, AE_LAST_ERR_STATUS, AE_EVENT_EV,
            INT_INJECT_ARM])
      ∧ t = { s with regs := t.regs, mem := t.mem, ecc := t.ecc, rings := t.rings, memDue := t.memDue, ae := {} })
    ∧ (∀ c, s.ae.cur = some c → s.enqTest 257 ≠ .ok → s.runs 1 = true → ∃ t, exec (.aeCommandComplete) s = .next (settle t)
      ∧ t.ae = { s.ae with refused := true } ∧ t.mem = s.mem
      ∧ (s.ae.refused = true → t.regs = s.regs))
    ∧ (s.ae.refused = true → s.runs 1 = true → ∃ t, exec (.aeComplOverflow) s = .next (settle t)
      ∧ t.bit AE_EVENT_EV 3 = true ∧ s.keeps t [AE_EVENT_EV] ∧ t = { s with regs := t.regs })

/-- R502, R504 and R569: SOLVE gives back the two data blocks that the P and Q of GEN were made from, and with one
unknown the block that Q was made from. -/
def Obligations.SolveRecovers : Prop :=
  ∀ (c : AeCmd) (p q : AeSrc) (dx dy : List Byte), c.op = 2 → dx.length = 64 → dy.length = 64 → c.x < 255 →
    (c.y < 255 → c.x ≠ c.y →
      c.outputs [(p, xorB dx dy), (q, xorB (gfScale (gfPow2 c.x) dx) (gfScale (gfPow2 c.y) dy))] = (dx, dy))
    ∧ (c.y = 0xFF → (c.outputs [(p, dy), (q, gfScale (gfPow2 c.x) dx)]).1 = dx)
/-! ### Volumes, array tasks and Otivo's start (chapters 3, 9, 11, 12, 16 and 18) -/

/-- R493 to R497, R505, R522, R525, R527 and R540: where the combinations of Table 11.6 put their chunks, where a chunk
goes when one unit fails, and the record of a volume that loses a member. -/
def Obligations.VolumeLayouts : Prop :=
  (∀ g ∈ combos, ∀ row k k', k < g.n → k' < g.n → g.unit row k < g.n ∧ (g.unit row k = g.unit row k' → k = k'))
  ∧ (∀ g ∈ combos, ∀ c, (g.chunk c).2.1 < g.t ∧ (g.chunk c).2.2 < g.d
    ∧ g.chunkNo (g.chunk c).1 (g.chunk c).2.1 (g.chunk c).2.2 = c)
  ∧ (∀ g ∈ combos, ∀ row t, t < g.t → (g.stripe row t).length = g.w
    ∧ ((g.stripe row t).map Prod.snd).Nodup ∧ ((g.stripe row t).map Prod.fst).Nodup
    ∧ (∀ e ∈ g.stripe row t, t * g.w ≤ e.2 ∧ e.2 < (t + 1) * g.w))
  ∧ (∀ g ∈ combos, ∀ row k f, g.layout ≠ 0 → k < g.t * g.w → f < g.n →
    (g.unit row k ≠ f → (g.homes row [f]).getD k none = some k)
    ∧ (g.unit row k = f → 1 ≤ g.s → (g.homes row [f]).getD k none = some (g.t * g.w)))
  ∧ (∀ (r : VolRec) u st, r.length = 480 → u < 8 → st < 256 → mState r u ≠ 3 → (vFails r).contains u = false →
    ((vFails r).length < 2 → (failUnit r u st).2 = false ∧ mState (failUnit r u st).1 u = st
      ∧ vFails (failUnit r u st).1 = vFails r ++ [u] ∧ vRebRow (failUnit r u st).1 = 0
      ∧ (∀ q, q < 8 → q ≠ u → mState (failUnit r u st).1 q = mState r q)
      ∧ (∀ q, q < 8 → mPort (failUnit r u st).1 q = mPort r q ∧ mSerial (failUnit r u st).1 q = mSerial r q)
      ∧ vGeo (failUnit r u st).1 = vGeo r ∧ vCpu (failUnit r u st).1 = vCpu r ∧ vBase (failUnit r u st).1 = vBase r)
    ∧ ((vFails r).length = 2 → (failUnit r u st).2 = true ∧ vFails (failUnit r u st).1 = vFails r
      ∧ mState (failUnit r u st).1 u = st))
  ∧ (∀ (r : VolRec) u, r.length = 480 → u < 8 → mState r u = 3 → (vFails r).contains u = true →
    (failUnit r u 1).2 = false ∧ vFlag (failUnit r u 1).1 4 = false ∧ mState (failUnit r u 1).1 u = 1
    ∧ vFails (failUnit r u 1).1 = vFails r)

/-- R526, R527, R535 to R552, R554 to R557, R566, R567 and R811: the array tasks. What the medium answers is an operand
(log entry 1). -/
def Obligations.ArrayTasks : Prop :=
  ∀ (s : State),
    (∀ (p : Fin 8) (cause : Fin 5) (held : Bool),
      ((s.otRuns = false ∨ s.ot.offline.getLsbD p.val = true) → exec (.portOffline p cause held) s = .next (settle s))
      ∧ (s.otRuns = true → s.ot.offline.getLsbD p.val = false →
        (s.otWatch.fate p (cause.val + 1) held = .offline → let t := s.otWatch.failPort p (cause.val + 1)
          exec (.portOffline p cause held) s = .next (settle t)
          ∧ t.ot.offline = s.ot.offline ||| portBit p
          ∧ t.ot.loaded = s.ot.loaded &&& ~~~portBit p ∧ t.ot.parked = s.ot.parked &&& ~~~portBit p)
        ∧ (s.otWatch.fate p (cause.val + 1) held = .retry →
          let t := if cause.val = 1 then (s.otWatch.spnClearFault p true).spnStart p else s.otWatch.srvLoad p
          exec (.portOffline p cause held) s = .next (settle t)
          ∧ t.ot.offline = s.ot.offline)
        ∧ (s.otWatch.fate p (cause.val + 1) held = .stay → exec (.portOffline p cause held) s = .next (settle s.otWatch)
          ∧ s.otWatch.ot.offline = s.ot.offline)))
    ∧ (∀ (p : Fin 8) (held : Bool), (s.fate p 1 held = .offline ↔ s.rd (SPN_STATUS_FAULT_CAUSE p) = 3)
      ∧ (s.fate p 5 held = .offline ↔ s.feat 1 ≤ s.errorCount p)
      ∧ (s.fate p 2 held = .retry → (s.rd (SPN_STATUS_FAULT_CAUSE p) = 1 ∨ s.rd (SPN_STATUS_FAULT_CAUSE p) = 2) ∧ held = true
        ∧ s.recent 682 s.ot.spnAt[p] < 2)
      ∧ s.fate p 5 held ≠ .retry)
    ∧ (∀ (v : Fin 4) (m : MediaEnd) (waited : Bool) (unit : BitVec 56) (j : BitVec 18),
      (s.otRuns = false ∨ s.assembled v = false) →
      exec (.rebuildStart v waited) s = .next (settle s) ∧ exec (.rebuildRow v m) s = .next (settle s)
      ∧ exec (.copybackRow v m) s = .next (settle s) ∧ exec (.replacementFail v) s = .next (settle s)
      ∧ exec (.destage v unit m) s = .next (settle s) ∧ exec (.writeIntentClear v j) s = .next (settle s)
      ∧ exec (.resyncRegion v j m) s = .next (settle s) ∧ exec (.reshapeGroup v m) s = .next (settle s)
      ∧ exec (.reshapePause v) s = .next (settle s))
    ∧ (∀ (v : Fin 4) (m : MediaEnd), s.otRuns = true → s.assembled v = true →
      (∀ waited : Bool, let past := waited || (s.openUnits v (s.vol v)).all (fun u => (s.ot.delayed[v]).testBit u)
        let w := s.missUnits v (s.openUnits v (s.vol v))
        ((s.rebuildDue v (s.vol v) && past) = false → exec (.rebuildStart v waited) s = .next (settle s))
        ∧ ((s.rebuildDue v (s.vol v) && past) = true → vState (w.vol v) ≠ 4 →
          ∃ t, exec (.rebuildStart v waited) s = .next (settle t)
          ∧ t.ot.rebuild = w.ot.rebuild ||| volBit v ∧ t.ot.rebRow[v] = 0 ∧ (∀ q : Fin 4, q ≠ v → t.ot.rebRow[q] = s.ot.rebRow[q])
          ∧ t.media = s.media)
        ∧ ((s.rebuildDue v (s.vol v) && past) = true → vState (w.vol v) = 4 →
          exec (.rebuildStart v waited) s = .next (settle w)))
      ∧ ((s.ot.rebuild.getLsbD v.val = false ∨ vFlag (s.vol v) 2 = true ∨ s.mayWork (s.vol v) = false ∨ s.ot.resync[v] ≠ []) →
        exec (.rebuildRow v m) s = .next (settle s))
      ∧ (s.ot.rebuild.getLsbD v.val = true → vFlag (s.vol v) 2 = false → s.mayWork (s.vol v) = true →
        s.ot.resync[v] = [] → s.ot.rebRow[v] < vCpu (s.vol v) →
        let a := s.eachSlice v (s.layoutAt v (s.vol v) s.ot.rebRow[v]) s.ot.rebRow[v] (rebuildSlice m (s.vol v))
        (a.1 = false → exec (.rebuildRow v m) s = .next (settle a.2))
        ∧ (a.1 = true → ∃ t, exec (.rebuildRow v m) s = .next (settle t)
          ∧ t.ot.rebRow[v] = s.ot.rebRow[v] + 1 ∧ t.media.disc = a.2.media.disc
          ∧ (vCpu (s.vol v) ≤ s.ot.rebRow[v] + 1 → t.ot.rebuild = a.2.ot.rebuild &&& ~~~volBit v
            ∧ t.bit AE_EVENT_EV 5 = true)
          ∧ (s.ot.rebRow[v] + 1 < vCpu (s.vol v) → t.ot.rebuild = a.2.ot.rebuild)))
      ∧ (replacing (s.vol v) = none → exec (.copybackRow v m) s = .next (settle s)
        ∧ exec (.replacementFail v) s = .next (settle s))
      ∧ (∀ u, replacing (s.vol v) = some u →
        (exec (.replacementFail v) s = .next (settle ((s.modOt (fun o => { o with
          delayed := o.delayed.set v (maskOf 8 (fun k => (s.ot.delayed[v]).testBit k && k != u)) })).commitVol v
            (failUnit (s.vol v) u 1).1 (failUnit (s.vol v) u 1).2)))
        ∧ ((vFlag (s.vol v) 4 = false ∨ vFlag (s.vol v) 2 = true ∨ s.mayWork (s.vol v) = false) →
          exec (.copybackRow v m) s = .next (settle s))
        ∧ (vFlag (s.vol v) 4 = true → vFlag (s.vol v) 2 = false → s.mayWork (s.vol v) = true →
          s.ot.cbRow[v] < vCpu (s.vol v) →
          let a := s.eachSlice v (s.layoutAt v (s.vol v) s.ot.cbRow[v]) s.ot.cbRow[v] (copybackSlice m u)
          (a.1 = false → exec (.copybackRow v m) s = .next (settle a.2))
          ∧ (a.1 = true → ∃ t, exec (.copybackRow v m) s = .next (settle t)
            ∧ t.ot.cbRow[v] = s.ot.cbRow[v] + 1 ∧ t.media.disc = a.2.media.disc
            ∧ (vCpu (s.vol v) ≤ s.ot.cbRow[v] + 1 → t.ot.rebRow[v] = 0 ∧ t.bit AE_EVENT_EV 5 = true))))
      ∧ (∀ unit : BitVec 56,
        (s.cached v.val unit.toNat = none → exec (.destage v unit m) s = .next (settle s))
        ∧ (∀ e, s.cached v.val unit.toNat = some e →
          (e.dirty = 0 → exec (.destage v unit m) s = .next (settle s))
          ∧ (e.dirty ≠ 0 → s.volParked (s.vol v) = true →
            exec (.destage v unit m) s = .next (settle (s.wakeVol (s.vol v))))
          ∧ (e.dirty ≠ 0 → s.volParked (s.vol v) = false →
            (s.ot.resync[v].contains (unit.toNat / 16384) = true ∨ s.groupHolds v unit.toNat = true) →
            exec (.destage v unit m) s = .next (settle s))
          ∧ (e.dirty ≠ 0 → s.volParked (s.vol v) = false → s.ot.resync[v].contains (unit.toNat / 16384) = false →
            s.groupHolds v unit.toNat = false → e.vol = v.val → e.unit = unit.toNat →
            exec (.destage v unit m) s = .next (settle (s.destageUnit m e).2)
            ∧ ((s.destageUnit m e).1 = true → ((s.destageUnit m e).2.cached v.val unit.toNat).map CacheEnt.dirty = some 0))))
      ∧ (∀ j : BitVec 18,
        (s.resyncNext v (s.vol v) = some j.toNat → vState (s.vol v) ≠ 4 → s.groupBusy v (s.vol v) = false →
          (s.volParked (s.vol v) = true → exec (.resyncRegion v j m) s = .next (settle (s.wakeVol (s.vol v))))
          ∧ (s.volParked (s.vol v) = false →
            let a := (s.regionSlices v (s.vol v) j.toNat).foldl (fun (a : Bool × State) x =>
              ((a.1 && (a.2.resyncSlice m x).1), (a.2.resyncSlice m x).2)) (true, s)
            (a.1 = false → exec (.resyncRegion v j m) s = .next (settle a.2))
            ∧ (a.1 = true → ∃ t, exec (.resyncRegion v j m) s = .next (settle t)
              ∧ t.ot.resync[v] = s.ot.resync[v].filter (fun x => x != j.toNat) ∧ t.media.disc = a.2.media.disc
              ∧ (∀ q : Fin 4, q ≠ v → t.ot.resync[q] = s.ot.resync[q]))))
        ∧ ((∀ x, s.resyncNext v (s.vol v) = some x → s.ot.resync[v].contains x = true)
          ∧ (s.resyncNext v (s.vol v) = none → s.ot.resync[v] = []))
        ∧ ((s.resyncNext v (s.vol v) ≠ some j.toNat ∨ vState (s.vol v) = 4 ∨ s.groupBusy v (s.vol v) = true) →
          exec (.resyncRegion v j m) s = .next (settle s))
        ∧ ((vWiBits (s.vol v) ≤ j.toNat ∨ s.ot.resync[v].contains j.toNat = true) →
          exec (.writeIntentClear v j) s = .next (settle s))
        ∧ (j.toNat < vWiBits (s.vol v) → s.ot.resync[v].contains j.toNat = false →
          vWiFirst (s.vol v) + j.toNat < 262144 → s.ecc = [] → s.flag INT_INJECT_ARM = false →
          (List.range 16).all (fun i => !s.flag (PROT_CTRL_EN i) || s.bit (PROT_ALLOW_ALLOW i) 1) = true →
          ∃ t, exec (.writeIntentClear v j) s = .next (settle t)
          ∧ t.wiBit (vWiFirst (s.vol v) + j.toNat) = false
          ∧ (∀ b, b < 262144 → b ≠ vWiFirst (s.vol v) + j.toNat → t.wiBit b = s.wiBit b)
          ∧ s.memKept t [(wiAddr (vWiFirst (s.vol v) + j.toNat), wiAddr (vWiFirst (s.vol v) + j.toNat) + 1)]
          ∧ s.keeps t [MRAM_STATUS_WRITES]
          ∧ t = { s with regs := t.regs, mem := t.mem, ecc := t.ecc, core := t.core, mram := t.mram }))
      ∧ ((vFlag (s.vol v) 3 = false ∨ s.checkpoint v = none) → exec (.reshapeGroup v m) s = .next (settle s))
      ∧ (∀ c, s.checkpoint v = some c → vFlag (s.vol v) 3 = true →
        ((s.reshapeMay v (s.vol v) = false ∨ s.mayWork (s.vol v) = false) → ckState c.2 ≠ 3 →
          ckB c.2 < vCpu (s.vol v) → ckG c.2 ≠ 0 → exec (.reshapeGroup v m) s = .next (settle s))
        ∧ ((ckState c.2 = 3 ∨ vCpu (s.vol v) ≤ ckB c.2 ∨ ckG c.2 = 0) → ∃ t, exec (.reshapeGroup v m) s = .next (settle t)
          ∧ t.ot.paused = s.ot.paused &&& ~~~volBit v ∧ t.bit AE_EVENT_EV 5 = true ∧ t.media = s.media
          ∧ t.rd (HQE_VOL_CAP_UNITS v) = min (geoCap (vGeo (s.vol v)) (vCpu (s.vol v)) (vLss (s.vol v))
              / (if vLss (s.vol v) then 1 else 8)) 0xFFFFFFFF)
        ∧ (s.reshapeMay v (s.vol v) = true → s.mayWork (s.vol v) = true → ckState c.2 ≠ 3 →
          ckB c.2 < vCpu (s.vol v) → ckG c.2 ≠ 0 →
          let t := (s.modOt (fun o => { o with paused := o.paused &&& ~~~volBit v })).reshapeGroup v m (s.vol v) c.2
          exec (.reshapeGroup v m) s = .next (settle t) ∧ t.ot.paused = s.ot.paused &&& ~~~volBit v))
      ∧ ((vFlag (s.vol v) 3 && (vUnits (s.vol v)).any (fun u => s.gone v (s.vol v) u)) = true →
        ∃ t, exec (.reshapePause v) s = .next (settle t)
        ∧ t = { s with ot := { s.ot with paused := s.ot.paused ||| volBit v } })
      ∧ ((vFlag (s.vol v) 3 && (vUnits (s.vol v)).any (fun u => s.gone v (s.vol v) u)) = false →
        exec (.reshapePause v) s = .next (settle s)))
    ∧ (∀ (m : MediaEnd) (p : Fin 8) sec b, b ≠ [] →
      (m.stop.lookup (p.val, sec) = none → m.cut.contains (p.val, sec) = false → (s.writeSector m p.val sec b).1 = true
        ∧ (let t := (s.writeSector m p.val sec b).2
          t = { s with media := t.media, ot := { s.ot with ends := t.ot.ends } })
        ∧ (m.fail.contains (p.val, sec) = false → ((s.writeSector m p.val sec b).2.readSector m p.val sec).1 = some b)
        ∧ (∀ k, k ≠ s.sectorKey p.val sec → (s.writeSector m p.val sec b).2.discAt k = s.discAt k))
      ∧ (m.stop.lookup (p.val, sec) = none → m.cut.contains (p.val, sec) = true → (s.writeSector m p.val sec b).1 = false
        ∧ (s.writeSector m p.val sec b).2.media = s.media
        ∧ (s.writeSector m p.val sec b).2.ot.errs[p] = s.ot.errs[p] ++ [(s.reg ALM_TIME_WORD.addr).toNat]))

/-- R980 and R399: the STATUS of Table 21.14 with which a port's media routine ends a request for a unit sector, and
what the request leaves. How the request ends on the medium is an operand (log entry 1). -/
def Obligations.MediaRequests : Prop :=
  ∀ (s : State) (m : MediaEnd) (p : Fin 8) (sec : Nat) (b : List Byte),
    let k := s.sectorKey p.val sec
    let rd := s.readSector m p.val sec
    let wr := s.writeSector m p.val sec b
    let tick := (s.reg ALM_TIME_WORD.addr).toNat
    ([MediaStatus.ok, .readFail, .piFail, .writeFail, .seekFail, .aborted, .hw, .badRequest].map MediaStatus.code
      = [0, 1, 2, 3, 4, 5, 6, 7])
    ∧ (∀ st, m.stop.lookup (p.val, sec) = some st →
      rd = (none, { s with ot := { s.ot with ends := s.ot.ends.set p st } }) ∧ wr = (false, rd.2))
    ∧ (m.stop.lookup (p.val, sec) = none →
      (m.fail.contains (p.val, sec) = false → s.discAt k ≠ [] →
        rd = (some (s.discAt k), { s with ot := { s.ot with ends := s.ot.ends.set p .ok } }))
      ∧ ((m.fail.contains (p.val, sec) = true ∨ s.discAt k = []) → rd.1 = none ∧ rd.2.ot.ends[p] = .readFail
        ∧ rd.2.ot.errs[p] = s.ot.errs[p] ++ [tick]
        ∧ (∀ q : Fin 8, q ≠ p → rd.2.ot.ends[q] = s.ot.ends[q] ∧ rd.2.ot.errs[q] = s.ot.errs[q])
        ∧ rd.2 = { s with ot := { s.ot with ends := rd.2.ot.ends, errs := rd.2.ot.errs } })
      ∧ (m.cut.contains (p.val, sec) = false → wr.1 = true ∧ wr.2.ot.ends[p] = .ok ∧ wr.2.discAt k = b
        ∧ (∀ x, x ≠ k → wr.2.discAt x = s.discAt x) ∧ (∀ q : Fin 8, q ≠ p → wr.2.ot.ends[q] = s.ot.ends[q])
        ∧ wr.2 = { s with media := { s.media with disc := wr.2.media.disc }, ot := { s.ot with ends := wr.2.ot.ends } })
      ∧ (m.cut.contains (p.val, sec) = true → wr.1 = false ∧ wr.2.ot.ends[p] = .writeFail
        ∧ wr.2.ot.errs[p] = s.ot.errs[p] ++ [tick]
        ∧ (∀ q : Fin 8, q ≠ p → wr.2.ot.ends[q] = s.ot.ends[q] ∧ wr.2.ot.errs[q] = s.ot.errs[q])
        ∧ wr.2 = { s with ot := { s.ot with ends := wr.2.ot.ends, errs := wr.2.ot.errs } }))
    ∧ (∀ c, (s.piFault p.val c sec b).ot.ends[p] = .piFail ∧ (s.piFault p.val c sec b).ot.errs[p] = s.ot.errs[p] ++ [tick]
      ∧ (s.piFault p.val c sec b).media = s.media)

/-- R403, R407, R411 and R412: the slots of the user area stand one to one with the places of every track from 8 to
MAX_TRACK on every head, in the order of R411, each frame's K being its zone's, and the wedge that a frame follows. That
SRV_FMT.HEADS holds one head less is DEDUCED (log entry 22). -/
def Obligations.SlotOrder : Prop :=
  ∀ (boot body : List Byte),
    let maxTrack := bitsOf (bootImg boot 16) 0 24
    let zones := bdZones body
    zoneStart body 0 = 0 → (∀ z, z + 1 < zones → zoneStart body z < zoneStart body (z + 1)) →
    (∀ n, (slotPlace boot body n).isSome = decide (n < userSlots boot body))
    ∧ (∀ n x, slotPlace boot body n = some x →
      8 ≤ x.track ∧ x.track ≤ maxTrack ∧ x.head < bootHeads boot ∧ x.frame < bootWedges boot
      ∧ (∃ z, z < zones ∧ zoneStart body z ≤ x.track ∧ (z + 1 < zones → x.track < zoneStart body (z + 1))
        ∧ x.slot < zoneK body z))
    ∧ (∀ x : SlotPlace, ∀ z, 8 ≤ x.track → x.track ≤ maxTrack → x.head < bootHeads boot → x.frame < bootWedges boot →
      z < zones → zoneStart body z ≤ x.track → (z + 1 < zones → x.track < zoneStart body (z + 1)) → x.slot < zoneK body z →
      ∃ n, slotPlace boot body n = some x)
    ∧ (∀ n n' x y, slotPlace boot body n = some x → slotPlace boot body n' = some y →
      (n < n' ↔ x.track < y.track ∨ (x.track = y.track ∧ (x.head < y.head ∨ (x.head = y.head ∧
        (x.frame < y.frame ∨ (x.frame = y.frame ∧ x.slot < y.slot)))))))
    ∧ (∀ x : SlotPlace, 8 ≤ x.track → x.wedge boot body
      = (x.frame + ((x.track - 8) * bootHeads boot + x.head) * fieldB body 7 1) % bootWedges boot)
    ∧ (∀ x : SlotPlace, x.track < 8 → x.wedge boot body = x.frame)
    ∧ (bootHeads boot ≤ 16 → bootWedges boot ≤ 1024 → (∀ z, zoneK body z ≤ 16) → ∀ n n' x y,
      slotPlace boot body n = some x → slotPlace boot body n' = some y → x.phys boot body = y.phys boot body → n = n')

/-- R142 to R148, R424 to R429, R416 to R419, R515 to R518, R564, R565, R727 to R730, R733, R825 and R923: Otivo's start,
the records of the ports, assembly, lost data, the dirty-count record and SUSPEND_ACTION. -/
def Obligations.FirmwareStart : Prop :=
  ∀ (s : State),
    (∀ (img : List Byte) (seen : List PortSeen) (healthy : Bool) (fault : Fin 7),
      ((s.boot.stage ≠ .firmware ∨ s.boot.reset.isSome = true ∨ s.runs 1 = false) →
        exec (.otivoStart img seen healthy fault) s = .next (settle s))
      ∧ (s.boot.stage = .firmware → s.boot.reset = none → s.runs 1 = true →
        (fault ≠ 0 → s.regOn HP_STATE_STATE.addr = true → ∃ t, exec (.otivoStart img seen healthy fault) s = .next (settle t)
          ∧ t.rd HP_STATE_STATE = 4 ∧ t.rd HP_STATE_DETAIL = 0x7F + fault.val ∧ t.ot = s.ot ∧ t.mem = s.mem
          ∧ s.keeps t [HP_STATE_STATE, HP_STATE_DETAIL])
        ∧ (fault = 0 → s.ot.started = false → imageOk img = false → s.regOn HP_STATE_STATE.addr = true →
          ∃ t, exec (.otivoStart img seen healthy fault) s = .next (settle t)
          ∧ t.rd HP_STATE_STATE = 4 ∧ t.rd HP_STATE_DETAIL = 0x83 ∧ t.ot = s.ot ∧ t.mem = s.mem
          ∧ s.keeps t [HP_STATE_STATE, HP_STATE_DETAIL])
        ∧ (fault = 0 → s.ot.started = false → imageOk img = true → s.flag LC_STATUS_INIT_DONE = false →
          exec (.otivoStart img seen healthy fault) s = .next (settle s))
        ∧ (fault = 0 → s.ot.started = false → imageOk img = true → s.flag LC_STATUS_INIT_DONE = true →
          s.allHalted = false → exec (.otivoStart img seen healthy fault) s = .next (settle s.haltAll))
        ∧ (fault = 0 → s.ot.started = false → imageOk img = true → s.flag LC_STATUS_INIT_DONE = true →
          s.allHalted = true →
          let t := s.otInit img healthy
          let u := if t.portsOn then t.otDiscover seen else t
          exec (.otivoStart img seen healthy fault) s = .next (settle u)
          ∧ u.ot.started = true ∧ u.ot.discovered = t.portsOn ∧ u.ot.bootInfo = s.reg SYS_BOOT_INFO_WORD.addr
          ∧ u.ot.woke = false)
        ∧ (fault = 0 → s.ot.started = true → s.ot.discovered = true →
          ∃ t, exec (.otivoStart img seen healthy fault) s = .next (settle t)
          ∧ t.flag SYS_RESET_CAUSE_WDT_A = false ∧ t.flag SYS_RESET_CAUSE_WDT_B = false ∧ t.media = s.media
          ∧ (s.flag SYS_RESET_CAUSE_WDT_A = false → s.flag SYS_RESET_CAUSE_WDT_B = false → t = s))))
    ∧ (∀ (p : Fin 8) (m : MediaEnd),
      ((s.otRuns = false ∨ s.ot.outcome[p] ≠ 1 ∨ s.ot.offline.getLsbD p.val = true
          ∨ (s.ot.loaded.getLsbD p.val = true ∧ (s.srv[p].checked = true ∨ s.srv[p].loaded = false))) →
        exec (.hdaRecordCheck p m) s = .next (settle s))
      ∧ (s.otRuns = true → s.ot.outcome[p] = 1 → s.ot.offline.getLsbD p.val = false →
        s.ot.loaded.getLsbD p.val = false ∨ (s.srv[p].checked = false ∧ s.srv[p].loaded = true) →
        (s.rd (SRV_STATUS_STATE p) = 0 → s.rd (SPN_STATUS_STATE p) = 5 →
          exec (.hdaRecordCheck p m) s = .next (settle (s.srvLoad p)))
        ∧ (s.rd (SRV_STATUS_STATE p) = 4 → exec (.hdaRecordCheck p m) s = .next (settle (s.recordCheck p m))
          ∧ (s.recordCheck p m).ot.offline = s.ot.offline
          ∧ (recordValid (s.hda p) = true → (s.recordCheck p m).ot.loaded = s.ot.loaded ||| portBit p
            ∧ (s.recordCheck p m).srv[p].checked = true
            ∧ (s.recordCheck p m).ot.outcome = s.ot.outcome)
          ∧ (recordValid (s.hda p) = false → (s.getCopy m p 0).1 = none → (s.getCopy m p 1).1 = none →
            (s.recordCheck p m).ot.outcome = s.ot.outcome.set p 4)))
      ∧ (∀ boot, bootOf (s.hda p) = some boot → s.otRuns = true → recordValid (s.hda p) = true → s.ecc = [] → s.memDue = 0 →
        s.flag INT_INJECT_ARM = false →
        (List.range 16).all (fun i => !s.flag (PROT_CTRL_EN i) || s.bit (PROT_ALLOW_ALLOW i) 1) = true →
        ∃ t, exec (.recordUpdate p) s = .next (settle t)
        ∧ t.hda p = sealBoot boot (bdGen (bodyOf (s.hda p)) + 1) ++ sealBoot boot (bdGen (bodyOf (s.hda p)) + 1)
            ++ sealBody (spliceB (bodyOf (s.hda p)) 20 (leBytes 4 (bdGen (bodyOf (s.hda p)) + 1)))
        ∧ s.memKept t [(hdaAddr p, hdaAddr p + 5632)]
        ∧ (s.headsOn p = false → t.media = s.media)
        ∧ (s.headsOn p = true → ∀ c : Fin 2, t.discAt (t.copyKey p.val c.val 0)
          = blockOf ((t.hda p).take 4096) (0x8000000000000000 + 0x100 * c.val) 0)
        ∧ s.keeps t [MRAM_STATUS_WRITES])
      ∧ ((s.otRuns = false ∨ recordValid (s.hda p) = false) → exec (.recordUpdate p) s = .next (settle s)))
    ∧ (∀ (p : Fin 8) (sec : BitVec 40) (bad : Fin 128),
      ((s.otRuns = false ∨ recordValid (s.hda p) = false ∨ bdUser (bodyOf (s.hda p)) ≤ sec.toNat
          ∨ s.ot.bad.find? (fun e => e.port == p.val && e.sec == sec.toNat) = none) →
        exec (.reallocate p sec bad) s = .next (settle s))
      ∧ (s.otRuns = true → recordValid (s.hda p) = true → sec.toNat < bdUser (bodyOf (s.hda p)) →
        ∀ e, s.ot.bad.find? (fun e => e.port == p.val && e.sec == sec.toNat) = some e →
        exec (.reallocate p sec bad) s = .next (settle (s.moveSector p e bad.val))
        ∧ (vState (s.vol (volOf e.vol)) = 4 → s.moveSector p e bad.val = { s with ot := { s.ot with bad := s.ot.bad.erase e } })
        ∧ (vState (s.vol (volOf e.vol)) ≠ 4 → e.regions = [] → s.moveSector p e bad.val
          = ({ s with ot := { s.ot with bad := s.ot.bad.erase e } }).reallocate p e.sec bad.val e.block))
      ∧ (∀ (n : Nat) (data : List Byte), recordValid (s.hda p) = true →
        (bdNext (bodyOf (s.hda p)) + bad.val < 96 → bdGrown (bodyOf (s.hda p)) < 96 → s.headsOn p = false →
          (s.reallocate p n bad.val data).discAt (s.slotKey p.val
              (slipSlot (bodyOf (s.hda p)) (bdUser (bodyOf (s.hda p)) + bdNext (bodyOf (s.hda p)) + bad.val))) = data
          ∧ (s.reallocate p n bad.val data).ot.errs[p] = s.ot.errs[p])
        ∧ (96 ≤ bdNext (bodyOf (s.hda p)) ∨ 96 ≤ bdGrown (bodyOf (s.hda p)) →
          (s.reallocate p n bad.val data).media = s.media
          ∧ (s.reallocate p n bad.val data).ot.errs[p] = s.ot.errs[p] ++ [(s.reg ALM_TIME_WORD.addr).toNat])))
    ∧ (∀ v : Fin 4,
      ((s.otRuns = false ∨ s.ot.discovered = false ∨ s.assembled v = true) → exec (.volumeAssembly v) s = .next (settle s))
      ∧ (s.otRuns = true → s.ot.discovered = true → s.assembled v = false →
        (s.volTable = none → s.ot.tableTold = true → exec (.volumeAssembly v) s = .next (settle s))
        ∧ (s.volTable = none → s.ot.tableTold = false → ∃ t, exec (.volumeAssembly v) s = .next (settle t)
          ∧ t.ot.tableTold = true ∧ t.ot.assembled = s.ot.assembled)
        ∧ (s.volTable ≠ none → (vLive (s.vol v) = false ∨ s.settledMembers (s.vol v) = false) →
          exec (.volumeAssembly v) s = .next (settle s))
        ∧ (s.volTable ≠ none → vLive (s.vol v) = true → s.settledMembers (s.vol v) = true → s.bandDue (s.vol v) = false →
          exec (.volumeAssembly v) s = .next (settle (s.assemble v (s.vol v)))
          ∧ (s.assemble v (s.vol v)).ot.assembled = s.ot.assembled ||| volBit v
          ∧ (s.assemble v (s.vol v)).ot.rebRow[v] = vRebRow (s.vol v)
          ∧ (s.assemble v (s.vol v)).ot.cbRow[v] = vCbRow (s.vol v)
          ∧ (s.assemble v (s.vol v)).ot.resync[v] = s.wiRegions (s.vol v)
          ∧ (∀ u : Fin 8, ((s.assemble v (s.vol v)).ot.absent[v]).testBit u
            = ((sought (s.vol v)).contains u.val && !(s.claims (s.vol v)).any (fun e => e.1 == u.val)))
          ∧ (∀ q : Fin 4, q ≠ v → (s.assemble v (s.vol v)).ot.absent[q] = s.ot.absent[q]))))
    ∧ (s.otRuns = false → exec (.lostDataHandling) s = .next (settle s) ∧ exec (.dirtyCountPersist) s = .next (settle s)
      ∧ exec (.suspendAction) s = .next (settle s))
    ∧ (s.otRuns = true → exec (.lostDataHandling) s = .next (settle s.lostData)
      ∧ s.lostData.flag INT_DRAM_STATUS_CAP_LOST = false ∧ s.lostData.flag INT_DRAM_STATUS_FAIL = false
      ∧ s.lostData.flag INT_DRAM_STATUS_TRANSIENT = false
      ∧ ((List.range 4).all (fun k => !s.flag (INT_DRAM_CAP1_VALID k)) = true → s.flag INT_DRAM_STATUS_CAP_LOST = false →
        s.lostData = { s with regs := s.lostData.regs }
        ∧ s.keeps s.lostData [INT_DRAM_STATUS_CAP_LOST, INT_DRAM_STATUS_FAIL, INT_DRAM_STATUS_TRANSIENT]))
    ∧ (∀ (e : CacheEnt) (j line : Nat), j < 8 → e.dirty.testBit j = true →
      ((s.loseSector e j line).cached e.vol e.unit).map (fun x => (x.lost.testBit j, x.dirty.testBit j)) = some (true, false))
    ∧ (s.otRuns = true → s.dirtyCounts = s.ot.dirtyTold → exec (.dirtyCountPersist) s = .next (settle s))
    ∧ (s.otRuns = true → s.dirtyCounts ≠ s.ot.dirtyTold → s.ecc = [] → s.memDue = 0 → s.flag INT_INJECT_ARM = false →
      (List.range 16).all (fun i => !s.flag (PROT_CTRL_EN i) || s.bit (PROT_ALLOW_ALLOW i) 1) = true →
      ∃ t, exec (.dirtyCountPersist) s = .next (settle t)
      ∧ t.ot = { s.ot with dirtyTold := s.dirtyCounts }
      ∧ (∀ x, s.dirtyRecord = some x → t.peekBytes (0x100F4FC4 + 0x20 * (1 - x.1)) 16 = s.dirtyCounts.flatMap (leBytes 4)
        ∧ (fieldB x.2 0 4 + 1 < 2 ^ 32 → (t.dirtyRecord).map Prod.fst = some (1 - x.1)))
      ∧ (s.dirtyRecord = none → t.peekBytes 0x100F4FC4 16 = s.dirtyCounts.flatMap (leBytes 4))
      ∧ s.memKept t [(0x100F4FC0, 0x100F5000)] ∧ s.keeps t [MRAM_STATUS_WRITES]
      ∧ t = { s with regs := t.regs, mem := t.mem, ecc := t.ecc, core := t.core, mram := t.mram, ot := t.ot })
    ∧ (s.otRuns = true → s.flag USB_STATUS_FN_SUSPENDED = false → ∃ t, exec (.suspendAction) s = .next (settle t)
      ∧ t = { s with ot := { s.ot with quiet := false } })
    ∧ (s.otRuns = true → s.flag USB_STATUS_FN_SUSPENDED = true →
      allTags.any (fun t => s.usbTag t && s.tagState t != 0) = true → exec (.suspendAction) s = .next (settle s))
    ∧ (s.otRuns = true → s.flag USB_STATUS_FN_SUSPENDED = true →
      allTags.any (fun t => s.usbTag t && s.tagState t != 0) = false →
      (s.feat 0x10 = 0 → exec (.suspendAction) s = .next (settle s))
      ∧ (s.feat 0x10 = 1 → ∃ t, exec (.suspendAction) s = .next (settle t)
        ∧ t = { s with ot := { s.ot with quiet := true } })
      ∧ (s.feat 0x10 = 2 → ∃ t, exec (.suspendAction) s = .next (settle t)
        ∧ t = { s with ot := { s.ot with quiet := true, power := some { action := 0 } } })
      ∧ (s.feat 0x10 = 3 → ∃ t, exec (.suspendAction) s = .next (settle t)
        ∧ t.ot = { s.ot with quiet := true, power := some { action := 2 } }))

/-! ### The OCS command set (chapter 21) -/

/-- R934 to R945, R981 and R982: the checks that every OCS command meets, its completion or reply, messages, and
notifications. -/
def Obligations.OcsMessages : Prop :=
  ∀ (s : State),
    (∀ (i : Instr) mine after, ocsServes i = some (mine, after) →
      (s.otRuns = false → exec i s = .next (settle s))
      ∧ (s.otRuns = true → s.ocsNext mine = none → exec i s = .next (settle (after s.otIntake)))
      ∧ (∀ c w, s.ocsNext mine = some (c, w) → c.stage ≠ .running →
        (c.pathOk = false → exec i s = .next (settle (after (w.ocsEnd c 0x12 0 0 []))))
        ∧ (∀ off, c.headBad = some off → c.pathOk = true → exec i s = .next (settle (after (w.ocsEnd c 0x11 0 off []))))
        ∧ (c.pathOk = true → c.headBad = none → c.io = false →
          (c.lenOk = false → exec i s = .next (settle (after (w.ocsEnd c 0x11 0 16 []))))
          ∧ (c.lenOk = true → w.configRuns c = true → exec i s = .next (settle (after (w.ocsEnd c 0x15 0 0 []))))
          ∧ (c.lenOk = true → w.configRuns c = false → c.awaitsData = true →
            ((w.needBufs (ceilDiv c.len 4096)).1 = none →
              exec i s = .next (settle (after ((w.needBufs (ceilDiv c.len 4096)).2.keep c))))
            ∧ (∀ bufs, (w.needBufs (ceilDiv c.len 4096)).1 = some bufs → let v := (w.needBufs (ceilDiv c.len 4096)).2
              exec i s = .next (settle (after (v.transfer { c with bufs := bufs } true (dataPieces v.bufAddr c.len bufs)))))))))
    ∧ (∀ c : OcsCmd, isAct 0x40 3 c = true ∨ ∃ i mine after, ocsServes i = some (mine, after) ∧ mine c = true)
    ∧ (∀ c w, s.ocsNext (fun c => !opcodes.contains c.op || decide (actionsOf c.op ≤ c.par 20)) = some (c, w) →
      w.ocsClear c = true → c.stage ≠ .running →
      (opcodes.contains c.op = false → exec (.ocsInvalidOpcode) s = .next (settle (w.ocsEnd c 0x10 0 0 [])))
      ∧ (opcodes.contains c.op = true → exec (.ocsInvalidOpcode) s = .next (settle (w.ocsEnd c 0x11 0 20 []))))
    ∧ (∀ (c : OcsCmd) (st res det : Nat) (data : List Byte), st < 256 → (st ≠ 0 ∨ data = [] ∨ c.len = 0) →
      (let t := s.ocsEnd c st res det data
       (∀ (usb : Bool) tag gen, c.path = .tag usb tag gen → tag < 32 → gen < 8 → s.otReady 1 = true →
          s.gave t 1 (sliceB c.bytes 4 4 ++ leBytes 1 tag ++ leBytes 1 st ++ [0, 0] ++ leBytes 4 (res % 2 ^ 32)
            ++ leBytes 3 (det % 2 ^ 24) ++ leBytes 1 (32 * gen))
          ∧ s.memKept t [s.slotAt 1] ∧ t.ot = s.ot ∧ t = { s with regs := t.regs, mem := t.mem, ecc := t.ecc, rings := t.rings, evc := t.evc })
       ∧ (∀ q, c.path = .uart q → q < 256 →
          let reply := [0x22#8] ++ leBytes 1 q ++ [0, 0] ++ sliceB c.bytes 4 4 ++ [0xFF#8]
            ++ leBytes 1 st ++ [0, 0] ++ leBytes 4 (res % 2 ^ 32) ++ leBytes 3 (det % 2 ^ 24) ++ [0]
          t = { s with ot := { s.ot with uartOut := s.ot.uartOut ++ [reply ++ leBytes 4 (crc32c reply)] } })
       ∧ (∀ l q, c.path = .tunnel l q → l < 4 → t.mem = s.mem ∧ t.rings = s.rings
          ∧ (t.ot.tunnel[volOf l]).map (fun r => sliceB r 0 2) = some [0x22, BitVec.ofNat 8 q])
       ∧ (∀ q, c.path = .mailbox q → q < 256 → s.otReady 3 = true → (s.ring 3).bytes = 32 →
          s.gave t 3 ([20, 1, 0x22#8] ++ leBytes 1 q ++ [0, 0] ++ sliceB c.bytes 4 4 ++ [0xFF#8]
            ++ leBytes 1 st ++ [0, 0] ++ leBytes 4 (res % 2 ^ 32) ++ leBytes 3 (det % 2 ^ 24) ++ [0] ++ zerosB 10)
          ∧ s.memKept t [s.slotAt 3])))
    ∧ (∀ (c : OcsCmd) (data : List Byte) q, c.path = .uart q → data ≠ [] → c.len ≠ 0 →
      ((s.ocsEnd c 0 0 0 data).ot.uartOut.drop s.ot.uartOut.length).map (fun r => (r.length, sliceB r 20 c.len))
        = [(24 + c.len, sliceB data 0 c.len)])
    ∧ (∀ (c : OcsCmd) (data : List Byte) u tag gen bufs, c.path = .tag u tag gen → data ≠ [] → c.len ≠ 0 →
      (s.needBufs (ceilDiv c.len 4096)).1 = some bufs → c.bufs = [] →
      (s.ocsEnd c 0 0 0 data).ot.cmds.map (fun x => (x.path, x.stage, x.bufs, x.xfers.length))
        = (s.needBufs (ceilDiv c.len 4096)).2.ot.cmds.map (fun x => (x.path, x.stage, x.bufs, x.xfers.length))
          ++ [(.tag u tag gen, .dataOut, bufs, bufs.length)])
    ∧ (∀ (t : MsgPath) (frame : List Byte) (good : Bool), s.otRuns = false →
      exec (.ocsMessage t frame good) s = .next (settle s) ∧ exec (.notification t) s = .next (settle s))
    ∧ (∀ (frame : List Byte) (good : Bool), s.otRuns = true →
      let w := s.otIntake.pumpPower
      let held := (w.ot.cmds.filter (fun c => pathNo c.path == some 2)).length
      ((good = false ∨ 4 ≤ held) → exec (.ocsMessage .uart frame good) s = .next (settle w))
      ∧ (good = true → held < 4 →
        let u : State := { w with ot := { w.ot with session := true } }
        (fieldB frame 0 1 ≠ 0x21 → exec (.ocsMessage .uart frame good) s = .next (settle u))
        ∧ (fieldB frame 0 1 = 0x21 → (frame.length < 36 ∨ 8228 < frame.length) →
          exec (.ocsMessage .uart frame good) s
            = .next (settle (u.ocsEnd { path := .uart (fieldB frame 1 1), bytes := sliceB frame 4 32, data := frame.drop 36 }
                0x11 0 0xFF [])))
        ∧ (fieldB frame 0 1 = 0x21 → 36 ≤ frame.length → frame.length ≤ 8228 →
          exec (.ocsMessage .uart frame good) s
            = .next (settle { u with ot := { u.ot with cmds := u.ot.cmds
                ++ [{ path := .uart (fieldB frame 1 1), bytes := sliceB frame 4 32, data := frame.drop 36 }] } }))))
    ∧ (∀ (frame : List Byte) (good : Bool) (i : Fin 2), s.otRuns = true →
      let w := s.otIntake.pumpPower
      let t : MsgPath := if i = 0 then .mailbox else .vendor
      let n : Fin 3 := if i = 0 then 0 else 1
      let ring := if i = 0 then 2 else 5
      let held := (w.ot.cmds.filter (fun c => pathNo c.path == some n)).length
      let d := drainMsg ring (w.ring ring).count w.ot.partMsg[i] w
      (4 ≤ held → exec (.ocsMessage t frame good) s = .next (settle w))
      ∧ (held < 4 → d.1.1 = false →
        exec (.ocsMessage t frame good) s = .next (settle { d.2 with ot := { d.2.ot with partMsg := d.2.ot.partMsg.set i d.1.2 } }))
      ∧ (held < 4 → d.1.1 = true →
        exec (.ocsMessage t frame good) s = .next (settle (({ d.2 with ot := { d.2.ot with
          partMsg := d.2.ot.partMsg.set i [], vendorUsed := d.2.ot.vendorUsed || i == 1 } } : State).takeMsg (msgPath n) d.1.2))))
    ∧ (∀ (ring n : Nat) (part e : List Byte), s.headEntry ring = some e → e.length = 32 → s.memDue = 0 → s.ecc = [] →
      part.length ≤ 8000 → fieldB e 0 1 ≤ 30 → (fieldB e 1 1).testBit 0 = true →
      (drainMsg ring (n + 1) part s).1 = (true, part ++ sliceB e 2 (fieldB e 0 1)) ∧ s.took (drainMsg ring (n + 1) part s).2 ring)
    ∧ (∀ (t : MsgPath), s.otRuns = true →
      let n : Fin 3 := match t with
        | .mailbox => 0
        | .vendor => 1
        | .uart => 2
      let w := s.otRetry.otWatch
      (w.ot.notes[n] = [] → exec (.notification t) s = .next (settle w.settleAttn))
      ∧ (∀ x xs, w.ot.notes[n] = x :: xs →
        ((w.ot.posts.any (fun e => e.1 == 448) = true ∨ (w.ring 448).count ≠ 0 ∨ w.mayNotify n = false) →
          exec (.notification t) s = .next (settle w.settleAttn))
        ∧ (w.ot.posts.any (fun e => e.1 == 448) = false → (w.ring 448).count = 0 → w.mayNotify n = true →
          exec (.notification t) s = .next (settle (({ w with ot := { w.ot with
              notes := w.ot.notes.set n xs, overflow := w.ot.overflow &&& ~~~(1#3 <<< n.val) } } : State).sendMsg n
            (leBytes 1 0x23 ++ zerosB 3 ++ sliceB x.1 0 16 ++ leBytes 4 (w.almIndex x.2)
              ++ leBytes 1 (b2n (w.ot.overflow.getLsbD n.val)) ++ zerosB 11)).settleAttn))))
    ∧ (∀ code vol port v8 v32 (rec : List Byte), 1 ≤ code →
      let t := s.notify code vol port v8 v32 rec
      ((s.feat 0x18).testBit (code - 1) = false → t.ot.notes = s.ot.notes ∧ t.flag HP_ATTN_ATTN = s.flag HP_ATTN_ATTN)
      ∧ ((s.feat 0x18).testBit (code - 1) = true → t.flag HP_ATTN_ATTN = true
        ∧ (∀ n : Fin 3, ((t.ot.notes[n]).getLast?).map (fun x => (fieldB x.1 4 1, x.2)) = some (code % 256, rec)
          ∧ ((s.ot.notes[n]).length < 16 → (t.ot.notes[n]).length = (s.ot.notes[n]).length + 1
            ∧ t.ot.overflow.getLsbD n.val = s.ot.overflow.getLsbD n.val)
          ∧ ((s.ot.notes[n]).length = 16 → (t.ot.notes[n]).length = 16 ∧ t.ot.overflow.getLsbD n.val = true))))

/-- R805 to R808, R810, R946 to R951 and R952: READ, WRITE, FLUSH and ABORT. -/
def Obligations.OcsReadWrite : Prop :=
  ∀ (s : State) (m : MediaEnd),
    (∀ op, op = 1 ∨ op = 2 → ∀ c w, s.ocsNext (isOp op) = some (c, w) → w.ocsClear c = true → c.stage = .fresh →
      let i : Instr := if op = 1 then .ocsRead m else .ocsWrite m
      let v := volOf c.volNo
      let r := w.vol v
      ((c.len = 0 ∨ 65536 < c.len) → exec i s = .next (settle (w.ocsEnd c 0x11 0 16 [])))
      ∧ (1 ≤ c.len → c.len ≤ 65536 →
        (vLive r = false → exec i s = .next (settle (w.ocsEnd c 0x14 0 0 [])))
        ∧ (vLive r = true → w.assembled v = false → exec i s = .next (settle (w.ocsEnd c 0x20 0 0 [])))
        ∧ (vLive r = true → w.assembled v = true → w.locked r = true → exec i s = .next (settle (w.ocsEnd c 0x18 0 0 [])))
        ∧ (vLive r = true → w.assembled v = true → w.locked r = false → vCap r < c.arg + c.len →
          exec i s = .next (settle (w.ocsEnd c 0x13 0 0 [])))
        ∧ (vLive r = true → w.assembled v = true → w.locked r = false → c.arg + c.len ≤ vCap r → op = 2 → vState r = 4 →
          exec i s = .next (settle (w.ocsEnd c 0x21 0 0 [])))
        ∧ (w.ioCheck c = none → w.awaits v (unitSpans r c.arg c.len) = true → exec i s = .next (settle (w.keep c)))
        ∧ (w.ioCheck c = none → w.awaits v (unitSpans r c.arg c.len) = false → op = 1 →
          (unitSpans r c.arg c.len).any (fun e => (w.cached v.val e.1).isNone) = true → w.volParked r = true →
          exec i s = .next (settle ((w.wakeVol r).keep c)))
        ∧ (w.ioCheck c = none → w.awaits v (unitSpans r c.arg c.len) = false → op = 1 →
          ((unitSpans r c.arg c.len).any (fun e => (w.cached v.val e.1).isNone) = false ∨ w.volParked r = false) →
          let a := (unitSpans r c.arg c.len).foldl (fun x e => x.2.readSpan m v x.1 e) (({} : ReadRun), w)
          let d := { c with
            status := if a.1.status ≠ 0 then a.1.status else if a.1.flags = 0 then 0 else 1
            result := a.1.done, detail := if a.1.status ≠ 0 then a.1.detail else a.1.flags, bufs := a.1.bufs }
          exec i s = .next (settle (if a.1.pieces = [] then a.2.respond d [] else a.2.transfer d false a.1.pieces)))
        ∧ (w.ioCheck c = none → w.awaits v (unitSpans r c.arg c.len) = false → op = 2 →
          (let n := w.needBufs (unitSpans r c.arg c.len).length
           (n.1 = none → exec i s = .next (settle (n.2.keep c)))
           ∧ (∀ bufs, n.1 = some bufs → exec i s = .next (settle (n.2.transfer { c with bufs := bufs } true
              (((unitSpans r c.arg c.len).zip bufs).map (fun e => (n.2.bufAddr e.2 + e.1.2.1 * secBytes r, e.1.2.2 * secBytes r))))))))))
    ∧ (∀ c w, s.ocsNext (isOp 2) = some (c, w) → w.ocsClear c = true → c.stage = .ready →
      let v := volOf c.volNo
      let r := w.vol v
      let spans := unitSpans r c.arg c.len
      let bad := (spans.zip c.bufs).any (fun e =>
        poisoned (w.bufLoad 0 e.2 (e.1.2.1 * secBytes r) (e.1.2.2 * secBytes r)).1.data)
      let u := (spans.zip c.bufs).foldl (fun (x : State) e => x.writeSpan m v e.1 e.2) w
      ((vLive r = false ∨ w.assembled v = false) →
        exec (.ocsWrite m) s = .next (settle (w.ocsEnd { c with bufs := [] } 0x20 0 0 [])))
      ∧ (vLive r = true → w.assembled v = true → vState r = 4 →
        exec (.ocsWrite m) s = .next (settle (w.ocsEnd { c with bufs := [] } 0x21 0 0 [])))
      ∧ (vLive r = true → w.assembled v = true → vState r ≠ 4 → bad = true →
        exec (.ocsWrite m) s = .next (settle (w.ocsEnd { c with bufs := [] } 0x30 0 4 [])))
      ∧ (vLive r = true → w.assembled v = true → vState r ≠ 4 → bad = false →
        (c.flags.testBit 1 = true → w.volParked r = true → exec (.ocsWrite m) s = .next (settle ((w.wakeVol r).keep c)))
        ∧ (c.flags.testBit 1 = false → exec (.ocsWrite m) s = .next (settle (u.ocsEnd { c with bufs := [] } 0 c.len 0 []))
          ∧ (c.len ≤ 64 → c.bufs.length = spans.length → ∀ e ∈ spans.zip c.bufs,
            ((u.cached v.val e.1.1).map (fun x => (x.buf, x.dirty &&& spanMask r e.1.2.1 e.1.2.2, x.lost &&& spanMask r e.1.2.1 e.1.2.2)))
              = some (e.2, spanMask r e.1.2.1 e.1.2.2, 0)))
        ∧ (c.flags.testBit 1 = true → w.volParked r = false →
          let f := fuaSpans m v spans 0 u
          (f.1.1 = true → exec (.ocsWrite m) s = .next (settle (f.2.ocsEnd { c with bufs := [] } 0 c.len 0 [])))
          ∧ (f.1.1 = false → exec (.ocsWrite m) s = .next (settle (f.2.ocsEnd { c with bufs := [] } 0x24 f.1.2 0 []))))))
    ∧ (∀ c w, s.ocsNext (isOp 3) = some (c, w) → w.ocsClear c = true → c.stage ≠ .running →
      let v := volOf c.volNo
      let all := (c.par 20).testBit 0
      (2 ≤ c.par 20 → exec (.ocsFlush m) s = .next (settle (w.ocsEnd c 0x11 0 20 [])))
      ∧ (c.par 20 < 2 → all = false →
        (vLive (w.vol v) = false → exec (.ocsFlush m) s = .next (settle (w.ocsEnd c 0x14 0 0 [])))
        ∧ (vLive (w.vol v) = true → w.assembled v = false → exec (.ocsFlush m) s = .next (settle (w.ocsEnd c 0x20 0 0 [])))
        ∧ (vLive (w.vol v) = true → w.assembled v = true → vState (w.vol v) = 4 →
          exec (.ocsFlush m) s = .next (settle (w.ocsEnd c 0x21 0 0 []))))
      ∧ (c.par 20 < 2 → (all = true ∨ (vLive (w.vol v) = true ∧ w.assembled v = true ∧ vState (w.vol v) ≠ 4)) →
        let vs := if all then w.readyVols else [v]
        let a := w.wakeDirty vs
        let f := flushVols m vs a.2
        (a.1 = true → exec (.ocsFlush m) s = .next (settle (a.2.keep c)))
        ∧ (a.1 = false → f.1 = false → exec (.ocsFlush m) s = .next (settle (f.2.keep c)))
        ∧ (a.1 = false → f.1 = true → exec (.ocsFlush m) s = .next (settle (f.2.ocsEnd c 0 0 0 []))
          ∧ (∀ x ∈ vs, vState (w.vol x) ≠ 4 → f.2.dirtyOf x = 0))))
    ∧ (∀ c w, s.ocsNext (isOp 4) = some (c, w) → w.ocsClear c = true → c.stage ≠ .running →
      let hit (x : OcsCmd) : Bool := x.tag?.any (fun y => y.2.1 == c.par 20 % 32) && x.path != c.path
      (w.ot.cmds.find? hit = none → exec (.ocsAbort) s = .next (settle (w.ocsEnd c 0 2 0 [])))
      ∧ (∀ x, w.ot.cmds.find? hit = some x →
        let rest : State := { w with ot := { w.ot with cmds := w.ot.cmds.erase x } }
        let y := { x with status := 2, detail := 0, result := if x.op = 1 then x.result else 0 }
        (x.stage = .fresh → x.xfers = [] →
          exec (.ocsAbort) s = .next (settle ((rest.respond { y with bufs := [] } []).ocsEnd c 0 0 0 [])))
        ∧ (x.stage ≠ .fresh → (x.op = 1 ∨ x.op = 2) → x.status ≤ 1 → x.xfers ≠ [] →
          exec (.ocsAbort) s = .next (settle ((rest.keep y).ocsEnd c 0 1 0 [])))
        ∧ (x.stage ≠ .fresh → ((x.op ≠ 1 ∧ x.op ≠ 2) ∨ 2 ≤ x.status) →
          exec (.ocsAbort) s = .next (settle (w.ocsEnd c 0 2 0 [])))))

/-- R953 to R956 and R962: IDENTIFY, HEALTH, features, logs, VOLUME_STATUS and the record of a port. -/
def Obligations.OcsReports : Prop :=
  ∀ (s : State) (c : OcsCmd) (w : State), w.ocsClear c = true →
    (s.ocsNext (isOp 0x10) = some (c, w) →
      exec .ocsIdentify s = .next (settle (w.ocsEnd c 0 0 0 w.identity)) ∧ w.identity.length = 256
      ∧ sliceB w.identity 0 8 = [1, 0, 0, 0] ++ leBytes 4 (w.reg SYS_ID_WORD.addr).toNat
      ∧ (∀ v : Fin 4, sliceB w.identity (48 + 16 * v) 10
          = leBytes 8 (vCap (w.vol v)) ++ leBytes 1 (b2n (vLss (w.vol v))) ++ leBytes 1 (vState (w.vol v)))
      ∧ (∀ p : Fin 8, sliceB w.identity (112 + 16 * p) 2 = leBytes 1 w.ot.outcome[p] ++ leBytes 1 (b2n (w.online p))))
    ∧ (s.ocsNext (isOp 0x14) = some (c, w) →
      exec .ocsHealth s = .next (settle (w.ocsEnd c 0 0 0 w.health)) ∧ w.health.length = 256
      ∧ sliceB w.health 0 4 = leBytes 4 (w.reg ALM_TIME_WORD.addr).toNat
      ∧ (∀ v : Fin 4, sliceB w.health (32 + 4 * v) 2 = leBytes 1 (vState (w.vol v)) ++ leBytes 1 (fieldB (w.vol v) 7 1)))
    ∧ (let id := fieldB c.bytes 20 2
       let perVol := id = 0x20 ∨ id = 0x21
       let key := if perVol then volFeat id c.volNo else id
       let live := vLive (w.vol (volOf c.volNo))
       let now := if id = 0x20 then b2n (vFlag (w.vol (volOf c.volNo)) 0)
         else if id = 0x13 then w.rd HQE_TAG_SPLIT_SPLIT else w.feat key
       (s.ocsNext (isOp 0x11) = some (c, w) →
         (perVol → live = false → exec .ocsGetFeature s = .next (settle (w.ocsEnd c 0x11 0 2 [])))
         ∧ (¬ perVol → featRange id = none → exec .ocsGetFeature s = .next (settle (w.ocsEnd c 0x11 0 20 [])))
         ∧ ((perVol ∧ live = true) ∨ (¬ perVol ∧ (featRange id).isSome = true) →
           exec .ocsGetFeature s = .next (settle (w.ocsEnd c 0 now 0 []))))
       ∧ (s.ocsNext (isOp 0x12) = some (c, w) →
         (perVol → live = false → exec .ocsSetFeature s = .next (settle (w.ocsEnd c 0x11 0 2 [])))
         ∧ (¬ perVol → featRange id = none → exec .ocsSetFeature s = .next (settle (w.ocsEnd c 0x11 0 20 [])))
         ∧ ((perVol ∧ live = true) ∨ (¬ perVol ∧ (featRange id).isSome = true) → 2 ≤ c.par 22 →
           exec .ocsSetFeature s = .next (settle (w.ocsEnd c 0x11 0 22 [])))
         ∧ (∀ lo hi, c.par 22 < 2 → (perVol ∧ live = true ∧ lo = 0 ∧ hi = 1) ∨ (¬ perVol ∧ featRange id = some (lo, hi)) →
           let x := fieldB c.bytes 24 8
           ((x < lo ∨ hi < x) → exec .ocsSetFeature s = .next (settle (w.ocsEnd c 0x11 0 24 [])))
           ∧ (lo ≤ x → x ≤ hi →
             let u := if (c.par 22).testBit 0 then (w.setFeat key x).saveFeat key x else w.setFeat key x
             (id = 0x20 → exec .ocsSetFeature s
               = .next (settle ((w.setVol (volOf c.volNo) (vPut (w.vol (volOf c.volNo)) 0 (x == 1))).ocsEnd c 0 now 0 [])))
             ∧ (id = 0x21 → exec .ocsSetFeature s
               = .next (settle ((u.tellHqe (volOf c.volNo) (u.vol (volOf c.volNo))).ocsEnd c 0 now 0 [])))
             ∧ (¬ perVol → id ∉ [0x12, 0x13, 0x14, 0x15] →
               exec .ocsSetFeature s = .next (settle (u.ocsEnd c 0 now 0 [])) ∧ u.feat key = x
               ∧ ((c.par 22).testBit 0 = true → u.savedFeat key = x)
               ∧ ((c.par 22).testBit 0 = false → u.media = w.media))
             ∧ (id = 0x12 → exec .ocsSetFeature s = .next (settle ((u.fieldWrite HP_CFG_SB_EN x).ocsEnd c 0 now 0 [])))
             ∧ (id = 0x14 → exec .ocsSetFeature s = .next (settle ((u.fieldWrite USB_CTRL_DBG_EN x).ocsEnd c 0 now 0 [])))
             ∧ (id = 0x15 → exec .ocsSetFeature s = .next (settle ((u.fieldWrite IDU_ITER_ITER_MAX x).ocsEnd c 0 now 0 [])))
             ∧ (id = 0x13 → u.tagsFree = false → exec .ocsSetFeature s
               = .next (settle (({ u with ot := { u.ot with split := some x } } : State).ocsEnd c 0 now 0 [])))))))
    ∧ (s.ocsNext (isOp 0x13) = some (c, w) →
      (c.par 20 = 0 → 4095 < c.arg → exec .ocsLogRead s = .next (settle (w.ocsEnd c 0x11 0 8 [])))
      ∧ (c.par 20 = 0 → c.arg ≤ 4095 → (c.len = 0 ∨ c.len % 32 ≠ 0) →
        exec .ocsLogRead s = .next (settle (w.ocsEnd c 0x11 0 16 [])))
      ∧ (c.par 20 = 0 → c.arg ≤ 4095 → c.len ≠ 0 → c.len % 32 = 0 → ∃ d : List Byte,
        exec .ocsLogRead s = .next (settle (w.ocsEnd c 0 0 0 d)) ∧ (∀ i, i < c.len / 32 → ∀ r : List Byte, r.length = 32 →
          (∀ j, j < c.len / 32 → ∃ x : List Byte, w.otBytes (almSlotAddr ((c.arg + j) % 4096)) 32 = some x ∧ x.length = 32) →
          w.otBytes (almSlotAddr ((c.arg + i) % 4096)) 32 = some r → sliceB d (32 * i) 32 = r))
      ∧ (c.par 20 = 1 → exec .ocsLogRead s = .next (settle (w.ocsEnd c 0 0 0 w.logSummary)) ∧ w.logSummary.length = 28
        ∧ sliceB w.logSummary 0 2 = leBytes 2 (w.rd ALM_NEWEST_INDEX))
      ∧ (c.par 20 = 2 → exec .ocsLogRead s = .next (settle (w.ocsEnd c 0 0 0 (w.listRaw (volOf c.volNo)))))
      ∧ (3 ≤ c.par 20 → exec .ocsLogRead s = .next (settle (w.ocsEnd c 0x11 0 20 []))))
    ∧ (s.ocsNext (isOp 0x23) = some (c, w) →
      let v := volOf c.volNo
      let d := w.volStatus v
      exec .ocsVolumeStatus s = .next (settle (w.ocsEnd c 0 0 0 d))
      ∧ ((w.vol v).length = 480 → d.length = 512 ∧ d.take 480 = w.vol v ∧ fieldB d 496 4 = w.ot.resync[v].length % 2 ^ 32
        ∧ fieldB d 500 2 = (w.badList v).2.2.length % 65536))
    ∧ (s.ocsNext (isAct 0x29 0) = some (c, w) →
      (8 ≤ c.par 21 → exec .ocsHdaRecordRead s = .next (settle (w.ocsEnd c 0x11 0 21 [])))
      ∧ (c.par 21 < 8 → exec .ocsHdaRecordRead s = .next (settle (w.ocsEnd c 0 0 0 (w.hda (fin8 (c.par 21)))))))

/-- R957 to R961: VOLUME_CREATE, VOLUME_DELETE and VOLUME_RESHAPE. -/
def Obligations.OcsVolumes : Prop :=
  ∀ (s : State) (c : OcsCmd) (w : State), w.ocsClear c = true →
    let v := volOf c.volNo
    let r := w.vol v
    (∀ (m : MediaEnd) (rows : BitVec 32) (healthy : Bool), s.ocsNext (isOp 0x20) = some (c, w) →
      let i := Instr.ocsVolumeCreate m rows healthy
      let run := { c with stage := OcsStage.running, rows := 0 }
      let enc := fieldB c.data 5 1
      (c.stage = .running → exec i s = .next (settle (w.crRun m rows.toNat c)))
      ∧ (c.stage ≠ .running → c.data.length < 96 → exec i s = .next (settle (w.ocsEnd c 0x11 0 16 [])))
      ∧ (c.stage ≠ .running → 96 ≤ c.data.length →
        (∀ off, crBad c.data = some off → exec i s = .next (settle (w.ocsEnd c 0x11 0 (off + 256) [])))
        ∧ (crBad c.data = none → vLive r = true → exec i s = .next (settle (w.ocsEnd c 0x16 0 0 [])))
        ∧ (∀ p, crBad c.data = none → vLive r = false → (crPorts c.data).find? (fun q => !w.portReady q) = some p →
          exec i s = .next (settle (w.ocsEnd c 0x16 0 p [])))
        ∧ (w.crRefusal v c.data = none → enc = 0 → exec i s = .next (settle (w.crRun m rows.toNat run)))
        ∧ (w.crRefusal v c.data = none → enc ≠ 0 → w.keyReady 1 v.val = false → exec i s = .next (settle (w.keep c)))
        ∧ (∀ st u, w.crRefusal v c.data = none → enc ≠ 0 → w.keyReady 1 v.val = true →
          w.keyWith 1 v.val (if enc = 2 then 2 else 0) 0 [] (sliceB c.data 64 32) healthy = some (st, u) →
          (st = 0 → exec i s = .next (settle (u.crRun m rows.toNat { run with data := spliceB c.data 64 (zerosB 32) })))
          ∧ (st ≠ 0 → exec i s = .next (settle (u.ocsEnd c (keyStatus st) 0 0 [])))))
      ∧ (∀ p, c.stage = .running → (crPorts c.data).find? (fun q => !w.portReady q) = some p → fieldB c.data 5 1 = 0 →
        exec i s = .next (settle (w.ocsEnd c 0x16 0 p [])))
      ∧ (c.stage = .running → (crPorts c.data).find? (fun q => !w.portReady q) = none → rows = 0 →
        c.rows < vCpu (w.crRecord v c.data) → exec i s = .next (settle (w.keep c)))
      ∧ (c.stage = .running → (crPorts c.data).find? (fun q => !w.portReady q) = none →
        vCpu (w.crRecord v c.data) ≤ c.rows → exec i s = .next (settle (w.crFinish v c (w.crRecord v c.data)))))
    ∧ (∀ d : List Byte, 32 ≤ d.length → w.crChunks d < 2 ^ 64 → let x := w.crRecord v d
      x.length = 480 ∧ vState x = 1 ∧ vWgen x = 1 ∧ vBase x = crBase d ∧ vCpu x = w.crChunks d ∧ sliceB x 1 4 = sliceB d 0 4)
    ∧ (s.ocsNext (isOp 0x21) = some (c, w) →
      let good := fieldB c.bytes 20 4 = 0x4C454544
      (¬ good → exec .ocsVolumeDelete s = .next (settle (w.ocsEnd c 0x11 0 20 [])))
      ∧ (good → vLive r = false → exec .ocsVolumeDelete s = .next (settle (w.ocsEnd c 0x16 0 0 [])))
      ∧ (good → vLive r = true → w.volBusy v c = true → exec .ocsVolumeDelete s = .next (settle (w.ocsEnd c 0x15 0 0 [])))
      ∧ (∀ b, good → vLive r = true → w.volBusy v c = false → vBand r = some b → w.keyReady 5 b = false →
        exec .ocsVolumeDelete s = .next (settle (w.keep c)))
      ∧ (good → vLive r = true → w.volBusy v c = false → (∀ b, vBand r = some b → w.keyReady 5 b = true) →
        let t := (List.range (vWiBits r)).foldl (fun (s : State) j => s.setWi (vWiFirst r + j) false)
          ((w.discardVol v).setVol v (zerosB 480))
        let u := match vBand r with
          | some b => (t.keyAsk 5 b 0 0 0 0 true).2
          | none => t
        exec .ocsVolumeDelete s = .next (settle (((u.forget v).stateEvent v (vState r)).ocsEnd c 0 0 0 []))
        ∧ (u.forget v).assembled v = false ∧ (w.discardVol v).dirtyOf v = 0))
    ∧ (s.ocsNext (isOp 0x22) = some (c, w) →
      let d := c.data
      let new : Geo := ⟨fieldB d 0 1, fieldB d 1 1, fieldB d 2 1, fieldB d 3 1⟩
      let add := (List.range (min 8 (new.n - (vGeo r).n))).map (fun i => fieldB d (8 + i) 1)
      let wrong := (List.range 8).find? (fun i =>
        if i < add.length then decide (8 ≤ fieldB d (8 + i) 1) else fieldB d (8 + i) 1 != 0xFF)
      (d.length < 16 → exec .ocsVolumeReshape s = .next (settle (w.ocsEnd c 0x11 0 16 [])))
      ∧ (16 ≤ d.length → fieldB d 4 4 ≠ 0 → exec .ocsVolumeReshape s = .next (settle (w.ocsEnd c 0x11 0 (4 + 256) [])))
      ∧ (∀ i, 16 ≤ d.length → fieldB d 4 4 = 0 → wrong = some i →
        exec .ocsVolumeReshape s = .next (settle (w.ocsEnd c 0x11 0 (8 + i + 256) [])))
      ∧ (16 ≤ d.length → fieldB d 4 4 = 0 → wrong = none →
        ((vLive r = false ∨ w.reshapeOk v r new add = false) →
          exec .ocsVolumeReshape s = .next (settle (w.ocsEnd c 0x16 0 0 [])))
        ∧ (vLive r = true → w.reshapeOk v r new add = true →
          exec .ocsVolumeReshape s = .next (settle ((w.reshapeStart v r new add).ocsEnd c 0 0 0 [])))))

/-- R963 to R968: PORT_CONTROL, HDA_RECORD WRITE, REBUILD_CONTROL and SECURITY. -/
def Obligations.OcsPortsAndSecurity : Prop :=
  ∀ (s : State) (c : OcsCmd) (w : State), w.ocsClear c = true →
    let v := volOf c.volNo
    let r := w.vol v
    let p := fin8 (c.par 21)
    (s.ocsNext (isAct 0x28 0) = some (c, w) →
      (8 ≤ c.par 21 → exec .ocsPortOffline s = .next (settle (w.ocsEnd c 0x11 0 21 [])))
      ∧ (c.par 21 < 8 → 2 ≤ c.par 22 → exec .ocsPortOffline s = .next (settle (w.ocsEnd c 0x11 0 22 [])))
      ∧ (c.par 21 < 8 → c.par 22 < 2 →
        (w.ot.offline.getLsbD p.val = true → exec .ocsPortOffline s = .next (settle (w.ocsEnd c 0 0 0 [])))
        ∧ (w.ot.offline.getLsbD p.val = false → c.par 22 = 0 → w.wouldFail p.val = true →
          exec .ocsPortOffline s = .next (settle (w.ocsEnd c 0x17 0 0 [])))
        ∧ (w.ot.offline.getLsbD p.val = false → (c.par 22 = 1 ∨ w.wouldFail p.val = false) →
          exec .ocsPortOffline s = .next (settle ((w.failPort p 0).ocsEnd c 0 0 0 [])))))
    ∧ (∀ seen : PortSeen, s.ocsNext (isAct 0x28 1) = some (c, w) →
      let i := Instr.ocsPortOnline seen
      (c.stage = .running →
        (w.ot.loaded.getLsbD p.val = true → exec i s = .next (settle ((w.reclaim p).ocsEnd c 0 w.ot.outcome[p] 0 [])))
        ∧ (w.ot.loaded.getLsbD p.val = false → (w.ot.outcome[p] ≠ 1 ∨ w.rd (SPN_STATUS_STATE p) = 9) →
          exec i s = .next (settle (w.ocsEnd c 0 w.ot.outcome[p] 0 [])))
        ∧ (w.ot.loaded.getLsbD p.val = false → w.ot.outcome[p] = 1 → w.rd (SPN_STATUS_STATE p) ≠ 9 →
          exec i s = .next (settle (w.keep c))))
      ∧ (c.stage ≠ .running →
        (8 ≤ c.par 21 → exec i s = .next (settle (w.ocsEnd c 0x11 0 21 [])))
        ∧ (c.par 21 < 8 → 2 ≤ c.par 22 → exec i s = .next (settle (w.ocsEnd c 0x11 0 22 [])))
        ∧ (c.par 21 < 8 → c.par 22 < 2 → w.ot.offline.getLsbD p.val = false →
          exec i s = .next (settle (w.ocsEnd c 0x16 0 0 [])))
        ∧ (c.par 21 < 8 → c.par 22 < 2 → w.ot.offline.getLsbD p.val = true →
          let y := w.spnClearFault p true
          let x := ({ y with ot := { y.ot with offline := y.ot.offline &&& ~~~portBit p } } : State).discover p seen
          let u := x.notify 2 0xFF p.val x.ot.outcome[p] 1 []
          (u.ot.outcome[p] = 1 → exec i s = .next (settle (u.keep { c with stage := .running })))
          ∧ (u.ot.outcome[p] ≠ 1 → exec i s = .next (settle (u.ocsEnd c 0 u.ot.outcome[p] 0 []))))))
    ∧ (∀ seen : PortSeen, s.ocsNext (isAct 0x29 1) = some (c, w) →
      let i := Instr.ocsHdaRecordWrite seen
      let d := sliceB c.data 0 5632
      let inUse := w.readyVols.any (fun v => !(w.portMembers v p.val).isEmpty)
      (8 ≤ c.par 21 → exec i s = .next (settle (w.ocsEnd c 0x11 0 21 [])))
      ∧ (c.par 21 < 8 → c.data.length < 5632 → exec i s = .next (settle (w.ocsEnd c 0x11 0 16 [])))
      ∧ (c.par 21 < 8 → 5632 ≤ c.data.length → inUse = true → exec i s = .next (settle (w.ocsEnd c 0x17 0 0 [])))
      ∧ (c.par 21 < 8 → 5632 ≤ c.data.length → inUse = false →
        (bootOf d = none ∨ recordValid d = false) → exec i s = .next (settle (w.ocsEnd c 0x29 0 0 [])))
      ∧ (∀ boot, c.par 21 < 8 → 5632 ≤ c.data.length → inUse = false → bootOf d = some boot → recordValid d = true →
        (recordFits boot (bodyOf d) = false → exec i s = .next (settle (w.ocsEnd c 0x29 0 0 [])))
        ∧ (recordFits boot (bodyOf d) = true → w.ot.offline.getLsbD p.val = false →
          let u := (w.updateRecord p boot (bodyOf d) (w.rd (SRV_STATUS_STATE p) == 4)).discover p seen
          u.ot.offline.getLsbD p.val = false →
          exec i s = .next (settle ((u.notify 2 0xFF p.val u.ot.outcome[p] 1 []).ocsEnd c 0 0 0 [])))))
    ∧ (∀ hold : Bool, s.ocsNext (isAct 0x30 (if hold then 0 else 1)) = some (c, w) →
      let i := if hold then Instr.ocsRebuildHold else Instr.ocsRebuildRelease
      (vLive r = false → exec i s = .next (settle (w.ocsEnd c 0x16 0 0 [])))
      ∧ (vLive r = true → w.assembled v = true → exec i s = .next (settle ((w.commitVol v (vPut r 2 hold) false).ocsEnd c 0 0 0 [])))
      ∧ (vLive r = true → w.assembled v = false → exec i s = .next (settle ((w.setVol v (vPut r 2 hold)).ocsEnd c 0 0 0 [])))
      ∧ (64 ≤ r.length → vFlag (vPut r 2 hold) 2 = hold ∧ vFlag (vPut r 2 hold) 0 = vFlag r 0 ∧ vFlag (vPut r 2 hold) 3 = vFlag r 3))
    ∧ (s.ocsNext (isAct 0x30 2) = some (c, w) →
      ((vLive r = false ∨ w.assembled v = false) → exec .ocsRebuildStartNow s = .next (settle (w.ocsEnd c 0x16 0 0 [])))
      ∧ (vLive r = true → w.assembled v = true → ∃ d : Vector Nat 4,
        exec .ocsRebuildStartNow s = .next (settle (({ w with ot := { w.ot with delayed := d } } : State).ocsEnd c 0 0 0 []))
        ∧ (∀ q, q ≠ v → d[q] = w.ot.delayed[q])
        ∧ ((w.openUnits v r).Nodup → ∀ u, (d[v]).testBit u = (w.openUnits v r).contains u)))
    ∧ (s.ocsNext (isAct 0x30 3) = some (c, w) →
      let u := c.par 21
      let q := c.par 22
      (8 ≤ u → exec .ocsReplace s = .next (settle (w.ocsEnd c 0x11 0 21 [])))
      ∧ (u < 8 → 8 ≤ q → exec .ocsReplace s = .next (settle (w.ocsEnd c 0x11 0 22 [])))
      ∧ (u < 8 → q < 8 → (vLive r = false ∨ w.replaceOk v r u q = false) →
        exec .ocsReplace s = .next (settle (w.ocsEnd c 0x16 0 0 [])))
      ∧ (u < 8 → q < 8 → vLive r = true → w.replaceOk v r u q = true → exec .ocsReplace s = .next (settle (w.replace c))))
    ∧ (∀ (act : Fin 5) (healthy : Bool), s.ocsNext (isAct 0x38 act) = some (c, w) →
      let i : Instr := match act with
        | 0 => .ocsUnlock
        | 1 => .ocsLock
        | 2 => .ocsSetCredential healthy
        | 3 => .ocsClearCredential healthy
        | 4 => .ocsCryptoErase healthy
      let op := match act with
        | 0 => 2
        | 1 => 3
        | 2 => 6
        | 3 => 6
        | 4 => 4
      (c.data.length < 64 → exec i s = .next (settle (w.ocsEnd c 0x11 0 16 [])))
      ∧ (64 ≤ c.data.length → vLive r = false → exec i s = .next (settle (w.ocsEnd c 0x16 0 0 [])))
      ∧ (64 ≤ c.data.length → vLive r = true → vBand r = none → exec i s = .next (settle (w.ocsEnd c 0x17 0 0 [])))
      ∧ (∀ b, 64 ≤ c.data.length → vLive r = true → vBand r = some b →
        ((w.keyReady op b = false ∨ (act = 4 ∧ w.volBusy v c = true)) → exec i s = .next (settle (w.keep c)))
        ∧ (w.keyReady op b = true → act ≠ 4 →
          let cred := w.bandCred b
          let flags := match act with
            | 0 => b2n cred
            | 2 => 2 + b2n cred
            | 3 => b2n cred
            | _ => 0
          let k := w.keyWith op b flags 0 (sliceB c.data 0 32) (sliceB c.data 32 32)
            (if act = 2 ∨ act = 3 then healthy else true)
          (k = none → exec i s = .next (settle (w.keep c)))
          ∧ (∀ u, k = some (0, u) →
            exec i s = .next (settle ((if act = 0 ∨ act = 1 then u.tellHqe v r else u).ocsEnd c 0 0 0 [])))
          ∧ (∀ u, k = some (3, u) → exec i s = .next (settle ((u.almLog 1 0x0B01 (leBytes 1 v.val)).ocsEnd c 0x19 0 0 [])))
          ∧ (∀ u, k = some (6, u) → exec i s = .next (settle (u.ocsEnd c 0x30 0 0 [])))
          ∧ (∀ st u, k = some (st, u) → st ≠ 0 → st ≠ 3 → st ≠ 6 → exec i s = .next (settle (u.ocsEnd c 0x16 0 0 []))))
        ∧ (act = 4 → w.volBusy v c = false → w.keyReady 4 b = true →
          let e := (w.discardVol v).setVol v (vSet r 32 4 (vWgen r + 1))
          exec i s = .next (settle (e.security c 4 (fun _ => 0) (vWgen r + 1) healthy (fun v r s =>
            (s.almLog 1 0x0B02 (leBytes 1 v.val ++ [0, 0, 0] ++ leBytes 4 (vWgen (w.vol (volOf c.volNo)) + 1))).tellHqe v r)))
          ∧ (w.discardVol v).dirtyOf v = 0)))

/-- R969 to R971: POWER, what a request waits for, and its end. -/
def Obligations.OcsPower : Prop :=
  ∀ (s : State) (c : OcsCmd) (w : State) (m : MediaEnd),
    (∀ act : Fin 3, s.ocsNext (isAct 0x40 act) = some (c, w) → w.ocsClear c = true →
      let i : Instr := match act with
        | 0 => .ocsPowerStandby
        | 1 => .ocsPowerStandbyLoaded
        | 2 => .ocsPowerStandbyStopped
      let u := w.ocsEnd c 0 0 0 []
      exec i s = .next (settle ({ u with ot := { u.ot with power := some { action := act.val } } } : State).pumpPower))
    ∧ (s.ot.power = none → s.ocsNext (isAct 0x40 3) = some (c, w) → w.ocsClear c = true →
      let u := w.ocsEnd c 0 0 0 []
      let d : State := { u with ot := { u.ot with power := some { action := 3 } } }
      let f := d.wakeDirty d.readyVols
      (f.1 = true → exec (.ocsPowerNadir m) s = .next (settle f.2.pumpPower))
      ∧ (f.1 = false → exec (.ocsPowerNadir m) s = .next (settle (flushVols m d.readyVols f.2).2.pumpPower)))
    ∧ (∀ a, s.ot.power = some a → (s.tagsFree = false ∨ (a.action = 3 ∧ s.dirtyCounts.any (fun n => n != 0) = true)) →
      s.pumpPower = s)
    ∧ (∀ a, s.ot.power = some a → a.action ≠ 3 → s.tagsFree = true →
      let x := s.haltAll.settleHeads a.action
      let y := x.via execStandbyRequest
      (x.sleepReason false = none → s.pumpPower = { y with ot := { y.ot with power := none } })
      ∧ (∀ n, x.sleepReason false = some n → s.pumpPower = { y with ot := { y.ot with power := some { a with refused := true } } }))
    ∧ (∀ a, s.ot.power = some a → s.otRuns = true →
      (a.refused = true → let u := s.almLog 1 0x0101 (leBytes 1 a.action ++ [0, 0, 0] ++ leBytes 4 (s.reg PWR_REFUSE_WORD.addr).toNat)
        exec .powerRequestAbandon s = .next (settle { u with ot := { u.ot with power := none } }))
      ∧ (a.refused = false → exec .powerRequestAbandon s = .next (settle s)))
    ∧ ((s.ot.power = none ∨ s.otRuns = false) → exec .powerRequestAbandon s = .next (settle s))
    ∧ (s.ocsNext (isAct 0x40 4) = some (c, w) → w.ocsClear c = true →
      let mine (p : Fin 8) : Bool := (c.par 21).testBit p.val && w.online p && w.on (2 + p.val)
      let u := (ports.filter mine).foldl (fun (s : State) p =>
        let x := s.stopPort p
        ({ x with ot := { x.ot with parked := x.ot.parked ||| portBit p } } : State)) w
      exec .ocsSpinDown s = .next (settle (u.ocsEnd c 0 0 0 []).pumpPower)
      ∧ (∀ p : Fin 8, mine p = true → u.ot.parked.getLsbD p.val = true))
    ∧ (s.ocsNext (isAct 0x40 5) = some (c, w) → w.ocsClear c = true →
      let ps := ports.filter (fun p => (c.par 21).testBit p.val && w.online p && w.on (2 + p.val))
      let x : State := if c.stage = .running then w
        else { w with ot := { w.ot with parked := ps.foldl (fun a p => a ||| portBit p) w.ot.parked } }
      let u := ps.foldl (fun (s : State) p => s.wakePort p) x
      ((∀ p ∈ ps, u.ot.parked.getLsbD p.val = false ∨ u.rd (SPN_STATUS_STATE p) = 9) →
        exec .ocsSpinUp s = .next (settle (u.ocsEnd c 0 0 0 []).pumpPower))
      ∧ (∀ p ∈ ps, u.ot.parked.getLsbD p.val = true → u.rd (SPN_STATUS_STATE p) ≠ 9 →
        exec .ocsSpinUp s = .next (settle (u.keep { c with stage := .running }).pumpPower)))
    ∧ (∀ p : Fin 8, s.ot.parked.getLsbD p.val = true →
      (s.rd (SRV_STATUS_STATE p) = 4 → (s.wakePort p).ot.parked.getLsbD p.val = false
        ∧ (∀ q : Fin 8, q ≠ p → (s.wakePort p).ot.parked.getLsbD q.val = s.ot.parked.getLsbD q.val))
      ∧ (s.rd (SRV_STATUS_STATE p) ≠ 4 → s.rd (SPN_STATUS_STATE p) = 0 → s.wakePort p = s.spnStart p)
      ∧ (s.rd (SRV_STATUS_STATE p) = 0 → s.rd (SPN_STATUS_STATE p) = 5 → s.wakePort p = s.srvLoad p))

/-- R972 to R976: firmware download and activation, the ANTI_ROLLBACK bits, and diagnostics. -/
def Obligations.OcsFirmware : Prop :=
  ∀ (s : State) (c : OcsCmd) (w : State), w.ocsClear c = true →
    let spare := !w.slotRun
    let p := fin8 (c.par 21)
    (s.ocsNext (isOp 0x48) = some (c, w) →
      (c.arg % 4 ≠ 0 → exec .ocsFwDownload s = .next (settle (w.ocsEnd c 0x11 0 8 [])))
      ∧ (c.arg % 4 = 0 → c.len % 4 ≠ 0 → exec .ocsFwDownload s = .next (settle (w.ocsEnd c 0x11 0 16 [])))
      ∧ (c.arg % 4 = 0 → c.len % 4 = 0 → 393216 < c.arg → exec .ocsFwDownload s = .next (settle (w.ocsEnd c 0x11 0 8 [])))
      ∧ (c.arg % 4 = 0 → c.len % 4 = 0 → c.arg ≤ 393216 → 393216 < c.arg + c.len →
        exec .ocsFwDownload s = .next (settle (w.ocsEnd c 0x11 0 16 [])))
      ∧ (c.arg % 4 = 0 → c.len % 4 = 0 → c.arg + c.len ≤ 393216 →
        exec .ocsFwDownload s = .next (settle ((w.otStore (slotBase spare + c.arg) (sliceB c.data 0 c.len)).ocsEnd c 0 0 0 []))))
    ∧ (s.ocsNext (isAct 0x49 0) = some (c, w) →
      let k := w.slotResult spare
      let new := fieldB (k.2.slotHead (!k.2.slotRun)) 12 4
      let old := fieldB (k.2.slotHead k.2.slotRun) 12 4
      (k.1 ≠ 0 → exec .ocsFwActivate s = .next (settle (k.2.ocsEnd c 0x28 0 k.1 [])))
      ∧ (k.1 = 0 → new ≤ old → exec .ocsFwActivate s = .next (settle (k.2.ocsEnd c 0x28 0 8 [])))
      ∧ (k.1 = 0 → old < new → let u := k.2.ocsEnd c 0 0 0 []
        exec .ocsFwActivate s = .next (settle { u with ot := { u.ot with activate := 1 } })))
    ∧ (∀ (m : MediaEnd) (timeout : Bool), s.otRuns = true →
      (s.ot.activate = 0 → exec (.fwActivateReset m timeout) s = .next (settle s))
      ∧ (s.ot.activate = 1 → s.tagsFree = false → timeout = false → exec (.fwActivateReset m timeout) s = .next (settle s))
      ∧ (s.ot.activate = 1 → (s.tagsFree = true ∨ timeout = true) →
        let f := (flushVols m s.readyVols s).2
        let d := f.writeDirty f.dirtyCounts
        let u := d.almLog 1 0x0004 (sliceB (d.slotHead d.slotRun) 0x1C 4 ++ sliceB (s.slotHead (!s.slotRun)) 0x1C 4
          ++ sliceB (s.slotHead (!s.slotRun)) 12 4)
        exec (.fwActivateReset m timeout) s = .next (settle { u with ot := { u.ot with activate := 2 } }))
      ∧ (2 ≤ s.ot.activate → let u := s.otRetry
        ((u.ot.posts.any (fun e => e.1 == 448) = true ∨ (u.ring 448).count ≠ 0) →
          exec (.fwActivateReset m timeout) s = .next (settle u))
        ∧ (u.ot.posts.any (fun e => e.1 == 448) = false → (u.ring 448).count = 0 →
          ∃ t, exec (.softwareSystemReset 0xA5C30004) u = .next t ∧ exec (.fwActivateReset m timeout) s = .next (settle t))))
    ∧ (s.ocsNext (isAct 0x49 1) = some (c, w) →
      let want := fieldB (w.slotHead w.slotRun) 16 4
      let n := w.rollbackCount
      (c.stage ≠ .running → (want ≤ n ∨ 32 < want) → exec .ocsAntiRollback s = .next (settle (w.ocsEnd c 0x17 0 0 [])))
      ∧ ((c.stage = .running ∨ (n < want ∧ want ≤ 32)) → w.flag OTP_STATUS_BUSY = true →
        exec .ocsAntiRollback s = .next (settle (w.keep { c with stage := .running })))
      ∧ (c.stage = .running → w.flag OTP_STATUS_BUSY = false → want ≤ n →
        exec .ocsAntiRollback s = .next (settle (w.ocsEnd c 0 0 0 [])))
      ∧ (∀ i, (c.stage = .running ∨ want ≤ 32) → n < want → w.flag OTP_STATUS_BUSY = false →
        i < 32 → otpBit w.boot.fuses (512 + i) = false → (∀ j, j < i → otpBit w.boot.fuses (512 + j) = true) →
        let u := w.pageWrite 0 OTP_PROG_WORD.addr (BitVec.ofNat 32 (0x6B1D0000 + 512 + i))
        (u.flag OTP_STATUS_BUSY = true → exec .ocsAntiRollback s = .next (settle (u.keep { c with stage := .running })))
        ∧ (u.flag OTP_STATUS_BUSY = false → exec .ocsAntiRollback s = .next (settle (u.ocsEnd c 0x16 0 0 [])))))
    ∧ (s.ocsNext (isAct 0x50 0) = some (c, w) →
      (6 ≤ c.par 21 → exec .ocsDiagIduTest s = .next (settle (w.ocsEnd c 0x11 0 21 [])))
      ∧ (∀ i : Fin 6, c.par 21 = i.val →
        (w.regOn IDU_FENCE_FENCED.addr = false → exec .ocsDiagIduTest s = .next (settle (w.ocsEnd c 0x16 0 0 [])))
        ∧ (w.regOn IDU_FENCE_FENCED.addr = true → c.stage ≠ .running → ∃ t, exec (.iduRunKat i) w = .next t
          ∧ exec .ocsDiagIduTest s = .next (settle (t.keep { c with stage := .running })))
        ∧ (w.regOn IDU_FENCE_FENCED.addr = true → c.stage = .running → w.idu.kat[i] = 0 → w.idu.katDue.getLsbD i.val = false →
          exec .ocsDiagIduTest s = .next (settle (w.ocsEnd c 0 (b2n (w.idu.katPass.getLsbD i.val)) 0 [])))
        ∧ (w.regOn IDU_FENCE_FENCED.addr = true → c.stage = .running → (w.idu.kat[i] ≠ 0 ∨ w.idu.katDue.getLsbD i.val = true) →
          exec .ocsDiagIduTest s = .next (settle (w.keep c)))))
    ∧ (s.ocsNext (isAct 0x50 1) = some (c, w) →
      (6 ≤ c.par 21 → exec .ocsDiagUnfence s = .next (settle (w.ocsEnd c 0x11 0 21 [])))
      ∧ (∀ i : Fin 6, c.par 21 = i.val →
        (w.regOn IDU_FENCE_FENCED.addr = false → exec .ocsDiagUnfence s = .next (settle (w.ocsEnd c 0x16 0 0 [])))
        ∧ (w.regOn IDU_FENCE_FENCED.addr = true → ∃ t, exec (.iduUnfence i) w = .next t
          ∧ exec .ocsDiagUnfence s = .next (settle (t.ocsEnd c 0 0 0 [])))))
    ∧ (s.ocsNext (isAct 0x50 2) = some (c, w) →
      (c.stage ≠ .running → 8 ≤ c.par 21 → exec .ocsDiagMeasure s = .next (settle (w.ocsEnd c 0x11 0 21 [])))
      ∧ (c.par 21 < 8 → c.stage = .running → w.flag (SPN_STATUS_MEASURE_BUSY p) = true →
        exec .ocsDiagMeasure s = .next (settle (w.keep c)))
      ∧ (c.par 21 < 8 → c.stage = .running → w.flag (SPN_STATUS_MEASURE_BUSY p) = false →
        exec .ocsDiagMeasure s = .next (settle (w.ocsEnd c 0 0 0 (leBytes 4 (w.reg (SPN_RES_A_UV p).addr).toNat
          ++ leBytes 4 (w.reg (SPN_RES_B_WU p).addr).toNat))))
      ∧ (c.par 21 < 8 → c.stage ≠ .running → (w.on (2 + p.val) = false ∨ w.rd (SPN_STATUS_STATE p) ≠ 0) →
        exec .ocsDiagMeasure s = .next (settle (w.ocsEnd c 0x16 0 0 [])))
      ∧ (c.par 21 < 8 → c.stage ≠ .running → w.on (2 + p.val) = true → w.rd (SPN_STATUS_STATE p) = 0 →
        exec .ocsDiagMeasure s = .next (settle ((w.spnMeasure p).keep { c with stage := .running }))))
    ∧ (∀ m : MediaEnd, s.ocsNext (isAct 0x50 3) = some (c, w) →
      let i := Instr.ocsDiagRawRead m
      (8 ≤ c.par 21 → exec i s = .next (settle (w.ocsEnd c 0x11 0 21 [])))
      ∧ (c.par 21 < 8 → 3 ≤ c.par 22 → exec i s = .next (settle (w.ocsEnd c 0x11 0 22 [])))
      ∧ (c.par 21 < 8 → c.par 22 < 3 → (w.on (2 + p.val) = false ∨ w.rd (SRV_STATUS_STATE p) ≠ 4) →
        exec i s = .next (settle (w.ocsEnd c 0x16 0 0 [])))
      ∧ (c.par 21 < 8 → c.par 22 < 3 → w.on (2 + p.val) = true → w.rd (SRV_STATUS_STATE p) = 4 →
        (bdUser (bodyOf (w.hda p)) ≤ c.arg → exec i s = .next (settle (w.ocsEnd c 0x11 0 8 [])))
        ∧ (c.arg < bdUser (bodyOf (w.hda p)) → let x := w.readSector m p.val c.arg
          (x.1 = none → exec i s = .next (settle (x.2.ocsEnd c 0x22 0 0 [])))
          ∧ (∀ b, x.1 = some b → let e := piCheck (c.par 22) (fieldB b 4096 8) b
            e ≠ 0 → exec i s = .next (settle ((x.2.piFault p.val e c.arg b).ocsEnd c 0x22 0 0 [])))
          ∧ (∀ b, x.1 = some b → piCheck (c.par 22) (fieldB b 4096 8) b = 0 →
            exec i s = .next (settle (x.2.ocsEnd c 0 0 0 (sliceB b 0 4112 ++ zerosB 48)))))))
    ∧ (s.ocsNext (isAct 0x50 4) = some (c, w) →
      let as := (List.range (c.len / 4)).map (fun i => c.arg + 4 * i)
      (w.feat 0x17 ≠ 1 → exec .ocsDiagRegRead s = .next (settle (w.ocsEnd c 0x17 0 0 [])))
      ∧ (w.feat 0x17 = 1 → c.arg % 4 ≠ 0 → exec .ocsDiagRegRead s = .next (settle (w.ocsEnd c 0x11 0 8 [])))
      ∧ (w.feat 0x17 = 1 → c.arg % 4 = 0 → (c.len < 4 ∨ 256 < c.len ∨ c.len % 4 ≠ 0) →
        exec .ocsDiagRegRead s = .next (settle (w.ocsEnd c 0x11 0 16 [])))
      ∧ (∀ a ∈ as, w.feat 0x17 = 1 → c.arg % 4 = 0 → 4 ≤ c.len → c.len ≤ 256 → c.len % 4 = 0 →
        (regionAt a = .unmapped ∨ regionAt a = .metadata ∨ (0x100F0000 ≤ a ∧ a < 0x100F4000)) →
        exec .ocsDiagRegRead s = .next (settle (w.ocsEnd c 0x11 0 8 [])))
      ∧ (∀ d u, w.feat 0x17 = 1 → c.arg % 4 = 0 → c.len = 4 → regReadable c.arg = true →
        w.reachRead 0 0 true false c.arg 4 = (.data d, u) →
        (poisoned d = false → exec .ocsDiagRegRead s = .next (settle (u.ocsEnd c 0 0 0 (bits d))))
        ∧ (poisoned d = true → exec .ocsDiagRegRead s = .next (settle (u.ocsEnd c 0x30 0 2 [])))))
    ∧ (s.ocsNext (isAct 0x50 5) = some (c, w) →
      (w.feat 0x17 ≠ 1 → exec .ocsDiagInject s = .next (settle (w.ocsEnd c 0x17 0 0 [])))
      ∧ (w.feat 0x17 = 1 → exec .ocsDiagInject s = .next (settle ((w.injectWrite (BitVec.ofNat 32 c.arg)).ocsEnd c 0 0 0 []))))

/-- R977 to R979: microcode passthrough. -/
def Obligations.OcsMicrocode : Prop :=
  ∀ (s : State) (c : OcsCmd) (w : State),
    (∀ act : Fin 4, s.ocsNext (isAct 0x58 act) = some (c, w) → w.ocsClear c = true → w.feat 0x16 ≠ 1 →
      let i : Instr := match act with
        | 0 => .ocsMicrocodeStage
        | 1 => .ocsMicrocodeLoad
        | 2 => .ocsMicrocodeRequest
        | 3 => .ocsMicrocodeFetch
      exec i s = .next (settle (w.ocsEnd c 0x17 0 0 [])))
    ∧ (s.ocsNext (isAct 0x58 0) = some (c, w) → w.ocsClear c = true → w.feat 0x16 = 1 →
      (65536 < c.arg → exec .ocsMicrocodeStage s = .next (settle (w.ocsEnd c 0x11 0 8 [])))
      ∧ (c.arg ≤ 65536 → 65536 < c.arg + c.len → exec .ocsMicrocodeStage s = .next (settle (w.ocsEnd c 0x11 0 16 [])))
      ∧ (c.arg + c.len ≤ 65536 → exec .ocsMicrocodeStage s = .next (settle
          ((w.masterWrite 0 false false (0xB7FE0000 + c.arg) (clean (sliceB c.data 0 c.len))).2.ocsEnd c 0 0 0 []))))
    ∧ (s.ocsNext (isAct 0x58 1) = some (c, w) → w.ocsClear c = true → w.feat 0x16 = 1 →
      let img := w.staged
      (c.stage ≠ .running → (imageOk img = false ∨ imageFree img = false) →
        exec .ocsMicrocodeLoad s = .next (settle (w.ocsEnd c 0x11 0 20 [])))
      ∧ ((c.stage = .running ∨ (imageOk img = true ∧ imageFree img = true)) →
        (w.haltAll.allHalted = false → exec .ocsMicrocodeLoad s = .next (settle (w.haltAll.keep { c with stage := .running })))
        ∧ (w.haltAll.allHalted = true → let again (x : State) := x.eachPort (fun p s => if s.on (2 + p.val) then s.restartCtx p else s)
          (imageOk img = true ∧ imageFree img = true →
            exec .ocsMicrocodeLoad s = .next (settle ((again (w.haltAll.loadImage img)).ocsEnd c 0 0 0 [])))
          ∧ ((imageOk img = false ∨ imageFree img = false) →
            exec .ocsMicrocodeLoad s = .next (settle ((again w.haltAll).ocsEnd c 0x11 0 20 []))))))
    ∧ (s.ocsNext (isAct 0x58 2) = some (c, w) → w.ocsClear c = true → w.feat 0x16 = 1 →
      let p := c.par 21
      let d := c.data
      (8 ≤ p → exec .ocsMicrocodeRequest s = .next (settle (w.ocsEnd c 0x11 0 21 [])))
      ∧ (p < 8 → c.stage = .running → w.headEntry (65 + 16 * p) = none →
        exec .ocsMicrocodeRequest s = .next (settle ((w.initMem 1).keep c)))
      ∧ (p < 8 → c.stage ≠ .running → d.length < 32 → exec .ocsMicrocodeRequest s = .next (settle (w.ocsEnd c 0x11 0 16 [])))
      ∧ (p < 8 → c.stage ≠ .running → 32 ≤ d.length →
        let taken := w.readyVols.any (fun v => !(w.portMembers v p).isEmpty)
        ((fieldB d 2 1 % 16 < 8 ∨ taken = true) → exec .ocsMicrocodeRequest s = .next (settle (w.ocsEnd c 0x17 0 0 [])))
        ∧ (8 ≤ fieldB d 2 1 % 16 → taken = false →
          (∀ off, requestBad d = some off → exec .ocsMicrocodeRequest s = .next (settle (w.ocsEnd c 0x11 0 (off + 256) [])))
          ∧ (requestBad d = none → exec .ocsMicrocodeRequest s = .next (settle
              (((w.masterWrite 0 false false 0xB7FF0000 (clean (sliceB d 32 (min 65536 (d.length - 32))))).2.otPost (64 + 16 * p)
                (sliceB d 0 28 ++ leBytes 4 0xB7FF0000)).keep { c with stage := .running, data := [] })))))
      ∧ (∀ b u, p < 8 → c.stage = .running → w.dequeue (65 + 16 * p) = (some b, u) → let e := bits b
        exec .ocsMicrocodeRequest s = .next (settle
          (u.ocsEnd c 0 (fieldB e 4 2 + 65536 * fieldB e 6 2) (fieldB e 2 1 + 256 * fieldB e 3 1) []))))
    ∧ (s.otRuns = true →
      let mine (x : OcsCmd) : Bool := x.op == 0x58 && x.par 20 == 2 && x.stage == .running
      (s.ot.cmds.find? mine = none → exec .microcodeRequestTimeout s = .next (settle s))
      ∧ (∀ x, s.ot.cmds.find? mine = some x → ∃ t,
        exec (.fmtHalt (fin8 (x.par 21))) { s with ot := { s.ot with cmds := s.ot.cmds.erase x } } = .next t
        ∧ exec .microcodeRequestTimeout s = .next (settle (t.ocsEnd x 0x30 0 7 []))))
    ∧ (s.otRuns = false → exec .microcodeRequestTimeout s = .next (settle s))
    ∧ (s.ocsNext (isAct 0x58 3) = some (c, w) → w.ocsClear c = true → w.feat 0x16 = 1 →
      (65536 < c.arg → exec .ocsMicrocodeFetch s = .next (settle (w.ocsEnd c 0x11 0 8 [])))
      ∧ (c.arg ≤ 65536 → 65536 < c.arg + c.len → exec .ocsMicrocodeFetch s = .next (settle (w.ocsEnd c 0x11 0 16 [])))
      ∧ (c.arg + c.len ≤ 65536 → let x := w.masterRead 0 false false false (0xB7FF0000 + c.arg) c.len
        (poisoned x.1.data = true → exec .ocsMicrocodeFetch s = .next (settle (x.2.ocsEnd c 0x30 0 2 [])))
        ∧ (poisoned x.1.data = false → exec .ocsMicrocodeFetch s = .next (settle (x.2.ocsEnd c 0 0 0 (bits x.1.data))))))
/-! ### SCSI translation (chapter 20) -/

/-- R913, R914 and R916, and Table 20.9: the SCSI commands that Otivo answers itself, and every other operation code. -/
def Obligations.ScsiDirect : Prop :=
  ∀ (s : State),
    (∀ i mine, scsiServes i = some mine →
      ((s.otRuns = false ∨ s.runs 12 = false) → exec i s = .next (settle s))
      ∧ (s.otRuns = true → s.runs 12 = true → s.scsiNext mine = none → exec i s = .next (settle s.scsiIntake)))
    ∧ (∀ c w, s.scsiNext (scsiOf [0]) = some (c, w) →
      (w.lunLive c = false → exec .scsiTestUnitReady s = .next (settle (w.scsiEnd c 0x02052500)))
      ∧ (w.lunLive c = true → let v := volOf (w.lun c)
        (w.assembled v = false → exec .scsiTestUnitReady s = .next (settle (w.scsiEnd c 0x02020401)))
        ∧ (w.assembled v = true → vState (w.vol v) = 4 → exec .scsiTestUnitReady s = .next (settle (w.scsiEnd c 0x02072700)))
        ∧ (w.assembled v = true → vState (w.vol v) ≠ 4 → exec .scsiTestUnitReady s = .next (settle (w.scsiEnd c 0)))))
    ∧ (∀ c w, s.scsiNext (scsiOf [3]) = some (c, w) → w.lun c < 4 →
      let x := w.ot.sense[volOf (w.lun c)]
      let u := w.scsiData c ([0x70, 0] ++ leBytes 1 (x / 65536 % 16) ++ [0, 0, 0, 0, 10, 0, 0, 0, 0] ++ leBytes 1 (x / 256)
        ++ leBytes 1 x ++ [0, 0, 0, 0]) (fieldB (w.cdb c) 4 1)
      (u.ctxState c ≠ 1 → exec .scsiRequestSense s
        = .next (settle { u with ot := { u.ot with sense := u.ot.sense.set (volOf (w.lun c)) 0 } }))
      ∧ (u.ctxState c = 1 → exec .scsiRequestSense s = .next (settle u)))
    ∧ (∀ c w, s.scsiNext (scsiOf [0x12]) = some (c, w) →
      (w.lunLive c = false → exec .scsiInquiry s = .next (settle (w.scsiEnd c 0x02052500)))
      ∧ (w.lunLive c = true → let d := w.cdb c
        let alloc := 256 * fieldB d 3 1 + fieldB d 4 1
        ((fieldB d 1 1).testBit 0 = false → ∃ l : List Byte, l.length = 36 ∧ l.head? = some 0
          ∧ exec .scsiInquiry s = .next (settle ((State.drawBytes 35 w).2.scsiData c l alloc)))
        ∧ ((fieldB d 1 1).testBit 0 = true → fieldB d 2 1 = 0 →
          exec .scsiInquiry s = .next (settle (w.scsiData c [0, 0, 0, 2, 0, 0x80] alloc)))
        ∧ ((fieldB d 1 1).testBit 0 = true → fieldB d 2 1 = 0x80 → ∃ l : List Byte, l.length = 8
          ∧ exec .scsiInquiry s = .next (settle ((State.drawBytes 8 w).2.scsiData c ([0, 0x80, 0, 8] ++ l) alloc)))
        ∧ ((fieldB d 1 1).testBit 0 = true → fieldB d 2 1 ≠ 0 → fieldB d 2 1 ≠ 0x80 →
          exec .scsiInquiry s = .next (settle (w.scsiEnd c 0x02052400)))))
    ∧ (∀ c w, s.scsiNext (scsiOf [0x1A, 0x5A]) = some (c, w) →
      (w.lunLive c = false → exec .scsiModeSense s = .next (settle (w.scsiEnd c 0x02052500)))
      ∧ (w.lunLive c = true → let d := w.cdb c
        let page := fieldB d 2 1 % 64
        let body : List Byte := [0x08, 0x12, 0x04] ++ zerosB 17
        (page ≠ 8 → page ≠ 0x3F → exec .scsiModeSense s = .next (settle (w.scsiEnd c 0x02052400)))
        ∧ ((page = 8 ∨ page = 0x3F) → fieldB d 0 1 = 0x1A →
          exec .scsiModeSense s = .next (settle (w.scsiData c ([23, 0, 0, 0] ++ body) (fieldB d 4 1))))
        ∧ ((page = 8 ∨ page = 0x3F) → fieldB d 0 1 = 0x5A → exec .scsiModeSense s
          = .next (settle (w.scsiData c ([0, 26, 0, 0, 0, 0, 0, 0] ++ body) (256 * fieldB d 7 1 + fieldB d 8 1))))))
    ∧ (∀ c w, s.scsiNext (scsiOf [0x1B]) = some (c, w) →
      (w.lunLive c = false → exec .scsiStartStopUnit s = .next (settle (w.scsiEnd c 0x02052500)))
      ∧ (w.lunLive c = true → let r := w.vol (volOf (w.lun c))
        let ps := (portsOf r).map fin8
        ((fieldB (w.cdb c) 4 1).testBit 0 = true →
          let x : State := { w with ot := { w.ot with parked := ps.foldl (fun a p => a ||| portBit p) w.ot.parked } }
          exec .scsiStartStopUnit s = .next (settle ((x.wakeVol (x.vol (volOf (w.lun c)))).scsiEnd c 0)))
        ∧ ((fieldB (w.cdb c) 4 1).testBit 0 = false →
          let x := ps.foldl (fun (s : State) p => if s.online p && s.on (2 + p.val) then
            (let y := s.stopPort p
             ({ y with ot := { y.ot with parked := y.ot.parked ||| portBit p } } : State)) else s) w
          exec .scsiStartStopUnit s = .next (settle (x.scsiEnd c 0)))))
    ∧ (∀ c w, s.scsiNext (scsiOf [0x1E]) = some (c, w) → exec .scsiPreventAllow s = .next (settle (w.scsiEnd c 0)))
    ∧ (∀ c w, s.scsiNext (scsiOf [0x25]) = some (c, w) →
      (w.lunLive c = false → exec .scsiReadCapacity10 s = .next (settle (w.scsiEnd c 0x02052500)))
      ∧ (w.lunLive c = true → let r := w.vol (volOf (w.lun c))
        exec .scsiReadCapacity10 s = .next (settle (w.scsiData c
          (beBytes 4 (if 2 ^ 32 < vCap r then 0xFFFFFFFF else vCap r - 1) ++ beBytes 4 (if vLss r then 4096 else 512)) 8))))
    ∧ (∀ c w, s.scsiNext scsiCap16 = some (c, w) →
      (w.lunLive c = false → exec .scsiReadCapacity16 s = .next (settle (w.scsiEnd c 0x02052500)))
      ∧ (w.lunLive c = true → let r := w.vol (volOf (w.lun c))
        exec .scsiReadCapacity16 s = .next (settle (w.scsiData c
          (beBytes 8 (vCap r - 1) ++ beBytes 4 (if vLss r then 4096 else 512) ++ zerosB 20) (beVal (sliceB (w.cdb c) 10 4))))))
    ∧ (∀ c w, s.scsiNext (scsiOf [0xA0]) = some (c, w) →
      let l := ((List.finRange 4).filter (fun v => vLive (w.vol v))).flatMap (fun v => [0] ++ leBytes 1 v.val ++ zerosB 6)
      exec .scsiReportLuns s = .next (settle (w.scsiData c (beBytes 4 l.length ++ [0, 0, 0, 0] ++ l) (beVal (sliceB (w.cdb c) 6 4)))))
    ∧ (∀ c w, s.scsiNext scsiOther = some (c, w) →
      (w.usb.ctx[c].task = false → exec .scsiUnsupported s = .next (settle (w.scsiEnd c 0x02052000)))
      ∧ (w.usb.ctx[c].task = true → fieldB w.usb.ctx[c].cmd 4 1 ≠ 1 →
        exec .scsiUnsupported s = .next (settle (w.scsiStart c 3 0 false 0 0 4)))
      ∧ (w.usb.ctx[c].task = true → fieldB w.usb.ctx[c].cmd 4 1 = 1 →
        let named (x : Fin 16) : Bool := w.ctxState x != 0 && !w.usb.ctx[x].task && w.usb.ctx[x].hq.isSome
          && w.rd (USB_MSE_CTX_UAS_TAG x) == beVal (sliceB w.usb.ctx[c].cmd 6 2)
        ((∀ x, named x = false) → exec .scsiUnsupported s = .next (settle (w.scsiStart c 3 0 false 0 0 0)))
        ∧ (∀ x e, named x = true → (∀ y, named y = true → y = x) → w.usb.ctx[x].hq = some e → exec .scsiUnsupported s
          = .next (settle (({ w with ot := { w.ot with aborts := w.ot.aborts ++ [e] } } : State).abortPump.scsiStart c 3 0 false 0 0 0)))))
    ∧ (∀ (w : State) (c : Fin 16) (x : Nat), w.lun c < 4 → x / 2 ^ 24 = 2 →
      w.scsiEnd c x = ({ w with ot := { w.ot with sense := w.ot.sense.set (volOf (w.lun c)) x } } : State).scsiStart c 2 0 false 0 0 x)
    ∧ (∀ (w : State) (c : Fin 16), w.scsiEnd c 0 = w.scsiStart c 2 0 false 0 0 0)

/-- R899, R909, R913 to R916 and R939: the SCSI commands that go through the HQE, HELD contexts, the OCS tunnel, and
GET_MAX_LUN with the other control requests that Otivo answers. -/
def Obligations.ScsiThroughQueue : Prop :=
  ∀ (s : State),
    (∀ i ops, hqeServes i = some ops →
      ((s.otRuns = false ∨ s.runs 12 = false) → exec i s = .next (settle s))
      ∧ (s.otRuns = true → s.runs 12 = true →
        ((s.finishHeld ops).otRuns = true → (s.finishHeld ops).runs 12 = true → (s.finishHeld ops).scsiNext (scsiOf ops) = none →
          exec i s = .next (settle (s.finishHeld ops).scsiIntake))
        ∧ (∀ c w, (s.finishHeld ops).scsiNext (scsiOf ops) = some (c, w) → w.lunLive c = false →
          exec i s = .next (settle (w.scsiEnd c 0x02052500))))
      ∧ ((∀ c, s.ctxState c ≠ 4 ∨ opIs ops (s.cdb c) = false) → s.finishHeld ops = s)
      ∧ (∀ c : Fin 16, s.ctxState c = 4 → opIs ops (s.cdb c) = true → (∀ d, d < c → s.ctxState d ≠ 4) →
        let x := senseFor (s.flag USB_MSE_CFG_UAS) (s.rd (USB_MSE_CTX_OCS_STATUS c))
        let u := (s.keepSense (s.lun c) x).fieldWrite USB_MSE_SENSE_WORD x
        ∃ t, exec (.mseFinish (BitVec.ofNat 32 c.val)) u = .next t ∧ ((∀ d, c < d → t.ctxState d ≠ 4) → s.finishHeld ops = t)))
    ∧ (∀ (write : Bool) c w, let ops := if write then [0x2A, 0x8A] else [0x28, 0x88]
      s.otRuns = true → s.runs 12 = true → (s.finishHeld ops).scsiNext (scsiOf ops) = some (c, w) → w.lunLive c = true →
      let i : Instr := if write then .scsiWrite else .scsiRead
      let d := w.cdb c
      let long := decide (0x80 ≤ fieldB d 0 1)
      let lba := if long then beVal (sliceB d 2 8) else beVal (sliceB d 2 4)
      let n := if long then beVal (sliceB d 10 4) else beVal (sliceB d 7 2)
      let r := w.vol (volOf (w.lun c))
      let fua := if (fieldB d 1 1).testBit 3 then (if write then 2 else 4) else 0
      (n = 0 → exec i s = .next (settle (w.scsiEnd c 0)))
      ∧ (n ≠ 0 → vCap r < lba + n → exec i s = .next (settle (w.scsiEnd c 0x02052100)))
      ∧ (n ≠ 0 → lba + n ≤ vCap r →
        (w.freeUsbTag = none → w.flag USB_MSE_CFG_UAS = true → exec i s = .next (settle (w.scsiEnd c 0x28000000)))
        ∧ (w.freeUsbTag = none → w.flag USB_MSE_CFG_UAS = false → exec i s = .next (settle w))
        ∧ (∀ t, w.freeUsbTag = some t → exec i s = .next (settle ((w.putSlot t
            ([if write then 2 else 1] ++ leBytes 1 fua ++ leBytes 1 (w.lun c) ++ [0] ++ leBytes 4 (w.scsiId c) ++ leBytes 8 lba
              ++ leBytes 4 n ++ zerosB 12)).scsiStart c 0 t.val (!write) (n * if vLss r then 4096 else 512) 0 0)))))
    ∧ (∀ c w, s.otRuns = true → s.runs 12 = true → (s.finishHeld [0x35, 0x91]).scsiNext (scsiOf [0x35, 0x91]) = some (c, w) →
      w.lunLive c = true → ∀ t, w.freeUsbTag = some t → exec .scsiSynchronizeCache s = .next (settle ((w.putSlot t
        ([3, 0] ++ leBytes 1 (w.lun c) ++ [0] ++ leBytes 4 (w.scsiId c) ++ zerosB 24)).scsiStart c 0 t.val false 0 0 0)))
    ∧ (∀ uas : Bool, senseFor uas 0 = 0 ∧ senseFor uas 1 = 0 ∧ senseFor uas 0x20 = 0x02020401 ∧ senseFor uas 0x22 = 0x02031100
      ∧ senseFor uas 0x23 = 0x02030C00 ∧ senseFor uas 0x21 = 0x02072700
      ∧ senseFor uas 2 = (if uas then 0x40000000 else 0x020B0000)
      ∧ (∀ st, st ∉ [0, 1, 2, 0x20, 0x21, 0x22, 0x23] → senseFor uas st = 0x02044400))
    ∧ (∀ (timeout : Bool) c w, s.scsiNext scsiTunnel = some (c, w) →
      let i := Instr.scsiOcsTunnel timeout
      (4 ≤ w.lun c → exec i s = .next (settle (w.scsiEnd c 0x02052500)))
      ∧ (w.lun c < 4 → fieldB (w.cdb c) 1 1 = 0 →
        let n := min (beVal (sliceB (w.cdb c) 2 4)) 8229
        let full := decide (4 ≤ (w.tunnelled none).length + w.ot.tunIn.length)
        (full = true → exec i s = .next (settle w))
        ∧ (full = false → n = 0 → exec i s = .next (settle (w.scsiEnd c 0)))
        ∧ (full = false → n ≠ 0 → w.runBufs (ceilDiv n 4096) = none → exec i s = .next (settle w))
        ∧ (∀ bufs, full = false → n ≠ 0 → w.runBufs (ceilDiv n 4096) = some bufs →
          let u : State := { w with
            ot := { w.ot with tunnel := w.ot.tunnel.set (volOf (w.lun c)) none, tunIn := w.ot.tunIn ++ [(c.val, (volOf (w.lun c)).val, bufs)] } }
          exec i s = .next (settle (u.scsiStart c 1 0 false n (u.bufAddr (bufs.headD 0)) 0))))
      ∧ (w.lun c < 4 → fieldB (w.cdb c) 1 1 = 1 →
        (∀ b, w.ot.tunnel[volOf (w.lun c)] = some b → let u := w.scsiData c b b.length
          (u.ctxState c = 1 → exec i s = .next (settle u))
          ∧ (u.ctxState c ≠ 1 → exec i s
            = .next (settle { u with ot := { u.ot with tunnel := u.ot.tunnel.set (volOf (w.lun c)) none } })))
        ∧ (w.ot.tunnel[volOf (w.lun c)] = none →
          let waits := !(w.tunnelled (some (w.lun c))).isEmpty || w.ot.tunIn.any (fun e => e.2.1 == w.lun c)
          (waits = true → timeout = false → exec i s = .next (settle w))
          ∧ ((waits = false ∨ timeout = true) → exec i s = .next (settle (w.scsiEnd c 0x02052C00))))))
    ∧ ((s.otRuns = false ∨ s.runs 12 = false) → exec .getMaxLun s = .next (settle s))
    ∧ (s.otRuns = true → s.runs 12 = true →
      let x := s.otRetry.abortPump.dequeue 4
      (x.1 = none → exec .getMaxLun s = .next (settle x.2))
      ∧ (∀ b, x.1 = some b → let e := bits b
        let kind := fieldB e 0 1
        let req := fieldB e 1 1
        let seq := fieldB e 8 1
        (kind = 0xA1 → req = 0xFE → exec .getMaxLun s = .next (settle (((x.2.epEmpty 0).epPut 0 [(3, false)]).ep0Say 1 seq 1)))
        ∧ (kind = 0x21 → req = 0xFF → exec .getMaxLun s = .next (settle x.2.abortUsb))
        ∧ (kind = 1 → req = 11 → fieldB e 4 2 = 0 → 2 ≤ fieldB e 2 2 → exec .getMaxLun s = .next (settle (x.2.ep0Say 3 seq 0)))
        ∧ (kind = 1 → req = 11 → fieldB e 4 2 = 0 → fieldB e 2 2 ≤ 1 → ∃ t,
          exec (.uasModeWrite (BitVec.ofNat 32 (fieldB e 2 2))) x.2 = .next t
          ∧ exec .getMaxLun s = .next (settle (t.abortUsb.ep0Say 2 seq 0)))
        ∧ ((kind = 0xC0 ∧ req = 0xD0) ∨ (kind = 0x40 ∧ req = 0xD1) → exec .getMaxLun s = .next (settle (x.2.ep0Say 3 seq 0)))
        ∧ (kind ∉ [0xA1, 0x21, 1, 0xC0, 0x40] → exec .getMaxLun s = .next (settle x.2))))

/-! ### The whole block -/

/-- A step runs the command at the front of the queue, with the queue's rest; with no command waiting the block idles, which
is the model's choice (log entry 4). -/
def Obligations.StepRunsFront : Prop :=
  ∀ (s : State), (∀ (c : Instr) (q : List Instr), step { s with pending := c :: q } = exec c { s with pending := q })
    ∧ (s.pending = [] → step s = .next s)

/-- R114, R117 and the reset values of the register tables: what the machine is right after reset. Values that the tables do
not give are the model's (log entry 2). -/
def Obligations.ResetLeaves : Prop :=
  (∀ a, State.reset.reg a = regReset a) ∧ State.reset.core[(0 : Fin 2)].run = true ∧ State.reset.core[(0 : Fin 2)].pc = 0
  ∧ State.reset.core[(1 : Fin 2)].run = false ∧ State.reset.pending = []
  ∧ Memory.wf State.reset.mem = true ∧ Registers.wf State.reset.regs = true
  ∧ (∀ p : Fin 8, State.reset.rd (SPN_STATUS_STATE p) = 0 ∧ State.reset.rd (SRV_STATUS_STATE p) = 0
    ∧ State.reset.rd (FMT_CTX_STATUS_STATE p) = 0 ∧ State.reset.rd (CH_STATUS_WG p) = 0)

/-- R606: every step leaves the Event Controller settled: EVC_RAW shows the inputs as they stand, and the pending bit of a
level source is its input. -/
def Obligations.StepKeepsEventsSettled : Prop :=
  ∀ (s t : State), s.settled = true → step s = .next t → t.settled = true

/-- The sparse stores keep their canonical form (log entry 5): in every step, the list of memory's bytes and the list of
registers stay strictly rising, with no entry that reads the same unlisted. -/
def Obligations.StepKeepsCanonicalForm : Prop :=
  ∀ (s t : State), Memory.wf s.mem = true → Registers.wf s.regs = true → step s = .next t →
    Memory.wf t.mem = true ∧ Registers.wf t.regs = true

/-- No command stops the block: every step answers a next state (INVENTORY.md, Faults), since each access or command that the
spec calls an error completes with that error. -/
def Obligations.StepNeverStops : Prop := ∀ s : State, ∃ t, step s = .next t
end

