-- ==== Sys2Proof/Laws/SMap.lean ====
section
/-! SUPPORT. The laws of sparse storage: a read after a write, and that every operation keeps the canonical form. -/

namespace Sys2Proof.Machine

/-- Dropping entries by their keys: a key dropped reads as an unlisted one, every other as before. -/
theorem smGet_filter {α : Type} (d : Nat → α) (p : Nat → Bool) (k : Nat) (m : List (Nat × α)) :
    smGet d k (m.filter (fun e => !p e.1)) = if p k then d k else smGet d k m := by
  induction m with
  | nil => simp [smGet]
  | cons e m ih =>
    obtain ⟨j, w⟩ := e
    by_cases hp : p j <;> by_cases hj : j = k
    · subst hj; simpa [hp] using ih
    · simp [hp, hj, smGet, ih]
    · subst hj; simp [hp, smGet]
    · simp [hp, hj, smGet, ih]

theorem smGet_smDrop {α : Type} (d : Nat → α) (p : Nat → Bool) (k : Nat) (m : List (Nat × α)) :
    smGet d k (smDrop p m) = if p k then d k else smGet d k m := smGet_filter d p k m

/-- A key reads what was last written to it, and every other key reads as before. -/
theorem smGet_smSet {α : Type} [DecidableEq α] (d : Nat → α) (k k' : Nat) (v : α) (m : List (Nat × α)) :
    smGet d k' (smSet d k v m) = if k' = k then v else smGet d k' m := by
  induction m with
  | nil =>
    by_cases hv : v = d k <;> by_cases hk : k' = k
    · subst hk; simp [smSet, smGet, hv]
    · simp [smSet, smGet, hv, hk]
    · subst hk; simp [smSet, smGet, hv]
    · have : ¬ k = k' := fun h => hk h.symm
      simp [smSet, smGet, hv, hk, this]
  | cons e m ih =>
    obtain ⟨j, w⟩ := e
    by_cases hj : j < k
    · simp only [smSet, hj, if_true, smGet, ih]
      by_cases hk : k' = k
      · subst hk
        have h1 : ¬ j = k' := by omega
        simp [h1]
      · simp [hk]
    · simp only [smSet, hj, if_false]
      have f := smGet_filter d (fun x => decide (x = k)) k' ((j, w) :: m)
      by_cases hv : v = d k
      · simp only [hv, if_true]
        rw [f]
        by_cases hk : k' = k
        · simp [hk]
        · simp [hk]
      · simp only [hv, if_false]
        by_cases hk : k' = k
        · simp [hk, smGet]
        · have h0 : ¬ k = k' := fun h => hk h.symm
          rw [smGet, if_neg h0, f]
          simp [hk]

theorem smGet_smSet_same {α : Type} [DecidableEq α] (d : Nat → α) (k : Nat) (v : α) (m : List (Nat × α)) :
    smGet d k (smSet d k v m) = v := by simp [smGet_smSet]

theorem smGet_smSet_ne {α : Type} [DecidableEq α] (d : Nat → α) (k k' : Nat) (v : α) (m : List (Nat × α))
    (h : k' ≠ k) : smGet d k' (smSet d k v m) = smGet d k' m := by simp [smGet_smSet, h]

theorem mem_smSet {α : Type} [DecidableEq α] (d : Nat → α) (k : Nat) (v : α) (m : List (Nat × α)) :
    ∀ e ∈ smSet d k v m, (e = (k, v) ∧ v ≠ d k) ∨ e ∈ m := by
  induction m with
  | nil => intro e he; by_cases hv : v = d k <;> simp_all [smSet]
  | cons x m ih =>
    intro e he
    by_cases hj : x.1 < k
    · simp only [smSet, hj, if_true, List.mem_cons] at he
      rcases he with rfl | he
      · exact .inr (by simp)
      · rcases ih e he with h | h
        · exact .inl h
        · exact .inr (by simp [h])
    · simp only [smSet, hj, if_false] at he
      have hs := List.filter_sublist (l := x :: m) (p := fun e => !decide (e.1 = k))
      by_cases hv : v = d k
      · simp only [hv, if_true] at he; exact .inr (hs.subset he)
      · simp only [hv, if_false, List.mem_cons] at he
        rcases he with rfl | he
        · exact .inl ⟨rfl, hv⟩
        · exact .inr (hs.subset he)

/-- Writing a key keeps the canonical form. -/
theorem smWf_smSet {α : Type} [DecidableEq α] (d : Nat → α) (k : Nat) (v : α) (m : List (Nat × α))
    (h : smWf d m = true) : smWf d (smSet d k v m) = true := by
  simp only [smWf, Bool.and_eq_true, decide_eq_true_eq, List.all_eq_true] at h ⊢
  obtain ⟨hp, hd⟩ := h
  refine ⟨?_, ?_⟩
  · clear hd
    induction m with
    | nil => by_cases hv : v = d k <;> simp [smSet, hv]
    | cons x m ih =>
      have hx := List.pairwise_cons.1 hp
      by_cases hj : x.1 < k
      · simp only [smSet, hj, if_true]
        refine List.pairwise_cons.2 ⟨?_, ih hx.2⟩
        intro e he
        rcases mem_smSet d k v m e he with ⟨rfl, -⟩ | h
        · exact hj
        · exact hx.1 e h
      · simp only [smSet, hj, if_false]
        have hq := hp.sublist (List.filter_sublist (l := x :: m) (p := fun e => !decide (e.1 = k)))
        by_cases hv : v = d k
        · simpa [hv] using hq
        · simp only [hv, if_false]
          refine List.pairwise_cons.2 ⟨?_, hq⟩
          intro e he
          obtain ⟨he, hne⟩ := List.mem_filter.1 he
          have hne : e.1 ≠ k := by simpa using hne
          have hle : x.1 ≤ e.1 := by
            rcases List.mem_cons.1 he with rfl | he
            · exact Nat.le_refl _
            · exact Nat.le_of_lt (hx.1 e he)
          show k < e.1
          omega
  · intro e he
    rcases mem_smSet d k v m e he with ⟨rfl, hv⟩ | h
    · simpa using hv
    · exact hd e h

theorem smWf_smDrop {α : Type} [DecidableEq α] (d : Nat → α) (p : Nat → Bool) (m : List (Nat × α))
    (h : smWf d m = true) : smWf d (smDrop p m) = true := by
  simp only [smWf, Bool.and_eq_true, decide_eq_true_eq, List.all_eq_true] at h ⊢
  exact ⟨h.1.sublist List.filter_sublist, fun e he => h.2 e (List.mem_filter.1 he).1⟩

end Sys2Proof.Machine
end

