-- ==== Sys2Proof/Laws/State.lean ====
section
/-! SUPPORT. What each update of State leaves alone: one lemma for each field and update, so that no proof unfolds a record
update; and what the fields of a unit read after its update. Each proof is `(rfl)` and not `rfl`, so that simp rewrites with
it by congruence and the kernel never compares whole states. -/

namespace Sys2Proof.Machine
open Sys2Proof

@[simp] theorem State.setReg_mem (s : State) (a : Nat) (v : Word) : (s.setReg a v).mem = s.mem := (rfl)
@[simp] theorem State.setReg_ecc (s : State) (a : Nat) (v : Word) : (s.setReg a v).ecc = s.ecc := (rfl)
@[simp] theorem State.setReg_caps (s : State) (a : Nat) (v : Word) : (s.setReg a v).caps = s.caps := (rfl)
@[simp] theorem State.setReg_rings (s : State) (a : Nat) (v : Word) : (s.setReg a v).rings = s.rings := (rfl)
@[simp] theorem State.setReg_evc (s : State) (a : Nat) (v : Word) : (s.setReg a v).evc = s.evc := (rfl)
@[simp] theorem State.setReg_pw (s : State) (a : Nat) (v : Word) : (s.setReg a v).pw = s.pw := (rfl)
@[simp] theorem State.setReg_boot (s : State) (a : Nat) (v : Word) : (s.setReg a v).boot = s.boot := (rfl)
@[simp] theorem State.setReg_core (s : State) (a : Nat) (v : Word) : (s.setReg a v).core = s.core := (rfl)
@[simp] theorem State.setReg_dbg (s : State) (a : Nat) (v : Word) : (s.setReg a v).dbg = s.dbg := (rfl)
@[simp] theorem State.setReg_io (s : State) (a : Nat) (v : Word) : (s.setReg a v).io = s.io := (rfl)
@[simp] theorem State.setReg_lc (s : State) (a : Nat) (v : Word) : (s.setReg a v).lc = s.lc := (rfl)
@[simp] theorem State.setReg_cip (s : State) (a : Nat) (v : Word) : (s.setReg a v).cip = s.cip := (rfl)
@[simp] theorem State.setReg_bus (s : State) (a : Nat) (v : Word) : (s.setReg a v).bus = s.bus := (rfl)
@[simp] theorem State.setReg_spn (s : State) (a : Nat) (v : Word) : (s.setReg a v).spn = s.spn := (rfl)
@[simp] theorem State.setReg_die (s : State) (a : Nat) (v : Word) : (s.setReg a v).die = s.die := (rfl)
@[simp] theorem State.setReg_srv (s : State) (a : Nat) (v : Word) : (s.setReg a v).srv = s.srv := (rfl)
@[simp] theorem State.setReg_shockLow (s : State) (a : Nat) (v : Word) : (s.setReg a v).shockLow = s.shockLow := (rfl)
@[simp] theorem State.setReg_fmtLast (s : State) (a : Nat) (v : Word) : (s.setReg a v).fmtLast = s.fmtLast := (rfl)
@[simp] theorem State.setReg_mram (s : State) (a : Nat) (v : Word) : (s.setReg a v).mram = s.mram := (rfl)
@[simp] theorem State.setReg_sce (s : State) (a : Nat) (v : Word) : (s.setReg a v).sce = s.sce := (rfl)
@[simp] theorem State.setReg_ch (s : State) (a : Nat) (v : Word) : (s.setReg a v).ch = s.ch := (rfl)
@[simp] theorem State.setReg_fmt (s : State) (a : Nat) (v : Word) : (s.setReg a v).fmt = s.fmt := (rfl)
@[simp] theorem State.setReg_memDue (s : State) (a : Nat) (v : Word) : (s.setReg a v).memDue = s.memDue := (rfl)
@[simp] theorem State.setReg_hq (s : State) (a : Nat) (v : Word) : (s.setReg a v).hq = s.hq := (rfl)
@[simp] theorem State.setReg_hp (s : State) (a : Nat) (v : Word) : (s.setReg a v).hp = s.hp := (rfl)
@[simp] theorem State.setReg_nanoStage (s : State) (a : Nat) (v : Word) : (s.setReg a v).nanoStage = s.nanoStage := (rfl)
@[simp] theorem State.setReg_usb (s : State) (a : Nat) (v : Word) : (s.setReg a v).usb = s.usb := (rfl)
@[simp] theorem State.setReg_idu (s : State) (a : Nat) (v : Word) : (s.setReg a v).idu = s.idu := (rfl)
@[simp] theorem State.setReg_alm (s : State) (a : Nat) (v : Word) : (s.setReg a v).alm = s.alm := (rfl)
@[simp] theorem State.setReg_jtag (s : State) (a : Nat) (v : Word) : (s.setReg a v).jtag = s.jtag := (rfl)
@[simp] theorem State.setReg_ae (s : State) (a : Nat) (v : Word) : (s.setReg a v).ae = s.ae := (rfl)
@[simp] theorem State.setReg_ot (s : State) (a : Nat) (v : Word) : (s.setReg a v).ot = s.ot := (rfl)
@[simp] theorem State.setReg_media (s : State) (a : Nat) (v : Word) : (s.setReg a v).media = s.media := (rfl)
@[simp] theorem State.setReg_freeCtr (s : State) (a : Nat) (v : Word) : (s.setReg a v).freeCtr = s.freeCtr := (rfl)
@[simp] theorem State.setReg_pending (s : State) (a : Nat) (v : Word) : (s.setReg a v).pending = s.pending := (rfl)

@[simp] theorem State.wr_mem (s : State) (f : Fld) (v : Nat) : (s.wr f v).mem = s.mem := (rfl)
@[simp] theorem State.wr_ecc (s : State) (f : Fld) (v : Nat) : (s.wr f v).ecc = s.ecc := (rfl)
@[simp] theorem State.wr_caps (s : State) (f : Fld) (v : Nat) : (s.wr f v).caps = s.caps := (rfl)
@[simp] theorem State.wr_rings (s : State) (f : Fld) (v : Nat) : (s.wr f v).rings = s.rings := (rfl)
@[simp] theorem State.wr_evc (s : State) (f : Fld) (v : Nat) : (s.wr f v).evc = s.evc := (rfl)
@[simp] theorem State.wr_pw (s : State) (f : Fld) (v : Nat) : (s.wr f v).pw = s.pw := (rfl)
@[simp] theorem State.wr_boot (s : State) (f : Fld) (v : Nat) : (s.wr f v).boot = s.boot := (rfl)
@[simp] theorem State.wr_core (s : State) (f : Fld) (v : Nat) : (s.wr f v).core = s.core := (rfl)
@[simp] theorem State.wr_dbg (s : State) (f : Fld) (v : Nat) : (s.wr f v).dbg = s.dbg := (rfl)
@[simp] theorem State.wr_io (s : State) (f : Fld) (v : Nat) : (s.wr f v).io = s.io := (rfl)
@[simp] theorem State.wr_lc (s : State) (f : Fld) (v : Nat) : (s.wr f v).lc = s.lc := (rfl)
@[simp] theorem State.wr_cip (s : State) (f : Fld) (v : Nat) : (s.wr f v).cip = s.cip := (rfl)
@[simp] theorem State.wr_bus (s : State) (f : Fld) (v : Nat) : (s.wr f v).bus = s.bus := (rfl)
@[simp] theorem State.wr_spn (s : State) (f : Fld) (v : Nat) : (s.wr f v).spn = s.spn := (rfl)
@[simp] theorem State.wr_die (s : State) (f : Fld) (v : Nat) : (s.wr f v).die = s.die := (rfl)
@[simp] theorem State.wr_srv (s : State) (f : Fld) (v : Nat) : (s.wr f v).srv = s.srv := (rfl)
@[simp] theorem State.wr_shockLow (s : State) (f : Fld) (v : Nat) : (s.wr f v).shockLow = s.shockLow := (rfl)
@[simp] theorem State.wr_fmtLast (s : State) (f : Fld) (v : Nat) : (s.wr f v).fmtLast = s.fmtLast := (rfl)
@[simp] theorem State.wr_mram (s : State) (f : Fld) (v : Nat) : (s.wr f v).mram = s.mram := (rfl)
@[simp] theorem State.wr_sce (s : State) (f : Fld) (v : Nat) : (s.wr f v).sce = s.sce := (rfl)
@[simp] theorem State.wr_ch (s : State) (f : Fld) (v : Nat) : (s.wr f v).ch = s.ch := (rfl)
@[simp] theorem State.wr_fmt (s : State) (f : Fld) (v : Nat) : (s.wr f v).fmt = s.fmt := (rfl)
@[simp] theorem State.wr_memDue (s : State) (f : Fld) (v : Nat) : (s.wr f v).memDue = s.memDue := (rfl)
@[simp] theorem State.wr_hq (s : State) (f : Fld) (v : Nat) : (s.wr f v).hq = s.hq := (rfl)
@[simp] theorem State.wr_hp (s : State) (f : Fld) (v : Nat) : (s.wr f v).hp = s.hp := (rfl)
@[simp] theorem State.wr_nanoStage (s : State) (f : Fld) (v : Nat) : (s.wr f v).nanoStage = s.nanoStage := (rfl)
@[simp] theorem State.wr_usb (s : State) (f : Fld) (v : Nat) : (s.wr f v).usb = s.usb := (rfl)
@[simp] theorem State.wr_idu (s : State) (f : Fld) (v : Nat) : (s.wr f v).idu = s.idu := (rfl)
@[simp] theorem State.wr_alm (s : State) (f : Fld) (v : Nat) : (s.wr f v).alm = s.alm := (rfl)
@[simp] theorem State.wr_jtag (s : State) (f : Fld) (v : Nat) : (s.wr f v).jtag = s.jtag := (rfl)
@[simp] theorem State.wr_ae (s : State) (f : Fld) (v : Nat) : (s.wr f v).ae = s.ae := (rfl)
@[simp] theorem State.wr_ot (s : State) (f : Fld) (v : Nat) : (s.wr f v).ot = s.ot := (rfl)
@[simp] theorem State.wr_media (s : State) (f : Fld) (v : Nat) : (s.wr f v).media = s.media := (rfl)
@[simp] theorem State.wr_freeCtr (s : State) (f : Fld) (v : Nat) : (s.wr f v).freeCtr = s.freeCtr := (rfl)
@[simp] theorem State.wr_pending (s : State) (f : Fld) (v : Nat) : (s.wr f v).pending = s.pending := (rfl)

@[simp] theorem State.wrI_mem (s : State) (f : Fld) (v : Int) : (s.wrI f v).mem = s.mem := (rfl)
@[simp] theorem State.wrI_ecc (s : State) (f : Fld) (v : Int) : (s.wrI f v).ecc = s.ecc := (rfl)
@[simp] theorem State.wrI_caps (s : State) (f : Fld) (v : Int) : (s.wrI f v).caps = s.caps := (rfl)
@[simp] theorem State.wrI_rings (s : State) (f : Fld) (v : Int) : (s.wrI f v).rings = s.rings := (rfl)
@[simp] theorem State.wrI_evc (s : State) (f : Fld) (v : Int) : (s.wrI f v).evc = s.evc := (rfl)
@[simp] theorem State.wrI_pw (s : State) (f : Fld) (v : Int) : (s.wrI f v).pw = s.pw := (rfl)
@[simp] theorem State.wrI_boot (s : State) (f : Fld) (v : Int) : (s.wrI f v).boot = s.boot := (rfl)
@[simp] theorem State.wrI_core (s : State) (f : Fld) (v : Int) : (s.wrI f v).core = s.core := (rfl)
@[simp] theorem State.wrI_dbg (s : State) (f : Fld) (v : Int) : (s.wrI f v).dbg = s.dbg := (rfl)
@[simp] theorem State.wrI_io (s : State) (f : Fld) (v : Int) : (s.wrI f v).io = s.io := (rfl)
@[simp] theorem State.wrI_lc (s : State) (f : Fld) (v : Int) : (s.wrI f v).lc = s.lc := (rfl)
@[simp] theorem State.wrI_cip (s : State) (f : Fld) (v : Int) : (s.wrI f v).cip = s.cip := (rfl)
@[simp] theorem State.wrI_bus (s : State) (f : Fld) (v : Int) : (s.wrI f v).bus = s.bus := (rfl)
@[simp] theorem State.wrI_spn (s : State) (f : Fld) (v : Int) : (s.wrI f v).spn = s.spn := (rfl)
@[simp] theorem State.wrI_die (s : State) (f : Fld) (v : Int) : (s.wrI f v).die = s.die := (rfl)
@[simp] theorem State.wrI_srv (s : State) (f : Fld) (v : Int) : (s.wrI f v).srv = s.srv := (rfl)
@[simp] theorem State.wrI_shockLow (s : State) (f : Fld) (v : Int) : (s.wrI f v).shockLow = s.shockLow := (rfl)
@[simp] theorem State.wrI_fmtLast (s : State) (f : Fld) (v : Int) : (s.wrI f v).fmtLast = s.fmtLast := (rfl)
@[simp] theorem State.wrI_mram (s : State) (f : Fld) (v : Int) : (s.wrI f v).mram = s.mram := (rfl)
@[simp] theorem State.wrI_sce (s : State) (f : Fld) (v : Int) : (s.wrI f v).sce = s.sce := (rfl)
@[simp] theorem State.wrI_ch (s : State) (f : Fld) (v : Int) : (s.wrI f v).ch = s.ch := (rfl)
@[simp] theorem State.wrI_fmt (s : State) (f : Fld) (v : Int) : (s.wrI f v).fmt = s.fmt := (rfl)
@[simp] theorem State.wrI_memDue (s : State) (f : Fld) (v : Int) : (s.wrI f v).memDue = s.memDue := (rfl)
@[simp] theorem State.wrI_hq (s : State) (f : Fld) (v : Int) : (s.wrI f v).hq = s.hq := (rfl)
@[simp] theorem State.wrI_hp (s : State) (f : Fld) (v : Int) : (s.wrI f v).hp = s.hp := (rfl)
@[simp] theorem State.wrI_nanoStage (s : State) (f : Fld) (v : Int) : (s.wrI f v).nanoStage = s.nanoStage := (rfl)
@[simp] theorem State.wrI_usb (s : State) (f : Fld) (v : Int) : (s.wrI f v).usb = s.usb := (rfl)
@[simp] theorem State.wrI_idu (s : State) (f : Fld) (v : Int) : (s.wrI f v).idu = s.idu := (rfl)
@[simp] theorem State.wrI_alm (s : State) (f : Fld) (v : Int) : (s.wrI f v).alm = s.alm := (rfl)
@[simp] theorem State.wrI_jtag (s : State) (f : Fld) (v : Int) : (s.wrI f v).jtag = s.jtag := (rfl)
@[simp] theorem State.wrI_ae (s : State) (f : Fld) (v : Int) : (s.wrI f v).ae = s.ae := (rfl)
@[simp] theorem State.wrI_ot (s : State) (f : Fld) (v : Int) : (s.wrI f v).ot = s.ot := (rfl)
@[simp] theorem State.wrI_media (s : State) (f : Fld) (v : Int) : (s.wrI f v).media = s.media := (rfl)
@[simp] theorem State.wrI_freeCtr (s : State) (f : Fld) (v : Int) : (s.wrI f v).freeCtr = s.freeCtr := (rfl)
@[simp] theorem State.wrI_pending (s : State) (f : Fld) (v : Int) : (s.wrI f v).pending = s.pending := (rfl)

@[simp] theorem State.put_mem (s : State) (f : Fld) (b : Bool) : (s.put f b).mem = s.mem := (rfl)
@[simp] theorem State.put_ecc (s : State) (f : Fld) (b : Bool) : (s.put f b).ecc = s.ecc := (rfl)
@[simp] theorem State.put_caps (s : State) (f : Fld) (b : Bool) : (s.put f b).caps = s.caps := (rfl)
@[simp] theorem State.put_rings (s : State) (f : Fld) (b : Bool) : (s.put f b).rings = s.rings := (rfl)
@[simp] theorem State.put_evc (s : State) (f : Fld) (b : Bool) : (s.put f b).evc = s.evc := (rfl)
@[simp] theorem State.put_pw (s : State) (f : Fld) (b : Bool) : (s.put f b).pw = s.pw := (rfl)
@[simp] theorem State.put_boot (s : State) (f : Fld) (b : Bool) : (s.put f b).boot = s.boot := (rfl)
@[simp] theorem State.put_core (s : State) (f : Fld) (b : Bool) : (s.put f b).core = s.core := (rfl)
@[simp] theorem State.put_dbg (s : State) (f : Fld) (b : Bool) : (s.put f b).dbg = s.dbg := (rfl)
@[simp] theorem State.put_io (s : State) (f : Fld) (b : Bool) : (s.put f b).io = s.io := (rfl)
@[simp] theorem State.put_lc (s : State) (f : Fld) (b : Bool) : (s.put f b).lc = s.lc := (rfl)
@[simp] theorem State.put_cip (s : State) (f : Fld) (b : Bool) : (s.put f b).cip = s.cip := (rfl)
@[simp] theorem State.put_bus (s : State) (f : Fld) (b : Bool) : (s.put f b).bus = s.bus := (rfl)
@[simp] theorem State.put_spn (s : State) (f : Fld) (b : Bool) : (s.put f b).spn = s.spn := (rfl)
@[simp] theorem State.put_die (s : State) (f : Fld) (b : Bool) : (s.put f b).die = s.die := (rfl)
@[simp] theorem State.put_srv (s : State) (f : Fld) (b : Bool) : (s.put f b).srv = s.srv := (rfl)
@[simp] theorem State.put_shockLow (s : State) (f : Fld) (b : Bool) : (s.put f b).shockLow = s.shockLow := (rfl)
@[simp] theorem State.put_fmtLast (s : State) (f : Fld) (b : Bool) : (s.put f b).fmtLast = s.fmtLast := (rfl)
@[simp] theorem State.put_mram (s : State) (f : Fld) (b : Bool) : (s.put f b).mram = s.mram := (rfl)
@[simp] theorem State.put_sce (s : State) (f : Fld) (b : Bool) : (s.put f b).sce = s.sce := (rfl)
@[simp] theorem State.put_ch (s : State) (f : Fld) (b : Bool) : (s.put f b).ch = s.ch := (rfl)
@[simp] theorem State.put_fmt (s : State) (f : Fld) (b : Bool) : (s.put f b).fmt = s.fmt := (rfl)
@[simp] theorem State.put_memDue (s : State) (f : Fld) (b : Bool) : (s.put f b).memDue = s.memDue := (rfl)
@[simp] theorem State.put_hq (s : State) (f : Fld) (b : Bool) : (s.put f b).hq = s.hq := (rfl)
@[simp] theorem State.put_hp (s : State) (f : Fld) (b : Bool) : (s.put f b).hp = s.hp := (rfl)
@[simp] theorem State.put_nanoStage (s : State) (f : Fld) (b : Bool) : (s.put f b).nanoStage = s.nanoStage := (rfl)
@[simp] theorem State.put_usb (s : State) (f : Fld) (b : Bool) : (s.put f b).usb = s.usb := (rfl)
@[simp] theorem State.put_idu (s : State) (f : Fld) (b : Bool) : (s.put f b).idu = s.idu := (rfl)
@[simp] theorem State.put_alm (s : State) (f : Fld) (b : Bool) : (s.put f b).alm = s.alm := (rfl)
@[simp] theorem State.put_jtag (s : State) (f : Fld) (b : Bool) : (s.put f b).jtag = s.jtag := (rfl)
@[simp] theorem State.put_ae (s : State) (f : Fld) (b : Bool) : (s.put f b).ae = s.ae := (rfl)
@[simp] theorem State.put_ot (s : State) (f : Fld) (b : Bool) : (s.put f b).ot = s.ot := (rfl)
@[simp] theorem State.put_media (s : State) (f : Fld) (b : Bool) : (s.put f b).media = s.media := (rfl)
@[simp] theorem State.put_freeCtr (s : State) (f : Fld) (b : Bool) : (s.put f b).freeCtr = s.freeCtr := (rfl)
@[simp] theorem State.put_pending (s : State) (f : Fld) (b : Bool) : (s.put f b).pending = s.pending := (rfl)

@[simp] theorem State.up_mem (s : State) (f : Fld) : (s.up f).mem = s.mem := (rfl)
@[simp] theorem State.up_ecc (s : State) (f : Fld) : (s.up f).ecc = s.ecc := (rfl)
@[simp] theorem State.up_caps (s : State) (f : Fld) : (s.up f).caps = s.caps := (rfl)
@[simp] theorem State.up_rings (s : State) (f : Fld) : (s.up f).rings = s.rings := (rfl)
@[simp] theorem State.up_evc (s : State) (f : Fld) : (s.up f).evc = s.evc := (rfl)
@[simp] theorem State.up_pw (s : State) (f : Fld) : (s.up f).pw = s.pw := (rfl)
@[simp] theorem State.up_boot (s : State) (f : Fld) : (s.up f).boot = s.boot := (rfl)
@[simp] theorem State.up_core (s : State) (f : Fld) : (s.up f).core = s.core := (rfl)
@[simp] theorem State.up_dbg (s : State) (f : Fld) : (s.up f).dbg = s.dbg := (rfl)
@[simp] theorem State.up_io (s : State) (f : Fld) : (s.up f).io = s.io := (rfl)
@[simp] theorem State.up_lc (s : State) (f : Fld) : (s.up f).lc = s.lc := (rfl)
@[simp] theorem State.up_cip (s : State) (f : Fld) : (s.up f).cip = s.cip := (rfl)
@[simp] theorem State.up_bus (s : State) (f : Fld) : (s.up f).bus = s.bus := (rfl)
@[simp] theorem State.up_spn (s : State) (f : Fld) : (s.up f).spn = s.spn := (rfl)
@[simp] theorem State.up_die (s : State) (f : Fld) : (s.up f).die = s.die := (rfl)
@[simp] theorem State.up_srv (s : State) (f : Fld) : (s.up f).srv = s.srv := (rfl)
@[simp] theorem State.up_shockLow (s : State) (f : Fld) : (s.up f).shockLow = s.shockLow := (rfl)
@[simp] theorem State.up_fmtLast (s : State) (f : Fld) : (s.up f).fmtLast = s.fmtLast := (rfl)
@[simp] theorem State.up_mram (s : State) (f : Fld) : (s.up f).mram = s.mram := (rfl)
@[simp] theorem State.up_sce (s : State) (f : Fld) : (s.up f).sce = s.sce := (rfl)
@[simp] theorem State.up_ch (s : State) (f : Fld) : (s.up f).ch = s.ch := (rfl)
@[simp] theorem State.up_fmt (s : State) (f : Fld) : (s.up f).fmt = s.fmt := (rfl)
@[simp] theorem State.up_memDue (s : State) (f : Fld) : (s.up f).memDue = s.memDue := (rfl)
@[simp] theorem State.up_hq (s : State) (f : Fld) : (s.up f).hq = s.hq := (rfl)
@[simp] theorem State.up_hp (s : State) (f : Fld) : (s.up f).hp = s.hp := (rfl)
@[simp] theorem State.up_nanoStage (s : State) (f : Fld) : (s.up f).nanoStage = s.nanoStage := (rfl)
@[simp] theorem State.up_usb (s : State) (f : Fld) : (s.up f).usb = s.usb := (rfl)
@[simp] theorem State.up_idu (s : State) (f : Fld) : (s.up f).idu = s.idu := (rfl)
@[simp] theorem State.up_alm (s : State) (f : Fld) : (s.up f).alm = s.alm := (rfl)
@[simp] theorem State.up_jtag (s : State) (f : Fld) : (s.up f).jtag = s.jtag := (rfl)
@[simp] theorem State.up_ae (s : State) (f : Fld) : (s.up f).ae = s.ae := (rfl)
@[simp] theorem State.up_ot (s : State) (f : Fld) : (s.up f).ot = s.ot := (rfl)
@[simp] theorem State.up_media (s : State) (f : Fld) : (s.up f).media = s.media := (rfl)
@[simp] theorem State.up_freeCtr (s : State) (f : Fld) : (s.up f).freeCtr = s.freeCtr := (rfl)
@[simp] theorem State.up_pending (s : State) (f : Fld) : (s.up f).pending = s.pending := (rfl)

@[simp] theorem State.down_mem (s : State) (f : Fld) : (s.down f).mem = s.mem := (rfl)
@[simp] theorem State.down_ecc (s : State) (f : Fld) : (s.down f).ecc = s.ecc := (rfl)
@[simp] theorem State.down_caps (s : State) (f : Fld) : (s.down f).caps = s.caps := (rfl)
@[simp] theorem State.down_rings (s : State) (f : Fld) : (s.down f).rings = s.rings := (rfl)
@[simp] theorem State.down_evc (s : State) (f : Fld) : (s.down f).evc = s.evc := (rfl)
@[simp] theorem State.down_pw (s : State) (f : Fld) : (s.down f).pw = s.pw := (rfl)
@[simp] theorem State.down_boot (s : State) (f : Fld) : (s.down f).boot = s.boot := (rfl)
@[simp] theorem State.down_core (s : State) (f : Fld) : (s.down f).core = s.core := (rfl)
@[simp] theorem State.down_dbg (s : State) (f : Fld) : (s.down f).dbg = s.dbg := (rfl)
@[simp] theorem State.down_io (s : State) (f : Fld) : (s.down f).io = s.io := (rfl)
@[simp] theorem State.down_lc (s : State) (f : Fld) : (s.down f).lc = s.lc := (rfl)
@[simp] theorem State.down_cip (s : State) (f : Fld) : (s.down f).cip = s.cip := (rfl)
@[simp] theorem State.down_bus (s : State) (f : Fld) : (s.down f).bus = s.bus := (rfl)
@[simp] theorem State.down_spn (s : State) (f : Fld) : (s.down f).spn = s.spn := (rfl)
@[simp] theorem State.down_die (s : State) (f : Fld) : (s.down f).die = s.die := (rfl)
@[simp] theorem State.down_srv (s : State) (f : Fld) : (s.down f).srv = s.srv := (rfl)
@[simp] theorem State.down_shockLow (s : State) (f : Fld) : (s.down f).shockLow = s.shockLow := (rfl)
@[simp] theorem State.down_fmtLast (s : State) (f : Fld) : (s.down f).fmtLast = s.fmtLast := (rfl)
@[simp] theorem State.down_mram (s : State) (f : Fld) : (s.down f).mram = s.mram := (rfl)
@[simp] theorem State.down_sce (s : State) (f : Fld) : (s.down f).sce = s.sce := (rfl)
@[simp] theorem State.down_ch (s : State) (f : Fld) : (s.down f).ch = s.ch := (rfl)
@[simp] theorem State.down_fmt (s : State) (f : Fld) : (s.down f).fmt = s.fmt := (rfl)
@[simp] theorem State.down_memDue (s : State) (f : Fld) : (s.down f).memDue = s.memDue := (rfl)
@[simp] theorem State.down_hq (s : State) (f : Fld) : (s.down f).hq = s.hq := (rfl)
@[simp] theorem State.down_hp (s : State) (f : Fld) : (s.down f).hp = s.hp := (rfl)
@[simp] theorem State.down_nanoStage (s : State) (f : Fld) : (s.down f).nanoStage = s.nanoStage := (rfl)
@[simp] theorem State.down_usb (s : State) (f : Fld) : (s.down f).usb = s.usb := (rfl)
@[simp] theorem State.down_idu (s : State) (f : Fld) : (s.down f).idu = s.idu := (rfl)
@[simp] theorem State.down_alm (s : State) (f : Fld) : (s.down f).alm = s.alm := (rfl)
@[simp] theorem State.down_jtag (s : State) (f : Fld) : (s.down f).jtag = s.jtag := (rfl)
@[simp] theorem State.down_ae (s : State) (f : Fld) : (s.down f).ae = s.ae := (rfl)
@[simp] theorem State.down_ot (s : State) (f : Fld) : (s.down f).ot = s.ot := (rfl)
@[simp] theorem State.down_media (s : State) (f : Fld) : (s.down f).media = s.media := (rfl)
@[simp] theorem State.down_freeCtr (s : State) (f : Fld) : (s.down f).freeCtr = s.freeCtr := (rfl)
@[simp] theorem State.down_pending (s : State) (f : Fld) : (s.down f).pending = s.pending := (rfl)

@[simp] theorem State.inc_mem (s : State) (f : Fld) : (s.inc f).mem = s.mem := (rfl)
@[simp] theorem State.inc_ecc (s : State) (f : Fld) : (s.inc f).ecc = s.ecc := (rfl)
@[simp] theorem State.inc_caps (s : State) (f : Fld) : (s.inc f).caps = s.caps := (rfl)
@[simp] theorem State.inc_rings (s : State) (f : Fld) : (s.inc f).rings = s.rings := (rfl)
@[simp] theorem State.inc_evc (s : State) (f : Fld) : (s.inc f).evc = s.evc := (rfl)
@[simp] theorem State.inc_pw (s : State) (f : Fld) : (s.inc f).pw = s.pw := (rfl)
@[simp] theorem State.inc_boot (s : State) (f : Fld) : (s.inc f).boot = s.boot := (rfl)
@[simp] theorem State.inc_core (s : State) (f : Fld) : (s.inc f).core = s.core := (rfl)
@[simp] theorem State.inc_dbg (s : State) (f : Fld) : (s.inc f).dbg = s.dbg := (rfl)
@[simp] theorem State.inc_io (s : State) (f : Fld) : (s.inc f).io = s.io := (rfl)
@[simp] theorem State.inc_lc (s : State) (f : Fld) : (s.inc f).lc = s.lc := (rfl)
@[simp] theorem State.inc_cip (s : State) (f : Fld) : (s.inc f).cip = s.cip := (rfl)
@[simp] theorem State.inc_bus (s : State) (f : Fld) : (s.inc f).bus = s.bus := (rfl)
@[simp] theorem State.inc_spn (s : State) (f : Fld) : (s.inc f).spn = s.spn := (rfl)
@[simp] theorem State.inc_die (s : State) (f : Fld) : (s.inc f).die = s.die := (rfl)
@[simp] theorem State.inc_srv (s : State) (f : Fld) : (s.inc f).srv = s.srv := (rfl)
@[simp] theorem State.inc_shockLow (s : State) (f : Fld) : (s.inc f).shockLow = s.shockLow := (rfl)
@[simp] theorem State.inc_fmtLast (s : State) (f : Fld) : (s.inc f).fmtLast = s.fmtLast := (rfl)
@[simp] theorem State.inc_mram (s : State) (f : Fld) : (s.inc f).mram = s.mram := (rfl)
@[simp] theorem State.inc_sce (s : State) (f : Fld) : (s.inc f).sce = s.sce := (rfl)
@[simp] theorem State.inc_ch (s : State) (f : Fld) : (s.inc f).ch = s.ch := (rfl)
@[simp] theorem State.inc_fmt (s : State) (f : Fld) : (s.inc f).fmt = s.fmt := (rfl)
@[simp] theorem State.inc_memDue (s : State) (f : Fld) : (s.inc f).memDue = s.memDue := (rfl)
@[simp] theorem State.inc_hq (s : State) (f : Fld) : (s.inc f).hq = s.hq := (rfl)
@[simp] theorem State.inc_hp (s : State) (f : Fld) : (s.inc f).hp = s.hp := (rfl)
@[simp] theorem State.inc_nanoStage (s : State) (f : Fld) : (s.inc f).nanoStage = s.nanoStage := (rfl)
@[simp] theorem State.inc_usb (s : State) (f : Fld) : (s.inc f).usb = s.usb := (rfl)
@[simp] theorem State.inc_idu (s : State) (f : Fld) : (s.inc f).idu = s.idu := (rfl)
@[simp] theorem State.inc_alm (s : State) (f : Fld) : (s.inc f).alm = s.alm := (rfl)
@[simp] theorem State.inc_jtag (s : State) (f : Fld) : (s.inc f).jtag = s.jtag := (rfl)
@[simp] theorem State.inc_ae (s : State) (f : Fld) : (s.inc f).ae = s.ae := (rfl)
@[simp] theorem State.inc_ot (s : State) (f : Fld) : (s.inc f).ot = s.ot := (rfl)
@[simp] theorem State.inc_media (s : State) (f : Fld) : (s.inc f).media = s.media := (rfl)
@[simp] theorem State.inc_freeCtr (s : State) (f : Fld) : (s.inc f).freeCtr = s.freeCtr := (rfl)
@[simp] theorem State.inc_pending (s : State) (f : Fld) : (s.inc f).pending = s.pending := (rfl)

@[simp] theorem State.add_mem (s : State) (f : Fld) (n : Nat) : (s.add f n).mem = s.mem := (rfl)
@[simp] theorem State.add_ecc (s : State) (f : Fld) (n : Nat) : (s.add f n).ecc = s.ecc := (rfl)
@[simp] theorem State.add_caps (s : State) (f : Fld) (n : Nat) : (s.add f n).caps = s.caps := (rfl)
@[simp] theorem State.add_rings (s : State) (f : Fld) (n : Nat) : (s.add f n).rings = s.rings := (rfl)
@[simp] theorem State.add_evc (s : State) (f : Fld) (n : Nat) : (s.add f n).evc = s.evc := (rfl)
@[simp] theorem State.add_pw (s : State) (f : Fld) (n : Nat) : (s.add f n).pw = s.pw := (rfl)
@[simp] theorem State.add_boot (s : State) (f : Fld) (n : Nat) : (s.add f n).boot = s.boot := (rfl)
@[simp] theorem State.add_core (s : State) (f : Fld) (n : Nat) : (s.add f n).core = s.core := (rfl)
@[simp] theorem State.add_dbg (s : State) (f : Fld) (n : Nat) : (s.add f n).dbg = s.dbg := (rfl)
@[simp] theorem State.add_io (s : State) (f : Fld) (n : Nat) : (s.add f n).io = s.io := (rfl)
@[simp] theorem State.add_lc (s : State) (f : Fld) (n : Nat) : (s.add f n).lc = s.lc := (rfl)
@[simp] theorem State.add_cip (s : State) (f : Fld) (n : Nat) : (s.add f n).cip = s.cip := (rfl)
@[simp] theorem State.add_bus (s : State) (f : Fld) (n : Nat) : (s.add f n).bus = s.bus := (rfl)
@[simp] theorem State.add_spn (s : State) (f : Fld) (n : Nat) : (s.add f n).spn = s.spn := (rfl)
@[simp] theorem State.add_die (s : State) (f : Fld) (n : Nat) : (s.add f n).die = s.die := (rfl)
@[simp] theorem State.add_srv (s : State) (f : Fld) (n : Nat) : (s.add f n).srv = s.srv := (rfl)
@[simp] theorem State.add_shockLow (s : State) (f : Fld) (n : Nat) : (s.add f n).shockLow = s.shockLow := (rfl)
@[simp] theorem State.add_fmtLast (s : State) (f : Fld) (n : Nat) : (s.add f n).fmtLast = s.fmtLast := (rfl)
@[simp] theorem State.add_mram (s : State) (f : Fld) (n : Nat) : (s.add f n).mram = s.mram := (rfl)
@[simp] theorem State.add_sce (s : State) (f : Fld) (n : Nat) : (s.add f n).sce = s.sce := (rfl)
@[simp] theorem State.add_ch (s : State) (f : Fld) (n : Nat) : (s.add f n).ch = s.ch := (rfl)
@[simp] theorem State.add_fmt (s : State) (f : Fld) (n : Nat) : (s.add f n).fmt = s.fmt := (rfl)
@[simp] theorem State.add_memDue (s : State) (f : Fld) (n : Nat) : (s.add f n).memDue = s.memDue := (rfl)
@[simp] theorem State.add_hq (s : State) (f : Fld) (n : Nat) : (s.add f n).hq = s.hq := (rfl)
@[simp] theorem State.add_hp (s : State) (f : Fld) (n : Nat) : (s.add f n).hp = s.hp := (rfl)
@[simp] theorem State.add_nanoStage (s : State) (f : Fld) (n : Nat) : (s.add f n).nanoStage = s.nanoStage := (rfl)
@[simp] theorem State.add_usb (s : State) (f : Fld) (n : Nat) : (s.add f n).usb = s.usb := (rfl)
@[simp] theorem State.add_idu (s : State) (f : Fld) (n : Nat) : (s.add f n).idu = s.idu := (rfl)
@[simp] theorem State.add_alm (s : State) (f : Fld) (n : Nat) : (s.add f n).alm = s.alm := (rfl)
@[simp] theorem State.add_jtag (s : State) (f : Fld) (n : Nat) : (s.add f n).jtag = s.jtag := (rfl)
@[simp] theorem State.add_ae (s : State) (f : Fld) (n : Nat) : (s.add f n).ae = s.ae := (rfl)
@[simp] theorem State.add_ot (s : State) (f : Fld) (n : Nat) : (s.add f n).ot = s.ot := (rfl)
@[simp] theorem State.add_media (s : State) (f : Fld) (n : Nat) : (s.add f n).media = s.media := (rfl)
@[simp] theorem State.add_freeCtr (s : State) (f : Fld) (n : Nat) : (s.add f n).freeCtr = s.freeCtr := (rfl)
@[simp] theorem State.add_pending (s : State) (f : Fld) (n : Nat) : (s.add f n).pending = s.pending := (rfl)

@[simp] theorem State.setBit_mem (s : State) (f : Fld) (n : Nat) : (s.setBit f n).mem = s.mem := (rfl)
@[simp] theorem State.setBit_ecc (s : State) (f : Fld) (n : Nat) : (s.setBit f n).ecc = s.ecc := (rfl)
@[simp] theorem State.setBit_caps (s : State) (f : Fld) (n : Nat) : (s.setBit f n).caps = s.caps := (rfl)
@[simp] theorem State.setBit_rings (s : State) (f : Fld) (n : Nat) : (s.setBit f n).rings = s.rings := (rfl)
@[simp] theorem State.setBit_evc (s : State) (f : Fld) (n : Nat) : (s.setBit f n).evc = s.evc := (rfl)
@[simp] theorem State.setBit_pw (s : State) (f : Fld) (n : Nat) : (s.setBit f n).pw = s.pw := (rfl)
@[simp] theorem State.setBit_boot (s : State) (f : Fld) (n : Nat) : (s.setBit f n).boot = s.boot := (rfl)
@[simp] theorem State.setBit_core (s : State) (f : Fld) (n : Nat) : (s.setBit f n).core = s.core := (rfl)
@[simp] theorem State.setBit_dbg (s : State) (f : Fld) (n : Nat) : (s.setBit f n).dbg = s.dbg := (rfl)
@[simp] theorem State.setBit_io (s : State) (f : Fld) (n : Nat) : (s.setBit f n).io = s.io := (rfl)
@[simp] theorem State.setBit_lc (s : State) (f : Fld) (n : Nat) : (s.setBit f n).lc = s.lc := (rfl)
@[simp] theorem State.setBit_cip (s : State) (f : Fld) (n : Nat) : (s.setBit f n).cip = s.cip := (rfl)
@[simp] theorem State.setBit_bus (s : State) (f : Fld) (n : Nat) : (s.setBit f n).bus = s.bus := (rfl)
@[simp] theorem State.setBit_spn (s : State) (f : Fld) (n : Nat) : (s.setBit f n).spn = s.spn := (rfl)
@[simp] theorem State.setBit_die (s : State) (f : Fld) (n : Nat) : (s.setBit f n).die = s.die := (rfl)
@[simp] theorem State.setBit_srv (s : State) (f : Fld) (n : Nat) : (s.setBit f n).srv = s.srv := (rfl)
@[simp] theorem State.setBit_shockLow (s : State) (f : Fld) (n : Nat) : (s.setBit f n).shockLow = s.shockLow := (rfl)
@[simp] theorem State.setBit_fmtLast (s : State) (f : Fld) (n : Nat) : (s.setBit f n).fmtLast = s.fmtLast := (rfl)
@[simp] theorem State.setBit_mram (s : State) (f : Fld) (n : Nat) : (s.setBit f n).mram = s.mram := (rfl)
@[simp] theorem State.setBit_sce (s : State) (f : Fld) (n : Nat) : (s.setBit f n).sce = s.sce := (rfl)
@[simp] theorem State.setBit_ch (s : State) (f : Fld) (n : Nat) : (s.setBit f n).ch = s.ch := (rfl)
@[simp] theorem State.setBit_fmt (s : State) (f : Fld) (n : Nat) : (s.setBit f n).fmt = s.fmt := (rfl)
@[simp] theorem State.setBit_memDue (s : State) (f : Fld) (n : Nat) : (s.setBit f n).memDue = s.memDue := (rfl)
@[simp] theorem State.setBit_hq (s : State) (f : Fld) (n : Nat) : (s.setBit f n).hq = s.hq := (rfl)
@[simp] theorem State.setBit_hp (s : State) (f : Fld) (n : Nat) : (s.setBit f n).hp = s.hp := (rfl)
@[simp] theorem State.setBit_nanoStage (s : State) (f : Fld) (n : Nat) : (s.setBit f n).nanoStage = s.nanoStage := (rfl)
@[simp] theorem State.setBit_usb (s : State) (f : Fld) (n : Nat) : (s.setBit f n).usb = s.usb := (rfl)
@[simp] theorem State.setBit_idu (s : State) (f : Fld) (n : Nat) : (s.setBit f n).idu = s.idu := (rfl)
@[simp] theorem State.setBit_alm (s : State) (f : Fld) (n : Nat) : (s.setBit f n).alm = s.alm := (rfl)
@[simp] theorem State.setBit_jtag (s : State) (f : Fld) (n : Nat) : (s.setBit f n).jtag = s.jtag := (rfl)
@[simp] theorem State.setBit_ae (s : State) (f : Fld) (n : Nat) : (s.setBit f n).ae = s.ae := (rfl)
@[simp] theorem State.setBit_ot (s : State) (f : Fld) (n : Nat) : (s.setBit f n).ot = s.ot := (rfl)
@[simp] theorem State.setBit_media (s : State) (f : Fld) (n : Nat) : (s.setBit f n).media = s.media := (rfl)
@[simp] theorem State.setBit_freeCtr (s : State) (f : Fld) (n : Nat) : (s.setBit f n).freeCtr = s.freeCtr := (rfl)
@[simp] theorem State.setBit_pending (s : State) (f : Fld) (n : Nat) : (s.setBit f n).pending = s.pending := (rfl)

@[simp] theorem State.clrBit_mem (s : State) (f : Fld) (n : Nat) : (s.clrBit f n).mem = s.mem := (rfl)
@[simp] theorem State.clrBit_ecc (s : State) (f : Fld) (n : Nat) : (s.clrBit f n).ecc = s.ecc := (rfl)
@[simp] theorem State.clrBit_caps (s : State) (f : Fld) (n : Nat) : (s.clrBit f n).caps = s.caps := (rfl)
@[simp] theorem State.clrBit_rings (s : State) (f : Fld) (n : Nat) : (s.clrBit f n).rings = s.rings := (rfl)
@[simp] theorem State.clrBit_evc (s : State) (f : Fld) (n : Nat) : (s.clrBit f n).evc = s.evc := (rfl)
@[simp] theorem State.clrBit_pw (s : State) (f : Fld) (n : Nat) : (s.clrBit f n).pw = s.pw := (rfl)
@[simp] theorem State.clrBit_boot (s : State) (f : Fld) (n : Nat) : (s.clrBit f n).boot = s.boot := (rfl)
@[simp] theorem State.clrBit_core (s : State) (f : Fld) (n : Nat) : (s.clrBit f n).core = s.core := (rfl)
@[simp] theorem State.clrBit_dbg (s : State) (f : Fld) (n : Nat) : (s.clrBit f n).dbg = s.dbg := (rfl)
@[simp] theorem State.clrBit_io (s : State) (f : Fld) (n : Nat) : (s.clrBit f n).io = s.io := (rfl)
@[simp] theorem State.clrBit_lc (s : State) (f : Fld) (n : Nat) : (s.clrBit f n).lc = s.lc := (rfl)
@[simp] theorem State.clrBit_cip (s : State) (f : Fld) (n : Nat) : (s.clrBit f n).cip = s.cip := (rfl)
@[simp] theorem State.clrBit_bus (s : State) (f : Fld) (n : Nat) : (s.clrBit f n).bus = s.bus := (rfl)
@[simp] theorem State.clrBit_spn (s : State) (f : Fld) (n : Nat) : (s.clrBit f n).spn = s.spn := (rfl)
@[simp] theorem State.clrBit_die (s : State) (f : Fld) (n : Nat) : (s.clrBit f n).die = s.die := (rfl)
@[simp] theorem State.clrBit_srv (s : State) (f : Fld) (n : Nat) : (s.clrBit f n).srv = s.srv := (rfl)
@[simp] theorem State.clrBit_shockLow (s : State) (f : Fld) (n : Nat) : (s.clrBit f n).shockLow = s.shockLow := (rfl)
@[simp] theorem State.clrBit_fmtLast (s : State) (f : Fld) (n : Nat) : (s.clrBit f n).fmtLast = s.fmtLast := (rfl)
@[simp] theorem State.clrBit_mram (s : State) (f : Fld) (n : Nat) : (s.clrBit f n).mram = s.mram := (rfl)
@[simp] theorem State.clrBit_sce (s : State) (f : Fld) (n : Nat) : (s.clrBit f n).sce = s.sce := (rfl)
@[simp] theorem State.clrBit_ch (s : State) (f : Fld) (n : Nat) : (s.clrBit f n).ch = s.ch := (rfl)
@[simp] theorem State.clrBit_fmt (s : State) (f : Fld) (n : Nat) : (s.clrBit f n).fmt = s.fmt := (rfl)
@[simp] theorem State.clrBit_memDue (s : State) (f : Fld) (n : Nat) : (s.clrBit f n).memDue = s.memDue := (rfl)
@[simp] theorem State.clrBit_hq (s : State) (f : Fld) (n : Nat) : (s.clrBit f n).hq = s.hq := (rfl)
@[simp] theorem State.clrBit_hp (s : State) (f : Fld) (n : Nat) : (s.clrBit f n).hp = s.hp := (rfl)
@[simp] theorem State.clrBit_nanoStage (s : State) (f : Fld) (n : Nat) : (s.clrBit f n).nanoStage = s.nanoStage := (rfl)
@[simp] theorem State.clrBit_usb (s : State) (f : Fld) (n : Nat) : (s.clrBit f n).usb = s.usb := (rfl)
@[simp] theorem State.clrBit_idu (s : State) (f : Fld) (n : Nat) : (s.clrBit f n).idu = s.idu := (rfl)
@[simp] theorem State.clrBit_alm (s : State) (f : Fld) (n : Nat) : (s.clrBit f n).alm = s.alm := (rfl)
@[simp] theorem State.clrBit_jtag (s : State) (f : Fld) (n : Nat) : (s.clrBit f n).jtag = s.jtag := (rfl)
@[simp] theorem State.clrBit_ae (s : State) (f : Fld) (n : Nat) : (s.clrBit f n).ae = s.ae := (rfl)
@[simp] theorem State.clrBit_ot (s : State) (f : Fld) (n : Nat) : (s.clrBit f n).ot = s.ot := (rfl)
@[simp] theorem State.clrBit_media (s : State) (f : Fld) (n : Nat) : (s.clrBit f n).media = s.media := (rfl)
@[simp] theorem State.clrBit_freeCtr (s : State) (f : Fld) (n : Nat) : (s.clrBit f n).freeCtr = s.freeCtr := (rfl)
@[simp] theorem State.clrBit_pending (s : State) (f : Fld) (n : Nat) : (s.clrBit f n).pending = s.pending := (rfl)

@[simp] theorem State.pwrEvent_mem (s : State) (n : Nat) : (s.pwrEvent n).mem = s.mem := (rfl)
@[simp] theorem State.pwrEvent_ecc (s : State) (n : Nat) : (s.pwrEvent n).ecc = s.ecc := (rfl)
@[simp] theorem State.pwrEvent_caps (s : State) (n : Nat) : (s.pwrEvent n).caps = s.caps := (rfl)
@[simp] theorem State.pwrEvent_rings (s : State) (n : Nat) : (s.pwrEvent n).rings = s.rings := (rfl)
@[simp] theorem State.pwrEvent_evc (s : State) (n : Nat) : (s.pwrEvent n).evc = s.evc := (rfl)
@[simp] theorem State.pwrEvent_pw (s : State) (n : Nat) : (s.pwrEvent n).pw = s.pw := (rfl)
@[simp] theorem State.pwrEvent_boot (s : State) (n : Nat) : (s.pwrEvent n).boot = s.boot := (rfl)
@[simp] theorem State.pwrEvent_core (s : State) (n : Nat) : (s.pwrEvent n).core = s.core := (rfl)
@[simp] theorem State.pwrEvent_dbg (s : State) (n : Nat) : (s.pwrEvent n).dbg = s.dbg := (rfl)
@[simp] theorem State.pwrEvent_io (s : State) (n : Nat) : (s.pwrEvent n).io = s.io := (rfl)
@[simp] theorem State.pwrEvent_lc (s : State) (n : Nat) : (s.pwrEvent n).lc = s.lc := (rfl)
@[simp] theorem State.pwrEvent_cip (s : State) (n : Nat) : (s.pwrEvent n).cip = s.cip := (rfl)
@[simp] theorem State.pwrEvent_bus (s : State) (n : Nat) : (s.pwrEvent n).bus = s.bus := (rfl)
@[simp] theorem State.pwrEvent_spn (s : State) (n : Nat) : (s.pwrEvent n).spn = s.spn := (rfl)
@[simp] theorem State.pwrEvent_die (s : State) (n : Nat) : (s.pwrEvent n).die = s.die := (rfl)
@[simp] theorem State.pwrEvent_srv (s : State) (n : Nat) : (s.pwrEvent n).srv = s.srv := (rfl)
@[simp] theorem State.pwrEvent_shockLow (s : State) (n : Nat) : (s.pwrEvent n).shockLow = s.shockLow := (rfl)
@[simp] theorem State.pwrEvent_fmtLast (s : State) (n : Nat) : (s.pwrEvent n).fmtLast = s.fmtLast := (rfl)
@[simp] theorem State.pwrEvent_mram (s : State) (n : Nat) : (s.pwrEvent n).mram = s.mram := (rfl)
@[simp] theorem State.pwrEvent_sce (s : State) (n : Nat) : (s.pwrEvent n).sce = s.sce := (rfl)
@[simp] theorem State.pwrEvent_ch (s : State) (n : Nat) : (s.pwrEvent n).ch = s.ch := (rfl)
@[simp] theorem State.pwrEvent_fmt (s : State) (n : Nat) : (s.pwrEvent n).fmt = s.fmt := (rfl)
@[simp] theorem State.pwrEvent_memDue (s : State) (n : Nat) : (s.pwrEvent n).memDue = s.memDue := (rfl)
@[simp] theorem State.pwrEvent_hq (s : State) (n : Nat) : (s.pwrEvent n).hq = s.hq := (rfl)
@[simp] theorem State.pwrEvent_hp (s : State) (n : Nat) : (s.pwrEvent n).hp = s.hp := (rfl)
@[simp] theorem State.pwrEvent_nanoStage (s : State) (n : Nat) : (s.pwrEvent n).nanoStage = s.nanoStage := (rfl)
@[simp] theorem State.pwrEvent_usb (s : State) (n : Nat) : (s.pwrEvent n).usb = s.usb := (rfl)
@[simp] theorem State.pwrEvent_idu (s : State) (n : Nat) : (s.pwrEvent n).idu = s.idu := (rfl)
@[simp] theorem State.pwrEvent_alm (s : State) (n : Nat) : (s.pwrEvent n).alm = s.alm := (rfl)
@[simp] theorem State.pwrEvent_jtag (s : State) (n : Nat) : (s.pwrEvent n).jtag = s.jtag := (rfl)
@[simp] theorem State.pwrEvent_ae (s : State) (n : Nat) : (s.pwrEvent n).ae = s.ae := (rfl)
@[simp] theorem State.pwrEvent_ot (s : State) (n : Nat) : (s.pwrEvent n).ot = s.ot := (rfl)
@[simp] theorem State.pwrEvent_media (s : State) (n : Nat) : (s.pwrEvent n).media = s.media := (rfl)
@[simp] theorem State.pwrEvent_freeCtr (s : State) (n : Nat) : (s.pwrEvent n).freeCtr = s.freeCtr := (rfl)
@[simp] theorem State.pwrEvent_pending (s : State) (n : Nat) : (s.pwrEvent n).pending = s.pending := (rfl)

@[simp] theorem State.setRing_regs (s : State) (id : Nat) (r : Ring) : (s.setRing id r).regs = s.regs := (rfl)
@[simp] theorem State.setRing_mem (s : State) (id : Nat) (r : Ring) : (s.setRing id r).mem = s.mem := (rfl)
@[simp] theorem State.setRing_ecc (s : State) (id : Nat) (r : Ring) : (s.setRing id r).ecc = s.ecc := (rfl)
@[simp] theorem State.setRing_caps (s : State) (id : Nat) (r : Ring) : (s.setRing id r).caps = s.caps := (rfl)
@[simp] theorem State.setRing_evc (s : State) (id : Nat) (r : Ring) : (s.setRing id r).evc = s.evc := (rfl)
@[simp] theorem State.setRing_pw (s : State) (id : Nat) (r : Ring) : (s.setRing id r).pw = s.pw := (rfl)
@[simp] theorem State.setRing_boot (s : State) (id : Nat) (r : Ring) : (s.setRing id r).boot = s.boot := (rfl)
@[simp] theorem State.setRing_core (s : State) (id : Nat) (r : Ring) : (s.setRing id r).core = s.core := (rfl)
@[simp] theorem State.setRing_dbg (s : State) (id : Nat) (r : Ring) : (s.setRing id r).dbg = s.dbg := (rfl)
@[simp] theorem State.setRing_io (s : State) (id : Nat) (r : Ring) : (s.setRing id r).io = s.io := (rfl)
@[simp] theorem State.setRing_lc (s : State) (id : Nat) (r : Ring) : (s.setRing id r).lc = s.lc := (rfl)
@[simp] theorem State.setRing_cip (s : State) (id : Nat) (r : Ring) : (s.setRing id r).cip = s.cip := (rfl)
@[simp] theorem State.setRing_bus (s : State) (id : Nat) (r : Ring) : (s.setRing id r).bus = s.bus := (rfl)
@[simp] theorem State.setRing_spn (s : State) (id : Nat) (r : Ring) : (s.setRing id r).spn = s.spn := (rfl)
@[simp] theorem State.setRing_die (s : State) (id : Nat) (r : Ring) : (s.setRing id r).die = s.die := (rfl)
@[simp] theorem State.setRing_srv (s : State) (id : Nat) (r : Ring) : (s.setRing id r).srv = s.srv := (rfl)
@[simp] theorem State.setRing_shockLow (s : State) (id : Nat) (r : Ring) : (s.setRing id r).shockLow = s.shockLow := (rfl)
@[simp] theorem State.setRing_fmtLast (s : State) (id : Nat) (r : Ring) : (s.setRing id r).fmtLast = s.fmtLast := (rfl)
@[simp] theorem State.setRing_mram (s : State) (id : Nat) (r : Ring) : (s.setRing id r).mram = s.mram := (rfl)
@[simp] theorem State.setRing_sce (s : State) (id : Nat) (r : Ring) : (s.setRing id r).sce = s.sce := (rfl)
@[simp] theorem State.setRing_ch (s : State) (id : Nat) (r : Ring) : (s.setRing id r).ch = s.ch := (rfl)
@[simp] theorem State.setRing_fmt (s : State) (id : Nat) (r : Ring) : (s.setRing id r).fmt = s.fmt := (rfl)
@[simp] theorem State.setRing_memDue (s : State) (id : Nat) (r : Ring) : (s.setRing id r).memDue = s.memDue := (rfl)
@[simp] theorem State.setRing_hq (s : State) (id : Nat) (r : Ring) : (s.setRing id r).hq = s.hq := (rfl)
@[simp] theorem State.setRing_hp (s : State) (id : Nat) (r : Ring) : (s.setRing id r).hp = s.hp := (rfl)
@[simp] theorem State.setRing_nanoStage (s : State) (id : Nat) (r : Ring) : (s.setRing id r).nanoStage = s.nanoStage := (rfl)
@[simp] theorem State.setRing_usb (s : State) (id : Nat) (r : Ring) : (s.setRing id r).usb = s.usb := (rfl)
@[simp] theorem State.setRing_idu (s : State) (id : Nat) (r : Ring) : (s.setRing id r).idu = s.idu := (rfl)
@[simp] theorem State.setRing_alm (s : State) (id : Nat) (r : Ring) : (s.setRing id r).alm = s.alm := (rfl)
@[simp] theorem State.setRing_jtag (s : State) (id : Nat) (r : Ring) : (s.setRing id r).jtag = s.jtag := (rfl)
@[simp] theorem State.setRing_ae (s : State) (id : Nat) (r : Ring) : (s.setRing id r).ae = s.ae := (rfl)
@[simp] theorem State.setRing_ot (s : State) (id : Nat) (r : Ring) : (s.setRing id r).ot = s.ot := (rfl)
@[simp] theorem State.setRing_media (s : State) (id : Nat) (r : Ring) : (s.setRing id r).media = s.media := (rfl)
@[simp] theorem State.setRing_freeCtr (s : State) (id : Nat) (r : Ring) : (s.setRing id r).freeCtr = s.freeCtr := (rfl)
@[simp] theorem State.setRing_pending (s : State) (id : Nat) (r : Ring) : (s.setRing id r).pending = s.pending := (rfl)

@[simp] theorem State.poke_regs (s : State) (a : Nat) (b : Byte) : (s.poke a b).regs = s.regs := (rfl)
@[simp] theorem State.poke_ecc (s : State) (a : Nat) (b : Byte) : (s.poke a b).ecc = s.ecc := (rfl)
@[simp] theorem State.poke_caps (s : State) (a : Nat) (b : Byte) : (s.poke a b).caps = s.caps := (rfl)
@[simp] theorem State.poke_rings (s : State) (a : Nat) (b : Byte) : (s.poke a b).rings = s.rings := (rfl)
@[simp] theorem State.poke_evc (s : State) (a : Nat) (b : Byte) : (s.poke a b).evc = s.evc := (rfl)
@[simp] theorem State.poke_pw (s : State) (a : Nat) (b : Byte) : (s.poke a b).pw = s.pw := (rfl)
@[simp] theorem State.poke_boot (s : State) (a : Nat) (b : Byte) : (s.poke a b).boot = s.boot := (rfl)
@[simp] theorem State.poke_core (s : State) (a : Nat) (b : Byte) : (s.poke a b).core = s.core := (rfl)
@[simp] theorem State.poke_dbg (s : State) (a : Nat) (b : Byte) : (s.poke a b).dbg = s.dbg := (rfl)
@[simp] theorem State.poke_io (s : State) (a : Nat) (b : Byte) : (s.poke a b).io = s.io := (rfl)
@[simp] theorem State.poke_lc (s : State) (a : Nat) (b : Byte) : (s.poke a b).lc = s.lc := (rfl)
@[simp] theorem State.poke_cip (s : State) (a : Nat) (b : Byte) : (s.poke a b).cip = s.cip := (rfl)
@[simp] theorem State.poke_bus (s : State) (a : Nat) (b : Byte) : (s.poke a b).bus = s.bus := (rfl)
@[simp] theorem State.poke_spn (s : State) (a : Nat) (b : Byte) : (s.poke a b).spn = s.spn := (rfl)
@[simp] theorem State.poke_die (s : State) (a : Nat) (b : Byte) : (s.poke a b).die = s.die := (rfl)
@[simp] theorem State.poke_srv (s : State) (a : Nat) (b : Byte) : (s.poke a b).srv = s.srv := (rfl)
@[simp] theorem State.poke_shockLow (s : State) (a : Nat) (b : Byte) : (s.poke a b).shockLow = s.shockLow := (rfl)
@[simp] theorem State.poke_fmtLast (s : State) (a : Nat) (b : Byte) : (s.poke a b).fmtLast = s.fmtLast := (rfl)
@[simp] theorem State.poke_mram (s : State) (a : Nat) (b : Byte) : (s.poke a b).mram = s.mram := (rfl)
@[simp] theorem State.poke_sce (s : State) (a : Nat) (b : Byte) : (s.poke a b).sce = s.sce := (rfl)
@[simp] theorem State.poke_ch (s : State) (a : Nat) (b : Byte) : (s.poke a b).ch = s.ch := (rfl)
@[simp] theorem State.poke_fmt (s : State) (a : Nat) (b : Byte) : (s.poke a b).fmt = s.fmt := (rfl)
@[simp] theorem State.poke_memDue (s : State) (a : Nat) (b : Byte) : (s.poke a b).memDue = s.memDue := (rfl)
@[simp] theorem State.poke_hq (s : State) (a : Nat) (b : Byte) : (s.poke a b).hq = s.hq := (rfl)
@[simp] theorem State.poke_hp (s : State) (a : Nat) (b : Byte) : (s.poke a b).hp = s.hp := (rfl)
@[simp] theorem State.poke_nanoStage (s : State) (a : Nat) (b : Byte) : (s.poke a b).nanoStage = s.nanoStage := (rfl)
@[simp] theorem State.poke_usb (s : State) (a : Nat) (b : Byte) : (s.poke a b).usb = s.usb := (rfl)
@[simp] theorem State.poke_idu (s : State) (a : Nat) (b : Byte) : (s.poke a b).idu = s.idu := (rfl)
@[simp] theorem State.poke_alm (s : State) (a : Nat) (b : Byte) : (s.poke a b).alm = s.alm := (rfl)
@[simp] theorem State.poke_jtag (s : State) (a : Nat) (b : Byte) : (s.poke a b).jtag = s.jtag := (rfl)
@[simp] theorem State.poke_ae (s : State) (a : Nat) (b : Byte) : (s.poke a b).ae = s.ae := (rfl)
@[simp] theorem State.poke_ot (s : State) (a : Nat) (b : Byte) : (s.poke a b).ot = s.ot := (rfl)
@[simp] theorem State.poke_media (s : State) (a : Nat) (b : Byte) : (s.poke a b).media = s.media := (rfl)
@[simp] theorem State.poke_freeCtr (s : State) (a : Nat) (b : Byte) : (s.poke a b).freeCtr = s.freeCtr := (rfl)
@[simp] theorem State.poke_pending (s : State) (a : Nat) (b : Byte) : (s.poke a b).pending = s.pending := (rfl)

@[simp] theorem State.modPw_regs (s : State) (g : Power → Power) : (s.modPw g).regs = s.regs := (rfl)
@[simp] theorem State.modPw_mem (s : State) (g : Power → Power) : (s.modPw g).mem = s.mem := (rfl)
@[simp] theorem State.modPw_ecc (s : State) (g : Power → Power) : (s.modPw g).ecc = s.ecc := (rfl)
@[simp] theorem State.modPw_caps (s : State) (g : Power → Power) : (s.modPw g).caps = s.caps := (rfl)
@[simp] theorem State.modPw_rings (s : State) (g : Power → Power) : (s.modPw g).rings = s.rings := (rfl)
@[simp] theorem State.modPw_evc (s : State) (g : Power → Power) : (s.modPw g).evc = s.evc := (rfl)
@[simp] theorem State.modPw_boot (s : State) (g : Power → Power) : (s.modPw g).boot = s.boot := (rfl)
@[simp] theorem State.modPw_core (s : State) (g : Power → Power) : (s.modPw g).core = s.core := (rfl)
@[simp] theorem State.modPw_dbg (s : State) (g : Power → Power) : (s.modPw g).dbg = s.dbg := (rfl)
@[simp] theorem State.modPw_io (s : State) (g : Power → Power) : (s.modPw g).io = s.io := (rfl)
@[simp] theorem State.modPw_lc (s : State) (g : Power → Power) : (s.modPw g).lc = s.lc := (rfl)
@[simp] theorem State.modPw_cip (s : State) (g : Power → Power) : (s.modPw g).cip = s.cip := (rfl)
@[simp] theorem State.modPw_bus (s : State) (g : Power → Power) : (s.modPw g).bus = s.bus := (rfl)
@[simp] theorem State.modPw_spn (s : State) (g : Power → Power) : (s.modPw g).spn = s.spn := (rfl)
@[simp] theorem State.modPw_die (s : State) (g : Power → Power) : (s.modPw g).die = s.die := (rfl)
@[simp] theorem State.modPw_srv (s : State) (g : Power → Power) : (s.modPw g).srv = s.srv := (rfl)
@[simp] theorem State.modPw_shockLow (s : State) (g : Power → Power) : (s.modPw g).shockLow = s.shockLow := (rfl)
@[simp] theorem State.modPw_fmtLast (s : State) (g : Power → Power) : (s.modPw g).fmtLast = s.fmtLast := (rfl)
@[simp] theorem State.modPw_mram (s : State) (g : Power → Power) : (s.modPw g).mram = s.mram := (rfl)
@[simp] theorem State.modPw_sce (s : State) (g : Power → Power) : (s.modPw g).sce = s.sce := (rfl)
@[simp] theorem State.modPw_ch (s : State) (g : Power → Power) : (s.modPw g).ch = s.ch := (rfl)
@[simp] theorem State.modPw_fmt (s : State) (g : Power → Power) : (s.modPw g).fmt = s.fmt := (rfl)
@[simp] theorem State.modPw_memDue (s : State) (g : Power → Power) : (s.modPw g).memDue = s.memDue := (rfl)
@[simp] theorem State.modPw_hq (s : State) (g : Power → Power) : (s.modPw g).hq = s.hq := (rfl)
@[simp] theorem State.modPw_hp (s : State) (g : Power → Power) : (s.modPw g).hp = s.hp := (rfl)
@[simp] theorem State.modPw_nanoStage (s : State) (g : Power → Power) : (s.modPw g).nanoStage = s.nanoStage := (rfl)
@[simp] theorem State.modPw_usb (s : State) (g : Power → Power) : (s.modPw g).usb = s.usb := (rfl)
@[simp] theorem State.modPw_idu (s : State) (g : Power → Power) : (s.modPw g).idu = s.idu := (rfl)
@[simp] theorem State.modPw_alm (s : State) (g : Power → Power) : (s.modPw g).alm = s.alm := (rfl)
@[simp] theorem State.modPw_jtag (s : State) (g : Power → Power) : (s.modPw g).jtag = s.jtag := (rfl)
@[simp] theorem State.modPw_ae (s : State) (g : Power → Power) : (s.modPw g).ae = s.ae := (rfl)
@[simp] theorem State.modPw_ot (s : State) (g : Power → Power) : (s.modPw g).ot = s.ot := (rfl)
@[simp] theorem State.modPw_media (s : State) (g : Power → Power) : (s.modPw g).media = s.media := (rfl)
@[simp] theorem State.modPw_freeCtr (s : State) (g : Power → Power) : (s.modPw g).freeCtr = s.freeCtr := (rfl)
@[simp] theorem State.modPw_pending (s : State) (g : Power → Power) : (s.modPw g).pending = s.pending := (rfl)

@[simp] theorem State.modBoot_regs (s : State) (g : Boot → Boot) : (s.modBoot g).regs = s.regs := (rfl)
@[simp] theorem State.modBoot_mem (s : State) (g : Boot → Boot) : (s.modBoot g).mem = s.mem := (rfl)
@[simp] theorem State.modBoot_ecc (s : State) (g : Boot → Boot) : (s.modBoot g).ecc = s.ecc := (rfl)
@[simp] theorem State.modBoot_caps (s : State) (g : Boot → Boot) : (s.modBoot g).caps = s.caps := (rfl)
@[simp] theorem State.modBoot_rings (s : State) (g : Boot → Boot) : (s.modBoot g).rings = s.rings := (rfl)
@[simp] theorem State.modBoot_evc (s : State) (g : Boot → Boot) : (s.modBoot g).evc = s.evc := (rfl)
@[simp] theorem State.modBoot_pw (s : State) (g : Boot → Boot) : (s.modBoot g).pw = s.pw := (rfl)
@[simp] theorem State.modBoot_core (s : State) (g : Boot → Boot) : (s.modBoot g).core = s.core := (rfl)
@[simp] theorem State.modBoot_dbg (s : State) (g : Boot → Boot) : (s.modBoot g).dbg = s.dbg := (rfl)
@[simp] theorem State.modBoot_io (s : State) (g : Boot → Boot) : (s.modBoot g).io = s.io := (rfl)
@[simp] theorem State.modBoot_lc (s : State) (g : Boot → Boot) : (s.modBoot g).lc = s.lc := (rfl)
@[simp] theorem State.modBoot_cip (s : State) (g : Boot → Boot) : (s.modBoot g).cip = s.cip := (rfl)
@[simp] theorem State.modBoot_bus (s : State) (g : Boot → Boot) : (s.modBoot g).bus = s.bus := (rfl)
@[simp] theorem State.modBoot_spn (s : State) (g : Boot → Boot) : (s.modBoot g).spn = s.spn := (rfl)
@[simp] theorem State.modBoot_die (s : State) (g : Boot → Boot) : (s.modBoot g).die = s.die := (rfl)
@[simp] theorem State.modBoot_srv (s : State) (g : Boot → Boot) : (s.modBoot g).srv = s.srv := (rfl)
@[simp] theorem State.modBoot_shockLow (s : State) (g : Boot → Boot) : (s.modBoot g).shockLow = s.shockLow := (rfl)
@[simp] theorem State.modBoot_fmtLast (s : State) (g : Boot → Boot) : (s.modBoot g).fmtLast = s.fmtLast := (rfl)
@[simp] theorem State.modBoot_mram (s : State) (g : Boot → Boot) : (s.modBoot g).mram = s.mram := (rfl)
@[simp] theorem State.modBoot_sce (s : State) (g : Boot → Boot) : (s.modBoot g).sce = s.sce := (rfl)
@[simp] theorem State.modBoot_ch (s : State) (g : Boot → Boot) : (s.modBoot g).ch = s.ch := (rfl)
@[simp] theorem State.modBoot_fmt (s : State) (g : Boot → Boot) : (s.modBoot g).fmt = s.fmt := (rfl)
@[simp] theorem State.modBoot_memDue (s : State) (g : Boot → Boot) : (s.modBoot g).memDue = s.memDue := (rfl)
@[simp] theorem State.modBoot_hq (s : State) (g : Boot → Boot) : (s.modBoot g).hq = s.hq := (rfl)
@[simp] theorem State.modBoot_hp (s : State) (g : Boot → Boot) : (s.modBoot g).hp = s.hp := (rfl)
@[simp] theorem State.modBoot_nanoStage (s : State) (g : Boot → Boot) : (s.modBoot g).nanoStage = s.nanoStage := (rfl)
@[simp] theorem State.modBoot_usb (s : State) (g : Boot → Boot) : (s.modBoot g).usb = s.usb := (rfl)
@[simp] theorem State.modBoot_idu (s : State) (g : Boot → Boot) : (s.modBoot g).idu = s.idu := (rfl)
@[simp] theorem State.modBoot_alm (s : State) (g : Boot → Boot) : (s.modBoot g).alm = s.alm := (rfl)
@[simp] theorem State.modBoot_jtag (s : State) (g : Boot → Boot) : (s.modBoot g).jtag = s.jtag := (rfl)
@[simp] theorem State.modBoot_ae (s : State) (g : Boot → Boot) : (s.modBoot g).ae = s.ae := (rfl)
@[simp] theorem State.modBoot_ot (s : State) (g : Boot → Boot) : (s.modBoot g).ot = s.ot := (rfl)
@[simp] theorem State.modBoot_media (s : State) (g : Boot → Boot) : (s.modBoot g).media = s.media := (rfl)
@[simp] theorem State.modBoot_freeCtr (s : State) (g : Boot → Boot) : (s.modBoot g).freeCtr = s.freeCtr := (rfl)
@[simp] theorem State.modBoot_pending (s : State) (g : Boot → Boot) : (s.modBoot g).pending = s.pending := (rfl)

@[simp] theorem State.modIo_regs (s : State) (g : Io → Io) : (s.modIo g).regs = s.regs := (rfl)
@[simp] theorem State.modIo_mem (s : State) (g : Io → Io) : (s.modIo g).mem = s.mem := (rfl)
@[simp] theorem State.modIo_ecc (s : State) (g : Io → Io) : (s.modIo g).ecc = s.ecc := (rfl)
@[simp] theorem State.modIo_caps (s : State) (g : Io → Io) : (s.modIo g).caps = s.caps := (rfl)
@[simp] theorem State.modIo_rings (s : State) (g : Io → Io) : (s.modIo g).rings = s.rings := (rfl)
@[simp] theorem State.modIo_evc (s : State) (g : Io → Io) : (s.modIo g).evc = s.evc := (rfl)
@[simp] theorem State.modIo_pw (s : State) (g : Io → Io) : (s.modIo g).pw = s.pw := (rfl)
@[simp] theorem State.modIo_boot (s : State) (g : Io → Io) : (s.modIo g).boot = s.boot := (rfl)
@[simp] theorem State.modIo_core (s : State) (g : Io → Io) : (s.modIo g).core = s.core := (rfl)
@[simp] theorem State.modIo_dbg (s : State) (g : Io → Io) : (s.modIo g).dbg = s.dbg := (rfl)
@[simp] theorem State.modIo_lc (s : State) (g : Io → Io) : (s.modIo g).lc = s.lc := (rfl)
@[simp] theorem State.modIo_cip (s : State) (g : Io → Io) : (s.modIo g).cip = s.cip := (rfl)
@[simp] theorem State.modIo_bus (s : State) (g : Io → Io) : (s.modIo g).bus = s.bus := (rfl)
@[simp] theorem State.modIo_spn (s : State) (g : Io → Io) : (s.modIo g).spn = s.spn := (rfl)
@[simp] theorem State.modIo_die (s : State) (g : Io → Io) : (s.modIo g).die = s.die := (rfl)
@[simp] theorem State.modIo_srv (s : State) (g : Io → Io) : (s.modIo g).srv = s.srv := (rfl)
@[simp] theorem State.modIo_shockLow (s : State) (g : Io → Io) : (s.modIo g).shockLow = s.shockLow := (rfl)
@[simp] theorem State.modIo_fmtLast (s : State) (g : Io → Io) : (s.modIo g).fmtLast = s.fmtLast := (rfl)
@[simp] theorem State.modIo_mram (s : State) (g : Io → Io) : (s.modIo g).mram = s.mram := (rfl)
@[simp] theorem State.modIo_sce (s : State) (g : Io → Io) : (s.modIo g).sce = s.sce := (rfl)
@[simp] theorem State.modIo_ch (s : State) (g : Io → Io) : (s.modIo g).ch = s.ch := (rfl)
@[simp] theorem State.modIo_fmt (s : State) (g : Io → Io) : (s.modIo g).fmt = s.fmt := (rfl)
@[simp] theorem State.modIo_memDue (s : State) (g : Io → Io) : (s.modIo g).memDue = s.memDue := (rfl)
@[simp] theorem State.modIo_hq (s : State) (g : Io → Io) : (s.modIo g).hq = s.hq := (rfl)
@[simp] theorem State.modIo_hp (s : State) (g : Io → Io) : (s.modIo g).hp = s.hp := (rfl)
@[simp] theorem State.modIo_nanoStage (s : State) (g : Io → Io) : (s.modIo g).nanoStage = s.nanoStage := (rfl)
@[simp] theorem State.modIo_usb (s : State) (g : Io → Io) : (s.modIo g).usb = s.usb := (rfl)
@[simp] theorem State.modIo_idu (s : State) (g : Io → Io) : (s.modIo g).idu = s.idu := (rfl)
@[simp] theorem State.modIo_alm (s : State) (g : Io → Io) : (s.modIo g).alm = s.alm := (rfl)
@[simp] theorem State.modIo_jtag (s : State) (g : Io → Io) : (s.modIo g).jtag = s.jtag := (rfl)
@[simp] theorem State.modIo_ae (s : State) (g : Io → Io) : (s.modIo g).ae = s.ae := (rfl)
@[simp] theorem State.modIo_ot (s : State) (g : Io → Io) : (s.modIo g).ot = s.ot := (rfl)
@[simp] theorem State.modIo_media (s : State) (g : Io → Io) : (s.modIo g).media = s.media := (rfl)
@[simp] theorem State.modIo_freeCtr (s : State) (g : Io → Io) : (s.modIo g).freeCtr = s.freeCtr := (rfl)
@[simp] theorem State.modIo_pending (s : State) (g : Io → Io) : (s.modIo g).pending = s.pending := (rfl)

@[simp] theorem State.modDbg_regs (s : State) (g : Dbg → Dbg) : (s.modDbg g).regs = s.regs := (rfl)
@[simp] theorem State.modDbg_mem (s : State) (g : Dbg → Dbg) : (s.modDbg g).mem = s.mem := (rfl)
@[simp] theorem State.modDbg_ecc (s : State) (g : Dbg → Dbg) : (s.modDbg g).ecc = s.ecc := (rfl)
@[simp] theorem State.modDbg_caps (s : State) (g : Dbg → Dbg) : (s.modDbg g).caps = s.caps := (rfl)
@[simp] theorem State.modDbg_rings (s : State) (g : Dbg → Dbg) : (s.modDbg g).rings = s.rings := (rfl)
@[simp] theorem State.modDbg_evc (s : State) (g : Dbg → Dbg) : (s.modDbg g).evc = s.evc := (rfl)
@[simp] theorem State.modDbg_pw (s : State) (g : Dbg → Dbg) : (s.modDbg g).pw = s.pw := (rfl)
@[simp] theorem State.modDbg_boot (s : State) (g : Dbg → Dbg) : (s.modDbg g).boot = s.boot := (rfl)
@[simp] theorem State.modDbg_core (s : State) (g : Dbg → Dbg) : (s.modDbg g).core = s.core := (rfl)
@[simp] theorem State.modDbg_io (s : State) (g : Dbg → Dbg) : (s.modDbg g).io = s.io := (rfl)
@[simp] theorem State.modDbg_lc (s : State) (g : Dbg → Dbg) : (s.modDbg g).lc = s.lc := (rfl)
@[simp] theorem State.modDbg_cip (s : State) (g : Dbg → Dbg) : (s.modDbg g).cip = s.cip := (rfl)
@[simp] theorem State.modDbg_bus (s : State) (g : Dbg → Dbg) : (s.modDbg g).bus = s.bus := (rfl)
@[simp] theorem State.modDbg_spn (s : State) (g : Dbg → Dbg) : (s.modDbg g).spn = s.spn := (rfl)
@[simp] theorem State.modDbg_die (s : State) (g : Dbg → Dbg) : (s.modDbg g).die = s.die := (rfl)
@[simp] theorem State.modDbg_srv (s : State) (g : Dbg → Dbg) : (s.modDbg g).srv = s.srv := (rfl)
@[simp] theorem State.modDbg_shockLow (s : State) (g : Dbg → Dbg) : (s.modDbg g).shockLow = s.shockLow := (rfl)
@[simp] theorem State.modDbg_fmtLast (s : State) (g : Dbg → Dbg) : (s.modDbg g).fmtLast = s.fmtLast := (rfl)
@[simp] theorem State.modDbg_mram (s : State) (g : Dbg → Dbg) : (s.modDbg g).mram = s.mram := (rfl)
@[simp] theorem State.modDbg_sce (s : State) (g : Dbg → Dbg) : (s.modDbg g).sce = s.sce := (rfl)
@[simp] theorem State.modDbg_ch (s : State) (g : Dbg → Dbg) : (s.modDbg g).ch = s.ch := (rfl)
@[simp] theorem State.modDbg_fmt (s : State) (g : Dbg → Dbg) : (s.modDbg g).fmt = s.fmt := (rfl)
@[simp] theorem State.modDbg_memDue (s : State) (g : Dbg → Dbg) : (s.modDbg g).memDue = s.memDue := (rfl)
@[simp] theorem State.modDbg_hq (s : State) (g : Dbg → Dbg) : (s.modDbg g).hq = s.hq := (rfl)
@[simp] theorem State.modDbg_hp (s : State) (g : Dbg → Dbg) : (s.modDbg g).hp = s.hp := (rfl)
@[simp] theorem State.modDbg_nanoStage (s : State) (g : Dbg → Dbg) : (s.modDbg g).nanoStage = s.nanoStage := (rfl)
@[simp] theorem State.modDbg_usb (s : State) (g : Dbg → Dbg) : (s.modDbg g).usb = s.usb := (rfl)
@[simp] theorem State.modDbg_idu (s : State) (g : Dbg → Dbg) : (s.modDbg g).idu = s.idu := (rfl)
@[simp] theorem State.modDbg_alm (s : State) (g : Dbg → Dbg) : (s.modDbg g).alm = s.alm := (rfl)
@[simp] theorem State.modDbg_jtag (s : State) (g : Dbg → Dbg) : (s.modDbg g).jtag = s.jtag := (rfl)
@[simp] theorem State.modDbg_ae (s : State) (g : Dbg → Dbg) : (s.modDbg g).ae = s.ae := (rfl)
@[simp] theorem State.modDbg_ot (s : State) (g : Dbg → Dbg) : (s.modDbg g).ot = s.ot := (rfl)
@[simp] theorem State.modDbg_media (s : State) (g : Dbg → Dbg) : (s.modDbg g).media = s.media := (rfl)
@[simp] theorem State.modDbg_freeCtr (s : State) (g : Dbg → Dbg) : (s.modDbg g).freeCtr = s.freeCtr := (rfl)
@[simp] theorem State.modDbg_pending (s : State) (g : Dbg → Dbg) : (s.modDbg g).pending = s.pending := (rfl)

@[simp] theorem State.modCip_regs (s : State) (g : Cipher → Cipher) : (s.modCip g).regs = s.regs := (rfl)
@[simp] theorem State.modCip_mem (s : State) (g : Cipher → Cipher) : (s.modCip g).mem = s.mem := (rfl)
@[simp] theorem State.modCip_ecc (s : State) (g : Cipher → Cipher) : (s.modCip g).ecc = s.ecc := (rfl)
@[simp] theorem State.modCip_caps (s : State) (g : Cipher → Cipher) : (s.modCip g).caps = s.caps := (rfl)
@[simp] theorem State.modCip_rings (s : State) (g : Cipher → Cipher) : (s.modCip g).rings = s.rings := (rfl)
@[simp] theorem State.modCip_evc (s : State) (g : Cipher → Cipher) : (s.modCip g).evc = s.evc := (rfl)
@[simp] theorem State.modCip_pw (s : State) (g : Cipher → Cipher) : (s.modCip g).pw = s.pw := (rfl)
@[simp] theorem State.modCip_boot (s : State) (g : Cipher → Cipher) : (s.modCip g).boot = s.boot := (rfl)
@[simp] theorem State.modCip_core (s : State) (g : Cipher → Cipher) : (s.modCip g).core = s.core := (rfl)
@[simp] theorem State.modCip_dbg (s : State) (g : Cipher → Cipher) : (s.modCip g).dbg = s.dbg := (rfl)
@[simp] theorem State.modCip_io (s : State) (g : Cipher → Cipher) : (s.modCip g).io = s.io := (rfl)
@[simp] theorem State.modCip_lc (s : State) (g : Cipher → Cipher) : (s.modCip g).lc = s.lc := (rfl)
@[simp] theorem State.modCip_bus (s : State) (g : Cipher → Cipher) : (s.modCip g).bus = s.bus := (rfl)
@[simp] theorem State.modCip_spn (s : State) (g : Cipher → Cipher) : (s.modCip g).spn = s.spn := (rfl)
@[simp] theorem State.modCip_die (s : State) (g : Cipher → Cipher) : (s.modCip g).die = s.die := (rfl)
@[simp] theorem State.modCip_srv (s : State) (g : Cipher → Cipher) : (s.modCip g).srv = s.srv := (rfl)
@[simp] theorem State.modCip_shockLow (s : State) (g : Cipher → Cipher) : (s.modCip g).shockLow = s.shockLow := (rfl)
@[simp] theorem State.modCip_fmtLast (s : State) (g : Cipher → Cipher) : (s.modCip g).fmtLast = s.fmtLast := (rfl)
@[simp] theorem State.modCip_mram (s : State) (g : Cipher → Cipher) : (s.modCip g).mram = s.mram := (rfl)
@[simp] theorem State.modCip_sce (s : State) (g : Cipher → Cipher) : (s.modCip g).sce = s.sce := (rfl)
@[simp] theorem State.modCip_ch (s : State) (g : Cipher → Cipher) : (s.modCip g).ch = s.ch := (rfl)
@[simp] theorem State.modCip_fmt (s : State) (g : Cipher → Cipher) : (s.modCip g).fmt = s.fmt := (rfl)
@[simp] theorem State.modCip_memDue (s : State) (g : Cipher → Cipher) : (s.modCip g).memDue = s.memDue := (rfl)
@[simp] theorem State.modCip_hq (s : State) (g : Cipher → Cipher) : (s.modCip g).hq = s.hq := (rfl)
@[simp] theorem State.modCip_hp (s : State) (g : Cipher → Cipher) : (s.modCip g).hp = s.hp := (rfl)
@[simp] theorem State.modCip_nanoStage (s : State) (g : Cipher → Cipher) : (s.modCip g).nanoStage = s.nanoStage := (rfl)
@[simp] theorem State.modCip_usb (s : State) (g : Cipher → Cipher) : (s.modCip g).usb = s.usb := (rfl)
@[simp] theorem State.modCip_idu (s : State) (g : Cipher → Cipher) : (s.modCip g).idu = s.idu := (rfl)
@[simp] theorem State.modCip_alm (s : State) (g : Cipher → Cipher) : (s.modCip g).alm = s.alm := (rfl)
@[simp] theorem State.modCip_jtag (s : State) (g : Cipher → Cipher) : (s.modCip g).jtag = s.jtag := (rfl)
@[simp] theorem State.modCip_ae (s : State) (g : Cipher → Cipher) : (s.modCip g).ae = s.ae := (rfl)
@[simp] theorem State.modCip_ot (s : State) (g : Cipher → Cipher) : (s.modCip g).ot = s.ot := (rfl)
@[simp] theorem State.modCip_media (s : State) (g : Cipher → Cipher) : (s.modCip g).media = s.media := (rfl)
@[simp] theorem State.modCip_freeCtr (s : State) (g : Cipher → Cipher) : (s.modCip g).freeCtr = s.freeCtr := (rfl)
@[simp] theorem State.modCip_pending (s : State) (g : Cipher → Cipher) : (s.modCip g).pending = s.pending := (rfl)

@[simp] theorem State.modHq_regs (s : State) (g : Hqe → Hqe) : (s.modHq g).regs = s.regs := (rfl)
@[simp] theorem State.modHq_mem (s : State) (g : Hqe → Hqe) : (s.modHq g).mem = s.mem := (rfl)
@[simp] theorem State.modHq_ecc (s : State) (g : Hqe → Hqe) : (s.modHq g).ecc = s.ecc := (rfl)
@[simp] theorem State.modHq_caps (s : State) (g : Hqe → Hqe) : (s.modHq g).caps = s.caps := (rfl)
@[simp] theorem State.modHq_rings (s : State) (g : Hqe → Hqe) : (s.modHq g).rings = s.rings := (rfl)
@[simp] theorem State.modHq_evc (s : State) (g : Hqe → Hqe) : (s.modHq g).evc = s.evc := (rfl)
@[simp] theorem State.modHq_pw (s : State) (g : Hqe → Hqe) : (s.modHq g).pw = s.pw := (rfl)
@[simp] theorem State.modHq_boot (s : State) (g : Hqe → Hqe) : (s.modHq g).boot = s.boot := (rfl)
@[simp] theorem State.modHq_core (s : State) (g : Hqe → Hqe) : (s.modHq g).core = s.core := (rfl)
@[simp] theorem State.modHq_dbg (s : State) (g : Hqe → Hqe) : (s.modHq g).dbg = s.dbg := (rfl)
@[simp] theorem State.modHq_io (s : State) (g : Hqe → Hqe) : (s.modHq g).io = s.io := (rfl)
@[simp] theorem State.modHq_lc (s : State) (g : Hqe → Hqe) : (s.modHq g).lc = s.lc := (rfl)
@[simp] theorem State.modHq_cip (s : State) (g : Hqe → Hqe) : (s.modHq g).cip = s.cip := (rfl)
@[simp] theorem State.modHq_bus (s : State) (g : Hqe → Hqe) : (s.modHq g).bus = s.bus := (rfl)
@[simp] theorem State.modHq_spn (s : State) (g : Hqe → Hqe) : (s.modHq g).spn = s.spn := (rfl)
@[simp] theorem State.modHq_die (s : State) (g : Hqe → Hqe) : (s.modHq g).die = s.die := (rfl)
@[simp] theorem State.modHq_srv (s : State) (g : Hqe → Hqe) : (s.modHq g).srv = s.srv := (rfl)
@[simp] theorem State.modHq_shockLow (s : State) (g : Hqe → Hqe) : (s.modHq g).shockLow = s.shockLow := (rfl)
@[simp] theorem State.modHq_fmtLast (s : State) (g : Hqe → Hqe) : (s.modHq g).fmtLast = s.fmtLast := (rfl)
@[simp] theorem State.modHq_mram (s : State) (g : Hqe → Hqe) : (s.modHq g).mram = s.mram := (rfl)
@[simp] theorem State.modHq_sce (s : State) (g : Hqe → Hqe) : (s.modHq g).sce = s.sce := (rfl)
@[simp] theorem State.modHq_ch (s : State) (g : Hqe → Hqe) : (s.modHq g).ch = s.ch := (rfl)
@[simp] theorem State.modHq_fmt (s : State) (g : Hqe → Hqe) : (s.modHq g).fmt = s.fmt := (rfl)
@[simp] theorem State.modHq_memDue (s : State) (g : Hqe → Hqe) : (s.modHq g).memDue = s.memDue := (rfl)
@[simp] theorem State.modHq_hp (s : State) (g : Hqe → Hqe) : (s.modHq g).hp = s.hp := (rfl)
@[simp] theorem State.modHq_nanoStage (s : State) (g : Hqe → Hqe) : (s.modHq g).nanoStage = s.nanoStage := (rfl)
@[simp] theorem State.modHq_usb (s : State) (g : Hqe → Hqe) : (s.modHq g).usb = s.usb := (rfl)
@[simp] theorem State.modHq_idu (s : State) (g : Hqe → Hqe) : (s.modHq g).idu = s.idu := (rfl)
@[simp] theorem State.modHq_alm (s : State) (g : Hqe → Hqe) : (s.modHq g).alm = s.alm := (rfl)
@[simp] theorem State.modHq_jtag (s : State) (g : Hqe → Hqe) : (s.modHq g).jtag = s.jtag := (rfl)
@[simp] theorem State.modHq_ae (s : State) (g : Hqe → Hqe) : (s.modHq g).ae = s.ae := (rfl)
@[simp] theorem State.modHq_ot (s : State) (g : Hqe → Hqe) : (s.modHq g).ot = s.ot := (rfl)
@[simp] theorem State.modHq_media (s : State) (g : Hqe → Hqe) : (s.modHq g).media = s.media := (rfl)
@[simp] theorem State.modHq_freeCtr (s : State) (g : Hqe → Hqe) : (s.modHq g).freeCtr = s.freeCtr := (rfl)
@[simp] theorem State.modHq_pending (s : State) (g : Hqe → Hqe) : (s.modHq g).pending = s.pending := (rfl)

@[simp] theorem State.modHp_regs (s : State) (g : HostPort → HostPort) : (s.modHp g).regs = s.regs := (rfl)
@[simp] theorem State.modHp_mem (s : State) (g : HostPort → HostPort) : (s.modHp g).mem = s.mem := (rfl)
@[simp] theorem State.modHp_ecc (s : State) (g : HostPort → HostPort) : (s.modHp g).ecc = s.ecc := (rfl)
@[simp] theorem State.modHp_caps (s : State) (g : HostPort → HostPort) : (s.modHp g).caps = s.caps := (rfl)
@[simp] theorem State.modHp_rings (s : State) (g : HostPort → HostPort) : (s.modHp g).rings = s.rings := (rfl)
@[simp] theorem State.modHp_evc (s : State) (g : HostPort → HostPort) : (s.modHp g).evc = s.evc := (rfl)
@[simp] theorem State.modHp_pw (s : State) (g : HostPort → HostPort) : (s.modHp g).pw = s.pw := (rfl)
@[simp] theorem State.modHp_boot (s : State) (g : HostPort → HostPort) : (s.modHp g).boot = s.boot := (rfl)
@[simp] theorem State.modHp_core (s : State) (g : HostPort → HostPort) : (s.modHp g).core = s.core := (rfl)
@[simp] theorem State.modHp_dbg (s : State) (g : HostPort → HostPort) : (s.modHp g).dbg = s.dbg := (rfl)
@[simp] theorem State.modHp_io (s : State) (g : HostPort → HostPort) : (s.modHp g).io = s.io := (rfl)
@[simp] theorem State.modHp_lc (s : State) (g : HostPort → HostPort) : (s.modHp g).lc = s.lc := (rfl)
@[simp] theorem State.modHp_cip (s : State) (g : HostPort → HostPort) : (s.modHp g).cip = s.cip := (rfl)
@[simp] theorem State.modHp_bus (s : State) (g : HostPort → HostPort) : (s.modHp g).bus = s.bus := (rfl)
@[simp] theorem State.modHp_spn (s : State) (g : HostPort → HostPort) : (s.modHp g).spn = s.spn := (rfl)
@[simp] theorem State.modHp_die (s : State) (g : HostPort → HostPort) : (s.modHp g).die = s.die := (rfl)
@[simp] theorem State.modHp_srv (s : State) (g : HostPort → HostPort) : (s.modHp g).srv = s.srv := (rfl)
@[simp] theorem State.modHp_shockLow (s : State) (g : HostPort → HostPort) : (s.modHp g).shockLow = s.shockLow := (rfl)
@[simp] theorem State.modHp_fmtLast (s : State) (g : HostPort → HostPort) : (s.modHp g).fmtLast = s.fmtLast := (rfl)
@[simp] theorem State.modHp_mram (s : State) (g : HostPort → HostPort) : (s.modHp g).mram = s.mram := (rfl)
@[simp] theorem State.modHp_sce (s : State) (g : HostPort → HostPort) : (s.modHp g).sce = s.sce := (rfl)
@[simp] theorem State.modHp_ch (s : State) (g : HostPort → HostPort) : (s.modHp g).ch = s.ch := (rfl)
@[simp] theorem State.modHp_fmt (s : State) (g : HostPort → HostPort) : (s.modHp g).fmt = s.fmt := (rfl)
@[simp] theorem State.modHp_memDue (s : State) (g : HostPort → HostPort) : (s.modHp g).memDue = s.memDue := (rfl)
@[simp] theorem State.modHp_hq (s : State) (g : HostPort → HostPort) : (s.modHp g).hq = s.hq := (rfl)
@[simp] theorem State.modHp_nanoStage (s : State) (g : HostPort → HostPort) : (s.modHp g).nanoStage = s.nanoStage := (rfl)
@[simp] theorem State.modHp_usb (s : State) (g : HostPort → HostPort) : (s.modHp g).usb = s.usb := (rfl)
@[simp] theorem State.modHp_idu (s : State) (g : HostPort → HostPort) : (s.modHp g).idu = s.idu := (rfl)
@[simp] theorem State.modHp_alm (s : State) (g : HostPort → HostPort) : (s.modHp g).alm = s.alm := (rfl)
@[simp] theorem State.modHp_jtag (s : State) (g : HostPort → HostPort) : (s.modHp g).jtag = s.jtag := (rfl)
@[simp] theorem State.modHp_ae (s : State) (g : HostPort → HostPort) : (s.modHp g).ae = s.ae := (rfl)
@[simp] theorem State.modHp_ot (s : State) (g : HostPort → HostPort) : (s.modHp g).ot = s.ot := (rfl)
@[simp] theorem State.modHp_media (s : State) (g : HostPort → HostPort) : (s.modHp g).media = s.media := (rfl)
@[simp] theorem State.modHp_freeCtr (s : State) (g : HostPort → HostPort) : (s.modHp g).freeCtr = s.freeCtr := (rfl)
@[simp] theorem State.modHp_pending (s : State) (g : HostPort → HostPort) : (s.modHp g).pending = s.pending := (rfl)

@[simp] theorem State.modUsb_regs (s : State) (g : Usb → Usb) : (s.modUsb g).regs = s.regs := (rfl)
@[simp] theorem State.modUsb_mem (s : State) (g : Usb → Usb) : (s.modUsb g).mem = s.mem := (rfl)
@[simp] theorem State.modUsb_ecc (s : State) (g : Usb → Usb) : (s.modUsb g).ecc = s.ecc := (rfl)
@[simp] theorem State.modUsb_caps (s : State) (g : Usb → Usb) : (s.modUsb g).caps = s.caps := (rfl)
@[simp] theorem State.modUsb_rings (s : State) (g : Usb → Usb) : (s.modUsb g).rings = s.rings := (rfl)
@[simp] theorem State.modUsb_evc (s : State) (g : Usb → Usb) : (s.modUsb g).evc = s.evc := (rfl)
@[simp] theorem State.modUsb_pw (s : State) (g : Usb → Usb) : (s.modUsb g).pw = s.pw := (rfl)
@[simp] theorem State.modUsb_boot (s : State) (g : Usb → Usb) : (s.modUsb g).boot = s.boot := (rfl)
@[simp] theorem State.modUsb_core (s : State) (g : Usb → Usb) : (s.modUsb g).core = s.core := (rfl)
@[simp] theorem State.modUsb_dbg (s : State) (g : Usb → Usb) : (s.modUsb g).dbg = s.dbg := (rfl)
@[simp] theorem State.modUsb_io (s : State) (g : Usb → Usb) : (s.modUsb g).io = s.io := (rfl)
@[simp] theorem State.modUsb_lc (s : State) (g : Usb → Usb) : (s.modUsb g).lc = s.lc := (rfl)
@[simp] theorem State.modUsb_cip (s : State) (g : Usb → Usb) : (s.modUsb g).cip = s.cip := (rfl)
@[simp] theorem State.modUsb_bus (s : State) (g : Usb → Usb) : (s.modUsb g).bus = s.bus := (rfl)
@[simp] theorem State.modUsb_spn (s : State) (g : Usb → Usb) : (s.modUsb g).spn = s.spn := (rfl)
@[simp] theorem State.modUsb_die (s : State) (g : Usb → Usb) : (s.modUsb g).die = s.die := (rfl)
@[simp] theorem State.modUsb_srv (s : State) (g : Usb → Usb) : (s.modUsb g).srv = s.srv := (rfl)
@[simp] theorem State.modUsb_shockLow (s : State) (g : Usb → Usb) : (s.modUsb g).shockLow = s.shockLow := (rfl)
@[simp] theorem State.modUsb_fmtLast (s : State) (g : Usb → Usb) : (s.modUsb g).fmtLast = s.fmtLast := (rfl)
@[simp] theorem State.modUsb_mram (s : State) (g : Usb → Usb) : (s.modUsb g).mram = s.mram := (rfl)
@[simp] theorem State.modUsb_sce (s : State) (g : Usb → Usb) : (s.modUsb g).sce = s.sce := (rfl)
@[simp] theorem State.modUsb_ch (s : State) (g : Usb → Usb) : (s.modUsb g).ch = s.ch := (rfl)
@[simp] theorem State.modUsb_fmt (s : State) (g : Usb → Usb) : (s.modUsb g).fmt = s.fmt := (rfl)
@[simp] theorem State.modUsb_memDue (s : State) (g : Usb → Usb) : (s.modUsb g).memDue = s.memDue := (rfl)
@[simp] theorem State.modUsb_hq (s : State) (g : Usb → Usb) : (s.modUsb g).hq = s.hq := (rfl)
@[simp] theorem State.modUsb_hp (s : State) (g : Usb → Usb) : (s.modUsb g).hp = s.hp := (rfl)
@[simp] theorem State.modUsb_nanoStage (s : State) (g : Usb → Usb) : (s.modUsb g).nanoStage = s.nanoStage := (rfl)
@[simp] theorem State.modUsb_idu (s : State) (g : Usb → Usb) : (s.modUsb g).idu = s.idu := (rfl)
@[simp] theorem State.modUsb_alm (s : State) (g : Usb → Usb) : (s.modUsb g).alm = s.alm := (rfl)
@[simp] theorem State.modUsb_jtag (s : State) (g : Usb → Usb) : (s.modUsb g).jtag = s.jtag := (rfl)
@[simp] theorem State.modUsb_ae (s : State) (g : Usb → Usb) : (s.modUsb g).ae = s.ae := (rfl)
@[simp] theorem State.modUsb_ot (s : State) (g : Usb → Usb) : (s.modUsb g).ot = s.ot := (rfl)
@[simp] theorem State.modUsb_media (s : State) (g : Usb → Usb) : (s.modUsb g).media = s.media := (rfl)
@[simp] theorem State.modUsb_freeCtr (s : State) (g : Usb → Usb) : (s.modUsb g).freeCtr = s.freeCtr := (rfl)
@[simp] theorem State.modUsb_pending (s : State) (g : Usb → Usb) : (s.modUsb g).pending = s.pending := (rfl)

@[simp] theorem State.modIdu_regs (s : State) (g : IduPool → IduPool) : (s.modIdu g).regs = s.regs := (rfl)
@[simp] theorem State.modIdu_mem (s : State) (g : IduPool → IduPool) : (s.modIdu g).mem = s.mem := (rfl)
@[simp] theorem State.modIdu_ecc (s : State) (g : IduPool → IduPool) : (s.modIdu g).ecc = s.ecc := (rfl)
@[simp] theorem State.modIdu_caps (s : State) (g : IduPool → IduPool) : (s.modIdu g).caps = s.caps := (rfl)
@[simp] theorem State.modIdu_rings (s : State) (g : IduPool → IduPool) : (s.modIdu g).rings = s.rings := (rfl)
@[simp] theorem State.modIdu_evc (s : State) (g : IduPool → IduPool) : (s.modIdu g).evc = s.evc := (rfl)
@[simp] theorem State.modIdu_pw (s : State) (g : IduPool → IduPool) : (s.modIdu g).pw = s.pw := (rfl)
@[simp] theorem State.modIdu_boot (s : State) (g : IduPool → IduPool) : (s.modIdu g).boot = s.boot := (rfl)
@[simp] theorem State.modIdu_core (s : State) (g : IduPool → IduPool) : (s.modIdu g).core = s.core := (rfl)
@[simp] theorem State.modIdu_dbg (s : State) (g : IduPool → IduPool) : (s.modIdu g).dbg = s.dbg := (rfl)
@[simp] theorem State.modIdu_io (s : State) (g : IduPool → IduPool) : (s.modIdu g).io = s.io := (rfl)
@[simp] theorem State.modIdu_lc (s : State) (g : IduPool → IduPool) : (s.modIdu g).lc = s.lc := (rfl)
@[simp] theorem State.modIdu_cip (s : State) (g : IduPool → IduPool) : (s.modIdu g).cip = s.cip := (rfl)
@[simp] theorem State.modIdu_bus (s : State) (g : IduPool → IduPool) : (s.modIdu g).bus = s.bus := (rfl)
@[simp] theorem State.modIdu_spn (s : State) (g : IduPool → IduPool) : (s.modIdu g).spn = s.spn := (rfl)
@[simp] theorem State.modIdu_die (s : State) (g : IduPool → IduPool) : (s.modIdu g).die = s.die := (rfl)
@[simp] theorem State.modIdu_srv (s : State) (g : IduPool → IduPool) : (s.modIdu g).srv = s.srv := (rfl)
@[simp] theorem State.modIdu_shockLow (s : State) (g : IduPool → IduPool) : (s.modIdu g).shockLow = s.shockLow := (rfl)
@[simp] theorem State.modIdu_fmtLast (s : State) (g : IduPool → IduPool) : (s.modIdu g).fmtLast = s.fmtLast := (rfl)
@[simp] theorem State.modIdu_mram (s : State) (g : IduPool → IduPool) : (s.modIdu g).mram = s.mram := (rfl)
@[simp] theorem State.modIdu_sce (s : State) (g : IduPool → IduPool) : (s.modIdu g).sce = s.sce := (rfl)
@[simp] theorem State.modIdu_ch (s : State) (g : IduPool → IduPool) : (s.modIdu g).ch = s.ch := (rfl)
@[simp] theorem State.modIdu_fmt (s : State) (g : IduPool → IduPool) : (s.modIdu g).fmt = s.fmt := (rfl)
@[simp] theorem State.modIdu_memDue (s : State) (g : IduPool → IduPool) : (s.modIdu g).memDue = s.memDue := (rfl)
@[simp] theorem State.modIdu_hq (s : State) (g : IduPool → IduPool) : (s.modIdu g).hq = s.hq := (rfl)
@[simp] theorem State.modIdu_hp (s : State) (g : IduPool → IduPool) : (s.modIdu g).hp = s.hp := (rfl)
@[simp] theorem State.modIdu_nanoStage (s : State) (g : IduPool → IduPool) : (s.modIdu g).nanoStage = s.nanoStage := (rfl)
@[simp] theorem State.modIdu_usb (s : State) (g : IduPool → IduPool) : (s.modIdu g).usb = s.usb := (rfl)
@[simp] theorem State.modIdu_alm (s : State) (g : IduPool → IduPool) : (s.modIdu g).alm = s.alm := (rfl)
@[simp] theorem State.modIdu_jtag (s : State) (g : IduPool → IduPool) : (s.modIdu g).jtag = s.jtag := (rfl)
@[simp] theorem State.modIdu_ae (s : State) (g : IduPool → IduPool) : (s.modIdu g).ae = s.ae := (rfl)
@[simp] theorem State.modIdu_ot (s : State) (g : IduPool → IduPool) : (s.modIdu g).ot = s.ot := (rfl)
@[simp] theorem State.modIdu_media (s : State) (g : IduPool → IduPool) : (s.modIdu g).media = s.media := (rfl)
@[simp] theorem State.modIdu_freeCtr (s : State) (g : IduPool → IduPool) : (s.modIdu g).freeCtr = s.freeCtr := (rfl)
@[simp] theorem State.modIdu_pending (s : State) (g : IduPool → IduPool) : (s.modIdu g).pending = s.pending := (rfl)

@[simp] theorem State.modAlm_regs (s : State) (g : Alm → Alm) : (s.modAlm g).regs = s.regs := (rfl)
@[simp] theorem State.modAlm_mem (s : State) (g : Alm → Alm) : (s.modAlm g).mem = s.mem := (rfl)
@[simp] theorem State.modAlm_ecc (s : State) (g : Alm → Alm) : (s.modAlm g).ecc = s.ecc := (rfl)
@[simp] theorem State.modAlm_caps (s : State) (g : Alm → Alm) : (s.modAlm g).caps = s.caps := (rfl)
@[simp] theorem State.modAlm_rings (s : State) (g : Alm → Alm) : (s.modAlm g).rings = s.rings := (rfl)
@[simp] theorem State.modAlm_evc (s : State) (g : Alm → Alm) : (s.modAlm g).evc = s.evc := (rfl)
@[simp] theorem State.modAlm_pw (s : State) (g : Alm → Alm) : (s.modAlm g).pw = s.pw := (rfl)
@[simp] theorem State.modAlm_boot (s : State) (g : Alm → Alm) : (s.modAlm g).boot = s.boot := (rfl)
@[simp] theorem State.modAlm_core (s : State) (g : Alm → Alm) : (s.modAlm g).core = s.core := (rfl)
@[simp] theorem State.modAlm_dbg (s : State) (g : Alm → Alm) : (s.modAlm g).dbg = s.dbg := (rfl)
@[simp] theorem State.modAlm_io (s : State) (g : Alm → Alm) : (s.modAlm g).io = s.io := (rfl)
@[simp] theorem State.modAlm_lc (s : State) (g : Alm → Alm) : (s.modAlm g).lc = s.lc := (rfl)
@[simp] theorem State.modAlm_cip (s : State) (g : Alm → Alm) : (s.modAlm g).cip = s.cip := (rfl)
@[simp] theorem State.modAlm_bus (s : State) (g : Alm → Alm) : (s.modAlm g).bus = s.bus := (rfl)
@[simp] theorem State.modAlm_spn (s : State) (g : Alm → Alm) : (s.modAlm g).spn = s.spn := (rfl)
@[simp] theorem State.modAlm_die (s : State) (g : Alm → Alm) : (s.modAlm g).die = s.die := (rfl)
@[simp] theorem State.modAlm_srv (s : State) (g : Alm → Alm) : (s.modAlm g).srv = s.srv := (rfl)
@[simp] theorem State.modAlm_shockLow (s : State) (g : Alm → Alm) : (s.modAlm g).shockLow = s.shockLow := (rfl)
@[simp] theorem State.modAlm_fmtLast (s : State) (g : Alm → Alm) : (s.modAlm g).fmtLast = s.fmtLast := (rfl)
@[simp] theorem State.modAlm_mram (s : State) (g : Alm → Alm) : (s.modAlm g).mram = s.mram := (rfl)
@[simp] theorem State.modAlm_sce (s : State) (g : Alm → Alm) : (s.modAlm g).sce = s.sce := (rfl)
@[simp] theorem State.modAlm_ch (s : State) (g : Alm → Alm) : (s.modAlm g).ch = s.ch := (rfl)
@[simp] theorem State.modAlm_fmt (s : State) (g : Alm → Alm) : (s.modAlm g).fmt = s.fmt := (rfl)
@[simp] theorem State.modAlm_memDue (s : State) (g : Alm → Alm) : (s.modAlm g).memDue = s.memDue := (rfl)
@[simp] theorem State.modAlm_hq (s : State) (g : Alm → Alm) : (s.modAlm g).hq = s.hq := (rfl)
@[simp] theorem State.modAlm_hp (s : State) (g : Alm → Alm) : (s.modAlm g).hp = s.hp := (rfl)
@[simp] theorem State.modAlm_nanoStage (s : State) (g : Alm → Alm) : (s.modAlm g).nanoStage = s.nanoStage := (rfl)
@[simp] theorem State.modAlm_usb (s : State) (g : Alm → Alm) : (s.modAlm g).usb = s.usb := (rfl)
@[simp] theorem State.modAlm_idu (s : State) (g : Alm → Alm) : (s.modAlm g).idu = s.idu := (rfl)
@[simp] theorem State.modAlm_jtag (s : State) (g : Alm → Alm) : (s.modAlm g).jtag = s.jtag := (rfl)
@[simp] theorem State.modAlm_ae (s : State) (g : Alm → Alm) : (s.modAlm g).ae = s.ae := (rfl)
@[simp] theorem State.modAlm_ot (s : State) (g : Alm → Alm) : (s.modAlm g).ot = s.ot := (rfl)
@[simp] theorem State.modAlm_media (s : State) (g : Alm → Alm) : (s.modAlm g).media = s.media := (rfl)
@[simp] theorem State.modAlm_freeCtr (s : State) (g : Alm → Alm) : (s.modAlm g).freeCtr = s.freeCtr := (rfl)
@[simp] theorem State.modAlm_pending (s : State) (g : Alm → Alm) : (s.modAlm g).pending = s.pending := (rfl)

@[simp] theorem State.modJtag_regs (s : State) (g : Jtag → Jtag) : (s.modJtag g).regs = s.regs := (rfl)
@[simp] theorem State.modJtag_mem (s : State) (g : Jtag → Jtag) : (s.modJtag g).mem = s.mem := (rfl)
@[simp] theorem State.modJtag_ecc (s : State) (g : Jtag → Jtag) : (s.modJtag g).ecc = s.ecc := (rfl)
@[simp] theorem State.modJtag_caps (s : State) (g : Jtag → Jtag) : (s.modJtag g).caps = s.caps := (rfl)
@[simp] theorem State.modJtag_rings (s : State) (g : Jtag → Jtag) : (s.modJtag g).rings = s.rings := (rfl)
@[simp] theorem State.modJtag_evc (s : State) (g : Jtag → Jtag) : (s.modJtag g).evc = s.evc := (rfl)
@[simp] theorem State.modJtag_pw (s : State) (g : Jtag → Jtag) : (s.modJtag g).pw = s.pw := (rfl)
@[simp] theorem State.modJtag_boot (s : State) (g : Jtag → Jtag) : (s.modJtag g).boot = s.boot := (rfl)
@[simp] theorem State.modJtag_core (s : State) (g : Jtag → Jtag) : (s.modJtag g).core = s.core := (rfl)
@[simp] theorem State.modJtag_dbg (s : State) (g : Jtag → Jtag) : (s.modJtag g).dbg = s.dbg := (rfl)
@[simp] theorem State.modJtag_io (s : State) (g : Jtag → Jtag) : (s.modJtag g).io = s.io := (rfl)
@[simp] theorem State.modJtag_lc (s : State) (g : Jtag → Jtag) : (s.modJtag g).lc = s.lc := (rfl)
@[simp] theorem State.modJtag_cip (s : State) (g : Jtag → Jtag) : (s.modJtag g).cip = s.cip := (rfl)
@[simp] theorem State.modJtag_bus (s : State) (g : Jtag → Jtag) : (s.modJtag g).bus = s.bus := (rfl)
@[simp] theorem State.modJtag_spn (s : State) (g : Jtag → Jtag) : (s.modJtag g).spn = s.spn := (rfl)
@[simp] theorem State.modJtag_die (s : State) (g : Jtag → Jtag) : (s.modJtag g).die = s.die := (rfl)
@[simp] theorem State.modJtag_srv (s : State) (g : Jtag → Jtag) : (s.modJtag g).srv = s.srv := (rfl)
@[simp] theorem State.modJtag_shockLow (s : State) (g : Jtag → Jtag) : (s.modJtag g).shockLow = s.shockLow := (rfl)
@[simp] theorem State.modJtag_fmtLast (s : State) (g : Jtag → Jtag) : (s.modJtag g).fmtLast = s.fmtLast := (rfl)
@[simp] theorem State.modJtag_mram (s : State) (g : Jtag → Jtag) : (s.modJtag g).mram = s.mram := (rfl)
@[simp] theorem State.modJtag_sce (s : State) (g : Jtag → Jtag) : (s.modJtag g).sce = s.sce := (rfl)
@[simp] theorem State.modJtag_ch (s : State) (g : Jtag → Jtag) : (s.modJtag g).ch = s.ch := (rfl)
@[simp] theorem State.modJtag_fmt (s : State) (g : Jtag → Jtag) : (s.modJtag g).fmt = s.fmt := (rfl)
@[simp] theorem State.modJtag_memDue (s : State) (g : Jtag → Jtag) : (s.modJtag g).memDue = s.memDue := (rfl)
@[simp] theorem State.modJtag_hq (s : State) (g : Jtag → Jtag) : (s.modJtag g).hq = s.hq := (rfl)
@[simp] theorem State.modJtag_hp (s : State) (g : Jtag → Jtag) : (s.modJtag g).hp = s.hp := (rfl)
@[simp] theorem State.modJtag_nanoStage (s : State) (g : Jtag → Jtag) : (s.modJtag g).nanoStage = s.nanoStage := (rfl)
@[simp] theorem State.modJtag_usb (s : State) (g : Jtag → Jtag) : (s.modJtag g).usb = s.usb := (rfl)
@[simp] theorem State.modJtag_idu (s : State) (g : Jtag → Jtag) : (s.modJtag g).idu = s.idu := (rfl)
@[simp] theorem State.modJtag_alm (s : State) (g : Jtag → Jtag) : (s.modJtag g).alm = s.alm := (rfl)
@[simp] theorem State.modJtag_ae (s : State) (g : Jtag → Jtag) : (s.modJtag g).ae = s.ae := (rfl)
@[simp] theorem State.modJtag_ot (s : State) (g : Jtag → Jtag) : (s.modJtag g).ot = s.ot := (rfl)
@[simp] theorem State.modJtag_media (s : State) (g : Jtag → Jtag) : (s.modJtag g).media = s.media := (rfl)
@[simp] theorem State.modJtag_freeCtr (s : State) (g : Jtag → Jtag) : (s.modJtag g).freeCtr = s.freeCtr := (rfl)
@[simp] theorem State.modJtag_pending (s : State) (g : Jtag → Jtag) : (s.modJtag g).pending = s.pending := (rfl)

@[simp] theorem State.modAe_regs (s : State) (g : Ae → Ae) : (s.modAe g).regs = s.regs := (rfl)
@[simp] theorem State.modAe_mem (s : State) (g : Ae → Ae) : (s.modAe g).mem = s.mem := (rfl)
@[simp] theorem State.modAe_ecc (s : State) (g : Ae → Ae) : (s.modAe g).ecc = s.ecc := (rfl)
@[simp] theorem State.modAe_caps (s : State) (g : Ae → Ae) : (s.modAe g).caps = s.caps := (rfl)
@[simp] theorem State.modAe_rings (s : State) (g : Ae → Ae) : (s.modAe g).rings = s.rings := (rfl)
@[simp] theorem State.modAe_evc (s : State) (g : Ae → Ae) : (s.modAe g).evc = s.evc := (rfl)
@[simp] theorem State.modAe_pw (s : State) (g : Ae → Ae) : (s.modAe g).pw = s.pw := (rfl)
@[simp] theorem State.modAe_boot (s : State) (g : Ae → Ae) : (s.modAe g).boot = s.boot := (rfl)
@[simp] theorem State.modAe_core (s : State) (g : Ae → Ae) : (s.modAe g).core = s.core := (rfl)
@[simp] theorem State.modAe_dbg (s : State) (g : Ae → Ae) : (s.modAe g).dbg = s.dbg := (rfl)
@[simp] theorem State.modAe_io (s : State) (g : Ae → Ae) : (s.modAe g).io = s.io := (rfl)
@[simp] theorem State.modAe_lc (s : State) (g : Ae → Ae) : (s.modAe g).lc = s.lc := (rfl)
@[simp] theorem State.modAe_cip (s : State) (g : Ae → Ae) : (s.modAe g).cip = s.cip := (rfl)
@[simp] theorem State.modAe_bus (s : State) (g : Ae → Ae) : (s.modAe g).bus = s.bus := (rfl)
@[simp] theorem State.modAe_spn (s : State) (g : Ae → Ae) : (s.modAe g).spn = s.spn := (rfl)
@[simp] theorem State.modAe_die (s : State) (g : Ae → Ae) : (s.modAe g).die = s.die := (rfl)
@[simp] theorem State.modAe_srv (s : State) (g : Ae → Ae) : (s.modAe g).srv = s.srv := (rfl)
@[simp] theorem State.modAe_shockLow (s : State) (g : Ae → Ae) : (s.modAe g).shockLow = s.shockLow := (rfl)
@[simp] theorem State.modAe_fmtLast (s : State) (g : Ae → Ae) : (s.modAe g).fmtLast = s.fmtLast := (rfl)
@[simp] theorem State.modAe_mram (s : State) (g : Ae → Ae) : (s.modAe g).mram = s.mram := (rfl)
@[simp] theorem State.modAe_sce (s : State) (g : Ae → Ae) : (s.modAe g).sce = s.sce := (rfl)
@[simp] theorem State.modAe_ch (s : State) (g : Ae → Ae) : (s.modAe g).ch = s.ch := (rfl)
@[simp] theorem State.modAe_fmt (s : State) (g : Ae → Ae) : (s.modAe g).fmt = s.fmt := (rfl)
@[simp] theorem State.modAe_memDue (s : State) (g : Ae → Ae) : (s.modAe g).memDue = s.memDue := (rfl)
@[simp] theorem State.modAe_hq (s : State) (g : Ae → Ae) : (s.modAe g).hq = s.hq := (rfl)
@[simp] theorem State.modAe_hp (s : State) (g : Ae → Ae) : (s.modAe g).hp = s.hp := (rfl)
@[simp] theorem State.modAe_nanoStage (s : State) (g : Ae → Ae) : (s.modAe g).nanoStage = s.nanoStage := (rfl)
@[simp] theorem State.modAe_usb (s : State) (g : Ae → Ae) : (s.modAe g).usb = s.usb := (rfl)
@[simp] theorem State.modAe_idu (s : State) (g : Ae → Ae) : (s.modAe g).idu = s.idu := (rfl)
@[simp] theorem State.modAe_alm (s : State) (g : Ae → Ae) : (s.modAe g).alm = s.alm := (rfl)
@[simp] theorem State.modAe_jtag (s : State) (g : Ae → Ae) : (s.modAe g).jtag = s.jtag := (rfl)
@[simp] theorem State.modAe_ot (s : State) (g : Ae → Ae) : (s.modAe g).ot = s.ot := (rfl)
@[simp] theorem State.modAe_media (s : State) (g : Ae → Ae) : (s.modAe g).media = s.media := (rfl)
@[simp] theorem State.modAe_freeCtr (s : State) (g : Ae → Ae) : (s.modAe g).freeCtr = s.freeCtr := (rfl)
@[simp] theorem State.modAe_pending (s : State) (g : Ae → Ae) : (s.modAe g).pending = s.pending := (rfl)

@[simp] theorem State.modOt_regs (s : State) (g : Otivo → Otivo) : (s.modOt g).regs = s.regs := (rfl)
@[simp] theorem State.modOt_mem (s : State) (g : Otivo → Otivo) : (s.modOt g).mem = s.mem := (rfl)
@[simp] theorem State.modOt_ecc (s : State) (g : Otivo → Otivo) : (s.modOt g).ecc = s.ecc := (rfl)
@[simp] theorem State.modOt_caps (s : State) (g : Otivo → Otivo) : (s.modOt g).caps = s.caps := (rfl)
@[simp] theorem State.modOt_rings (s : State) (g : Otivo → Otivo) : (s.modOt g).rings = s.rings := (rfl)
@[simp] theorem State.modOt_evc (s : State) (g : Otivo → Otivo) : (s.modOt g).evc = s.evc := (rfl)
@[simp] theorem State.modOt_pw (s : State) (g : Otivo → Otivo) : (s.modOt g).pw = s.pw := (rfl)
@[simp] theorem State.modOt_boot (s : State) (g : Otivo → Otivo) : (s.modOt g).boot = s.boot := (rfl)
@[simp] theorem State.modOt_core (s : State) (g : Otivo → Otivo) : (s.modOt g).core = s.core := (rfl)
@[simp] theorem State.modOt_dbg (s : State) (g : Otivo → Otivo) : (s.modOt g).dbg = s.dbg := (rfl)
@[simp] theorem State.modOt_io (s : State) (g : Otivo → Otivo) : (s.modOt g).io = s.io := (rfl)
@[simp] theorem State.modOt_lc (s : State) (g : Otivo → Otivo) : (s.modOt g).lc = s.lc := (rfl)
@[simp] theorem State.modOt_cip (s : State) (g : Otivo → Otivo) : (s.modOt g).cip = s.cip := (rfl)
@[simp] theorem State.modOt_bus (s : State) (g : Otivo → Otivo) : (s.modOt g).bus = s.bus := (rfl)
@[simp] theorem State.modOt_spn (s : State) (g : Otivo → Otivo) : (s.modOt g).spn = s.spn := (rfl)
@[simp] theorem State.modOt_die (s : State) (g : Otivo → Otivo) : (s.modOt g).die = s.die := (rfl)
@[simp] theorem State.modOt_srv (s : State) (g : Otivo → Otivo) : (s.modOt g).srv = s.srv := (rfl)
@[simp] theorem State.modOt_shockLow (s : State) (g : Otivo → Otivo) : (s.modOt g).shockLow = s.shockLow := (rfl)
@[simp] theorem State.modOt_fmtLast (s : State) (g : Otivo → Otivo) : (s.modOt g).fmtLast = s.fmtLast := (rfl)
@[simp] theorem State.modOt_mram (s : State) (g : Otivo → Otivo) : (s.modOt g).mram = s.mram := (rfl)
@[simp] theorem State.modOt_sce (s : State) (g : Otivo → Otivo) : (s.modOt g).sce = s.sce := (rfl)
@[simp] theorem State.modOt_ch (s : State) (g : Otivo → Otivo) : (s.modOt g).ch = s.ch := (rfl)
@[simp] theorem State.modOt_fmt (s : State) (g : Otivo → Otivo) : (s.modOt g).fmt = s.fmt := (rfl)
@[simp] theorem State.modOt_memDue (s : State) (g : Otivo → Otivo) : (s.modOt g).memDue = s.memDue := (rfl)
@[simp] theorem State.modOt_hq (s : State) (g : Otivo → Otivo) : (s.modOt g).hq = s.hq := (rfl)
@[simp] theorem State.modOt_hp (s : State) (g : Otivo → Otivo) : (s.modOt g).hp = s.hp := (rfl)
@[simp] theorem State.modOt_nanoStage (s : State) (g : Otivo → Otivo) : (s.modOt g).nanoStage = s.nanoStage := (rfl)
@[simp] theorem State.modOt_usb (s : State) (g : Otivo → Otivo) : (s.modOt g).usb = s.usb := (rfl)
@[simp] theorem State.modOt_idu (s : State) (g : Otivo → Otivo) : (s.modOt g).idu = s.idu := (rfl)
@[simp] theorem State.modOt_alm (s : State) (g : Otivo → Otivo) : (s.modOt g).alm = s.alm := (rfl)
@[simp] theorem State.modOt_jtag (s : State) (g : Otivo → Otivo) : (s.modOt g).jtag = s.jtag := (rfl)
@[simp] theorem State.modOt_ae (s : State) (g : Otivo → Otivo) : (s.modOt g).ae = s.ae := (rfl)
@[simp] theorem State.modOt_media (s : State) (g : Otivo → Otivo) : (s.modOt g).media = s.media := (rfl)
@[simp] theorem State.modOt_freeCtr (s : State) (g : Otivo → Otivo) : (s.modOt g).freeCtr = s.freeCtr := (rfl)
@[simp] theorem State.modOt_pending (s : State) (g : Otivo → Otivo) : (s.modOt g).pending = s.pending := (rfl)

@[simp] theorem State.modSpn_regs (s : State) (p : Fin 8) (g : Spindle → Spindle) : (s.modSpn p g).regs = s.regs := (rfl)
@[simp] theorem State.modSpn_mem (s : State) (p : Fin 8) (g : Spindle → Spindle) : (s.modSpn p g).mem = s.mem := (rfl)
@[simp] theorem State.modSpn_ecc (s : State) (p : Fin 8) (g : Spindle → Spindle) : (s.modSpn p g).ecc = s.ecc := (rfl)
@[simp] theorem State.modSpn_caps (s : State) (p : Fin 8) (g : Spindle → Spindle) : (s.modSpn p g).caps = s.caps := (rfl)
@[simp] theorem State.modSpn_rings (s : State) (p : Fin 8) (g : Spindle → Spindle) : (s.modSpn p g).rings = s.rings := (rfl)
@[simp] theorem State.modSpn_evc (s : State) (p : Fin 8) (g : Spindle → Spindle) : (s.modSpn p g).evc = s.evc := (rfl)
@[simp] theorem State.modSpn_pw (s : State) (p : Fin 8) (g : Spindle → Spindle) : (s.modSpn p g).pw = s.pw := (rfl)
@[simp] theorem State.modSpn_boot (s : State) (p : Fin 8) (g : Spindle → Spindle) : (s.modSpn p g).boot = s.boot := (rfl)
@[simp] theorem State.modSpn_core (s : State) (p : Fin 8) (g : Spindle → Spindle) : (s.modSpn p g).core = s.core := (rfl)
@[simp] theorem State.modSpn_dbg (s : State) (p : Fin 8) (g : Spindle → Spindle) : (s.modSpn p g).dbg = s.dbg := (rfl)
@[simp] theorem State.modSpn_io (s : State) (p : Fin 8) (g : Spindle → Spindle) : (s.modSpn p g).io = s.io := (rfl)
@[simp] theorem State.modSpn_lc (s : State) (p : Fin 8) (g : Spindle → Spindle) : (s.modSpn p g).lc = s.lc := (rfl)
@[simp] theorem State.modSpn_cip (s : State) (p : Fin 8) (g : Spindle → Spindle) : (s.modSpn p g).cip = s.cip := (rfl)
@[simp] theorem State.modSpn_bus (s : State) (p : Fin 8) (g : Spindle → Spindle) : (s.modSpn p g).bus = s.bus := (rfl)
@[simp] theorem State.modSpn_die (s : State) (p : Fin 8) (g : Spindle → Spindle) : (s.modSpn p g).die = s.die := (rfl)
@[simp] theorem State.modSpn_srv (s : State) (p : Fin 8) (g : Spindle → Spindle) : (s.modSpn p g).srv = s.srv := (rfl)
@[simp] theorem State.modSpn_shockLow (s : State) (p : Fin 8) (g : Spindle → Spindle) : (s.modSpn p g).shockLow = s.shockLow := (rfl)
@[simp] theorem State.modSpn_fmtLast (s : State) (p : Fin 8) (g : Spindle → Spindle) : (s.modSpn p g).fmtLast = s.fmtLast := (rfl)
@[simp] theorem State.modSpn_mram (s : State) (p : Fin 8) (g : Spindle → Spindle) : (s.modSpn p g).mram = s.mram := (rfl)
@[simp] theorem State.modSpn_sce (s : State) (p : Fin 8) (g : Spindle → Spindle) : (s.modSpn p g).sce = s.sce := (rfl)
@[simp] theorem State.modSpn_ch (s : State) (p : Fin 8) (g : Spindle → Spindle) : (s.modSpn p g).ch = s.ch := (rfl)
@[simp] theorem State.modSpn_fmt (s : State) (p : Fin 8) (g : Spindle → Spindle) : (s.modSpn p g).fmt = s.fmt := (rfl)
@[simp] theorem State.modSpn_memDue (s : State) (p : Fin 8) (g : Spindle → Spindle) : (s.modSpn p g).memDue = s.memDue := (rfl)
@[simp] theorem State.modSpn_hq (s : State) (p : Fin 8) (g : Spindle → Spindle) : (s.modSpn p g).hq = s.hq := (rfl)
@[simp] theorem State.modSpn_hp (s : State) (p : Fin 8) (g : Spindle → Spindle) : (s.modSpn p g).hp = s.hp := (rfl)
@[simp] theorem State.modSpn_nanoStage (s : State) (p : Fin 8) (g : Spindle → Spindle) : (s.modSpn p g).nanoStage = s.nanoStage := (rfl)
@[simp] theorem State.modSpn_usb (s : State) (p : Fin 8) (g : Spindle → Spindle) : (s.modSpn p g).usb = s.usb := (rfl)
@[simp] theorem State.modSpn_idu (s : State) (p : Fin 8) (g : Spindle → Spindle) : (s.modSpn p g).idu = s.idu := (rfl)
@[simp] theorem State.modSpn_alm (s : State) (p : Fin 8) (g : Spindle → Spindle) : (s.modSpn p g).alm = s.alm := (rfl)
@[simp] theorem State.modSpn_jtag (s : State) (p : Fin 8) (g : Spindle → Spindle) : (s.modSpn p g).jtag = s.jtag := (rfl)
@[simp] theorem State.modSpn_ae (s : State) (p : Fin 8) (g : Spindle → Spindle) : (s.modSpn p g).ae = s.ae := (rfl)
@[simp] theorem State.modSpn_ot (s : State) (p : Fin 8) (g : Spindle → Spindle) : (s.modSpn p g).ot = s.ot := (rfl)
@[simp] theorem State.modSpn_media (s : State) (p : Fin 8) (g : Spindle → Spindle) : (s.modSpn p g).media = s.media := (rfl)
@[simp] theorem State.modSpn_freeCtr (s : State) (p : Fin 8) (g : Spindle → Spindle) : (s.modSpn p g).freeCtr = s.freeCtr := (rfl)
@[simp] theorem State.modSpn_pending (s : State) (p : Fin 8) (g : Spindle → Spindle) : (s.modSpn p g).pending = s.pending := (rfl)

@[simp] theorem State.modSrv_regs (s : State) (p : Fin 8) (g : Servo → Servo) : (s.modSrv p g).regs = s.regs := (rfl)
@[simp] theorem State.modSrv_mem (s : State) (p : Fin 8) (g : Servo → Servo) : (s.modSrv p g).mem = s.mem := (rfl)
@[simp] theorem State.modSrv_ecc (s : State) (p : Fin 8) (g : Servo → Servo) : (s.modSrv p g).ecc = s.ecc := (rfl)
@[simp] theorem State.modSrv_caps (s : State) (p : Fin 8) (g : Servo → Servo) : (s.modSrv p g).caps = s.caps := (rfl)
@[simp] theorem State.modSrv_rings (s : State) (p : Fin 8) (g : Servo → Servo) : (s.modSrv p g).rings = s.rings := (rfl)
@[simp] theorem State.modSrv_evc (s : State) (p : Fin 8) (g : Servo → Servo) : (s.modSrv p g).evc = s.evc := (rfl)
@[simp] theorem State.modSrv_pw (s : State) (p : Fin 8) (g : Servo → Servo) : (s.modSrv p g).pw = s.pw := (rfl)
@[simp] theorem State.modSrv_boot (s : State) (p : Fin 8) (g : Servo → Servo) : (s.modSrv p g).boot = s.boot := (rfl)
@[simp] theorem State.modSrv_core (s : State) (p : Fin 8) (g : Servo → Servo) : (s.modSrv p g).core = s.core := (rfl)
@[simp] theorem State.modSrv_dbg (s : State) (p : Fin 8) (g : Servo → Servo) : (s.modSrv p g).dbg = s.dbg := (rfl)
@[simp] theorem State.modSrv_io (s : State) (p : Fin 8) (g : Servo → Servo) : (s.modSrv p g).io = s.io := (rfl)
@[simp] theorem State.modSrv_lc (s : State) (p : Fin 8) (g : Servo → Servo) : (s.modSrv p g).lc = s.lc := (rfl)
@[simp] theorem State.modSrv_cip (s : State) (p : Fin 8) (g : Servo → Servo) : (s.modSrv p g).cip = s.cip := (rfl)
@[simp] theorem State.modSrv_bus (s : State) (p : Fin 8) (g : Servo → Servo) : (s.modSrv p g).bus = s.bus := (rfl)
@[simp] theorem State.modSrv_spn (s : State) (p : Fin 8) (g : Servo → Servo) : (s.modSrv p g).spn = s.spn := (rfl)
@[simp] theorem State.modSrv_die (s : State) (p : Fin 8) (g : Servo → Servo) : (s.modSrv p g).die = s.die := (rfl)
@[simp] theorem State.modSrv_shockLow (s : State) (p : Fin 8) (g : Servo → Servo) : (s.modSrv p g).shockLow = s.shockLow := (rfl)
@[simp] theorem State.modSrv_fmtLast (s : State) (p : Fin 8) (g : Servo → Servo) : (s.modSrv p g).fmtLast = s.fmtLast := (rfl)
@[simp] theorem State.modSrv_mram (s : State) (p : Fin 8) (g : Servo → Servo) : (s.modSrv p g).mram = s.mram := (rfl)
@[simp] theorem State.modSrv_sce (s : State) (p : Fin 8) (g : Servo → Servo) : (s.modSrv p g).sce = s.sce := (rfl)
@[simp] theorem State.modSrv_ch (s : State) (p : Fin 8) (g : Servo → Servo) : (s.modSrv p g).ch = s.ch := (rfl)
@[simp] theorem State.modSrv_fmt (s : State) (p : Fin 8) (g : Servo → Servo) : (s.modSrv p g).fmt = s.fmt := (rfl)
@[simp] theorem State.modSrv_memDue (s : State) (p : Fin 8) (g : Servo → Servo) : (s.modSrv p g).memDue = s.memDue := (rfl)
@[simp] theorem State.modSrv_hq (s : State) (p : Fin 8) (g : Servo → Servo) : (s.modSrv p g).hq = s.hq := (rfl)
@[simp] theorem State.modSrv_hp (s : State) (p : Fin 8) (g : Servo → Servo) : (s.modSrv p g).hp = s.hp := (rfl)
@[simp] theorem State.modSrv_nanoStage (s : State) (p : Fin 8) (g : Servo → Servo) : (s.modSrv p g).nanoStage = s.nanoStage := (rfl)
@[simp] theorem State.modSrv_usb (s : State) (p : Fin 8) (g : Servo → Servo) : (s.modSrv p g).usb = s.usb := (rfl)
@[simp] theorem State.modSrv_idu (s : State) (p : Fin 8) (g : Servo → Servo) : (s.modSrv p g).idu = s.idu := (rfl)
@[simp] theorem State.modSrv_alm (s : State) (p : Fin 8) (g : Servo → Servo) : (s.modSrv p g).alm = s.alm := (rfl)
@[simp] theorem State.modSrv_jtag (s : State) (p : Fin 8) (g : Servo → Servo) : (s.modSrv p g).jtag = s.jtag := (rfl)
@[simp] theorem State.modSrv_ae (s : State) (p : Fin 8) (g : Servo → Servo) : (s.modSrv p g).ae = s.ae := (rfl)
@[simp] theorem State.modSrv_ot (s : State) (p : Fin 8) (g : Servo → Servo) : (s.modSrv p g).ot = s.ot := (rfl)
@[simp] theorem State.modSrv_media (s : State) (p : Fin 8) (g : Servo → Servo) : (s.modSrv p g).media = s.media := (rfl)
@[simp] theorem State.modSrv_freeCtr (s : State) (p : Fin 8) (g : Servo → Servo) : (s.modSrv p g).freeCtr = s.freeCtr := (rfl)
@[simp] theorem State.modSrv_pending (s : State) (p : Fin 8) (g : Servo → Servo) : (s.modSrv p g).pending = s.pending := (rfl)

@[simp] theorem State.modCh_regs (s : State) (p : Fin 8) (g : Chan → Chan) : (s.modCh p g).regs = s.regs := (rfl)
@[simp] theorem State.modCh_mem (s : State) (p : Fin 8) (g : Chan → Chan) : (s.modCh p g).mem = s.mem := (rfl)
@[simp] theorem State.modCh_ecc (s : State) (p : Fin 8) (g : Chan → Chan) : (s.modCh p g).ecc = s.ecc := (rfl)
@[simp] theorem State.modCh_caps (s : State) (p : Fin 8) (g : Chan → Chan) : (s.modCh p g).caps = s.caps := (rfl)
@[simp] theorem State.modCh_rings (s : State) (p : Fin 8) (g : Chan → Chan) : (s.modCh p g).rings = s.rings := (rfl)
@[simp] theorem State.modCh_evc (s : State) (p : Fin 8) (g : Chan → Chan) : (s.modCh p g).evc = s.evc := (rfl)
@[simp] theorem State.modCh_pw (s : State) (p : Fin 8) (g : Chan → Chan) : (s.modCh p g).pw = s.pw := (rfl)
@[simp] theorem State.modCh_boot (s : State) (p : Fin 8) (g : Chan → Chan) : (s.modCh p g).boot = s.boot := (rfl)
@[simp] theorem State.modCh_core (s : State) (p : Fin 8) (g : Chan → Chan) : (s.modCh p g).core = s.core := (rfl)
@[simp] theorem State.modCh_dbg (s : State) (p : Fin 8) (g : Chan → Chan) : (s.modCh p g).dbg = s.dbg := (rfl)
@[simp] theorem State.modCh_io (s : State) (p : Fin 8) (g : Chan → Chan) : (s.modCh p g).io = s.io := (rfl)
@[simp] theorem State.modCh_lc (s : State) (p : Fin 8) (g : Chan → Chan) : (s.modCh p g).lc = s.lc := (rfl)
@[simp] theorem State.modCh_cip (s : State) (p : Fin 8) (g : Chan → Chan) : (s.modCh p g).cip = s.cip := (rfl)
@[simp] theorem State.modCh_bus (s : State) (p : Fin 8) (g : Chan → Chan) : (s.modCh p g).bus = s.bus := (rfl)
@[simp] theorem State.modCh_spn (s : State) (p : Fin 8) (g : Chan → Chan) : (s.modCh p g).spn = s.spn := (rfl)
@[simp] theorem State.modCh_die (s : State) (p : Fin 8) (g : Chan → Chan) : (s.modCh p g).die = s.die := (rfl)
@[simp] theorem State.modCh_srv (s : State) (p : Fin 8) (g : Chan → Chan) : (s.modCh p g).srv = s.srv := (rfl)
@[simp] theorem State.modCh_shockLow (s : State) (p : Fin 8) (g : Chan → Chan) : (s.modCh p g).shockLow = s.shockLow := (rfl)
@[simp] theorem State.modCh_fmtLast (s : State) (p : Fin 8) (g : Chan → Chan) : (s.modCh p g).fmtLast = s.fmtLast := (rfl)
@[simp] theorem State.modCh_mram (s : State) (p : Fin 8) (g : Chan → Chan) : (s.modCh p g).mram = s.mram := (rfl)
@[simp] theorem State.modCh_sce (s : State) (p : Fin 8) (g : Chan → Chan) : (s.modCh p g).sce = s.sce := (rfl)
@[simp] theorem State.modCh_fmt (s : State) (p : Fin 8) (g : Chan → Chan) : (s.modCh p g).fmt = s.fmt := (rfl)
@[simp] theorem State.modCh_memDue (s : State) (p : Fin 8) (g : Chan → Chan) : (s.modCh p g).memDue = s.memDue := (rfl)
@[simp] theorem State.modCh_hq (s : State) (p : Fin 8) (g : Chan → Chan) : (s.modCh p g).hq = s.hq := (rfl)
@[simp] theorem State.modCh_hp (s : State) (p : Fin 8) (g : Chan → Chan) : (s.modCh p g).hp = s.hp := (rfl)
@[simp] theorem State.modCh_nanoStage (s : State) (p : Fin 8) (g : Chan → Chan) : (s.modCh p g).nanoStage = s.nanoStage := (rfl)
@[simp] theorem State.modCh_usb (s : State) (p : Fin 8) (g : Chan → Chan) : (s.modCh p g).usb = s.usb := (rfl)
@[simp] theorem State.modCh_idu (s : State) (p : Fin 8) (g : Chan → Chan) : (s.modCh p g).idu = s.idu := (rfl)
@[simp] theorem State.modCh_alm (s : State) (p : Fin 8) (g : Chan → Chan) : (s.modCh p g).alm = s.alm := (rfl)
@[simp] theorem State.modCh_jtag (s : State) (p : Fin 8) (g : Chan → Chan) : (s.modCh p g).jtag = s.jtag := (rfl)
@[simp] theorem State.modCh_ae (s : State) (p : Fin 8) (g : Chan → Chan) : (s.modCh p g).ae = s.ae := (rfl)
@[simp] theorem State.modCh_ot (s : State) (p : Fin 8) (g : Chan → Chan) : (s.modCh p g).ot = s.ot := (rfl)
@[simp] theorem State.modCh_media (s : State) (p : Fin 8) (g : Chan → Chan) : (s.modCh p g).media = s.media := (rfl)
@[simp] theorem State.modCh_freeCtr (s : State) (p : Fin 8) (g : Chan → Chan) : (s.modCh p g).freeCtr = s.freeCtr := (rfl)
@[simp] theorem State.modCh_pending (s : State) (p : Fin 8) (g : Chan → Chan) : (s.modCh p g).pending = s.pending := (rfl)

@[simp] theorem State.modFmt_regs (s : State) (p : Fin 8) (g : FmtCtx → FmtCtx) : (s.modFmt p g).regs = s.regs := (rfl)
@[simp] theorem State.modFmt_mem (s : State) (p : Fin 8) (g : FmtCtx → FmtCtx) : (s.modFmt p g).mem = s.mem := (rfl)
@[simp] theorem State.modFmt_ecc (s : State) (p : Fin 8) (g : FmtCtx → FmtCtx) : (s.modFmt p g).ecc = s.ecc := (rfl)
@[simp] theorem State.modFmt_caps (s : State) (p : Fin 8) (g : FmtCtx → FmtCtx) : (s.modFmt p g).caps = s.caps := (rfl)
@[simp] theorem State.modFmt_rings (s : State) (p : Fin 8) (g : FmtCtx → FmtCtx) : (s.modFmt p g).rings = s.rings := (rfl)
@[simp] theorem State.modFmt_evc (s : State) (p : Fin 8) (g : FmtCtx → FmtCtx) : (s.modFmt p g).evc = s.evc := (rfl)
@[simp] theorem State.modFmt_pw (s : State) (p : Fin 8) (g : FmtCtx → FmtCtx) : (s.modFmt p g).pw = s.pw := (rfl)
@[simp] theorem State.modFmt_boot (s : State) (p : Fin 8) (g : FmtCtx → FmtCtx) : (s.modFmt p g).boot = s.boot := (rfl)
@[simp] theorem State.modFmt_core (s : State) (p : Fin 8) (g : FmtCtx → FmtCtx) : (s.modFmt p g).core = s.core := (rfl)
@[simp] theorem State.modFmt_dbg (s : State) (p : Fin 8) (g : FmtCtx → FmtCtx) : (s.modFmt p g).dbg = s.dbg := (rfl)
@[simp] theorem State.modFmt_io (s : State) (p : Fin 8) (g : FmtCtx → FmtCtx) : (s.modFmt p g).io = s.io := (rfl)
@[simp] theorem State.modFmt_lc (s : State) (p : Fin 8) (g : FmtCtx → FmtCtx) : (s.modFmt p g).lc = s.lc := (rfl)
@[simp] theorem State.modFmt_cip (s : State) (p : Fin 8) (g : FmtCtx → FmtCtx) : (s.modFmt p g).cip = s.cip := (rfl)
@[simp] theorem State.modFmt_bus (s : State) (p : Fin 8) (g : FmtCtx → FmtCtx) : (s.modFmt p g).bus = s.bus := (rfl)
@[simp] theorem State.modFmt_spn (s : State) (p : Fin 8) (g : FmtCtx → FmtCtx) : (s.modFmt p g).spn = s.spn := (rfl)
@[simp] theorem State.modFmt_die (s : State) (p : Fin 8) (g : FmtCtx → FmtCtx) : (s.modFmt p g).die = s.die := (rfl)
@[simp] theorem State.modFmt_srv (s : State) (p : Fin 8) (g : FmtCtx → FmtCtx) : (s.modFmt p g).srv = s.srv := (rfl)
@[simp] theorem State.modFmt_shockLow (s : State) (p : Fin 8) (g : FmtCtx → FmtCtx) : (s.modFmt p g).shockLow = s.shockLow := (rfl)
@[simp] theorem State.modFmt_fmtLast (s : State) (p : Fin 8) (g : FmtCtx → FmtCtx) : (s.modFmt p g).fmtLast = s.fmtLast := (rfl)
@[simp] theorem State.modFmt_mram (s : State) (p : Fin 8) (g : FmtCtx → FmtCtx) : (s.modFmt p g).mram = s.mram := (rfl)
@[simp] theorem State.modFmt_sce (s : State) (p : Fin 8) (g : FmtCtx → FmtCtx) : (s.modFmt p g).sce = s.sce := (rfl)
@[simp] theorem State.modFmt_ch (s : State) (p : Fin 8) (g : FmtCtx → FmtCtx) : (s.modFmt p g).ch = s.ch := (rfl)
@[simp] theorem State.modFmt_memDue (s : State) (p : Fin 8) (g : FmtCtx → FmtCtx) : (s.modFmt p g).memDue = s.memDue := (rfl)
@[simp] theorem State.modFmt_hq (s : State) (p : Fin 8) (g : FmtCtx → FmtCtx) : (s.modFmt p g).hq = s.hq := (rfl)
@[simp] theorem State.modFmt_hp (s : State) (p : Fin 8) (g : FmtCtx → FmtCtx) : (s.modFmt p g).hp = s.hp := (rfl)
@[simp] theorem State.modFmt_nanoStage (s : State) (p : Fin 8) (g : FmtCtx → FmtCtx) : (s.modFmt p g).nanoStage = s.nanoStage := (rfl)
@[simp] theorem State.modFmt_usb (s : State) (p : Fin 8) (g : FmtCtx → FmtCtx) : (s.modFmt p g).usb = s.usb := (rfl)
@[simp] theorem State.modFmt_idu (s : State) (p : Fin 8) (g : FmtCtx → FmtCtx) : (s.modFmt p g).idu = s.idu := (rfl)
@[simp] theorem State.modFmt_alm (s : State) (p : Fin 8) (g : FmtCtx → FmtCtx) : (s.modFmt p g).alm = s.alm := (rfl)
@[simp] theorem State.modFmt_jtag (s : State) (p : Fin 8) (g : FmtCtx → FmtCtx) : (s.modFmt p g).jtag = s.jtag := (rfl)
@[simp] theorem State.modFmt_ae (s : State) (p : Fin 8) (g : FmtCtx → FmtCtx) : (s.modFmt p g).ae = s.ae := (rfl)
@[simp] theorem State.modFmt_ot (s : State) (p : Fin 8) (g : FmtCtx → FmtCtx) : (s.modFmt p g).ot = s.ot := (rfl)
@[simp] theorem State.modFmt_media (s : State) (p : Fin 8) (g : FmtCtx → FmtCtx) : (s.modFmt p g).media = s.media := (rfl)
@[simp] theorem State.modFmt_freeCtr (s : State) (p : Fin 8) (g : FmtCtx → FmtCtx) : (s.modFmt p g).freeCtr = s.freeCtr := (rfl)
@[simp] theorem State.modFmt_pending (s : State) (p : Fin 8) (g : FmtCtx → FmtCtx) : (s.modFmt p g).pending = s.pending := (rfl)

@[simp] theorem State.modCore_regs (s : State) (p : Fin 2) (g : CoreSt → CoreSt) : (s.modCore p g).regs = s.regs := (rfl)
@[simp] theorem State.modCore_mem (s : State) (p : Fin 2) (g : CoreSt → CoreSt) : (s.modCore p g).mem = s.mem := (rfl)
@[simp] theorem State.modCore_ecc (s : State) (p : Fin 2) (g : CoreSt → CoreSt) : (s.modCore p g).ecc = s.ecc := (rfl)
@[simp] theorem State.modCore_caps (s : State) (p : Fin 2) (g : CoreSt → CoreSt) : (s.modCore p g).caps = s.caps := (rfl)
@[simp] theorem State.modCore_rings (s : State) (p : Fin 2) (g : CoreSt → CoreSt) : (s.modCore p g).rings = s.rings := (rfl)
@[simp] theorem State.modCore_evc (s : State) (p : Fin 2) (g : CoreSt → CoreSt) : (s.modCore p g).evc = s.evc := (rfl)
@[simp] theorem State.modCore_pw (s : State) (p : Fin 2) (g : CoreSt → CoreSt) : (s.modCore p g).pw = s.pw := (rfl)
@[simp] theorem State.modCore_boot (s : State) (p : Fin 2) (g : CoreSt → CoreSt) : (s.modCore p g).boot = s.boot := (rfl)
@[simp] theorem State.modCore_dbg (s : State) (p : Fin 2) (g : CoreSt → CoreSt) : (s.modCore p g).dbg = s.dbg := (rfl)
@[simp] theorem State.modCore_io (s : State) (p : Fin 2) (g : CoreSt → CoreSt) : (s.modCore p g).io = s.io := (rfl)
@[simp] theorem State.modCore_lc (s : State) (p : Fin 2) (g : CoreSt → CoreSt) : (s.modCore p g).lc = s.lc := (rfl)
@[simp] theorem State.modCore_cip (s : State) (p : Fin 2) (g : CoreSt → CoreSt) : (s.modCore p g).cip = s.cip := (rfl)
@[simp] theorem State.modCore_bus (s : State) (p : Fin 2) (g : CoreSt → CoreSt) : (s.modCore p g).bus = s.bus := (rfl)
@[simp] theorem State.modCore_spn (s : State) (p : Fin 2) (g : CoreSt → CoreSt) : (s.modCore p g).spn = s.spn := (rfl)
@[simp] theorem State.modCore_die (s : State) (p : Fin 2) (g : CoreSt → CoreSt) : (s.modCore p g).die = s.die := (rfl)
@[simp] theorem State.modCore_srv (s : State) (p : Fin 2) (g : CoreSt → CoreSt) : (s.modCore p g).srv = s.srv := (rfl)
@[simp] theorem State.modCore_shockLow (s : State) (p : Fin 2) (g : CoreSt → CoreSt) : (s.modCore p g).shockLow = s.shockLow := (rfl)
@[simp] theorem State.modCore_fmtLast (s : State) (p : Fin 2) (g : CoreSt → CoreSt) : (s.modCore p g).fmtLast = s.fmtLast := (rfl)
@[simp] theorem State.modCore_mram (s : State) (p : Fin 2) (g : CoreSt → CoreSt) : (s.modCore p g).mram = s.mram := (rfl)
@[simp] theorem State.modCore_sce (s : State) (p : Fin 2) (g : CoreSt → CoreSt) : (s.modCore p g).sce = s.sce := (rfl)
@[simp] theorem State.modCore_ch (s : State) (p : Fin 2) (g : CoreSt → CoreSt) : (s.modCore p g).ch = s.ch := (rfl)
@[simp] theorem State.modCore_fmt (s : State) (p : Fin 2) (g : CoreSt → CoreSt) : (s.modCore p g).fmt = s.fmt := (rfl)
@[simp] theorem State.modCore_memDue (s : State) (p : Fin 2) (g : CoreSt → CoreSt) : (s.modCore p g).memDue = s.memDue := (rfl)
@[simp] theorem State.modCore_hq (s : State) (p : Fin 2) (g : CoreSt → CoreSt) : (s.modCore p g).hq = s.hq := (rfl)
@[simp] theorem State.modCore_hp (s : State) (p : Fin 2) (g : CoreSt → CoreSt) : (s.modCore p g).hp = s.hp := (rfl)
@[simp] theorem State.modCore_nanoStage (s : State) (p : Fin 2) (g : CoreSt → CoreSt) : (s.modCore p g).nanoStage = s.nanoStage := (rfl)
@[simp] theorem State.modCore_usb (s : State) (p : Fin 2) (g : CoreSt → CoreSt) : (s.modCore p g).usb = s.usb := (rfl)
@[simp] theorem State.modCore_idu (s : State) (p : Fin 2) (g : CoreSt → CoreSt) : (s.modCore p g).idu = s.idu := (rfl)
@[simp] theorem State.modCore_alm (s : State) (p : Fin 2) (g : CoreSt → CoreSt) : (s.modCore p g).alm = s.alm := (rfl)
@[simp] theorem State.modCore_jtag (s : State) (p : Fin 2) (g : CoreSt → CoreSt) : (s.modCore p g).jtag = s.jtag := (rfl)
@[simp] theorem State.modCore_ae (s : State) (p : Fin 2) (g : CoreSt → CoreSt) : (s.modCore p g).ae = s.ae := (rfl)
@[simp] theorem State.modCore_ot (s : State) (p : Fin 2) (g : CoreSt → CoreSt) : (s.modCore p g).ot = s.ot := (rfl)
@[simp] theorem State.modCore_media (s : State) (p : Fin 2) (g : CoreSt → CoreSt) : (s.modCore p g).media = s.media := (rfl)
@[simp] theorem State.modCore_freeCtr (s : State) (p : Fin 2) (g : CoreSt → CoreSt) : (s.modCore p g).freeCtr = s.freeCtr := (rfl)
@[simp] theorem State.modCore_pending (s : State) (p : Fin 2) (g : CoreSt → CoreSt) : (s.modCore p g).pending = s.pending := (rfl)

@[simp] theorem State.modCtx_regs (s : State) (c : Fin 24) (g : SceCtx → SceCtx) : (s.modCtx c g).regs = s.regs := (rfl)
@[simp] theorem State.modCtx_mem (s : State) (c : Fin 24) (g : SceCtx → SceCtx) : (s.modCtx c g).mem = s.mem := (rfl)
@[simp] theorem State.modCtx_ecc (s : State) (c : Fin 24) (g : SceCtx → SceCtx) : (s.modCtx c g).ecc = s.ecc := (rfl)
@[simp] theorem State.modCtx_caps (s : State) (c : Fin 24) (g : SceCtx → SceCtx) : (s.modCtx c g).caps = s.caps := (rfl)
@[simp] theorem State.modCtx_rings (s : State) (c : Fin 24) (g : SceCtx → SceCtx) : (s.modCtx c g).rings = s.rings := (rfl)
@[simp] theorem State.modCtx_evc (s : State) (c : Fin 24) (g : SceCtx → SceCtx) : (s.modCtx c g).evc = s.evc := (rfl)
@[simp] theorem State.modCtx_pw (s : State) (c : Fin 24) (g : SceCtx → SceCtx) : (s.modCtx c g).pw = s.pw := (rfl)
@[simp] theorem State.modCtx_boot (s : State) (c : Fin 24) (g : SceCtx → SceCtx) : (s.modCtx c g).boot = s.boot := (rfl)
@[simp] theorem State.modCtx_core (s : State) (c : Fin 24) (g : SceCtx → SceCtx) : (s.modCtx c g).core = s.core := (rfl)
@[simp] theorem State.modCtx_dbg (s : State) (c : Fin 24) (g : SceCtx → SceCtx) : (s.modCtx c g).dbg = s.dbg := (rfl)
@[simp] theorem State.modCtx_io (s : State) (c : Fin 24) (g : SceCtx → SceCtx) : (s.modCtx c g).io = s.io := (rfl)
@[simp] theorem State.modCtx_lc (s : State) (c : Fin 24) (g : SceCtx → SceCtx) : (s.modCtx c g).lc = s.lc := (rfl)
@[simp] theorem State.modCtx_cip (s : State) (c : Fin 24) (g : SceCtx → SceCtx) : (s.modCtx c g).cip = s.cip := (rfl)
@[simp] theorem State.modCtx_bus (s : State) (c : Fin 24) (g : SceCtx → SceCtx) : (s.modCtx c g).bus = s.bus := (rfl)
@[simp] theorem State.modCtx_spn (s : State) (c : Fin 24) (g : SceCtx → SceCtx) : (s.modCtx c g).spn = s.spn := (rfl)
@[simp] theorem State.modCtx_die (s : State) (c : Fin 24) (g : SceCtx → SceCtx) : (s.modCtx c g).die = s.die := (rfl)
@[simp] theorem State.modCtx_srv (s : State) (c : Fin 24) (g : SceCtx → SceCtx) : (s.modCtx c g).srv = s.srv := (rfl)
@[simp] theorem State.modCtx_shockLow (s : State) (c : Fin 24) (g : SceCtx → SceCtx) : (s.modCtx c g).shockLow = s.shockLow := (rfl)
@[simp] theorem State.modCtx_fmtLast (s : State) (c : Fin 24) (g : SceCtx → SceCtx) : (s.modCtx c g).fmtLast = s.fmtLast := (rfl)
@[simp] theorem State.modCtx_mram (s : State) (c : Fin 24) (g : SceCtx → SceCtx) : (s.modCtx c g).mram = s.mram := (rfl)
@[simp] theorem State.modCtx_ch (s : State) (c : Fin 24) (g : SceCtx → SceCtx) : (s.modCtx c g).ch = s.ch := (rfl)
@[simp] theorem State.modCtx_fmt (s : State) (c : Fin 24) (g : SceCtx → SceCtx) : (s.modCtx c g).fmt = s.fmt := (rfl)
@[simp] theorem State.modCtx_memDue (s : State) (c : Fin 24) (g : SceCtx → SceCtx) : (s.modCtx c g).memDue = s.memDue := (rfl)
@[simp] theorem State.modCtx_hq (s : State) (c : Fin 24) (g : SceCtx → SceCtx) : (s.modCtx c g).hq = s.hq := (rfl)
@[simp] theorem State.modCtx_hp (s : State) (c : Fin 24) (g : SceCtx → SceCtx) : (s.modCtx c g).hp = s.hp := (rfl)
@[simp] theorem State.modCtx_nanoStage (s : State) (c : Fin 24) (g : SceCtx → SceCtx) : (s.modCtx c g).nanoStage = s.nanoStage := (rfl)
@[simp] theorem State.modCtx_usb (s : State) (c : Fin 24) (g : SceCtx → SceCtx) : (s.modCtx c g).usb = s.usb := (rfl)
@[simp] theorem State.modCtx_idu (s : State) (c : Fin 24) (g : SceCtx → SceCtx) : (s.modCtx c g).idu = s.idu := (rfl)
@[simp] theorem State.modCtx_alm (s : State) (c : Fin 24) (g : SceCtx → SceCtx) : (s.modCtx c g).alm = s.alm := (rfl)
@[simp] theorem State.modCtx_jtag (s : State) (c : Fin 24) (g : SceCtx → SceCtx) : (s.modCtx c g).jtag = s.jtag := (rfl)
@[simp] theorem State.modCtx_ae (s : State) (c : Fin 24) (g : SceCtx → SceCtx) : (s.modCtx c g).ae = s.ae := (rfl)
@[simp] theorem State.modCtx_ot (s : State) (c : Fin 24) (g : SceCtx → SceCtx) : (s.modCtx c g).ot = s.ot := (rfl)
@[simp] theorem State.modCtx_media (s : State) (c : Fin 24) (g : SceCtx → SceCtx) : (s.modCtx c g).media = s.media := (rfl)
@[simp] theorem State.modCtx_freeCtr (s : State) (c : Fin 24) (g : SceCtx → SceCtx) : (s.modCtx c g).freeCtr = s.freeCtr := (rfl)
@[simp] theorem State.modCtx_pending (s : State) (c : Fin 24) (g : SceCtx → SceCtx) : (s.modCtx c g).pending = s.pending := (rfl)

/-- A wake event outside ACTIVE changes two registers, the power state and the cores' WFI alone. -/
theorem State.ringsWake_eq (s : State) (n : Nat) (b : Bool) : s.ringsWake n b =
    { s with regs := (s.ringsWake n b).regs, pw := (s.ringsWake n b).pw, core := (s.ringsWake n b).core } := by
  unfold State.ringsWake
  split
  · rfl
  · dsimp only
    split
    · split
      · unfold State.leaveIdle; split <;> rfl
      all_goals rfl
    · rfl

/-- While the part is ACTIVE the Event Controller alone is settled. -/
theorem settleEvc_awake (s : State) (h : s.awake = true) : settleEvc s = { s with evc := (settleEvc s).evc } := by
  unfold settleEvc
  dsimp only
  split
  · rfl
  · have h' : s.evcSync.awake = true := h
    unfold State.ringsWake
    rw [if_pos (by simp only [Bool.or_eq_true]; exact Or.inl h)]
    rfl

/-- What the end of a command changes: the Event Controller, the last store to MRAM, and outside ACTIVE what a wake event
changes. -/
theorem settle_eq (s : State) : settle s =
    { s with evc := (settle s).evc, mram := { last := s.mram.now }, regs := (settle s).regs, pw := (settle s).pw
             core := (settle s).core } := by
  unfold settle State.mramSync settleEvc
  dsimp only
  split
  · rfl
  · rw [State.ringsWake_eq]; rfl

/-- What the end of a command changes while the part is ACTIVE. -/
theorem settle_awake (s : State) (h : s.awake = true) :
    settle s = { s with evc := (settle s).evc, mram := { last := s.mram.now } } := by
  unfold settle State.mramSync
  rw [settleEvc_awake s h]

theorem settle_regs (s : State) (h : s.awake = true) : (settle s).regs = s.regs := by rw [settle_awake s h]
@[simp] theorem settle_mem (s : State) : (settle s).mem = s.mem := by rw [settle_eq s]
@[simp] theorem settle_ecc (s : State) : (settle s).ecc = s.ecc := by rw [settle_eq s]
@[simp] theorem settle_caps (s : State) : (settle s).caps = s.caps := by rw [settle_eq s]
@[simp] theorem settle_rings (s : State) : (settle s).rings = s.rings := by rw [settle_eq s]
theorem settle_pw (s : State) (h : s.awake = true) : (settle s).pw = s.pw := by rw [settle_awake s h]
@[simp] theorem settle_boot (s : State) : (settle s).boot = s.boot := by rw [settle_eq s]
theorem settle_core (s : State) (h : s.awake = true) : (settle s).core = s.core := by rw [settle_awake s h]
@[simp] theorem settle_dbg (s : State) : (settle s).dbg = s.dbg := by rw [settle_eq s]
@[simp] theorem settle_io (s : State) : (settle s).io = s.io := by rw [settle_eq s]
@[simp] theorem settle_lc (s : State) : (settle s).lc = s.lc := by rw [settle_eq s]
@[simp] theorem settle_cip (s : State) : (settle s).cip = s.cip := by rw [settle_eq s]
@[simp] theorem settle_bus (s : State) : (settle s).bus = s.bus := by rw [settle_eq s]
@[simp] theorem settle_spn (s : State) : (settle s).spn = s.spn := by rw [settle_eq s]
@[simp] theorem settle_die (s : State) : (settle s).die = s.die := by rw [settle_eq s]
@[simp] theorem settle_srv (s : State) : (settle s).srv = s.srv := by rw [settle_eq s]
@[simp] theorem settle_shockLow (s : State) : (settle s).shockLow = s.shockLow := by rw [settle_eq s]
@[simp] theorem settle_fmtLast (s : State) : (settle s).fmtLast = s.fmtLast := by rw [settle_eq s]
@[simp] theorem settle_mram (s : State) : (settle s).mram = { last := s.mram.now } := by rw [settle_eq s]
@[simp] theorem settle_sce (s : State) : (settle s).sce = s.sce := by rw [settle_eq s]
@[simp] theorem settle_ch (s : State) : (settle s).ch = s.ch := by rw [settle_eq s]
@[simp] theorem settle_fmt (s : State) : (settle s).fmt = s.fmt := by rw [settle_eq s]
@[simp] theorem settle_memDue (s : State) : (settle s).memDue = s.memDue := by rw [settle_eq s]
@[simp] theorem settle_hq (s : State) : (settle s).hq = s.hq := by rw [settle_eq s]
@[simp] theorem settle_hp (s : State) : (settle s).hp = s.hp := by rw [settle_eq s]
@[simp] theorem settle_nanoStage (s : State) : (settle s).nanoStage = s.nanoStage := by rw [settle_eq s]
@[simp] theorem settle_usb (s : State) : (settle s).usb = s.usb := by rw [settle_eq s]
@[simp] theorem settle_idu (s : State) : (settle s).idu = s.idu := by rw [settle_eq s]
@[simp] theorem settle_alm (s : State) : (settle s).alm = s.alm := by rw [settle_eq s]
@[simp] theorem settle_jtag (s : State) : (settle s).jtag = s.jtag := by rw [settle_eq s]
@[simp] theorem settle_ae (s : State) : (settle s).ae = s.ae := by rw [settle_eq s]
@[simp] theorem settle_ot (s : State) : (settle s).ot = s.ot := by rw [settle_eq s]
@[simp] theorem settle_media (s : State) : (settle s).media = s.media := by rw [settle_eq s]
@[simp] theorem settle_freeCtr (s : State) : (settle s).freeCtr = s.freeCtr := by rw [settle_eq s]
@[simp] theorem settle_pending (s : State) : (settle s).pending = s.pending := by rw [settle_eq s]

@[simp] theorem pulse_regs (n : Nat) (s : State) : (pulse n s).regs = s.regs := by
  unfold pulse; split <;> (try split) <;> rfl
@[simp] theorem pulse_mem (n : Nat) (s : State) : (pulse n s).mem = s.mem := by
  unfold pulse; split <;> (try split) <;> rfl
@[simp] theorem pulse_ecc (n : Nat) (s : State) : (pulse n s).ecc = s.ecc := by
  unfold pulse; split <;> (try split) <;> rfl
@[simp] theorem pulse_caps (n : Nat) (s : State) : (pulse n s).caps = s.caps := by
  unfold pulse; split <;> (try split) <;> rfl
@[simp] theorem pulse_rings (n : Nat) (s : State) : (pulse n s).rings = s.rings := by
  unfold pulse; split <;> (try split) <;> rfl
@[simp] theorem pulse_pw (n : Nat) (s : State) : (pulse n s).pw = s.pw := by
  unfold pulse; split <;> (try split) <;> rfl
@[simp] theorem pulse_boot (n : Nat) (s : State) : (pulse n s).boot = s.boot := by
  unfold pulse; split <;> (try split) <;> rfl
@[simp] theorem pulse_core (n : Nat) (s : State) : (pulse n s).core = s.core := by
  unfold pulse; split <;> (try split) <;> rfl
@[simp] theorem pulse_dbg (n : Nat) (s : State) : (pulse n s).dbg = s.dbg := by
  unfold pulse; split <;> (try split) <;> rfl
@[simp] theorem pulse_io (n : Nat) (s : State) : (pulse n s).io = s.io := by
  unfold pulse; split <;> (try split) <;> rfl
@[simp] theorem pulse_lc (n : Nat) (s : State) : (pulse n s).lc = s.lc := by
  unfold pulse; split <;> (try split) <;> rfl
@[simp] theorem pulse_cip (n : Nat) (s : State) : (pulse n s).cip = s.cip := by
  unfold pulse; split <;> (try split) <;> rfl
@[simp] theorem pulse_bus (n : Nat) (s : State) : (pulse n s).bus = s.bus := by
  unfold pulse; split <;> (try split) <;> rfl
@[simp] theorem pulse_spn (n : Nat) (s : State) : (pulse n s).spn = s.spn := by
  unfold pulse; split <;> (try split) <;> rfl
@[simp] theorem pulse_die (n : Nat) (s : State) : (pulse n s).die = s.die := by
  unfold pulse; split <;> (try split) <;> rfl
@[simp] theorem pulse_srv (n : Nat) (s : State) : (pulse n s).srv = s.srv := by
  unfold pulse; split <;> (try split) <;> rfl
@[simp] theorem pulse_shockLow (n : Nat) (s : State) : (pulse n s).shockLow = s.shockLow := by
  unfold pulse; split <;> (try split) <;> rfl
@[simp] theorem pulse_fmtLast (n : Nat) (s : State) : (pulse n s).fmtLast = s.fmtLast := by
  unfold pulse; split <;> (try split) <;> rfl
@[simp] theorem pulse_mram (n : Nat) (s : State) : (pulse n s).mram = s.mram := by
  unfold pulse; split <;> (try split) <;> rfl
@[simp] theorem pulse_sce (n : Nat) (s : State) : (pulse n s).sce = s.sce := by
  unfold pulse; split <;> (try split) <;> rfl
@[simp] theorem pulse_ch (n : Nat) (s : State) : (pulse n s).ch = s.ch := by
  unfold pulse; split <;> (try split) <;> rfl
@[simp] theorem pulse_fmt (n : Nat) (s : State) : (pulse n s).fmt = s.fmt := by
  unfold pulse; split <;> (try split) <;> rfl
@[simp] theorem pulse_memDue (n : Nat) (s : State) : (pulse n s).memDue = s.memDue := by
  unfold pulse; split <;> (try split) <;> rfl
@[simp] theorem pulse_hq (n : Nat) (s : State) : (pulse n s).hq = s.hq := by
  unfold pulse; split <;> (try split) <;> rfl
@[simp] theorem pulse_hp (n : Nat) (s : State) : (pulse n s).hp = s.hp := by
  unfold pulse; split <;> (try split) <;> rfl
@[simp] theorem pulse_nanoStage (n : Nat) (s : State) : (pulse n s).nanoStage = s.nanoStage := by
  unfold pulse; split <;> (try split) <;> rfl
@[simp] theorem pulse_usb (n : Nat) (s : State) : (pulse n s).usb = s.usb := by
  unfold pulse; split <;> (try split) <;> rfl
@[simp] theorem pulse_idu (n : Nat) (s : State) : (pulse n s).idu = s.idu := by
  unfold pulse; split <;> (try split) <;> rfl
@[simp] theorem pulse_alm (n : Nat) (s : State) : (pulse n s).alm = s.alm := by
  unfold pulse; split <;> (try split) <;> rfl
@[simp] theorem pulse_jtag (n : Nat) (s : State) : (pulse n s).jtag = s.jtag := by
  unfold pulse; split <;> (try split) <;> rfl
@[simp] theorem pulse_ae (n : Nat) (s : State) : (pulse n s).ae = s.ae := by
  unfold pulse; split <;> (try split) <;> rfl
@[simp] theorem pulse_ot (n : Nat) (s : State) : (pulse n s).ot = s.ot := by
  unfold pulse; split <;> (try split) <;> rfl
@[simp] theorem pulse_media (n : Nat) (s : State) : (pulse n s).media = s.media := by
  unfold pulse; split <;> (try split) <;> rfl
@[simp] theorem pulse_freeCtr (n : Nat) (s : State) : (pulse n s).freeCtr = s.freeCtr := by
  unfold pulse; split <;> (try split) <;> rfl
@[simp] theorem pulse_pending (n : Nat) (s : State) : (pulse n s).pending = s.pending := by
  unfold pulse; split <;> (try split) <;> rfl

@[simp] theorem State.modPw_pw (s : State) (g : Power → Power) : (s.modPw g).pw = g s.pw := (rfl)
@[simp] theorem State.modBoot_boot (s : State) (g : Boot → Boot) : (s.modBoot g).boot = g s.boot := (rfl)
@[simp] theorem State.modIo_io (s : State) (g : Io → Io) : (s.modIo g).io = g s.io := (rfl)
@[simp] theorem State.modDbg_dbg (s : State) (g : Dbg → Dbg) : (s.modDbg g).dbg = g s.dbg := (rfl)
@[simp] theorem State.modCip_cip (s : State) (g : Cipher → Cipher) : (s.modCip g).cip = g s.cip := (rfl)
@[simp] theorem State.modHq_hq (s : State) (g : Hqe → Hqe) : (s.modHq g).hq = g s.hq := (rfl)
@[simp] theorem State.modHp_hp (s : State) (g : HostPort → HostPort) : (s.modHp g).hp = g s.hp := (rfl)
@[simp] theorem State.modUsb_usb (s : State) (g : Usb → Usb) : (s.modUsb g).usb = g s.usb := (rfl)
@[simp] theorem State.modIdu_idu (s : State) (g : IduPool → IduPool) : (s.modIdu g).idu = g s.idu := (rfl)
@[simp] theorem State.modAlm_alm (s : State) (g : Alm → Alm) : (s.modAlm g).alm = g s.alm := (rfl)
@[simp] theorem State.modJtag_jtag (s : State) (g : Jtag → Jtag) : (s.modJtag g).jtag = g s.jtag := (rfl)
@[simp] theorem State.modAe_ae (s : State) (g : Ae → Ae) : (s.modAe g).ae = g s.ae := (rfl)
@[simp] theorem State.modOt_ot (s : State) (g : Otivo → Otivo) : (s.modOt g).ot = g s.ot := (rfl)
@[simp] theorem State.modSpn_spn (s : State) (p : Fin 8) (g : Spindle → Spindle) : (s.modSpn p g).spn = vmod s.spn p g := (rfl)
@[simp] theorem State.modSrv_srv (s : State) (p : Fin 8) (g : Servo → Servo) : (s.modSrv p g).srv = vmod s.srv p g := (rfl)
@[simp] theorem State.modCh_ch (s : State) (p : Fin 8) (g : Chan → Chan) : (s.modCh p g).ch = vmod s.ch p g := (rfl)
@[simp] theorem State.modFmt_fmt (s : State) (p : Fin 8) (g : FmtCtx → FmtCtx) : (s.modFmt p g).fmt = vmod s.fmt p g := (rfl)
@[simp] theorem State.modCore_core (s : State) (p : Fin 2) (g : CoreSt → CoreSt) : (s.modCore p g).core = vmod s.core p g := (rfl)

end Sys2Proof.Machine
end

