-- ==== Sys2Proof/Laws/Ops.lean ====
section
/-! SUPPORT. The laws of the named operations: a field after a write, memory after a write and its canonical form, the event
inputs after settle. -/

namespace Sys2Proof.Machine
open Sys2Proof

/-! ## Registers -/

/-- A register after a write of one: the word written there, every other as before. -/
theorem State.reg_setReg (s : State) (a b : Nat) (v : Word) :
    (s.setReg a v).reg b = if b = a then v else s.reg b := by
  simp [State.reg, State.setReg, smGet_smSet]

@[simp] theorem State.reg_setReg_same (s : State) (a : Nat) (v : Word) : (s.setReg a v).reg a = v := by
  simp [State.reg_setReg]

theorem State.reg_setReg_ne (s : State) (a b : Nat) (v : Word) (h : b ≠ a) : (s.setReg a v).reg b = s.reg b := by
  simp [State.reg_setReg, h]

/-- A register after a write of a field of it or of another. -/
theorem State.reg_wr (s : State) (f : Fld) (v b : Nat) :
    (s.wr f v).reg b = if b = f.addr then putF (s.reg f.addr) f.lo f.w v else s.reg b := State.reg_setReg ..

theorem State.reg_wr_ne (s : State) (f : Fld) (v b : Nat) (h : b ≠ f.addr) : (s.wr f v).reg b = s.reg b := by
  simp [State.reg_wr, h]

/-- A bit of a word with a field replaced. -/
theorem getLsbD_putF (w : Word) (lo n v i : Nat) (hi : i < 32) :
    (putF w lo n v).getLsbD i = if lo ≤ i ∧ i < lo + n then v.testBit (i - lo) else w.getLsbD i := by
  unfold putF
  simp only [BitVec.getLsbD_or, BitVec.getLsbD_and, BitVec.getLsbD_not, BitVec.getLsbD_shiftLeft,
    BitVec.getLsbD_setWidth, BitVec.getLsbD_allOnes, BitVec.getLsbD_ofNat]
  by_cases h1 : i < lo
  · have : ¬ lo ≤ i := by omega
    simp [h1, this, hi]
  · have hlo : lo ≤ i := by omega
    have h32 : i - lo < 32 := by omega
    by_cases h2 : i < lo + n
    · have : i - lo < n := by omega
      simp [h1, hlo, h2, hi, h32, this]
    · have : ¬ i - lo < n := by omega
      simp [h1, hlo, h2, hi, h32, this]

/-- A bit of a field. -/
theorem testBit_getF (w : Word) (lo n i : Nat) : (getF w lo n).testBit i = (decide (i < n) && w.getLsbD (lo + i)) := by
  simp [getF, BitVec.getLsbD]

/-- A field reads what was written to it. -/
theorem getF_putF (w : Word) (lo n v : Nat) (h : lo + n ≤ 32) : getF (putF w lo n v) lo n = v % 2 ^ n := by
  apply Nat.eq_of_testBit_eq
  intro i
  rw [testBit_getF, Nat.testBit_mod_two_pow]
  by_cases hi : i < n
  · rw [getLsbD_putF _ _ _ _ _ (by omega)]
    have : lo ≤ lo + i ∧ lo + i < lo + n := by omega
    simp [hi]
  · simp [hi]

/-- A field beside the one written reads as before. -/
theorem getF_putF_of_disjoint (w : Word) (lo n v lo' n' : Nat) (h : lo' + n' ≤ lo ∨ lo + n ≤ lo') (h' : lo' + n' ≤ 32) :
    getF (putF w lo n v) lo' n' = getF w lo' n' := by
  apply Nat.eq_of_testBit_eq
  intro i
  rw [testBit_getF, testBit_getF]
  by_cases hi : i < n'
  · rw [getLsbD_putF _ _ _ _ _ (by omega)]
    have : ¬ (lo ≤ lo' + i ∧ lo' + i < lo + n) := by omega
    simp [this]
  · simp [hi]

theorem getF_lt (w : Word) (lo n : Nat) : getF w lo n < 2 ^ n := by
  simpa [getF] using (w.extractLsb' lo n).isLt

theorem State.rd_lt (s : State) (f : Fld) : s.rd f < 2 ^ f.w := getF_lt ..

/-- A field after its write. -/
theorem State.rd_wr (s : State) (f : Fld) (v : Nat) (h : f.lo + f.w ≤ 32) : (s.wr f v).rd f = v % 2 ^ f.w := by
  simp [State.rd, State.reg_wr, getF_putF _ _ _ _ h]

/-- A field of another register after a write. -/
theorem State.rd_wr_addr (s : State) (f g : Fld) (v : Nat) (h : g.addr ≠ f.addr) : (s.wr f v).rd g = s.rd g := by
  simp [State.rd, State.reg_wr, h]

/-- Another field of the same register after a write. -/
theorem State.rd_wr_bits (s : State) (f g : Fld) (v : Nat) (h : g.lo + g.w ≤ f.lo ∨ f.lo + f.w ≤ g.lo)
    (h' : g.lo + g.w ≤ 32) : (s.wr f v).rd g = s.rd g := by
  by_cases ha : g.addr = f.addr
  · simp [State.rd, State.reg_wr, ha, getF_putF_of_disjoint _ _ _ _ _ _ h h']
  · exact s.rd_wr_addr f g v ha

/-! ## Memory -/

/-- A byte after a write of one: Boot ROM apart, the byte written there, every other as before. -/
theorem State.byteAt_poke (s : State) (a b : Nat) (v : Byte) :
    (s.poke a v).byteAt b = if b = a ∧ 0x10000 ≤ b then v else s.byteAt b := by
  unfold State.byteAt State.poke
  by_cases h : b < 0x10000
  · have : ¬ 0x10000 ≤ b := by omega
    simp [h, this]
  · have h' : 0x10000 ≤ b := by omega
    by_cases hb : b = a
    · subst hb; simp [h, h', smGet_smSet]
    · simp [h, smGet_smSet, hb]

/-- A byte written keeps the canonical form. -/
theorem Memory.wf_poke (s : State) (a : Nat) (v : Byte) (h : Memory.wf s.mem = true) : Memory.wf (s.poke a v).mem = true :=
  smWf_smSet _ _ _ _ h

theorem Memory.wf_pokeBytes (l : List Byte) : ∀ (s : State) (a : Nat), Memory.wf s.mem = true →
    Memory.wf (s.pokeBytes a l).mem = true := by
  induction l with
  | nil => intro s a h; exact h
  | cons b l ih => intro s a h; exact ih _ _ (Memory.wf_poke s a b h)

theorem Memory.wf_filter (m : List Host.Cell) (p : Host.Cell → Bool) (h : Memory.wf m = true) : Memory.wf (m.filter p) = true := by
  simp only [Memory.wf, smWf, Bool.and_eq_true, decide_eq_true_eq, List.all_eq_true] at h ⊢
  exact ⟨h.1.sublist List.filter_sublist, fun e he => h.2 e (List.mem_filter.1 he).1⟩

theorem Registers.wf_setReg (s : State) (a : Nat) (v : Word) (h : Registers.wf s.regs = true) :
    Registers.wf (s.setReg a v).regs = true := smWf_smSet _ _ _ _ h

theorem Registers.wf_wr (s : State) (f : Fld) (v : Nat) (h : Registers.wf s.regs = true) :
    Registers.wf (s.wr f v).regs = true := smWf_smSet _ _ _ _ h

/-! ## Stopped logic and IDLE -/

@[simp] theorem State.when_true (s : State) (g : State → State) : s.when true g = g s := (rfl)
@[simp] theorem State.when_false (s : State) (g : State → State) : s.when false g = s := (rfl)

/-- What a guarded operation can do: nothing, or what it does where its guard holds. -/
theorem State.when_cases (s : State) (c : Bool) (g : State → State) :
    (c = false ∧ s.when c g = s) ∨ (c = true ∧ s.when c g = g s) := by cases c <;> simp

/-- A unit of PD_CORE that is held stopped does nothing (R48). -/
theorem State.engine_stopped (s : State) (g : State → State) (h : s.runs 1 = false) : s.engine g = s := by
  simp [State.engine, h]

theorem State.engine_runs (s : State) (g : State → State) (h : s.runs 1 = true) : s.engine g = g s := by
  simp [State.engine, h]

/-- Outside IDLE the CORE clock runs already. -/
theorem State.leaveIdle_awake (s : State) (h : s.pw.sleep ≠ .idle) : s.leaveIdle = s := by simp [State.leaveIdle, h]

/-- Leaving IDLE changes the sleep state, LAST_SLEEP and the cores' WFI alone. -/
theorem State.leaveIdle_eq (s : State) :
    s.leaveIdle = { s with regs := s.leaveIdle.regs, pw := s.leaveIdle.pw, core := s.leaveIdle.core } := by
  unfold State.leaveIdle; split <;> rfl

theorem State.idleWake_awake (s : State) (n : Nat) (h : s.pw.sleep ≠ .idle) : s.idleWake n = s := by
  simp [State.idleWake, h]

theorem State.ringWake_awake (s : State) (id : Nat) (h : s.pw.sleep ≠ .idle) : s.ringWake id = s := by
  simp [State.ringWake, s.idleWake_awake _ h, s.leaveIdle_awake h]

theorem State.enqWake_awake (s : State) (id : Nat) (h : s.pw.sleep ≠ .idle) : s.enqWake id = s := by
  simp [State.enqWake, s.ringWake_awake _ h, s.leaveIdle_awake h]

theorem State.takenWake_awake (s : State) (id : Nat) (h : s.pw.sleep ≠ .idle) : s.takenWake id = s := by
  simp [State.takenWake, s.ringWake_awake _ h]

/-! ## The end of every command -/

/-- Leaving IDLE writes PWR_STATE alone. -/
theorem State.reg_leaveIdle (s : State) (a : Nat) (h : a ≠ PWR_STATE_LAST_SLEEP.addr) : s.leaveIdle.reg a = s.reg a := by
  unfold State.leaveIdle
  split
  · exact State.reg_wr_ne (s.modPw _) PWR_STATE_LAST_SLEEP 1 a h
  · rfl

/-- A wake event outside ACTIVE writes PWR_WAKE_CAUSE and PWR_STATE alone. -/
theorem State.reg_ringsWake (s : State) (n : Nat) (b : Bool) (a : Nat) (h1 : a ≠ PWR_WAKE_CAUSE_CAUSE.addr)
    (h2 : a ≠ PWR_STATE_LAST_SLEEP.addr) : (s.ringsWake n b).reg a = s.reg a := by
  unfold State.ringsWake
  split
  · rfl
  · dsimp only
    have hs : (s.setBit PWR_WAKE_CAUSE_CAUSE n).reg a = s.reg a := State.reg_wr_ne _ _ _ _ h1
    split
    · split
      · exact (State.reg_leaveIdle _ _ h2).trans hs
      all_goals exact hs
    · exact hs

/-- A command's end leaves every register but those two as it is. -/
theorem State.reg_settle (s : State) (a : Nat) (h1 : a ≠ PWR_WAKE_CAUSE_CAUSE.addr) (h2 : a ≠ PWR_STATE_LAST_SLEEP.addr) :
    (settle s).reg a = s.reg a := by
  have hm : ∀ t : State, t.mramSync.reg a = t.reg a := fun _ => rfl
  rw [settle, hm]
  unfold settleEvc
  dsimp only
  split
  · rfl
  · rw [State.reg_ringsWake _ _ _ _ h1 h2]
    rfl

theorem State.rd_settle (s : State) (f : Fld) (h1 : f.addr ≠ PWR_WAKE_CAUSE_CAUSE.addr) (h2 : f.addr ≠ PWR_STATE_LAST_SLEEP.addr) :
    (settle s).rd f = s.rd f := by simp [State.rd, s.reg_settle _ h1 h2]

theorem State.flag_settle (s : State) (f : Fld) (h1 : f.addr ≠ PWR_WAKE_CAUSE_CAUSE.addr)
    (h2 : f.addr ≠ PWR_STATE_LAST_SLEEP.addr) : (settle s).flag f = s.flag f := by simp [State.flag, s.rd_settle _ h1 h2]

@[simp] theorem State.byteAt_settle (s : State) (a : Nat) : (settle s).byteAt a = s.byteAt a := by simp [State.byteAt]

@[simp] theorem State.reg_pulse (n : Nat) (s : State) (a : Nat) : (pulse n s).reg a = s.reg a := by
  simp [State.reg]
@[simp] theorem State.rd_pulse (n : Nat) (s : State) (f : Fld) : (pulse n s).rd f = s.rd f := by
  simp [State.rd]
@[simp] theorem State.flag_pulse (n : Nat) (s : State) (f : Fld) : (pulse n s).flag f = s.flag f := by
  simp [State.flag]

end Sys2Proof.Machine
end

