-- ==== Sys2Proof/Laws/Frame.lean ====
section
/-! SUPPORT. The laws of `State.keeps`: a write of a listed field leaves every other register bit alone. -/

namespace Sys2Proof.Machine
open Sys2Proof

@[simp] theorem State.keeps_self (s : State) (fs : List Fld) : s.keeps s fs := fun _ _ _ => rfl

/-- A bit of a register outside the field written. -/
theorem State.getLsbD_reg_wr (s : State) (f : Fld) (v a i : Nat) (h : ¬ (f.addr = a ∧ f.lo ≤ i ∧ i < f.lo + f.w)) :
    ((s.wr f v).reg a).getLsbD i = (s.reg a).getLsbD i := by
  rw [State.reg_wr]
  by_cases ha : a = f.addr
  · subst ha
    by_cases hi : i < 32
    · have hb : ¬ (f.lo ≤ i ∧ i < f.lo + f.w) := fun h' => h ⟨rfl, h'⟩
      rw [if_pos rfl, getLsbD_putF _ _ _ _ _ hi, if_neg hb]
    · rw [BitVec.getLsbD_of_ge _ i (by omega), BitVec.getLsbD_of_ge _ i (by omega)]
  · simp [ha]

/-- A write of a listed field neither makes nor breaks the frame. -/
theorem State.keeps_wr (s t : State) (f : Fld) (v : Nat) (fs : List Fld) (h : f ∈ fs) :
    s.keeps (t.wr f v) fs ↔ s.keeps t fs := by
  constructor
  · intro k a i o; rw [← k a i o, State.getLsbD_reg_wr _ _ _ _ _ (o f h)]
  · intro k a i o; rw [← k a i o, State.getLsbD_reg_wr _ _ _ _ _ (o f h)]

/-- The frame depends on the registers alone. -/
theorem State.keeps_congr (s t u : State) (fs : List Fld) (h : t.regs = u.regs) : s.keeps t fs ↔ s.keeps u fs := by
  simp only [State.keeps, State.reg, h]

theorem State.keeps_trans {s t u : State} {fs : List Fld} (h : s.keeps t fs) (k : t.keeps u fs) : s.keeps u fs :=
  fun a i o => (k a i o).trans (h a i o)

/-- A longer list leaves less unchanged. -/
theorem State.keeps_mono {s t : State} {fs gs : List Fld} (h : s.keeps t fs) (m : ∀ f ∈ fs, f ∈ gs) : s.keeps t gs :=
  fun a i o => h a i (fun f hf => o f (m f hf))

/-- A field that shares no bit with the listed ones reads as before. -/
theorem State.rd_keeps {s t : State} {fs : List Fld} (h : s.keeps t fs) (g : Fld)
    (d : ∀ f ∈ fs, f.addr = g.addr → g.lo + g.w ≤ f.lo ∨ f.lo + f.w ≤ g.lo) : t.rd g = s.rd g := by
  apply Nat.eq_of_testBit_eq
  intro i
  simp only [State.rd, testBit_getF]
  by_cases hi : i < g.w
  · rw [h g.addr (g.lo + i)]
    intro f hf ⟨ha, hl, hr⟩
    have := d f hf ha
    omega
  · simp [hi]

end Sys2Proof.Machine
end

