-- ==== Sys2Proof/Laws/Motion.lean ====
section
/-! SUPPORT. What the operations that spindles, servos and the power die share can change: the register fields, and the
parts of the state beside registers. -/

namespace Sys2Proof.Machine
open Sys2Proof

/-- A fold of operations that each change the state only as `R` allows changes it only so. -/
theorem State.eachPort_induct {R : State → State → Prop} (refl : ∀ s, R s s) (trans : ∀ {a b c}, R a b → R b c → R a c)
    (g : Fin 8 → State → State) (h : ∀ p s, R s (g p s)) (s : State) : R s (s.eachPort g) := by
  have key : ∀ (l : List (Fin 8)) (s : State), R s (l.foldl (fun s p => g p s) s) := by
    intro l
    induction l with
    | nil => exact refl
    | cons p l ih => intro s; exact trans (h p s) (ih (g p s))
  exact key ports s

/-- What each port's operation makes of its own port, and the others leave, holds of every port after the fold. -/
theorem State.eachPort_at {A B : Fin 8 → State → Prop} (g : Fin 8 → State → State)
    (own : ∀ p s, A p s → B p (g p s)) (before : ∀ p q s, p ≠ q → A p s → A p (g q s))
    (after : ∀ p q s, p ≠ q → B p s → B p (g q s)) (s : State) (h : ∀ p, A p s) : ∀ p, B p (s.eachPort g) := by
  have key : ∀ (l : List (Fin 8)) (s : State), l.Nodup → (∀ p ∈ l, A p s) →
      ∀ p, (p ∈ l ∨ B p s) → B p (l.foldl (fun s p => g p s) s) := by
    intro l
    induction l with
    | nil => intro s _ _ p hp; simpa using hp
    | cons q l ih =>
      intro s nd ha p hp
      have hn : q ∉ l ∧ l.Nodup := by simpa using nd
      apply ih (g q s) hn.2
      · intro r hr
        exact before r q s (fun e => hn.1 (e ▸ hr)) (ha r (by simp [hr]))
      · by_cases e : p = q
        · subst e; exact Or.inr (own p s (ha p (by simp)))
        · rcases hp with hp | hp
          · exact Or.inl (by simpa [e] using hp)
          · exact Or.inr (after p q s e hp)
  intro p
  refine key ports s (by decide) (fun p _ => h p) p (Or.inl ?_)
  revert p; decide

end Sys2Proof.Machine
end

