-- ==== Sys2Proof/WellFormed.lean ====
section
/-! DEFINITION. Which commands the block's pins, buses and transports can carry at all. The operands' types bound most of
them; what is left are lengths and measured values, checked here. exec answers on every command, well-formed or not. -/

namespace Sys2Proof

/-- A measured resistance: 16 bits, 0xFFFF for open (R196). -/
def ohms (n : Nat) : Bool := decide (n ≤ 0xFFFF)

/-- What discovery finds on a port: at most three answers of the preamp (R144), measured resistances, and a revolution's time
that SPN_PERIOD can hold. -/
def PortSeen.wf (x : PortSeen) : Bool := decide (x.answers.length ≤ 3) && ohms x.uv && ohms x.vw && ohms x.wu
  && x.turning.all (fun n => decide (0 < n ∧ n < 2 ^ 24))

/-- What the media decide names ports 0 to 7 (sectors of the grown copies' keys included). -/
def MediaEnd.wf (m : MediaEnd) : Bool :=
  (m.fail ++ m.joint ++ m.cut ++ m.stop.map Prod.fst).all (fun e => decide (e.1 < 8))
    && m.stop.all (fun e => e.2 == .seekFail || e.2 == .aborted || e.2 == .hw || e.2 == .badRequest)

/-- A bulk packet: at most 512 bytes (Table 20.3). -/
def bulkPacket (d : List Byte) : Bool := decide (d.length ≤ 512)

/-- The payload of a recovery message: LENGTH is 0 to 1024 (spec/03, Recovery). -/
def recoveryPayload (d : List Byte) : Bool := decide (d.length ≤ 1024)

/-- Whether a command is well-formed. -/
def wellFormed (i : Instr) : Bool :=
  match i with
  | .measureDone _ uv vw wu vcm => ohms uv && ohms vw && ohms wu && ohms vcm
  | .timingLoopUpdate _ samples _ => decide (samples.length = 4)
  | .qmHardwareEnqueue _ e => decide (e.length = 16 ∨ e.length = 32)
  | .lcRead _ _ _ a n => decide (1 ≤ n.val ∧ a.toNat % 64 + n.val ≤ 64)
  | .lcWrite _ _ a d => decide (1 ≤ d.length ∧ a.toNat % 64 + d.length ≤ 64)
  | .cbwReceived pkt => bulkPacket pkt
  | .uasCommandIu pkt => bulkPacket pkt
  | .uasTaskManagementIu pkt => bulkPacket pkt
  | .usbOutPacket _ d => bulkPacket d
  | .dfuDnload _ d => decide (d.length ≤ 1024)
  | .recoveryHello _ _ _ d => recoveryPayload d
  | .recoveryWrite _ _ _ d => recoveryPayload d
  | .recoveryVerify _ _ _ _ d => recoveryPayload d
  | .recoveryBoot _ _ _ d => recoveryPayload d
  | .recoveryAlmanac _ _ _ d => recoveryPayload d
  | .otivoStart _ seen _ _ => decide (seen.length ≤ 8) && seen.all PortSeen.wf
  | .ocsPortOnline seen => seen.wf
  | .ocsHdaRecordWrite seen => seen.wf
  | .rebuildRow _ m => m.wf
  | .copybackRow _ m => m.wf
  | .destage _ _ m => m.wf
  | .resyncRegion _ _ m => m.wf
  | .reshapeGroup _ m => m.wf
  | .hdaRecordCheck _ m => m.wf
  | .ocsRead m => m.wf
  | .ocsWrite m => m.wf
  | .ocsFlush m => m.wf
  | .ocsVolumeCreate m _ _ => m.wf
  | .ocsPowerNadir m => m.wf
  | .fwActivateReset m _ => m.wf
  | .ocsDiagRawRead m => m.wf
  | _ => true

end Sys2Proof
end

