-- ==== Sys2Proof/Tests/Slice0.lean ====
section
/-! SUPPORT. The tests: ill-formed commands refused, worked examples of the spec, one step of chosen commands, and for each
obligation with hypotheses a theorem whose parts each show a state and operands that meet the hypotheses of one clause. -/

set_option maxRecDepth 100000
set_option Elab.async false

namespace Sys2Proof.Tests
open Sys2Proof Sys2Proof.Machine

/-! ## Ill-formed commands are refused -/

theorem test_wf_measure : wellFormed (.measureDone 0 0x10000 0 0 0) = false
    ∧ wellFormed (.measureDone 0 0xFFFF 0 0 0) = true := by decide

theorem test_wf_enqueue : wellFormed (.qmHardwareEnqueue 0 [1, 2, 3]) = false
    ∧ wellFormed (.qmHardwareEnqueue 0 (List.replicate 16 0)) = true := by decide

theorem test_wf_lineRead : wellFormed (.lcRead 0 false false 0x80000000 0) = false
    ∧ wellFormed (.lcRead 0 false false 0x8000003F 2) = false ∧ wellFormed (.lcRead 0 false false 0x8000003F 1) = true := by
  decide

theorem test_wf_lineWrite : wellFormed (.lcWrite 0 false 0x80000000 []) = false
    ∧ wellFormed (.lcWrite 0 false 0x8000003F [1, 2]) = false := by decide

theorem test_wf_bulk : wellFormed (.cbwReceived (List.replicate 513 0)) = false
    ∧ wellFormed (.uasCommandIu (List.replicate 513 0)) = false
    ∧ wellFormed (.uasTaskManagementIu (List.replicate 513 0)) = false
    ∧ wellFormed (.usbOutPacket 0 (List.replicate 513 0)) = false := by decide +kernel

theorem test_wf_recovery : wellFormed (.dfuDnload 0 (List.replicate 1025 0)) = false
    ∧ wellFormed (.recoveryHello .uart 0 true (List.replicate 1025 0)) = false
    ∧ wellFormed (.recoveryWrite .uart 0 true (List.replicate 1025 0)) = false
    ∧ wellFormed (.recoveryVerify 0x03 .uart 0 true (List.replicate 1025 0)) = false
    ∧ wellFormed (.recoveryBoot .uart 0 true (List.replicate 1025 0)) = false
    ∧ wellFormed (.recoveryAlmanac .uart 0 true (List.replicate 1025 0)) = false := by decide +kernel

theorem test_wf_discovery : wellFormed (.otivoStart [] (List.replicate 9 {}) true 0) = false
    ∧ wellFormed (.otivoStart [] [{ answers := [1, 2, 3, 4] }] true 0) = false
    ∧ wellFormed (.ocsPortOnline { uv := 0x10000 }) = false
    ∧ wellFormed (.ocsHdaRecordWrite { vw := 0x10000 }) = false := by decide

theorem test_wf_media : wellFormed (.rebuildRow 0 { fail := [(8, 0)] }) = false
    ∧ wellFormed (.copybackRow 0 { joint := [(8, 0)] }) = false
    ∧ wellFormed (.ocsRead { cut := [(8, 0)] }) = false
    ∧ wellFormed (.ocsWrite { cut := [(7, 0)] }) = true := by decide

theorem test_wf_stop : wellFormed (.fwActivateReset { stop := [((7, 0), .hw)] } true) = true
    ∧ wellFormed (.fwActivateReset { stop := [((7, 0), .ok)] } true) = false
    ∧ wellFormed (.timingLoopUpdate 0 [] 0) = false ∧ wellFormed (.timingLoopUpdate 0 [0, 0, 0, 0] 0) = true := by decide

/-- No row of the opcode table gives bits. -/
theorem test_decode_none : decodeTableWord 0 0 = none := rfl

/-! ## Worked examples of the spec -/

/-- R393: the CRC of the nine ASCII bytes "123456789" is 0xE306_9283. -/
theorem test_crc32c : crc32c [0x31, 0x32, 0x33, 0x34, 0x35, 0x36, 0x37, 0x38, 0x39] = 0xE3069283 := by decide +kernel

/-- Chapter 5, three wedges near track 12345: the positions 3,160,330, 3,160,416 and 3,160,460. -/
theorem test_position : position (ungray 16 0x504B) 600 3000 3600 0 = 3160330
    ∧ position (ungray 16 0x504A) 2400 (-2400) 4800 0 = 3160416
    ∧ position (ungray 16 0x504A) (-800) (-3200) 4000 0 = 3160460 := by decide +kernel

/-- Table 11.2: CONST_P with n = 8, w = 5, s = 1, row 13 (m = 3, o = 5): slots 0 to 7 are on 5, 0, 3, 6, 1, 4, 7, 2. -/
theorem test_row13 : (List.range 8).map (Geo.unit ⟨1, 8, 5, 1⟩ 13) = [5, 0, 3, 6, 1, 4, 7, 2]
    ∧ Geo.period ⟨1, 8, 5, 1⟩ = 32 := by decide +kernel

/-- Chapter 11: chunk 312,502 is D2 of stripe 0 of row 78,125, on unit 6. -/
theorem test_chunk : Geo.chunk ⟨1, 8, 5, 1⟩ 312502 = (78125, 0, 2)
    ∧ Geo.unit ⟨1, 8, 5, 1⟩ 78125 3 = 6 := by decide +kernel

/-- Chapter 11, solving two data members: g × 0xA1, g^2 × 0x5C, the inverse of 0x06, and D1 and D2. -/
theorem test_solve : gfMul 2 0xA1 = 0x5F ∧ gfMul (gfPow2 2) 0x5C = 0x6D ∧ gfInv 6 = 0x7A
    ∧ solveTwo 1 2 [0xFD] [0x32] = ([0xA1], [0x5C]) := by decide +kernel

/-- Chapter 15, splitting 0x8123_4567: set 277, tag 0x246. -/
theorem test_line : lineSet (dramOff 0x81234567 / 64) = 277 ∧ lineTag (dramOff 0x81234567 / 64) = 0x246
    ∧ dramOff 0xC1234567 = dramOff 0x81234567 := by decide

/-! ## One step -/

/-- The state after a command. -/
def after (i : Instr) (s : State) : State :=
  match exec i s with
  | .next t => t
  | _ => s

/-- The ports' domains on. -/
def portsUp (s : State) : State := s.wr PWR_DOMAIN_STATUS_ON 0x3FE

/-- R174: START moves a stopped port to WAIT, and R168: CLEAR_FAULT of a spindle that is not stopped is refused. -/
theorem test_spindle : (after (.spnStart 3) (portsUp State.reset)).rd (SPN_STATUS_STATE 3) = 1
    ∧ (after (.spnStart 3) (portsUp State.reset)).rd (SPN_STATUS_STATE 2) = 0
    ∧ (after (.spnClearFault 3 false) (portsUp State.reset)).rd (SPN_EVENT_CMD_REFUSED 3) = 1 := by decide +kernel

/-- Core B's restart vector set. -/
def withVecB (s : State) : State := s.wr SYS_RESTART_VEC_B_VECTOR (0x10000200 / 2)

/-- R117: setting SYS_CORE_RUN.B releases Core B at its restart vector; it is held after reset. -/
theorem test_coreB : (after .coreBRelease (withVecB State.reset)).core[1].run = true
    ∧ (after .coreBRelease (withVecB State.reset)).core[1].pc = 0x10000200 ∧ State.reset.core[1].run = false := by
  decide +kernel

/-- A step takes the front command and leaves the rest of the queue. -/
theorem test_queue : (match step { withVecB State.reset with pending := [.coreBRelease, .xtal32Loss] } with
    | .next t => decide (t.pending = [.xtal32Loss]) && t.core[1].run
    | _ => false) = true := by decide +kernel


/-! ## States for the witnesses -/

/-- A ring in use in the Ring SRAM, with `n` entries produced and none consumed. -/
def withRing (id base consumer esize n : Nat) (s : State) : State :=
  s.setRing id { base := base, esize := esize, consumer := consumer, en := true, pi := n }

/-- A ring with one entry of at most 32 bytes. -/
def withEntry (id base consumer : Nat) (e : List Byte) (s : State) : State :=
  withRing id base consumer (if e.length ≤ 16 then 0 else 1) 1 (s.pokeBytes (0x20000000 + 64 * base) e)

/-- A field of every port. -/
def eachPort (f : Nat → Fld) (v : Nat) (s : State) : State :=
  (List.range 8).foldl (fun s p => s.wr (f p) v) s

/-- The microstore's word 0: SEQ, the nanoword's number and ARG. -/
def withMicro (seq nano arg : Nat) (s : State) : State :=
  eachPort FMT_CTX_STATUS_STATE 1 (s.pokeBytes 0x30088000 (leBytes 3 (seq * 2 ^ 20 + nano * 2 ^ 10 + arg)))

/-- A gate armed and nothing more. -/
def aGate : Gate :=
  { write := false, slot := 0, frame := 0, skew := 0, sidx := 0, buf := 0x80000000, bypass := true, raw := false, band := 0,
    wlba := 0, wgen := 0, data := [], ready := false, bad := false, started := false, isOpen := false, llr := none,
    code := none, bitsDone := 0 }

/-- A gate of every context. -/
def withGate (g : Gate) (s : State) : State := { s with fmt := Vector.replicate 8 { gates := [g] } }

/-- Every domain on. -/
def allOn (s : State) : State := s.wr PWR_DOMAIN_STATUS_ON 0x7FFF

/-- Every context of the Servo Control Engine enabled. -/
def withCtxOn (s : State) : State := (List.range 24).foldl (fun s c => s.wr (CTX_CFG_ENABLE c) 1) s

/-- A change of every port's channel. -/
def withChan (f : Chan → Chan) (s : State) : State := { s with ch := s.ch.map f }

/-- A job of ring 192 on slot 0. -/
def aJob : Job :=
  { ring := 192, id := 7, slot := 0, code := false, keep := false, hold := false, usePrior := false, mirror := false,
    f := 3, slot2 := 0, p1 := [], p2 := [], tag := [], held1 := false, held2 := false, limit := 1, idu := 0,
    redone := false, reissued := false, again := false, req := 0,
    released := [] }

/-- Every slot of the LLR Store in a state. -/
def slotsIn (v : Nat) (s : State) : State := (List.range 48).foldl (fun s j => s.wr (IDU_SLOT_STATE j) v) s

/-- The USB Block attached, with the function's port enabled. -/
def usbUp (s : State) : State := ((s.wr USB_CTRL_PULLUP 1).wr USB_STATUS_VBUS 1).wr (USB_PORT_STATUS 4) 3

/-- The USB Block attached and the function's endpoints in use, in UAS (1) or Bulk-Only (0) mode, over a state whose
listed registers lie below the block's page. -/
def usbMse (uas : Nat) (s : State) : State :=
  let eps : List Word := [0x90000040, 0x90108040, 0x90200040, 0x90308040, 0x90400040, 0x90500040, 0x90608040]
  let mode : List (Nat × Word) := if uas = 1 then [(0x300E00A0, 0x38000001)] else []
  { s with regs := s.regs ++ [(0x300E0000, 1), (0x300E0004, 1), (0x300E0020, 3)]
                   ++ eps.zipIdx.map (fun e => (0x300E0040 + 4 * e.2, e.1)) ++ mode }

/-- A slot image of eight bytes with its header (Table 3.6), its digest put in. -/
def anImage (base secver : Nat) : List Byte :=
  let top : List Byte := leBytes 4 0x57465844 ++ leBytes 2 1 ++ leBytes 2 0 ++ leBytes 4 8 ++ leBytes 4 1 ++ leBytes 4 secver
    ++ leBytes 4 (base + 0x100) ++ leBytes 4 (base + 0x104) ++ leBytes 4 0
  let img : List Byte := leBytes 8 0x0102030405060708
  top ++ sha256 (top ++ img) ++ List.replicate 192 0 ++ img

/-- Slot A with such an image. -/
def withSlotA (s : State) : State := s.pokeBytes 0x10000000 (anImage 0x10000000 1)

/-- The Line Cache and the memory path in use, the ageing off. -/
def lcUp (s : State) : State :=
  (((s.wr LC_STATUS_INIT_DONE 1).wr LC_CTRL_ENABLE 1).wr LC_CTRL_AGE_PERIOD 0).wr BC_STATUS_INIT_DONE 1

/-- A valid line in a way. -/
def aLine : Line := { valid := true, tag := 0, nru := false, strm := true, lock := false, data := clean (List.replicate 64 9) }

/-- Line 0 cached in way 0. -/
def lcHit (s : State) : State := (lcUp s).setWay 0 aLine

/-- Line 0 of the Buffer DRAM written, under major counter 1. -/
def dramLine (s : State) : State := ((lcUp s).setMajor 0 1).putLine 0 1 0 (List.replicate 64 7) false

/-- An entry of the write-combining buffer for line 0, its first eight bytes or all of it written. -/
def aWcb (n : Nat) (sent : Bool) : Wcb :=
  { line := 0, bytes := List.replicate n (some (5, false)) ++ List.replicate (64 - n) none, req := 0, draining := sent,
    sent := sent }

/-- A fill of line 0 into way 0, or around the cache. -/
def aFill (way : Option Nat) : FillReq :=
  { line := 0, way := way, req := 0, addr := 0x80000000, len := 4, late := [] }

/-- Otivo running. -/
def otUp (s : State) : State :=
  { s with ot := { s.ot with started := true }, boot := { s.boot with stage := .firmware, reset := none } }

/-- An OCS command: opcode, FLAGS, VOLUME, the argument, DLEN and the twelve bytes of its parameters. -/
def cmdOf (path : OcsPath) (op flags vol arg len : Nat) (par data : List Byte) : OcsCmd :=
  { path := path, data := data,
    bytes := leBytes 1 op ++ leBytes 1 flags ++ leBytes 1 vol ++ [0] ++ leBytes 4 0x77 ++ leBytes 8 arg ++ leBytes 4 len ++ par
      ++ zerosB (12 - par.length) }

/-- Otivo holding one command. -/
def holding (c : OcsCmd) (s : State) : State := (fun s => { s with ot := { s.ot with cmds := [c] } }) (otUp s)

/-- A volume's record over ports 0 to n - 1: STATE, the geometry, BAND, FLAGS, the chunks per unit and each member's state. -/
def aVol (st : Nat) (g : Geo) (band flags cpu : Nat) (fails : List Nat) (member : Nat → Nat) : VolRec :=
  leBytes 1 st ++ leBytes 1 g.layout ++ leBytes 1 g.n ++ leBytes 1 g.w ++ leBytes 1 g.s ++ [0] ++ leBytes 1 band ++ leBytes 1 flags
    ++ leBytes 8 16 ++ leBytes 8 cpu ++ leBytes 8 (geoCap g cpu false) ++ leBytes 4 1 ++ leBytes 4 0
    ++ leBytes 4 (wiNeed (geoChunks g cpu)) ++ leBytes 1 fails.length ++ leBytes 1 (fails.getD 0 0xFF)
    ++ leBytes 1 (fails.getD 1 0xFF) ++ zerosB 17
    ++ (List.range 8).flatMap (fun u => leBytes 1 (if u < g.n then u else 0xFF) ++ leBytes 1 (member u) ++ zerosB 6
        ++ leBytes 8 (u + 1) ++ zerosB 16)
    ++ zerosB 160

/-- A SCSI command: its bytes as the CBW or Command IU carries it, in context 1. -/
def scsiCmd (lun : Nat) (cdb : List Byte) (s : State) : State :=
  let cmd := zerosB 13 ++ leBytes 1 lun ++ [16] ++ cdb ++ zerosB (17 - cdb.length)
  (fun s => { s with usb := { s.usb with ctx := Vector.replicate 16 { cmd := cmd } } })
    ((usbMse 0 (otUp s)).wr (USB_MSE_CTX_STATE 1) 1)

/-- The Media Cipher's rings, the root key set, and a command at the head of ring 320. -/
def keyCmd (op band flags : Nat) (s : State) : State :=
  withRing 321 16 1 1 0 (withEntry 320 8 9 (leBytes 2 7 ++ leBytes 1 op ++ leBytes 1 band ++ leBytes 1 flags ++ zerosB 27) s)

/-- A key band with a sealed record in both copies. -/
def withBand (b : Nat) (r : List Byte) (s : State) : State :=
  (s.pokeBytes (keyAddr b 0) (sealRecord r 1)).pokeBytes (keyAddr b 1) (sealRecord r 1)

/-- What MRAM lists once volume 0 is OPTIMAL over ports 0 to 3 (Table 11.4): copy A of the volume table, sealed. -/
def volCells : List Host.Cell :=
  [(269352960, 0x4c), (269352961, 0x42), (269352962, 0x54), (269352963, 0x56), (269352964, 0x01), (269352968, 0x01), (269353024, 0x01), (269353025, 0x01),
   (269353026, 0x04), (269353027, 0x03), (269353028, 0x01), (269353030, 0xff), (269353032, 0x10), (269353040, 0x40), (269353049, 0x40), (269353056, 0x01),
   (269353064, 0x01), (269353069, 0xff), (269353070, 0xff), (269353096, 0x01), (269353120, 0x01), (269353128, 0x02), (269353152, 0x02), (269353160, 0x03),
   (269353184, 0x03), (269353192, 0x04), (269353216, 0xff), (269353224, 0x05), (269353248, 0xff), (269353256, 0x06), (269353280, 0xff), (269353288, 0x07),
   (269353312, 0xff), (269353320, 0x08), (269355004, 0x2b), (269355005, 0x66), (269355006, 0xb3), (269355007, 0xd3)]

/-- Volume 0 as `volCells` has it, assembled. -/
def withVolume (s : State) : State :=
  { s with mem := volCells, ot := { s.ot with assembled := 1, outcome := Vector.replicate 8 1, loaded := 0xFF } }

/-- Volume 0 as `volCells` has it but for some bytes of the sealed table, assembled. -/
def withPatch (p : List (Nat × Nat)) (s : State) : State :=
  p.foldl (fun s e => s.pokeBytes e.1 [BitVec.ofNat 8 e.2]) (withVolume s)

/-- Volume 0 DEGRADED: unit 1 is FAILED. -/
def degraded : State → State :=
  withPatch [(269353024, 2), (269353068, 1), (269353069, 1), (269353121, 1), (269355004, 199), (269355005,
    78), (269355006, 177), (269355007, 80)]

/-- Volume 0 under copy-back to unit 1. -/
def replaced : State → State :=
  withPatch [(269353024, 3), (269353031, 16), (269353068, 1), (269353069, 1), (269353121, 3), (269355004,
    70), (269355005, 148), (269355006, 157), (269355007, 247)]

/-! ## Witnesses -/

/-- What SpindleCommands assumes is met, clause by clause. -/
theorem witness_SpindleCommands :
    (∃ (p : Fin 8) (s : State), s.dieHeld = false ∧ s.rd (SPN_STATUS_STATE (↑p : Nat)) = 0 ∧ s.regOn
      (SPN_CMD_WORD (↑p : Nat)).addr = true)
    ∧ (∃ (p : Fin 8) (s : State), s.dieHeld = false ∧ s.rd (SPN_STATUS_STATE (↑p : Nat)) = 6 ∧ s.spn[p].fly =
      false ∧ s.regOn (SPN_CMD_WORD (↑p : Nat)).addr = true)
    ∧ (∃ (p : Fin 8) (s : State), s.dieHeld = false ∧ s.rd (SPN_STATUS_STATE (↑p : Nat)) = 9 ∧ s.regOn
      (SPN_CMD_WORD (↑p : Nat)).addr = true)
    ∧ (∃ (p : Fin 8) (s : State), s.dieHeld = false ∧ 1 ≤ s.rd (SPN_STATUS_STATE (↑p : Nat)) ∧ s.rd
      (SPN_STATUS_STATE (↑p : Nat)) ≤ 8 ∧ s.rd (SPN_STATUS_STATE (↑p : Nat)) ≠ 6 ∧ s.regOn (SPN_CMD_WORD (↑p :
      Nat)).addr = true)
    ∧ (∃ (p : Fin 8) (s : State), s.dieHeld = false ∧ s.rd (SPN_STATUS_STATE (↑p : Nat)) = 1 ∧ s.regOn
      (SPN_CMD_WORD (↑p : Nat)).addr = true)
    ∧ (∃ (p : Fin 8) (s : State), s.dieHeld = false ∧ 2 ≤ s.rd (SPN_STATUS_STATE (↑p : Nat)) ∧ s.rd
      (SPN_STATUS_STATE (↑p : Nat)) ≤ 6 ∧ s.srv[p].loaded = false ∧ s.regOn (SPN_CMD_WORD (↑p : Nat)).addr =
      true)
    ∧ (∃ (p : Fin 8) (s : State), s.dieHeld = false ∧ 2 ≤ s.rd (SPN_STATUS_STATE (↑p : Nat)) ∧ s.rd
      (SPN_STATUS_STATE (↑p : Nat)) ≤ 6 ∧ s.srv[p].loaded = true ∧ s.regOn (SPN_CMD_WORD (↑p : Nat)).addr =
      true)
    ∧ (∃ (p : Fin 8) (s : State), s.dieHeld = false ∧ s.rd (SPN_STATUS_STATE (↑p : Nat)) = 7 ∧ s.spn[p].after =
      4 ∧ s.regOn (SPN_CMD_WORD (↑p : Nat)).addr = true)
    ∧ (∃ (p : Fin 8) (s : State), s.dieHeld = false ∧ (s.rd (SPN_STATUS_STATE (↑p : Nat)) = 0 ∨ s.rd
      (SPN_STATUS_STATE (↑p : Nat)) = 7 ∧ s.spn[p].after ≠ 4 ∨ 8 ≤ s.rd (SPN_STATUS_STATE (↑p : Nat))) ∧ s.regOn
      (SPN_CMD_WORD (↑p : Nat)).addr = true)
    ∧ (∃ (p : Fin 8) (s : State), s.dieHeld = false ∧ s.rd (SPN_STATUS_STATE (↑p : Nat)) ≠ 0 ∧ s.regOn
      (SPN_CMD_WORD (↑p : Nat)).addr = true)
    ∧ (∃ (p : Fin 8) (s : State), s.dieHeld = false ∧ s.flag (SPN_STATUS_MEASURE_BUSY (↑p : Nat)) = true)
    ∧ (∃ (p : Fin 8) (s : State), s.dieHeld = false ∧ s.rd (SPN_STATUS_STATE (↑p : Nat)) ≠ 9 ∧ s.regOn
      (SPN_CMD_WORD (↑p : Nat)).addr = true)
    ∧ (∃ (p : Fin 8) (s : State), s.dieHeld = false ∧ s.regOn (SPN_CMD_WORD (↑p : Nat)).addr = true) := by
  refine ⟨?_, ?_, ?_, ?_, ?_, ?_, ?_, ?_, ?_, ?_, ?_, ?_, ?_⟩
  · refine ⟨0, (allOn State.reset), ?_⟩
    decide +kernel
  · refine ⟨6, ((allOn State.reset).wr (SPN_STATUS_STATE 6) 6), ?_⟩
    decide +kernel
  · refine ⟨4, (((allOn State.reset).wr PS_STATUS_RETRACTED 0).wr (SPN_STATUS_STATE 4) 9), ?_⟩
    decide +kernel
  · refine ⟨6, ((allOn State.reset).wr (SPN_STATUS_STATE 6) 8), ?_⟩
    decide +kernel
  · refine ⟨5, (allOn (State.reset.wr (SPN_STATUS_STATE 5) 1)), ?_⟩
    decide +kernel
  · refine ⟨0, (((fun (s : State) =>
      { s with srv := vmod s.srv 0 (fun _ => { s.srv[0] with loaded := false }) }) (allOn State.reset)).wr
      (SPN_STATUS_STATE 0) 2), ?_⟩
    decide +kernel
  · refine ⟨0, (((fun (s : State) => { s with srv := vmod s.srv 0 (fun _ => { s.srv[0] with loaded := true }) })
      (allOn State.reset)).wr (SPN_STATUS_STATE 0) 2), ?_⟩
    decide +kernel
  · refine ⟨0, ((fun (s : State) => { s with spn := vmod s.spn 0 (fun _ => { s.spn[0] with after := 4 }) })
      ((allOn State.reset).wr (SPN_STATUS_STATE 0) 7)), ?_⟩
    decide +kernel
  · refine ⟨0, (allOn State.reset), ?_⟩
    decide +kernel
  · refine ⟨0, ((allOn State.reset).wr (SPN_STATUS_STATE 0) 15), ?_⟩
    decide +kernel
  · refine ⟨6, (State.reset.wr (SPN_STATUS_MEASURE_BUSY 6) 1), ?_⟩
    decide +kernel
  · refine ⟨0, (allOn State.reset), ?_⟩
    decide +kernel
  · refine ⟨0, (allOn State.reset), ?_⟩
    decide +kernel

/-- What SpindleStates assumes is met, clause by clause. -/
theorem witness_SpindleStates :
    (∃ (p : Fin 8) (s : State), s.portRuns p = true ∧ s.rd (SPN_STATUS_STATE (↑p : Nat)) = 2 ∧ s.dieHeld =
      false)
    ∧ (∃ (p : Fin 8) (s : State) (off : Int), s.portRuns p = true ∧ (3 ≤ s.rd (SPN_STATUS_STATE (↑p : Nat)) ∧
      s.rd (SPN_STATUS_STATE (↑p : Nat)) ≤ 7 ∨ s.rd (SPN_STATUS_STATE (↑p : Nat)) = 9) ∧ off.natAbs ≤ 30 ∧
      s.spn[p].revZc = 5)
    ∧ (∃ (p : Fin 8) (s : State) (off : Int), s.portRuns p = true ∧ (3 ≤ s.rd (SPN_STATUS_STATE (↑p : Nat)) ∧
      s.rd (SPN_STATUS_STATE (↑p : Nat)) ≤ 7 ∨ s.rd (SPN_STATUS_STATE (↑p : Nat)) = 9) ∧ off.natAbs ≤ 30 ∧
      s.spn[p].revZc < 5 ∧ ¬(s.rd (SPN_STATUS_STATE (↑p : Nat)) = 3 ∧ max 1 (s.rd (SPN_RAMP_DUTY_HANDOVER_ZC (↑p
      : Nat))) ≤ s.spn[p].zc + 1) ∧ ¬(s.rd (SPN_STATUS_STATE (↑p : Nat)) = 6 ∧ s.spn[p].fly = true ∧ 6 ≤
      s.spn[p].zc + 1))
    ∧ (∃ (p : Fin 8) (s : State) (off : Int), s.portRuns p = true ∧ s.rd (SPN_STATUS_STATE (↑p : Nat)) = 3 ∧
      s.dieHeld = false ∧ off.natAbs ≤ 30 ∧ s.spn[p].revZc < 5 ∧ max 1 (s.rd (SPN_RAMP_DUTY_HANDOVER_ZC (↑p :
      Nat))) ≤ s.spn[p].zc + 1)
    ∧ (∃ (p : Fin 8) (s : State) (off : Int), s.portRuns p = true ∧ 30 < off.natAbs ∧ (3 ≤ s.rd
      (SPN_STATUS_STATE (↑p : Nat)) ∧ s.rd (SPN_STATUS_STATE (↑p : Nat)) ≤ 7 ∨ s.rd (SPN_STATUS_STATE (↑p :
      Nat)) = 9))
    ∧ (∃ (p : Fin 8) (s : State), s.portRuns p = true ∧ s.spn[p].missRun < 2 ∧ s.spn[p].errRun < 6)
    ∧ (∃ (p : Fin 8) (s : State), s.portRuns p = true ∧ (s.rd (SPN_STATUS_STATE (↑p : Nat)) = 4 ∨ s.rd
      (SPN_STATUS_STATE (↑p : Nat)) = 5) ∧ (2 ≤ s.spn[p].missRun ∨ 6 ≤ s.spn[p].errRun))
    ∧ (∃ (p : Fin 8) (s : State), s.portRuns p = true ∧ s.rd (SPN_STATUS_STATE (↑p : Nat)) = 6 ∧ s.spn[p].fly =
      true)
    ∧ (∃ (p : Fin 8) (s : State), s.portRuns p = true ∧ s.spn[p].underWay = true ∧ (2 ≤ s.rd (SPN_STATUS_STATE
      (↑p : Nat)) ∧ s.rd (SPN_STATUS_STATE (↑p : Nat)) ≤ 4 ∨ s.rd (SPN_STATUS_STATE (↑p : Nat)) = 6 ∧
      s.spn[p].fly = true ∨ s.rd (SPN_STATUS_STATE (↑p : Nat)) = 7 ∧ s.spn[p].after = 4))
    ∧ (∃ (p : Fin 8) (s : State), s.portRuns p = true ∧ s.rd (SPN_STATUS_STATE (↑p : Nat)) = 9)
    ∧ (∃ (p : Fin 8) (s : State), s.portRuns p = true ∧ (s.rd (SPN_STATUS_STATE (↑p : Nat)) = 6 ∨ s.rd
      (SPN_STATUS_STATE (↑p : Nat)) = 8) ∧ s.spn[p].fly = false) := by
  refine ⟨?_, ?_, ?_, ?_, ?_, ?_, ?_, ?_, ?_, ?_, ?_⟩
  · refine ⟨6, ((allOn (eachPort SPN_STATUS_STATE 4 State.reset)).wr (SPN_STATUS_STATE 6) 2), ?_⟩
    decide +kernel
  · refine ⟨3, ((fun (s : State) => { s with spn := vmod s.spn 3 (fun _ => { s.spn[3] with revZc := 5 }) })
      (allOn (eachPort SPN_STATUS_STATE 5 State.reset))), (30), ?_⟩
    decide +kernel
  · refine ⟨3, (allOn (eachPort SPN_STATUS_STATE 3 State.reset)), (30), ?_⟩
    decide +kernel
  · refine ⟨4, ((fun (s : State) => { s with spn := vmod s.spn 4 (fun _ => { s.spn[4] with zc := 29 }) }) (allOn
      (eachPort SPN_STATUS_STATE 3 State.reset))), (-30), ?_⟩
    decide +kernel
  · refine ⟨0, (allOn (eachPort SPN_STATUS_STATE 4 State.reset)), (100), ?_⟩
    decide +kernel
  · refine ⟨0, (allOn State.reset), ?_⟩
    decide +kernel
  · refine ⟨5, ((fun (s : State) => { s with spn := vmod s.spn 5 (fun _ => { s.spn[5] with missRun := 2 }) })
      (allOn (eachPort SPN_STATUS_STATE 5 State.reset))), ?_⟩
    decide +kernel
  · refine ⟨5, ((fun (s : State) => { s with spn := vmod s.spn 5 (fun _ => { s.spn[5] with fly := true }) })
      (allOn (eachPort SPN_STATUS_STATE 6 State.reset))), ?_⟩
    decide +kernel
  · refine ⟨5, ((fun (s : State) =>
      { s with spn := vmod s.spn 5 (fun _ => { s.spn[5] with underWay := true }) }) (allOn (eachPort
      SPN_STATUS_STATE 3 State.reset))), ?_⟩
    decide +kernel
  · refine ⟨3, (allOn (eachPort SPN_STATUS_STATE 9 State.reset)), ?_⟩
    decide +kernel
  · refine ⟨5, (allOn (eachPort SPN_STATUS_STATE 6 State.reset)), ?_⟩
    decide +kernel

/-- What SpindleProtection assumes is met, clause by clause. -/
theorem witness_SpindleProtection :
    (∃ (p : Fin 8) (s : State), s.rd (SPN_STATUS_STATE (↑p : Nat)) ≠ 9)
    ∧ (∃ (p : Fin 8) (s : State), s.portRuns p = true ∧ s.dieHeld = true)
    ∧ (∃ (p : Fin 8) (s : State), s.portRuns p = true ∧ s.dieHeld = false)
    ∧ (∃ (p : Fin 8) (s : State), s.portRuns p = true ∧ s.dieHeld = false ∧ 3 ≤ s.rd (SPN_STATUS_STATE (↑p :
      Nat)) ∧ s.rd (SPN_STATUS_STATE (↑p : Nat)) ≤ 5) := by
  refine ⟨?_, ?_, ?_, ?_⟩
  · refine ⟨1, State.reset, ?_⟩
    decide +kernel
  · refine ⟨3, ((fun (s : State) => { s with die := { s.die with cause := 5 } }) (allOn State.reset)), ?_⟩
    decide +kernel
  · refine ⟨0, (allOn State.reset), ?_⟩
    decide +kernel
  · refine ⟨6, ((State.reset.wr (PWR_DOMAIN_STATUS_BIT 8) 1).wr (SPN_STATUS_STATE 6) 4), ?_⟩
    decide +kernel

/-- What EmergencyRetract assumes is met, clause by clause. -/
theorem witness_EmergencyRetract :
    (∃ (s : State), s.die.cause = 0)
    ∧ (∃ (s : State), s.die.cause ≠ 0)
    ∧ (∃ (s : State) (vret : Bool), s.die.cause ≠ 0 ∧ s.die.cause ≤ 5 ∧ (vret = true ∨ s.flag PS_STATUS_VMOT_OK
      = true))
    ∧ (∃ (s : State), s.die.cause ≠ 0 ∧ s.flag PS_STATUS_VMOT_OK = false)
    ∧ (∃ (s : State) (p : Fin 8), s.rd (VCM_STATUS_RETRACTING (↑p : Nat)) = 1 ∧ s.die.cause = 0 ∧ s.rd
      (SPN_STATUS_STATE (↑p : Nat)) ≠ 7)
    ∧ (∃ (s : State) (holds : Bool), s.flag PS_STATUS_RETRACTED = true ∧ s.causeHolds holds = false ∧ s.regOn
      PS_RETRACT_CLR_WORD.addr = true)
    ∧ (∃ (s : State), s.dieHeld = false ∧ s.runs 14 = true) := by
  refine ⟨?_, ?_, ?_, ?_, ?_, ?_, ?_⟩
  · refine ⟨State.reset, ?_⟩
    decide +kernel
  · refine ⟨((fun (s : State) => { s with die := { s.die with cause := 1 } }) (allOn State.reset)), ?_⟩
    decide +kernel
  · refine ⟨((fun (s : State) => { s with die := { s.die with cause := 3 } }) (allOn State.reset)), true, ?_⟩
    decide +kernel
  · refine ⟨((fun (s : State) => { s with die := { s.die with cause := 1 } }) (allOn State.reset)), ?_⟩
    decide +kernel
  · refine ⟨((allOn State.reset).wr (VCM_STATUS_RETRACTING 2) 1), 2, ?_⟩
    decide +kernel
  · refine ⟨((allOn State.reset).wr PS_STATUS_RETRACTED 1), false, ?_⟩
    decide +kernel
  · refine ⟨State.reset, ?_⟩
    decide +kernel

/-- What ServoCommands assumes is met, clause by clause. -/
theorem witness_ServoCommands :
    (∃ (p : Fin 8) (s : State), s.rd (SRV_STATUS_STATE (↑p : Nat)) = 0 ∧ s.rd (SPN_STATUS_STATE (↑p : Nat)) = 5
      ∧ s.dieHeld = false ∧ 1666 ≤ s.nominalWedge p ∧ s.regOn (SRV_CMD_WORD (↑p : Nat)).addr = true)
    ∧ (∃ (p : Fin 8) (s : State), s.rd (SPN_STATUS_STATE (↑p : Nat)) ≠ 5 ∧ s.regOn (SRV_CMD_WORD (↑p :
      Nat)).addr = true)
    ∧ (∃ (p : Fin 8) (s : State), s.rd (SRV_STATUS_STATE (↑p : Nat)) ≠ 0 ∧ s.rd (SRV_STATUS_STATE (↑p : Nat)) ≠
      7 ∧ s.regOn (SRV_CMD_WORD (↑p : Nat)).addr = true)
    ∧ (∃ (p : Fin 8) (s : State) (head : Fin 16), s.seekOk p (↑head : Nat) = true ∧ s.regOn (SRV_CMD_WORD (↑p :
      Nat)).addr = true)
    ∧ (∃ (p : Fin 8) (s : State) (head : Fin 16), s.seekOk p (↑head : Nat) = false ∧ s.regOn (SRV_CMD_WORD (↑p :
      Nat)).addr = true)
    ∧ (∃ (p : Fin 8) (s : State), s.portRuns p = true ∧ s.rd (SRV_STATUS_STATE (↑p : Nat)) = 7 ∧ s.srv[p].guided
      = false ∧ s.rd (VCM_STATUS_RETRACTING (↑p : Nat)) = 0) := by
  refine ⟨?_, ?_, ?_, ?_, ?_, ?_⟩
  · refine ⟨2, (((allOn (eachPort SRV_STATUS_STATE 4 State.reset)).wr (SPN_STATUS_STATE 2) 5).wr
      (SRV_STATUS_STATE 2) 0), ?_⟩
    decide +kernel
  · refine ⟨0, (allOn (eachPort SRV_STATUS_STATE 4 State.reset)), ?_⟩
    decide +kernel
  · refine ⟨0, (allOn (eachPort SRV_STATUS_STATE 4 State.reset)), ?_⟩
    decide +kernel
  · refine ⟨4, ((allOn (eachPort SRV_STATUS_STATE 4 State.reset)).wr (SRV_FMT_HEADS 4) 9), 7, ?_⟩
    decide +kernel
  · refine ⟨3, (allOn (eachPort SRV_STATUS_STATE 4 State.reset)), 15, ?_⟩
    decide +kernel
  · refine ⟨5, ((State.reset.wr (PWR_DOMAIN_STATUS_BIT 7) 1).wr (SRV_STATUS_STATE 5) 7), ?_⟩
    decide +kernel

/-- What ServoFailures assumes is met, clause by clause. -/
theorem witness_ServoFailures :
    (∃ (p : Fin 8) (s : State), s.portRuns p = true ∧ max 1 (s.rd (SRV_LOSS_MISS_LIMIT (↑p : Nat))) ≤
      s.srv[p].badRun ∧ 3 ≤ s.rd (SRV_STATUS_STATE (↑p : Nat)) ∧ s.rd (SRV_STATUS_STATE (↑p : Nat)) ≤ 5)
    ∧ (∃ (p : Fin 8) (s : State), s.portRuns p = true ∧ s.rd (SRV_STATUS_STATE (↑p : Nat)) = 6)
    ∧ (∃ (p : Fin 8) (s : State), s.portRuns p = true ∧ s.srv[p].seeking = true ∧ s.srv[p].seekTold = false ∧
      s.rd (SRV_SEEK2_SEEK_TIMEOUT (↑p : Nat)) ≤ s.srv[p].seekWedges)
    ∧ (∃ (p : Fin 8) (s : State), s.portRuns p = true ∧ s.srv[p].seekTold = true)
    ∧ (∃ (p : Fin 8) (s : State), s.portRuns p = true ∧ (s.rd (SRV_STATUS_STATE (↑p : Nat)) = 1 ∨ s.rd
      (SRV_STATUS_STATE (↑p : Nat)) = 2) ∧ s.srv[p].loadPending = true)
    ∧ (∃ (p : Fin 8) (s : State), s.portRuns p = true)
    ∧ (∃ (p : Fin 8) (s : State), s.portRuns p = true ∧ s.shockLow = false ∧ s.srv[p].shockLeft = 0) := by
  refine ⟨?_, ?_, ?_, ?_, ?_, ?_, ?_⟩
  · refine ⟨0, (((fun (s : State) => { s with srv := vmod s.srv 0 (fun _ => { s.srv[0] with badRun := 16 }) })
      (allOn State.reset)).wr (SRV_STATUS_STATE 0) 3), ?_⟩
    decide +kernel
  · refine ⟨3, ((allOn State.reset).wr (SRV_STATUS_STATE 3) 6), ?_⟩
    decide +kernel
  · refine ⟨0, (((fun (s : State) =>
      { s with srv := vmod s.srv 0 (fun _ => { s.srv[0] with seeking := true }) }) ((fun (s : State) =>
      { s with srv := vmod s.srv 0 (fun _ => { s.srv[0] with seekWedges := 9 }) }) ((allOn State.reset).wr
      (SRV_SEEK2_SEEK_TIMEOUT 0) 7))).wr (PWR_DOMAIN_STATUS_BIT 2) 1), ?_⟩
    decide +kernel
  · refine ⟨3, ((fun (s : State) =>
      { s with srv := vmod s.srv 3 (fun _ => { s.srv[3] with seekTold := true }) }) ((fun (s : State) =>
      { s with pw := { s.pw with lostLock := 0x7#5 } }) (allOn State.reset))), ?_⟩
    decide +kernel
  · refine ⟨5, (((fun (s : State) =>
      { s with srv := vmod s.srv 5 (fun _ => { s.srv[5] with loadPending := true }) }) (allOn State.reset)).wr
      (SRV_STATUS_STATE 5) 1), ?_⟩
    decide +kernel
  · refine ⟨0, (allOn State.reset), ?_⟩
    decide +kernel
  · refine ⟨0, (allOn State.reset), ?_⟩
    decide +kernel

/-- What ServoWedges assumes is met, clause by clause. -/
theorem witness_ServoWedges :
    (∃ (p : Fin 8) (s : State), s.runs (2 + (↑p : Nat)) = true ∧ s.portRuns p = true ∧ s.rd (SRV_STATUS_STATE
      (↑p : Nat)) ≠ 0)
    ∧ (∃ (p : Fin 8) (s : State) (w : Wedge), s.runs (2 + (↑p : Nat)) = true ∧ 3 ≤ s.rd (SRV_STATUS_STATE (↑p :
      Nat)) ∧ s.rd (SRV_STATUS_STATE (↑p : Nat)) ≤ 5 ∧ (w.start = none ∨ s.rd (SRV_SAM_ERR_TOL (↑p : Nat)) <
      countIdx (s.rd (SRV_SAM_SAM_LEN (↑p : Nat))) fun i => w.cells.getD i false != (s.rd (SRV_SAM_PATTERN (↑p :
      Nat))).testBit (s.rd (SRV_SAM_SAM_LEN (↑p : Nat)) - 1 - i)))
    ∧ (∃ (p : Fin 8) (s : State) (w : Wedge), s.runs (2 + (↑p : Nat)) = true ∧ s.rd (SRV_STATUS_STATE (↑p :
      Nat)) = 4 ∧ s.srv[p].swLeft = 0 ∧ ∃ e0, e0 ∈ w.start ∧ e0.natAbs ≤ s.rd (SRV_GATE_SAM_WIN (↑p : Nat)) ∧
      s.samDiff p w.cells ≤ s.rd (SRV_SAM_ERR_TOL (↑p : Nat)) ∧ ∃ e1, e1 ∈ dibits w.cells (s.rd (SRV_SAM_SAM_LEN
      (↑p : Nat))) (s.rd (SRV_FMT_G_BITS (↑p : Nat))) ∧ dibits w.cells (s.rd (SRV_SAM_SAM_LEN (↑p : Nat)) + 2 *
      s.rd (SRV_FMT_G_BITS (↑p : Nat))) (s.rd (SRV_FMT_W_BITS (↑p : Nat))) = some s.srv[p].expected ∧ ungray
      (s.rd (SRV_FMT_G_BITS (↑p : Nat))) e1 / 2 ≤ s.rd (SRV_MAXTRACK_MAX_TRACK (↑p : Nat)) ∧
      let cell : Nat := s.rd (SRV_CELLS_CELL (↑p : Nat));
      let x : Nat → List Int := fun k => s.cellSamples p (s.rd (SRV_CELLS_BURST (↑p : Nat))) (w.bursts.getD k []);
      let fits : Int → Prop := fun i => -2147483648 ≤ i ∧ i ≤ 2147483647;
      let a : Nat → Nat := fun k => burstAmp (s.rd (SRV_CELLS_SHIFT (↑p : Nat))) (dftSum (dftCos cell) (x k), dftSum (dftSin cell) (x k));
      let n : Int := (↑(a 0) : Int) - (↑(a 1) : Int); let q : Int := (↑(a 2) : Int) - (↑(a 3) : Int); (∀ (k :
      Fin 4), fits (dftSum (dftCos cell) (x (↑k : Nat))) ∧ fits (dftSum (dftSin cell) (x (↑k : Nat)))) ∧ s.rd
      (SRV_LOSS_BURST_MIN (↑p : Nat)) ≤ n.natAbs + q.natAbs) := by
  refine ⟨?_, ?_, ?_⟩
  · refine ⟨5, (allOn (eachPort SRV_SAM_SAM_LEN 8 (eachPort SRV_CELLS_BURST 0 (eachPort SRV_FMT_G_BITS 12
      (eachPort SRV_MAXTRACK_MAX_TRACK 1000 (eachPort SRV_STATUS_STATE 1 State.reset)))))), ?_⟩
    decide +kernel
  · refine ⟨5, (allOn (eachPort SRV_SAM_SAM_LEN 8 (eachPort SRV_CELLS_BURST 0 (eachPort SRV_FMT_G_BITS 12
      (eachPort SRV_MAXTRACK_MAX_TRACK 1000 (eachPort SRV_STATUS_STATE 3 State.reset)))))),
      { start := some 0, cells := [false, false, false, false, false, false, false, false, false, true, false, true, false, true, false, true, false, true, false, true, false, true, false, true, false, true, false, true, false, true, false, true, false, true, false, true, false, true, false, true, false, true, false, true, false, true, false, true, false, true, false, true, false, true, false, true, false, true, false, true, false, true, false, true, false, true, false, true, false, true, false, true, false, true, false, true, false, true, false, true, false, true, false, true, false, true, false, true], pre := (List.replicate 64 ([3, -3, 4])), bursts := [] },
      ?_⟩
    decide +kernel
  · refine ⟨0, ((((((allOn State.reset).wr (SRV_STATUS_STATE 0) 4).wr (SRV_SAM_SAM_LEN 0) 0).wr (SRV_FMT_G_BITS
      0) 0).wr (SRV_FMT_W_BITS 0) 0).wr (SRV_LOSS_BURST_MIN 0) 0),
      { start := some 0, cells := [], pre := [], bursts := [] }, ?_⟩
    decide +kernel

/-- What ControlEngine assumes is met, clause by clause. -/
theorem witness_ControlEngine :
    (∃ (s : State), s.runs 14 = true ∧ ∃ e2, e2 ∈ s.dropIdle.pickReq 0 ∧ True)
    ∧ (∃ (s : State), s.runs 14 = true ∧ s.dropIdle.topClass = some 1 ∧ ∃ e3, e3 ∈ s.dropIdle.pickReq 1 ∧
      ctxKind (ctxOf e3.ctx) = 2)
    ∧ (∃ (s : State), s.runs 14 = true ∧ s.dropIdle.topClass = some 2 ∧ ∃ e4, e4 ∈ s.dropIdle.pickReq 2 ∧
      ctxKind (ctxOf e4.ctx) ≠ 2)
    ∧ (∃ (s : State), s.runs 14 = true ∧ s.rd SCE_STATUS_INIT_DONE = 1)
    ∧ (∃ (s : State), s.runs 14 = true ∧ s.rd SCE_STATUS_INIT_DONE = 0)
    ∧ (∃ (s : State), s.runs 14 = true)
    ∧ (∃ (s : State) (w : Fin 32), s.runs 14 = true ∧ s.flag SCE_STATUS_INIT_DONE = true ∧ (↑w : Nat) < 18 ∧ (↑w
      : Nat) ≠ 7)
    ∧ (∃ (s : State), s.runs 14 = true ∧ s.flag SCE_STATUS_INIT_DONE = true) := by
  refine ⟨?_, ?_, ?_, ?_, ?_, ?_, ?_, ?_⟩
  · refine ⟨(withCtxOn (allOn
      { (eachPort VCM_CTRL_ENABLE 1 (eachPort SPN_STATUS_STATE 4 (eachPort SRV_STATUS_STATE 4 ((State.reset.wr SCE_STATUS_INIT_DONE 1))))) with sce := { queue := [⟨0, 0, 500⟩] } })),
      ?_⟩
    decide +kernel
  · refine ⟨(withCtxOn (allOn
      { (eachPort VCM_CTRL_ENABLE 1 (eachPort SPN_STATUS_STATE 4 (eachPort SRV_STATUS_STATE 4 ((State.reset.wr SCE_STATUS_INIT_DONE 1))))) with sce := { queue := [⟨2, 0, 100⟩] } })),
      ?_⟩
    decide +kernel
  · refine ⟨(withCtxOn (allOn
      { (eachPort VCM_CTRL_ENABLE 1 (eachPort SPN_STATUS_STATE 4 (eachPort SRV_STATUS_STATE 4 ((State.reset.wr SCE_STATUS_INIT_DONE 1))))) with sce := { queue := [⟨1, 0, -700⟩] } })),
      ?_⟩
    decide +kernel
  · refine
      ⟨{ (eachPort SPN_STATUS_STATE 4 (eachPort SRV_STATUS_STATE 4 ((State.reset.wr SCE_STATUS_INIT_DONE 1)))) with sce := { queue := [⟨0, 0, 500⟩] } },
      ?_⟩
    decide +kernel
  · refine ⟨State.reset, ?_⟩
    decide +kernel
  · refine ⟨State.reset, ?_⟩
    decide +kernel
  · refine
      ⟨{ (eachPort SPN_STATUS_STATE 4 (eachPort SRV_STATUS_STATE 4 ((State.reset.wr SCE_STATUS_INIT_DONE 1)))) with sce := { queue := [⟨0, 0, 500⟩] } },
      3, ?_⟩
    decide +kernel
  · refine
      ⟨{ (eachPort SPN_STATUS_STATE 4 (eachPort SRV_STATUS_STATE 4 ((State.reset.wr SCE_STATUS_INIT_DONE 1)))) with sce := { queue := [⟨0, 0, 500⟩] } },
      ?_⟩
    decide +kernel

/-- What ChannelZones assumes is met, clause by clause. -/
theorem witness_ChannelZones :
    (∃ (p : Fin 8) (s : State), s.rd (CH_STATUS_RG (↑p : Nat)) = 0 ∧ s.rd (CH_STATUS_WG (↑p : Nat)) = 0 ∧
      s.regOn (CH_ZONE_WORD (↑p : Nat)).addr = true)
    ∧ (∃ (p : Fin 8) (s : State), (s.rd (CH_STATUS_RG (↑p : Nat)) = 1 ∨ s.rd (CH_STATUS_WG (↑p : Nat)) = 1) ∧
      s.regOn (CH_ZONE_WORD (↑p : Nat)).addr = true)
    ∧ (∃ (p : Fin 8) (s : State), ∃ e5, e5 ∈ s.ch[p].held ∧ e5 < 32 ∧ s.rd (CH_STATUS_RG (↑p : Nat)) = 0 ∧ s.rd
      (CH_STATUS_WG (↑p : Nat)) = 0 ∧ s.runs (2 + (↑p : Nat)) = true)
    ∧ (∃ (p : Fin 8) (s : State), ∃ e6, e6 ∈ s.ch[p].loading ∧ s.runs (2 + (↑p : Nat)) = true)
    ∧ (∃ (p : Fin 8) (s : State) (i : Fin 12), s.regOn (EQ_TAP_WORD (↑p : Nat) (↑i : Nat)).addr = true) := by
  refine ⟨?_, ?_, ?_, ?_, ?_⟩
  · refine ⟨0, (allOn State.reset), ?_⟩
    decide +kernel
  · refine ⟨2, ((allOn State.reset).wr (CH_STATUS_RG 2) 1), ?_⟩
    decide +kernel
  · refine ⟨0, ((fun (s : State) => { s with ch := vmod s.ch 0 (fun _ => { s.ch[0] with held := (some 0) }) })
      (allOn State.reset)), ?_⟩
    decide +kernel
  · refine ⟨0, ((fun (s : State) =>
      { s with ch := vmod s.ch 0 (fun _ => { s.ch[0] with loading := (some 9) }) }) (allOn State.reset)), ?_⟩
    decide +kernel
  · refine ⟨3, (allOn State.reset), 11, ?_⟩
    decide +kernel

/-- What ChannelLoops assumes is met, clause by clause. -/
theorem witness_ChannelLoops :
    (∃ (p : Fin 8) (s : State), s.runs (2 + (↑p : Nat)) = true ∧ s.rd (CH_STATUS_RG (↑p : Nat)) = 1 ∧ s.rd
      (AGC_ENV_PIN_EN (↑p : Nat)) = 0 ∧ ∃ e7, e7 ∈ s.ch[p].agcWin ∧ 0 < e7.snd ∧ True)
    ∧ (∃ (p : Fin 8) (s : State), s.runs (2 + (↑p : Nat)) = true ∧ (s.rd (AGC_ENV_PIN_EN (↑p : Nat)) = 1 ∨ s.rd
      (CH_STATUS_RG (↑p : Nat)) = 0))
    ∧ (∃ (p : Fin 8) (s : State), s.runs (2 + (↑p : Nat)) = true ∧ 0 ≤ s.ch[p].acc ∧ s.ch[p].acc < 16777216 ∧ 0
      ≤ (↑(s.rd (CH_NCO_STEP (↑p : Nat))) : Int) + s.rdI (TR_STATUS_FREQ (↑p : Nat)) ∧ True)
    ∧ (∃ (p : Fin 8) (s : State), s.runs (2 + (↑p : Nat)) = true ∧ s.rd (CH_STATUS_RG (↑p : Nat)) = 1 ∧ s.rd
      (TR_CFG_FREQ_LIM (↑p : Nat)) < 32768 ∧ True)
    ∧ (∃ (p : Fin 8) (s : State), s.runs (2 + (↑p : Nat)) = true ∧ s.rd (CH_STATUS_RG (↑p : Nat)) = 1 ∧ s.rd
      (CH_STATUS_SYNC_FOUND (↑p : Nat)) = 1 ∧ ∃ e8, e8 ∈ s.ch[p].lastSym ∧ s.rd (EQ_CFG_FREEZE (↑p : Nat)) = 0)
    ∧ (∃ (p : Fin 8) (s : State), s.runs (2 + (↑p : Nat)) = true ∧ s.rd (EQ_CFG_FREEZE (↑p : Nat)) = 1)
    ∧ (∃ (p : Fin 8) (s : State), s.runs (2 + (↑p : Nat)) = true ∧ s.rd (CH_STATUS_RG (↑p : Nat)) = 1 ∧
      s.ch[p].syncAt.isSome = true)
    ∧ (∃ (p : Fin 8) (s : State), s.runs (2 + (↑p : Nat)) = true ∧ s.rd (CH_STATUS_RG (↑p : Nat)) = 1 ∧
      s.ch[p].syncAt = none ∧ s.ch[p].missed = false ∧ 8 * s.rd (CH_FRAME_PRE_LEN (↑p : Nat)) + s.rd
      (CH_FRAME_SYNC_WIN (↑p : Nat)) + 32 ≤ s.ch[p].equalized) := by
  refine ⟨?_, ?_, ?_, ?_, ?_, ?_, ?_, ?_⟩
  · refine ⟨2, (allOn (withChan (fun c => { c with agcWin := some (900, 8) }) (eachPort CH_STATUS_RG 1 (eachPort
      CH_STATUS_SYNC_FOUND 0 (slotsIn 1 State.reset))))), ?_⟩
    decide +kernel
  · refine ⟨0, (allOn State.reset), ?_⟩
    decide +kernel
  · refine ⟨3, (allOn State.reset), ?_⟩
    decide +kernel
  · refine ⟨0, (allOn (withChan (fun c => { c with agcWin := some (900, 8) }) (eachPort CH_STATUS_RG 1 (eachPort
      CH_STATUS_SYNC_FOUND 0 (slotsIn 1 State.reset))))), ?_⟩
    decide +kernel
  · refine ⟨0, (allOn (withChan (fun c =>
      { c with lastSym := some { x := [3, 4, 5, -6, 0, 0, 0, 0, 0, 0, 0, 0], erased := false, a0 := true, a1 := false, a2 := false } })
      (eachPort CH_STATUS_RG 1 (eachPort CH_STATUS_SYNC_FOUND 1 (slotsIn 1 State.reset))))), ?_⟩
    decide +kernel
  · refine ⟨2, (((fun (s : State) => { s with pw := { s.pw with sleep := .idle } }) (allOn (withChan (fun c =>
      { c with lastSym := some { x := [3, 4, 5, -6, 0, 0, 0, 0, 0, 0, 0, 0], erased := false, a0 := true, a1 := false, a2 := false } })
      (eachPort CH_STATUS_RG 1 (eachPort CH_STATUS_SYNC_FOUND 1 (slotsIn 1 State.reset)))))).wr (EQ_CFG_FREEZE
      2) 1), ?_⟩
    decide +kernel
  · refine ⟨4, (allOn (withChan (fun c => { c with syncAt := some 40, equalized := 900 }) (eachPort CH_STATUS_RG
      1 (eachPort CH_STATUS_SYNC_FOUND 1 (slotsIn 1 State.reset))))), ?_⟩
    decide +kernel
  · refine ⟨1, (allOn (withChan (fun c => { c with equalized := 4000 }) (eachPort CH_STATUS_RG 1 (eachPort
      CH_STATUS_SYNC_FOUND 0 (slotsIn 1 State.reset))))), ?_⟩
    decide +kernel

/-- What ChannelGates assumes is met, clause by clause. -/
theorem witness_ChannelGates :
    (∃ (p : Fin 8) (s : State), s.portRuns p = true ∧ s.runs (2 + (↑p : Nat)) = true)
    ∧ (∃ (p : Fin 8) (s : State), s.portRuns p = true ∧ s.runs (2 + (↑p : Nat)) = true ∧
      let j : Nat := s.ch[p].slot; codeBits (s.flag (CH_AFE_CODE (↑p : Nat))) ≤ s.ch[p].llrs ∧ s.ch[p].llrDone =
      false ∧ s.rd (IDU_SLOT_STATE j) = 1 ∧ j < 48 ∧ s.rd (IDU_SLOT_OWNER j) = (↑p : Nat))
    ∧ (∃ (p : Fin 8) (s : State), s.portRuns p = true ∧ s.runs (2 + (↑p : Nat)) = true ∧ ∃ e9, e9 ∈ startedGate
      false s.fmt[p].gates ∧ ∃ e0, e0 ∈ (s.portAlloc p).fst ∧ True)
    ∧ (∃ (p : Fin 8) (s : State), s.portRuns p = true ∧ s.runs (2 + (↑p : Nat)) = true ∧ ∃ e1, e1 ∈ startedGate
      false s.fmt[p].gates ∧ (s.portAlloc p).fst = none)
    ∧ (∃ (p : Fin 8) (s : State), s.portRuns p = true ∧ s.runs (2 + (↑p : Nat)) = true ∧ s.rd (CH_STATUS_RG (↑p
      : Nat)) = 1 ∧ s.ch[p].slot < 48 ∧ True)
    ∧ (∃ (p : Fin 8) (s : State), s.portRuns p = true ∧ s.runs (2 + (↑p : Nat)) = true ∧ ∃ e2, e2 ∈ startedGate
      true s.fmt[p].gates ∧ s.rd (SRV_STATUS_WI_LATCH (↑p : Nat)) = 0 ∧ s.srv[p].gateOpen = false ∧ s.rd
      (CH_STATUS_FLT (↑p : Nat)) = 0 ∧ s.rd (CH_STATUS_PA_FRAMES_PENDING (↑p : Nat)) = 0 ∧ s.rd
      CLK_STATUS_LINE_LOCK = 1)
    ∧ (∃ (p : Fin 8) (s : State), s.portRuns p = true ∧ s.runs (2 + (↑p : Nat)) = true ∧ ∃ e3, e3 ∈ startedGate
      true s.fmt[p].gates ∧ (s.rd (SRV_STATUS_WI_LATCH (↑p : Nat)) = 1 ∨ s.srv[p].gateOpen = true ∨ s.rd
      (CH_STATUS_FLT (↑p : Nat)) = 1 ∨ s.rd (CH_STATUS_PA_FRAMES_PENDING (↑p : Nat)) = 1 ∨ s.rd
      CLK_STATUS_LINE_LOCK = 0))
    ∧ (∃ (p : Fin 8) (s : State) (block : List Byte) (k : Nat), s.portRuns p = true ∧ s.runs (2 + (↑p : Nat)) =
      true ∧ let all : List Bool := s.sectorBits p block; ∃ e4, e4 ∈ all[k]? ∧ ∃ e5, e5 ∈ all[k + 1]? ∧ ∃ e6, e6
      ∈ all[k + 2]? ∧ ∃ e7, e7 ∈ all[k + 3]? ∧ True)
    ∧ (∃ (p : Fin 8) (s : State), s.portRuns p = true ∧ s.runs (2 + (↑p : Nat)) = true ∧ s.ch[p].writing = true
      ∧ s.ch[p].cut = true)
    ∧ (∃ (p : Fin 8) (s : State), s.portRuns p = true ∧ s.runs (2 + (↑p : Nat)) = true ∧ s.ch[p].writing = true
      ∧ s.ch[p].cut = false)
    ∧ (∃ (p : Fin 8) (s : State), s.portRuns p = true ∧ s.runs (2 + (↑p : Nat)) = true ∧ s.rd (PA_STATUS_BUSY
      (↑p : Nat)) = 0 ∧ s.regOn (PA_CMD_WORD (↑p : Nat)).addr = true)
    ∧ (∃ (p : Fin 8) (s : State), s.portRuns p = true ∧ s.runs (2 + (↑p : Nat)) = true ∧ s.rd (PA_STATUS_BUSY
      (↑p : Nat)) = 1 ∧ s.regOn (PA_CMD_WORD (↑p : Nat)).addr = true)
    ∧ (∃ (p : Fin 8) (s : State) (f : PaFrame), s.portRuns p = true ∧ s.runs (2 + (↑p : Nat)) = true ∧
      s.ch[p].current = none ∧ (List.find? (fun f => f.kind == 0) s.ch[p].frames = some f ∨ List.find? (fun f =>
      f.kind == 0) s.ch[p].frames = none ∧ List.find? (fun f => f.kind == 1) s.ch[p].frames = some f ∨ (∀ (x :
      PaFrame), x ∈ s.ch[p].frames → 2 ≤ x.kind) ∧ s.ch[p].frames.head? = some f))
    ∧ (∃ (p : Fin 8) (s : State), s.portRuns p = true ∧ s.runs (2 + (↑p : Nat)) = true ∧ ∃ e8, e8 ∈
      s.ch[p].current ∧ True) := by
  refine ⟨?_, ?_, ?_, ?_, ?_, ?_, ?_, ?_, ?_, ?_, ?_, ?_, ?_, ?_⟩
  · refine ⟨4, (allOn (withGate { aGate with write := false, started := true } State.reset)), ?_⟩
    decide +kernel
  · refine ⟨0, (allOn (withChan (fun c => { c with llrs := 50000 }) (withGate
      { aGate with started := true, isOpen := true } (eachPort CH_STATUS_RG 1 (slotsIn 1 State.reset))))), ?_⟩
    decide +kernel
  · refine ⟨4, (allOn (withGate { aGate with write := false, started := true } State.reset)), ?_⟩
    decide +kernel
  · refine ⟨3, (allOn (withGate { aGate with started := true } (slotsIn 2 State.reset))), ?_⟩
    decide +kernel
  · refine ⟨3, (allOn ((eachPort CH_STATUS_RG 1 (eachPort CH_STATUS_SYNC_FOUND 1 (slotsIn 1 State.reset))))),
      ?_⟩
    decide +kernel
  · refine ⟨0, (((fun (s : State) => { s with pw := { s.pw with lostLock := 0x0#5 } }) (allOn (withGate
      { aGate with write := true, started := true } State.reset))).wr CLK_STATUS_LINE_LOCK 1), ?_⟩
    decide +kernel
  · refine ⟨4, (allOn (withGate { aGate with write := true, started := true } State.reset)), ?_⟩
    decide +kernel
  · refine ⟨3, (allOn (withGate { aGate with write := false, started := true } State.reset)), (List.replicate 32
      0x1#8), 0, ?_⟩
    decide +kernel
  · refine ⟨6, (allOn (withChan (fun c => { c with writing := true, cut := true }) (withGate
      { aGate with write := true, started := true, isOpen := true } State.reset))), ?_⟩
    decide +kernel
  · refine ⟨0, (allOn (withChan (fun c => { c with writing := true }) (withGate
      { aGate with write := true, started := true, isOpen := true } State.reset))), ?_⟩
    decide +kernel
  · refine ⟨3, (allOn (withGate { aGate with write := false, started := true } State.reset)), ?_⟩
    decide +kernel
  · refine ⟨4, ((allOn (withChan (fun c => { c with current := some { frame := 0x8123, kind := 3 } })
      State.reset)).wr (PA_STATUS_BUSY 4) 1), ?_⟩
    decide +kernel
  · refine ⟨4, ((fun (s : State) =>
      { s with ch := vmod s.ch 4 (fun _ => { s.ch[4] with frames := (List.replicate 32 ({ kind := 0, frame := 0 })) }) })
      ((fun (s : State) => { s with ch := vmod s.ch 4 (fun _ => { s.ch[4] with current := none }) }) (allOn
      (withChan (fun c => { c with llrs := 50000, llrDone := true }) (withGate
      { aGate with started := true, isOpen := true } (eachPort CH_STATUS_RG 1 (slotsIn 1 State.reset))))))),
      ({ kind := 0, frame := 0 }), ?_⟩
    decide +kernel
  · refine ⟨4, (allOn (withChan (fun c => { c with current := some { frame := 0x8123, kind := 0 } })
      State.reset)), ?_⟩
    decide +kernel

/-- What IduSlots assumes is met, clause by clause. -/
theorem witness_IduSlots :
    (∃ (s : State) (j : Fin 48), s.runs 10 = true ∧ s.rd (IDU_SLOT_STATE (↑j : Nat)) = 0 ∧ ∀ (i : Fin 48), i < j
      → s.rd (IDU_SLOT_STATE (↑i : Nat)) ≠ 0)
    ∧ (∃ (s : State), s.runs 10 = true ∧ ∀ (i : Fin 48), s.rd (IDU_SLOT_STATE (↑i : Nat)) ≠ 0)
    ∧ (∃ (s : State) (j : Fin 64), s.runs 10 = true ∧ (↑j : Nat) < 48 ∧ s.rd (IDU_SLOT_STATE (↑j : Nat)) ≠ 3 ∧
      s.rd (IDU_SLOT_STATE (↑j : Nat)) ≠ 4 ∧ s.rd (IDU_SLOT_STATE (↑j : Nat)) ≠ 0)
    ∧ (∃ (s : State) (j : Fin 64) (i : Fin 6), s.runs 10 = true ∧ ∃ e9, e9 ∈ s.idu.running[i] ∧ e9.slot = (↑j :
      Nat) ∧ (↑j : Nat) < 48 ∧ e9.released = [] ∧ s.rd (IDU_SLOT_STATE (↑j : Nat)) = 4)
    ∧ (∃ (s : State) (j : Fin 48), s.runs 10 = true ∧ ∃ e0, e0 ∈ s.idu.accepted.head? ∧ s.idu.accepted.tail = []
      ∧ s.idu.reissue = [] ∧ s.idu.redisp = [] ∧ (∀ (i : Fin 6), s.idu.running[i] = none) ∧ e0.released = [(↑j :
      Nat)] ∧ e0.slot = (↑j : Nat) ∧ e0.mirror = false ∧ (∀ (h : Nat × List Byte), h ∈ s.idu.held → h.fst ≠
      complRing e0.ring) ∧ s.enqTest (complRing e0.ring) = EnqResult.ok)
    ∧ (∃ (s : State) (n : Fin 9), s.runs 10 = true ∧ ∃ e2, e2 ∈ (s.dequeue (if (↑n : Nat) = 8 then 208 else 192
      + (↑n : Nat))).fst ∧ let ring : Nat := if (↑n : Nat) = 8 then 208 else 192 + (↑n : Nat);
      let x : Job := jobOf ring (bits e2); poisoned e2 = false ∧ (s.dequeue (if (↑n : Nat) = 8 then 208 else 192
      + (↑n : Nat))).snd.jobSlotOk ring x.slot = true ∧ jobReserved (bits e2) = false ∧ x.mirror = false)
    ∧ (∃ (s : State) (n : Fin 9), s.runs 10 = true ∧ ∃ e3, e3 ∈ (s.dequeue (if (↑n : Nat) = 8 then 208 else 192
      + (↑n : Nat))).fst ∧ let ring : Nat := if (↑n : Nat) = 8 then 208 else 192 + (↑n : Nat);
      let x : Job := jobOf ring (bits e3); poisoned e3 = false ∧ (s.dequeue (if (↑n : Nat) = 8 then 208 else 192
      + (↑n : Nat))).snd.jobSlotOk ring x.slot = false ∧ (∀ (h : Nat × List Byte), h ∈ (s.dequeue (if (↑n : Nat)
      = 8 then 208 else 192 + (↑n : Nat))).snd.idu.held → h.fst ≠ complRing ring) ∧ (s.dequeue (if (↑n : Nat) =
      8 then 208 else 192 + (↑n : Nat))).snd.enqTest (complRing ring) = EnqResult.ok)
    ∧ (∃ (s : State) (i : Fin 6), s.runs 10 = true ∧ ∃ e4, e4 ∈ s.idu.accepted.head? ∧ s.idu.accepted.tail = []
      ∧ s.fenced i = false ∧ s.idu.running[i] = none ∧ s.idu.kat[i] = 0 ∧ s.idu.katDue.getLsbD (↑i : Nat) =
      false ∧ s.idu.katLate.getLsbD (↑i : Nat) = false ∧ s.idu.reissue = [] ∧ s.idu.redisp = [] ∧ 192 ≤ e4.ring
      ∧ e4.ring < 200 ∧ e4.slot < 48 ∧ e4.mirror = false ∧ e4.released = [] ∧ e4.redone = false ∧ e4.again =
      false)
    ∧ (∃ (s : State) (i : Fin 6), s.runs 10 = true ∧ s.idu.accepted = [] ∧ s.idu.reissue = [] ∧ ∃ e5, e5 ∈
      s.idu.redisp.head? ∧ s.idu.redisp.tail = [] ∧ s.fenced i = false ∧ s.idu.running[i] = none ∧ s.idu.kat[i]
      = 0 ∧ s.idu.katDue.getLsbD (↑i : Nat) = false ∧ s.idu.katLate.getLsbD (↑i : Nat) = false ∧ e5.slot < 48 ∧
      e5.mirror = false ∧ e5.released = [] ∧ e5.redone = true ∧ e5.again = false)
    ∧ (∃ (s : State) (i : Fin 6), s.runs 10 = true ∧ ∃ e6, e6 ∈ s.idu.running[i] ∧ e6.released = [] ∧ e6.mirror
      = false ∧ e6.usePrior = false ∧ e6.keep = false ∧ e6.slot < 48 ∧ s.ecc = [] ∧ s.rd (IDU_SLOT_STATE
      e6.slot) ≠ 7 ∧ (∀ (h : Nat × List Byte), h ∈ s.idu.held → h.fst ≠ complRing e6.ring) ∧ s.enqTest
      (complRing e6.ring) = EnqResult.ok ∧ True)
    ∧ (∃ (s : State) (j : Fin 48), s.runs 10 = true ∧ s.rd (IDU_SLOT_STATE (↑j : Nat)) ≠ 0)
    ∧ (∃ (s : State), s.runs 10 = true ∧ s.idu.held ≠ [])
    ∧ (∃ (s : State), s.runs 10 = true ∧ ∃ e7, e7 ∈ s.idu.held.head? ∧ s.idu.held.tail = [] ∧ e7.snd.length = 16
      ∧ s.enqTest e7.fst = EnqResult.ok)
    ∧ (∃ (s : State), s.runs 10 = true ∧ ∃ e8, e8 ∈ s.idu.held.head? ∧ s.idu.held.tail = [] ∧ s.enqTest e8.fst ≠
      EnqResult.ok)
    ∧ (∃ (s : State), s.runs 10 = true ∧ s.rd LLR_WIN_ADDR_SLOT < 48 ∧ (s.rd (IDU_SLOT_STATE (s.rd
      LLR_WIN_ADDR_SLOT)) = 2 ∨ s.rd (IDU_SLOT_STATE (s.rd LLR_WIN_ADDR_SLOT)) = 6) ∧ s.rd (IDU_SLOT_OWNER (s.rd
      LLR_WIN_ADDR_SLOT)) = 9)
    ∧ (∃ (s : State), s.runs 10 = true ∧ s.rd LLR_WIN_ADDR_SLOT < 48 ∧ s.ecc = []) := by
  refine ⟨?_, ?_, ?_, ?_, ?_, ?_, ?_, ?_, ?_, ?_, ?_, ?_, ?_, ?_, ?_, ?_⟩
  · refine ⟨(allOn State.reset), 0, ?_⟩
    decide +kernel
  · refine ⟨(allOn (slotsIn 2 State.reset)), ?_⟩
    decide +kernel
  · refine ⟨(allOn (slotsIn 2 State.reset)), 46, ?_⟩
    decide +kernel
  · refine ⟨(allOn (withRing 200 16 1 0 0
      { (State.reset.wr (IDU_SLOT_STATE 0) 4) with idu := { running := #v[some aJob, none, none, none, none, none] } })),
      0, 0, ?_⟩
    decide +kernel
  · refine ⟨(allOn (withRing 200 8 1 0 0
      { State.reset with idu := { accepted := [{ aJob with released := [0] }] } })), 0, ?_⟩
    decide +kernel
  · refine ⟨(allOn (withEntry 192 8 6 (leBytes 2 7 ++ leBytes 14 0) (State.reset.wr (IDU_SLOT_STATE 0) 2))), 0,
      ?_⟩
    decide +kernel
  · refine ⟨(allOn (withRing 200 16 1 0 0 (withEntry 192 8 6 (leBytes 2 7 ++ leBytes 14 0) State.reset))), 0,
      ?_⟩
    decide +kernel
  · refine ⟨(allOn ({ State.reset with idu := { accepted := [aJob] } })), 3, ?_⟩
    decide +kernel
  · refine ⟨(allOn
      { (slotsIn 3 State.reset) with idu := { redisp := [{ aJob with redone := true, again := false }] } }), 5,
      ?_⟩
    decide +kernel
  · refine ⟨(withRing 200 16 1 0 0 (allOn
      { (slotsIn 4 State.reset) with idu := { running := #v[some { aJob with limit := 1 }, none, none, none, none, none], slots := Vector.replicate 48 { inp := List.replicate 41120 5 } } })),
      0, ?_⟩
    decide +kernel
  · refine ⟨(allOn (slotsIn 2 State.reset)), 29, ?_⟩
    decide +kernel
  · refine ⟨(allOn (withRing 200 8 1 0 0 { State.reset with idu := { held := [(200, leBytes 16 5)] } })), ?_⟩
    decide +kernel
  · refine ⟨(allOn (withRing 200 8 1 0 0 { State.reset with idu := { held := [(200, leBytes 16 5)] } })), ?_⟩
    decide +kernel
  · refine ⟨((fun (s : State) => { s with idu := { s.idu with held := [(10, [0xa#8])] } }) (withRing 200 16 1 0
      0 (allOn
      { (slotsIn 4 State.reset) with idu := { running := #v[some { aJob with redone := true }, none, none, none, none, none], slots := Vector.replicate 48 { inp := List.replicate 41120 5 } } }))),
      ?_⟩
    decide +kernel
  · refine ⟨((((withRing 200 16 1 0 0 (allOn
      { (slotsIn 4 State.reset) with idu := { running := #v[some { aJob with redone := true }, none, none, none, none, none], slots := Vector.replicate 48 { inp := List.replicate 41120 5 } } })).wr
      LLR_WIN_ADDR_SLOT 7).wr (IDU_SLOT_STATE 7) 2).wr (IDU_SLOT_OWNER 7) 9), ?_⟩
    decide +kernel
  · refine ⟨(allOn (slotsIn 2 State.reset)), ?_⟩
    decide +kernel

/-- What IduFences assumes is met, clause by clause. -/
theorem witness_IduFences :
    (∃ (s : State), s.runs 10 = true ∧ True)
    ∧ (∃ (i : Fin 6) (s : State), s.runs 10 = true ∧ ∃ e9, e9 ∈ s.idu.running[i] ∧ True)
    ∧ (∃ (s : State), s.runs 10 = true)
    ∧ (∃ (i : Fin 6) (s : State), s.runs 10 = true ∧ s.fenced i = true ∧ s.idu.kat[i] = 0 ∧ s.idu.running[i] =
      none)
    ∧ (∃ (i : Fin 6) (s : State), s.runs 10 = true ∧ s.idu.kat[i] = 0 ∧ s.idu.running[i] = none)
    ∧ (∃ (i : Fin 6) (s : State), s.runs 10 = true ∧ s.idu.kat[i] = 0 ∧ s.idu.running[i] ≠ none)
    ∧ (∃ (s : State), s.runs 10 = true ∧ s.rd IDU_KAT_PERIOD ≠ 0 ∧ s.idu.katTurn = [])
    ∧ (∃ (s : State), s.runs 10 = true ∧ ∃ e0, e0 ∈ s.idu.katTurn.head? ∧ ∃ e1, e1 ∈ s.idu.katTurn.tail.head? ∧
      e1 ≠ e0 ∧ s.idu.kat[e0] = 1 ∧ s.idu.kat[e1] = 0 ∧ s.idu.running[e1] = none)
    ∧ (∃ (i : Fin 6) (s : State), s.runs 10 = true ∧ s.idu.katDue.getLsbD (↑i : Nat) = true)
    ∧ (∃ (i : Fin 6) (s : State), s.runs 10 = true ∧ s.idu.kat[i] = 1 ∧ s.idu.katTurn = [])
    ∧ (∃ (i : Fin 6) (s : State), s.runs 10 = true ∧ s.idu.kat[i] = 2 ∧ s.idu.katTurn = [])
    ∧ (∃ (i : Fin 6) (s : State), s.runs 10 = true ∧ (s.idu.kat[i] = 1 ∨ s.idu.kat[i] = 2) ∧ s.idu.katTurn = []) := by
  refine ⟨?_, ?_, ?_, ?_, ?_, ?_, ?_, ?_, ?_, ?_, ?_, ?_⟩
  · refine ⟨(allOn { State.reset with idu := { katTurn := [0, 1, 2], kat := #v[1, 0, 0, 0, 0, 0] } }), ?_⟩
    decide +kernel
  · refine ⟨1, (allOn
      { State.reset with idu := { katTurn := [0, 3], kat := #v[1, 0, 0, 0, 0, 0], running := #v[none, some aJob, none, none, none, none] } }),
      ?_⟩
    decide +kernel
  · refine ⟨(allOn { State.reset with idu := { katTurn := [0, 1, 2], kat := #v[1, 0, 0, 0, 0, 0] } }), ?_⟩
    decide +kernel
  · refine ⟨3, (((fun (s : State) =>
      { s with idu := { s.idu with katTurn := [0, 1, 2], kat := #v[1, 0, 0, 0, 0, 0], katDue := 2#6 } }) (allOn
      State.reset)).wr IDU_FENCE_FENCED 9), ?_⟩
    decide +kernel
  · refine ⟨1, (allOn { State.reset with idu := { katTurn := [0, 1, 2], kat := #v[1, 0, 0, 0, 0, 0] } }), ?_⟩
    decide +kernel
  · refine ⟨1, (allOn
      { State.reset with idu := { katTurn := [0, 3], kat := #v[1, 0, 0, 0, 0, 0], running := #v[none, some aJob, none, none, none, none] } }),
      ?_⟩
    decide +kernel
  · refine ⟨(allOn
      { State.reset with idu := { katDue := 3#6, running := #v[none, some aJob, none, none, none, none] } }),
      ?_⟩
    decide +kernel
  · refine ⟨(allOn { State.reset with idu := { katTurn := [0, 1, 2], kat := #v[1, 0, 0, 0, 0, 0] } }), ?_⟩
    decide +kernel
  · refine ⟨0, (allOn
      { State.reset with idu := { katDue := 3#6, running := #v[none, some aJob, none, none, none, none] } }),
      ?_⟩
    decide +kernel
  · refine ⟨3, ((fun (s : State) => { s with idu := { s.idu with kat := vmod s.idu.kat 3 (fun _ => 1) } }) ((fun
      (s : State) => { s with idu := { s.idu with katTurn := [] } }) (allOn
      { State.reset with idu := { katTurn := [0, 1, 2], kat := #v[1, 0, 0, 0, 0, 0] } }))), ?_⟩
    decide +kernel
  · refine ⟨1, ((fun (s : State) => { s with idu := { s.idu with kat := vmod s.idu.kat 1 (fun _ => 2) } })
      (allOn
      { State.reset with idu := { katDue := 3#6, running := #v[none, some aJob, none, none, none, none] } })),
      ?_⟩
    decide +kernel
  · refine ⟨0, (((fun (s : State) => { s with idu := { s.idu with katTurn := [] } }) (allOn
      { State.reset with idu := { katTurn := [0, 1, 2], kat := #v[1, 0, 0, 0, 0, 0] } })).wr
      (PWR_DOMAIN_STATUS_BIT 10) 1), ?_⟩
    decide +kernel

/-- What StripeJoint assumes is met, clause by clause. -/
theorem witness_StripeJoint :
    (∃ (s : State), s.runs 1 = true ∧ s.on 10 = true ∧ ∃ e2, e2 ∈ (s.dequeue 210).fst ∧ s.idu.sjdHeld = [] ∧
      s.idu.sjd = none ∧ poisoned e2 = false ∧ ({ bytes := bits e2 } : SjdSt).formOk = false ∧ (fieldB (bits e2)
      24 1).testBit 0 = false ∧ (s.dequeue 210).snd.enqTest 211 = EnqResult.ok)
    ∧ (∃ (s : State), s.runs 1 = true ∧ s.on 10 = true ∧ ∃ e3, e3 ∈ (s.dequeue 210).fst ∧ s.idu.sjdHeld = [] ∧
      s.idu.sjd = none ∧ poisoned e3 = false ∧ let q : SjdSt := { bytes := bits e3 }; q.formOk = true ∧ q.kind ≤
      1 ∧ (∀ (j : Nat), j ∈ q.slots → (s.dequeue 210).snd.slotState j = 6) ∧ fieldB (bits e3) 12 1 = 0 ∧ (fieldB
      (bits e3) 24 1).testBit 0 = false ∧ (s.dequeue 210).snd.enqTest 211 = EnqResult.ok)
    ∧ (∃ (s : State), s.runs 1 = true ∧ s.on 10 = true ∧ ∃ e4, e4 ∈ (s.dequeue 210).fst ∧ s.idu.sjdHeld = [] ∧
      s.idu.sjd = none ∧ poisoned e4 = false ∧ let q : SjdSt := { bytes := bits e4 }; q.formOk = true ∧ q.kind ≤
      1 ∧ (∀ (j : Nat), j ∈ q.slots → (s.dequeue 210).snd.slotState j = 6) ∧ fieldB (bits e4) 12 1 ≠ 0 ∧ 0 <
      (s.dequeue 210).snd.sjdRounds q ∧ True)
    ∧ (∃ (s : State), s.runs 1 = true ∧ s.on 10 = true ∧ ∃ e5, e5 ∈ (s.dequeue 209).fst ∧ s.idu.sjdHeld = [] ∧
      poisoned e5 = false ∧ ∃ e6, e6 ∈ s.idu.sjd ∧ ∃ e7, e7 ∈ e6.waiting.head? ∧ ∃ e8, e8 ∈
      e6.waiting.tail.head? ∧ e6.waiting.tail.tail = [] ∧ e6.kind ≠ 2 ∧ e7 ≠ e8 ∧ e6.slot e7 = fieldB (bits e5)
      2 1 ∧ fieldB (bits e5) 3 1 = 0)
    ∧ (∃ (s : State), s.runs 1 = true ∧ s.on 10 = true ∧ s.idu.sjdHeld ≠ []) := by
  refine ⟨?_, ?_, ?_, ?_, ?_⟩
  · refine ⟨(allOn (withRing 211 16 1 0 0 (withEntry 210 8 8 (leBytes 32 0) State.reset))), ?_⟩
    decide +kernel
  · refine ⟨(allOn (withRing 211 16 1 0 0 (withEntry 210 8 8 (([5,0,0,2,0,1,255,255,255,255,255,255,0,255,0,0] :
      List Byte) ++ leBytes 16 0) (slotsIn 6 State.reset)))), ?_⟩
    decide +kernel
  · refine ⟨(allOn (withRing 211 16 1 0 0 (withEntry 210 8 8 (([5,0,0,2,0,1,255,255,255,255,255,255,1,255,0,3] :
      List Byte) ++ leBytes 16 0) (slotsIn 6 State.reset)))), ?_⟩
    decide +kernel
  · refine ⟨(allOn
      ({ (withEntry 209 8 8 (leBytes 16 0x00000000) State.reset) with idu := { sjd := some { bytes := (([5,0,0,2,0,1,255,255,255,255,255,255,3,255,0,0] : List Byte) ++ leBytes 16 0), round := 1, failed := [0, 1], waiting := [0, 1], started := 2 } } })),
      ?_⟩
    decide +kernel
  · refine ⟨((fun (s : State) => { s with idu := { s.idu with sjdHeld := [(1, [])] } }) (allOn State.reset)),
      ?_⟩
    decide +kernel

/-- What FormatterSequence assumes is met, clause by clause. -/
theorem witness_FormatterSequence :
    (∃ (p : Fin 8) (s : State) (i : Instr), s.runs 1 = true ∧ s.rd (FMT_CTX_STATUS_STATE (↑p : Nat)) = 1 ∧
      s.fmt[p].since < 1024 ∧ s.turn p = false ∧ i ∈ microCommands p)
    ∧ (∃ (p : Fin 8) (s : State), s.runs 1 = true ∧ s.rd (FMT_CTX_STATUS_STATE (↑p : Nat)) = 1 ∧ s.fmt[p].since
      < 1024 ∧ ∀ (q : Fin 8), q ≠ p → s.rd (FMT_CTX_STATUS_STATE (↑q : Nat)) = 0)
    ∧ (∃ (p : Fin 8) (s : State), s.runs 1 = true ∧ s.rd (FMT_CTX_STATUS_STATE (↑p : Nat)) = 1 ∧ s.fmt[p].since
      < 1024 ∧ s.turn p = true ∧ ∃ e9, e9 ∈ (s.fetchMicro (s.rd (FMT_CTX_STATUS_PC (↑p : Nat)))).fst ∧ e9.seq =
      1 ∧ e9.nano.condOnly = true)
    ∧ (∃ (p : Fin 8) (s : State), s.runs 1 = true ∧ s.rd (FMT_CTX_STATUS_STATE (↑p : Nat)) = 1 ∧ s.fmt[p].since
      < 1024 ∧ s.turn p = true ∧ ∃ e9, e9 ∈ (s.fetchMicro (s.rd (FMT_CTX_STATUS_PC (↑p : Nat)))).fst ∧ e9.seq =
      2 ∧ e9.nano.condOnly = true)
    ∧ (∃ (p : Fin 8) (s : State), s.runs 1 = true ∧ s.rd (FMT_CTX_STATUS_STATE (↑p : Nat)) = 1 ∧ s.fmt[p].since
      < 1024 ∧ s.turn p = true ∧ ∃ e9, e9 ∈ (s.fetchMicro (s.rd (FMT_CTX_STATUS_PC (↑p : Nat)))).fst ∧ e9.seq =
      3 ∧ e9.nano.condOnly = true)
    ∧ (∃ (p : Fin 8) (s : State), s.runs 1 = true ∧ s.rd (FMT_CTX_STATUS_STATE (↑p : Nat)) = 1 ∧ s.fmt[p].since
      < 1024 ∧ s.turn p = true ∧ ∃ e9, e9 ∈ (s.fetchMicro (s.rd (FMT_CTX_STATUS_PC (↑p : Nat)))).fst ∧ e9.seq =
      4 ∧ e9.nano.condOnly = true ∧ (s.fetchMicro (s.rd (FMT_CTX_STATUS_PC (↑p : Nat)))).snd.fmt[p].stack.length
      < 4)
    ∧ (∃ (p : Fin 8) (s : State), s.runs 1 = true ∧ s.rd (FMT_CTX_STATUS_STATE (↑p : Nat)) = 1 ∧ s.fmt[p].since
      < 1024 ∧ s.turn p = true ∧ ∃ e9, e9 ∈ (s.fetchMicro (s.rd (FMT_CTX_STATUS_PC (↑p : Nat)))).fst ∧ e9.seq =
      5 ∧ e9.arg < 64 ∧ e9.nano.condOnly = true ∧ (s.fetchMicro (s.rd (FMT_CTX_STATUS_PC (↑p :
      Nat)))).snd.fmt[p].stack.length < 4)
    ∧ (∃ (p : Fin 8) (s : State), s.runs 1 = true ∧ s.rd (FMT_CTX_STATUS_STATE (↑p : Nat)) = 1 ∧ s.fmt[p].since
      < 1024 ∧ s.turn p = true ∧ ∃ e9, e9 ∈ (s.fetchMicro (s.rd (FMT_CTX_STATUS_PC (↑p : Nat)))).fst ∧ e9.seq =
      6 ∧ e9.nano.condOnly = true ∧ ∃ e0, e0 ∈ (s.fetchMicro (s.rd (FMT_CTX_STATUS_PC (↑p :
      Nat)))).snd.fmt[p].stack.head? ∧ True)
    ∧ (∃ (p : Fin 8) (s : State), s.runs 1 = true ∧ s.rd (FMT_CTX_STATUS_STATE (↑p : Nat)) = 1 ∧ s.fmt[p].since
      < 1024 ∧ s.turn p = true ∧ ∃ e9, e9 ∈ (s.fetchMicro (s.rd (FMT_CTX_STATUS_PC (↑p : Nat)))).fst ∧ e9.seq =
      8 ∧ e9.nano.condOnly = true)
    ∧ (∃ (p : Fin 8) (s : State), s.runs 1 = true ∧ s.rd (FMT_CTX_STATUS_STATE (↑p : Nat)) = 1 ∧ s.fmt[p].since
      < 1024 ∧ s.turn p = true ∧ ∃ e9, e9 ∈ (s.fetchMicro (s.rd (FMT_CTX_STATUS_PC (↑p : Nat)))).fst ∧ e9.seq =
      9 ∧ e9.nano.condOnly = true ∧ (s.fetchMicro (s.rd (FMT_CTX_STATUS_PC (↑p : Nat)))).snd.rd
      (FMT_CTX_FLAGS_HALT_REQ (↑p : Nat)) = 0 ∧ (s.fetchMicro (s.rd (FMT_CTX_STATUS_PC (↑p :
      Nat)))).snd.fmt[p].stack.length < 4)
    ∧ (∃ (p : Fin 8) (s : State), s.runs 1 = true ∧ s.rd (FMT_CTX_STATUS_STATE (↑p : Nat)) = 1 ∧ s.fmt[p].since
      < 1024 ∧ s.turn p = true ∧ ∃ e9, e9 ∈ (s.fetchMicro (s.rd (FMT_CTX_STATUS_PC (↑p : Nat)))).fst ∧ e9.seq =
      9 ∧ e9.nano.condOnly = true ∧ (s.fetchMicro (s.rd (FMT_CTX_STATUS_PC (↑p : Nat)))).snd.rd
      (FMT_CTX_FLAGS_HALT_REQ (↑p : Nat)) = 1 ∧ (s.fetchMicro (s.rd (FMT_CTX_STATUS_PC (↑p :
      Nat)))).snd.fmt[p].stack.length < 4)
    ∧ (∃ (p : Fin 8) (s : State), s.runs 1 = true ∧ s.rd (FMT_CTX_STATUS_STATE (↑p : Nat)) = 1 ∧ s.fmt[p].since
      < 1024 ∧ s.turn p = true ∧ ∃ e9, e9 ∈ (s.fetchMicro (s.rd (FMT_CTX_STATUS_PC (↑p : Nat)))).fst ∧ e9.seq =
      10 ∧ e9.nano.condOnly = true ∧ (s.fetchMicro (s.rd (FMT_CTX_STATUS_PC (↑p :
      Nat)))).snd.fmt[p].stack.length < 4)
    ∧ (∃ (p : Fin 8) (s : State), s.runs 1 = true ∧ s.rd (FMT_CTX_STATUS_STATE (↑p : Nat)) = 1 ∧ s.fmt[p].since
      < 1024 ∧ s.turn p = true ∧ ∃ e9, e9 ∈ (s.fetchMicro (s.rd (FMT_CTX_STATUS_PC (↑p : Nat)))).fst ∧ e9.seq =
      11 ∧ e9.nano.condOnly = true)
    ∧ (∃ (p : Fin 8) (s : State), s.runs 1 = true ∧ s.rd (FMT_CTX_STATUS_STATE (↑p : Nat)) = 1 ∧ s.fmt[p].since
      < 1024 ∧ s.turn p = true ∧ ∃ e9, e9 ∈ (s.fetchMicro (s.rd (FMT_CTX_STATUS_PC (↑p : Nat)))).fst ∧ 12 ≤
      e9.seq)
    ∧ (∃ (p : Fin 8) (s : State), s.runs 1 = true ∧ s.rd (FMT_CTX_STATUS_STATE (↑p : Nat)) = 1 ∧ s.fmt[p].since
      < 1024 ∧ s.turn p = true ∧ ∃ e9, e9 ∈ (s.fetchMicro (s.rd (FMT_CTX_STATUS_PC (↑p : Nat)))).fst ∧ e9.seq =
      0 ∧ e9.nano.condOnly = true)
    ∧ (∃ (p : Fin 8) (s : State), s.runs 1 = true ∧ s.rd (FMT_CTX_STATUS_STATE (↑p : Nat)) = 1 ∧ s.fmt[p].since
      < 1024 ∧ s.turn p = true ∧ ∃ e9, e9 ∈ (s.fetchMicro (s.rd (FMT_CTX_STATUS_PC (↑p : Nat)))).fst ∧ e9.seq =
      7 ∧ e9.arg ≤ 11 ∧ e9.nano.condOnly = true) := by
  refine ⟨?_, ?_, ?_, ?_, ?_, ?_, ?_, ?_, ?_, ?_, ?_, ?_, ?_, ?_, ?_, ?_⟩
  · refine ⟨1, (eachPort FMT_CTX_STATUS_STATE 1 (allOn State.reset)), (.microHalt 1), ?_⟩
    decide +kernel
  · refine ⟨2, ((allOn State.reset).wr (FMT_CTX_STATUS_STATE 2) 1), ?_⟩
    decide +kernel
  · refine ⟨0, (withMicro 1 0 5 State.reset), ?_⟩
    decide +kernel
  · refine ⟨0, (withMicro 2 0 5 State.reset), ?_⟩
    decide +kernel
  · refine ⟨0, (allOn (withMicro 3 0 5 State.reset)), ?_⟩
    decide +kernel
  · refine ⟨0, (withMicro 4 0 5 State.reset), ?_⟩
    decide +kernel
  · refine ⟨1, ((fun (s : State) => { s with pw := { s.pw with lostLock := 0x5#5 } }) ((fun (s : State) =>
      { s with fmtLast := 0 }) (withMicro 5 0 5 State.reset))), ?_⟩
    decide +kernel
  · refine ⟨0, ({ withMicro 6 0 0 State.reset with fmt := Vector.replicate 8 { stack := [(9, false)] } }), ?_⟩
    decide +kernel
  · refine ⟨0, (withMicro 8 0 5 State.reset), ?_⟩
    decide +kernel
  · refine ⟨0, (withMicro 9 0 5 State.reset), ?_⟩
    decide +kernel
  · refine ⟨0, (allOn (eachPort FMT_CTX_FLAGS_HALT_REQ 1 (withMicro 9 0 5 State.reset))), ?_⟩
    decide +kernel
  · refine ⟨0, (withMicro 10 0 5 State.reset), ?_⟩
    decide +kernel
  · refine ⟨0, (allOn (withMicro 11 0 5 State.reset)), ?_⟩
    decide +kernel
  · refine ⟨0, (withMicro 12 0 5 State.reset), ?_⟩
    decide +kernel
  · refine ⟨0, (withMicro 0 0 5 State.reset), ?_⟩
    decide +kernel
  · refine ⟨1, ((fun (s : State) => { s with fmtLast := 0 }) (withMicro 7 0 5 State.reset)), ?_⟩
    decide +kernel

/-- What FormatterRuns assumes is met, clause by clause. -/
theorem witness_FormatterRuns :
    (∃ (p : Fin 8) (s : State), s.rd (FMT_CTX_STATUS_STATE (↑p : Nat)) = 2 ∧ s.waitEvent p s.fmt[p].waitSel =
      true ∧ s.runs 1 = true)
    ∧ (∃ (p : Fin 8) (s : State), ∃ e1, e1 ∈ (s.fetchMicro (s.rd (FMT_CTX_STATUS_PC (↑p : Nat)))).fst ∧ s.rd
      (FMT_CTX_STATUS_STATE (↑p : Nat)) = 3 ∧ s.turn p = true ∧ e1.seq = 0 ∧ e1.nano = 1 <<< 87 ∧ ∃ e2, e2 ∈
      ((s.fetchMicro (s.rd (FMT_CTX_STATUS_PC (↑p : Nat)))).snd.dequeue (reqRing p)).fst ∧ poisoned e2 = false ∧
      s.runs 1 = true)
    ∧ (∃ (p : Fin 8) (s : State), s.rd (FMT_CTX_STATUS_STATE (↑p : Nat)) = 3 ∧ s.fmt[p].onRing = true ∧ s.runs 1
      = true)
    ∧ (∃ (s : State), s.runs 1 = true)
    ∧ (∃ (p : Fin 8) (s : State), ∃ e3, e3 ∈ List.find? (fun g => !g.started && g.code.isNone) s.fmt[p].gates ∧
      (e3.frame + e3.skew) % s.wedges p = (s.srv[p].expected + s.wedges p - 1) % s.wedges p ∧ e3.slot < s.zoneK
      p ∧ s.loadPending p = false ∧ e3.write = false ∧ s.rd (SRV_STATUS_READ_OK (↑p : Nat)) = 1 ∧ s.runs 1 =
      true)
    ∧ (∃ (p : Fin 8) (s : State), ∃ e3, e3 ∈ List.find? (fun g => !g.started && g.code.isNone) s.fmt[p].gates ∧
      (e3.frame + e3.skew) % s.wedges p = (s.srv[p].expected + s.wedges p - 1) % s.wedges p ∧ e3.slot < s.zoneK
      p ∧ s.loadPending p = false ∧ e3.write = true ∧ e3.ready = true ∧ e3.bad = false ∧ s.rd
      (SRV_STATUS_WRITE_OK (↑p : Nat)) = 1 ∧ s.runs 1 = true)
    ∧ (∃ (p : Fin 8) (s : State), ∃ e3, e3 ∈ List.find? (fun g => !g.started && g.code.isNone) s.fmt[p].gates ∧
      (e3.frame + e3.skew) % s.wedges p = (s.srv[p].expected + s.wedges p - 1) % s.wedges p ∧ e3.slot < s.zoneK
      p ∧ s.loadPending p = false ∧ e3.write = false ∧ s.rd (SRV_STATUS_READ_OK (↑p : Nat)) = 0 ∧ s.runs 1 =
      true)
    ∧ (∃ (p : Fin 8) (s : State), ∃ e4, e4 ∈ List.find? (fun g => g.write && !g.ready && g.code.isNone)
      s.fmt[p].gates ∧ e4.bypass = true ∧ e4.raw = false ∧ s.runs 1 = true)
    ∧ (∃ (p : Fin 8) (s : State), ∃ e5, e5 ∈ List.find? (fun g => g.code.isSome) s.fmt[p].gates ∧
      s.fmt[p].results.length < 2 ∧ s.runs 1 = true)
    ∧ (∃ (p : Fin 8) (s : State), ∃ e6, e6 ∈ s.fmt[p].dma ∧ e6.bypass = true ∧ e6.raw = false ∧ s.runs 1 = true)
    ∧ (∃ (p : Fin 8) (s : State), s.rd (FMT_CTX_STATUS_STATE (↑p : Nat)) ≠ 0 ∧ 1024 ≤ s.fmt[p].since ∧ s.runs 1
      = true)
    ∧ (∃ (p : Fin 8) (s : State), s.rd (FMT_CTX_STATUS_STATE (↑p : Nat)) = 0 ∧ s.rd FMT_CTRL_STORE_VALID = 1 ∧
      s.regOn (FMT_CTX_CMD_WORD (↑p : Nat)).addr = true)
    ∧ (∃ (p : Fin 8) (s : State), (s.rd (FMT_CTX_STATUS_STATE (↑p : Nat)) ≠ 0 ∨ s.rd FMT_CTRL_STORE_VALID = 0) ∧
      s.regOn (FMT_CTX_CMD_WORD (↑p : Nat)).addr = true)
    ∧ (∃ (p : Fin 8) (s : State), s.regOn (FMT_CTX_CMD_WORD (↑p : Nat)).addr = true)
    ∧ (∃ (p : Fin 8) (s : State), s.rd (FMT_CTX_STATUS_STATE (↑p : Nat)) ≠ 0 ∧ s.regOn (FMT_CTX_CMD_WORD (↑p :
      Nat)).addr = true)
    ∧ (∃ (s : State) (i : Fin 1024), (↑i : Nat) ≠ 0 ∧ s.regOn (805847052 + 16 * (↑i : Nat)) = true)
    ∧ (∃ (s : State), s.regOn 805847052 = true) := by
  refine ⟨?_, ?_, ?_, ?_, ?_, ?_, ?_, ?_, ?_, ?_, ?_, ?_, ?_, ?_, ?_, ?_, ?_⟩
  · refine ⟨2, ((fun (s : State) => { s with fmt := vmod s.fmt 2 (fun _ => { s.fmt[2] with waitSel := 7 }) })
      ((withEntry 64 8 16 (leBytes 32 0x1234567812345678) (eachPort FMT_CTX_STATUS_STATE 3 (withMicro 0 1 0
      (State.reset.pokeBytes 0x30084010 (leBytes 16 (1 <<< 87)))))).wr (FMT_CTX_STATUS_STATE 2) 2)), ?_⟩
    decide +kernel
  · refine ⟨0, (withEntry 64 8 16 (leBytes 32 0x1234567812345678) (eachPort FMT_CTX_STATUS_STATE 3 (withMicro 0
      1 0 (State.reset.pokeBytes 0x30084010 (leBytes 16 (1 <<< 87)))))), ?_⟩
    decide +kernel
  · refine ⟨4, ((fun (s : State) => { s with fmt := vmod s.fmt 4 (fun _ => { s.fmt[4] with onRing := true }) })
      (allOn (withEntry 64 8 16 (leBytes 32 0x1234567812345678) (eachPort FMT_CTX_STATUS_STATE 3 (withMicro 0 1
      0 (State.reset.pokeBytes 0x30084010 (leBytes 16 (1 <<< 87)))))))), ?_⟩
    decide +kernel
  · refine ⟨State.reset, ?_⟩
    decide +kernel
  · refine ⟨4, ((fun (s : State) => { s with srv := vmod s.srv 4 (fun _ => { s.srv[4] with expected := 1 }) })
      (allOn (withGate aGate (eachPort SRV_STATUS_READ_OK 1 (eachPort (fun p => FMT_ZFRAME0_K p 0) 20
      State.reset))))), ?_⟩
    decide +kernel
  · refine ⟨5, ((fun (s : State) => { s with srv := vmod s.srv 5 (fun _ => { s.srv[5] with expected := 1 }) })
      (allOn (withGate { aGate with write := true, ready := true } (eachPort SRV_STATUS_WRITE_OK 1 (eachPort
      (fun p => FMT_ZFRAME0_K p 0) 20 State.reset))))), ?_⟩
    decide +kernel
  · refine ⟨4, ((fun (s : State) => { s with srv := vmod s.srv 4 (fun _ => { s.srv[4] with expected := 1 }) })
      (allOn (withGate aGate (eachPort (fun p => FMT_ZFRAME0_K p 0) 20 State.reset)))), ?_⟩
    decide +kernel
  · refine ⟨3, (withGate { aGate with write := true } State.reset), ?_⟩
    decide +kernel
  · refine ⟨3, (withGate { aGate with code := some 4 } State.reset), ?_⟩
    decide +kernel
  · refine ⟨0,
      ({ (allOn State.reset) with fmt := Vector.replicate 8 { dma := some { slot := 0, buf := 0, raw := false, bypass := true, band := 0, wlba := 0, mode := 0, key := none } } }),
      ?_⟩
    decide +kernel
  · refine ⟨1, ((fun (s : State) => { s with fmt := vmod s.fmt 1 (fun _ => { s.fmt[1] with since := 4096 }) })
      (withEntry 64 8 16 (leBytes 32 0x1234567812345678) (eachPort FMT_CTX_STATUS_STATE 3 (withMicro 0 1 0
      (State.reset.pokeBytes 0x30084010 (leBytes 16 (1 <<< 87))))))), ?_⟩
    decide +kernel
  · refine ⟨0,
      (({ State.reset with fmt := Vector.replicate 8 { dma := some { slot := 0, buf := 0x80000000, raw := false, bypass := true, band := 0, wlba := 0, mode := 0, key := none } } }).wr
      FMT_CTRL_STORE_VALID 1), ?_⟩
    decide +kernel
  · refine ⟨1, State.reset, ?_⟩
    decide +kernel
  · refine ⟨1, State.reset, ?_⟩
    decide +kernel
  · refine ⟨0, (withEntry 64 8 16 (leBytes 32 0x1234567812345678) (eachPort FMT_CTX_STATUS_STATE 3 (withMicro 0
      1 0 (State.reset.pokeBytes 0x30084010 (leBytes 16 (1 <<< 87)))))), ?_⟩
    decide +kernel
  · refine ⟨(allOn State.reset), 1, ?_⟩
    decide +kernel
  · refine ⟨State.reset, ?_⟩
    decide +kernel

/-- What RingCommands assumes is met, clause by clause. -/
theorem witness_RingCommands :
    (∃ (s : State) (v : Word), let id : Nat := getF v 16 10; let pi : Nat := getF v 0 16;
      let r : Ring := s.ring id; r.en = true ∧ (pi + 65536 - r.pi) % 65536 ≤ r.slots - r.count ∧ s.regOn
      QM_DOORBELL_WORD.addr = true)
    ∧ (∃ (s : State) (v : Word), let id : Nat := getF v 16 10; let pi : Nat := getF v 0 16;
      let r : Ring := s.ring id; r.en = true ∧ r.slots - r.count < (pi + 65536 - r.pi) % 65536 ∧ s.rd
      QM_ERR_INFO_CODE = 0 ∧ s.regOn QM_DOORBELL_WORD.addr = true)
    ∧ (∃ (s : State) (v : Word), let id : Nat := getF v 16 10; let r : Ring := s.ring id; r.en = false ∧ s.rd
      QM_ERR_INFO_CODE = 0 ∧ s.regOn QM_DOORBELL_WORD.addr = true)
    ∧ (∃ (s : State) (v : Word), let id : Nat := getF v 16 10; let pi : Nat := getF v 0 16;
      let r : Ring := s.ring id; r.en = true ∧ (pi + 65536 - r.ci) % 65536 ≤ r.count ∧ s.regOn
      QM_CONSUME_WORD.addr = true)
    ∧ (∃ (s : State) (v : Word), let id : Nat := getF v 16 10; let pi : Nat := getF v 0 16;
      let r : Ring := s.ring id; r.en = true ∧ r.count < (pi + 65536 - r.ci) % 65536 ∧ s.rd QM_ERR_INFO_CODE ≠ 0
      ∧ s.regOn QM_CONSUME_WORD.addr = true)
    ∧ (∃ (s : State) (v : Word), getF v 28 4 ≠ 0 ∧ s.regOn QM_ERR_INFO_WORD.addr = true)
    ∧ (∃ (s : State) (b : Fin 3) (v : Word), let id : Nat := getF v 0 10; s.enqTest id = EnqResult.ok ∧
      s.mayIssue (↑b : Nat) = true ∧ s.regOn QM_ENQ_RING_WORD.addr = true)
    ∧ (∃ (s : State) (b : Fin 3) (v : Word), let id : Nat := getF v 0 10; s.enqTest id ≠ EnqResult.ok ∧
      s.mayIssue (↑b : Nat) = true ∧ s.regOn QM_ENQ_RING_WORD.addr = true)
    ∧ (∃ (s : State) (ring : Fin 1024) (e : List Byte), s.enqTest (↑ring : Nat) = EnqResult.ok ∧ e.length =
      (s.ring (↑ring : Nat)).bytes ∧ s.pw.lostLock.getLsbD 1 = false)
    ∧ (∃ (s : State) (ring : Fin 1024), s.enqTest (↑ring : Nat) = EnqResult.full ∧ s.pw.lostLock.getLsbD 1 =
      false)
    ∧ (∃ (s : State) (ring : Fin 1024), let r : Ring := s.ring (↑ring : Nat);
      let d : List PByte × State := State.readMem (r.slotAddr r.ci) r.bytes (s.initMem 1); r.en = true ∧ 0 <
      r.count ∧ 3 ≤ r.consumer ∧ poisoned d.fst = false ∧ s.pw.lostLock.getLsbD 1 = false)
    ∧ (∃ (s : State) (ring : Fin 1024), let r : Ring := s.ring (↑ring : Nat);
      let d : List PByte × State := State.readMem (r.slotAddr r.ci) r.bytes (s.initMem 1); r.en = true ∧ 0 <
      r.count ∧ 3 ≤ r.consumer ∧ poisoned d.fst = true ∧ s.pw.lostLock.getLsbD 1 = false)
    ∧ (∃ (s : State) (b : Fin 3) (v : Word), let r : Ring := s.ring (s.selRing (↑b : Nat)); r.en = false ∧
      BitVec.getLsbD v 31 = false ∧ BitVec.getLsbD v 29 = r.wakeEn ∧ getF v 0 4 ≤ 8 ∧ agentReserved (getF v 8 5)
      = false ∧ s.mayIssue (↑b : Nat) = true ∧ s.regOn QM_RING_CFG_WORD.addr = true)
    ∧ (∃ (s : State) (b : Fin 3), let r : Ring := s.ring (s.selRing (↑b : Nat)); r.en = false ∧ s.mayIssue (↑b :
      Nat) = true ∧ s.regOn QM_RING_BASE_WORD.addr = true)
    ∧ (∃ (s : State) (b : Fin 3) (v : Word), let r : Ring := s.ring (s.selRing (↑b : Nat)); r.en = true ∧ getF v
      6 13 ≠ r.base ∧ s.rd QM_ERR_INFO_CODE = 0 ∧ s.mayIssue (↑b : Nat) = true ∧ s.regOn QM_RING_BASE_WORD.addr
      = true)
    ∧ (∃ (s : State) (b : Fin 3), let r : Ring := s.ring (s.selRing (↑b : Nat)); r.en = false ∧ s.mayIssue (↑b :
      Nat) = true ∧ s.regOn QM_RING_CMD_WORD.addr = true)
    ∧ (∃ (s : State) (b : Fin 3), let r : Ring := s.ring (s.selRing (↑b : Nat)); r.en = true ∧ s.rd
      QM_ERR_INFO_CODE = 0 ∧ s.mayIssue (↑b : Nat) = true ∧ s.regOn QM_RING_CMD_WORD.addr = true) := by
  refine ⟨?_, ?_, ?_, ?_, ?_, ?_, ?_, ?_, ?_, ?_, ?_, ?_, ?_, ?_, ?_, ?_, ?_⟩
  · refine ⟨(withRing 0 8 1 0 0 State.reset), 0x3#32, ?_⟩
    decide +kernel
  · refine ⟨(withRing 0 8 1 0 1 State.reset), 0xffff#32, ?_⟩
    decide +kernel
  · refine ⟨State.reset, 0xf#32, ?_⟩
    decide +kernel
  · refine ⟨(withRing 0 8 4 1 0 State.reset), 0x80000000#32, ?_⟩
    decide +kernel
  · refine ⟨((withRing 0 8 4 0 3 (State.reset.wr QM_ERR_INFO_CODE 2))), 0xa#32, ?_⟩
    decide +kernel
  · refine ⟨(withRing 0 8 4 1 3 State.reset), 0x80000000#32, ?_⟩
    decide +kernel
  · refine ⟨(withRing 0 8 1 0 0 State.reset), 2, 0x80000000#32, ?_⟩
    decide +kernel
  · refine ⟨State.reset, 2, 0x8#32, ?_⟩
    decide +kernel
  · refine ⟨(withRing 0 8 4 1 3 State.reset), 0, (List.replicate 32 0x1#8), ?_⟩
    decide +kernel
  · refine ⟨((fun (s : State) =>
      { (s.wr PWR_STATE_AON_BUSY 1) with pw := { s.pw with aonWait := [(0, 0x30000120, 3), (1, 0x30000120, 3)] } })
      (withRing 0 8 1 0 16 State.reset)), 0, ?_⟩
    decide +kernel
  · refine ⟨(withEntry 0 8 4 (leBytes 16 77) State.reset), 0, ?_⟩
    decide +kernel
  · refine ⟨(withRing 0 8 4 0 1 (State.reset.writeMem 0x20000200 [(5, true)])), 0, ?_⟩
    decide +kernel
  · refine ⟨State.reset, 2, 0x8#32, ?_⟩
    decide +kernel
  · refine ⟨State.reset, 2, ?_⟩
    decide +kernel
  · refine ⟨(withRing 0 8 1 0 0 State.reset), 2, 0x80000000#32, ?_⟩
    decide +kernel
  · refine ⟨State.reset, 2, ?_⟩
    decide +kernel
  · refine ⟨(withRing 0 8 1 0 0 State.reset), 2, ?_⟩
    decide +kernel

/-- What EventCommands assumes is met, clause by clause. -/
theorem witness_EventCommands :
    (∃ (s : State) (i : Fin 128), (↑i : Nat) ≠ 95 ∧ (↑i : Nat) ≠ 127 ∧ (s.levels.any fun e => e.fst == (↑i :
      Nat)) = false ∧ s.rd (EVC_SRC_CFG_MODE (↑i : Nat)) = 1)
    ∧ (∃ (s : State) (i : Fin 128), (↑i : Nat) ≠ 95 ∧ (↑i : Nat) ≠ 127 ∧ (s.levels.any fun e => e.fst == (↑i :
      Nat)) = false ∧ s.rd (EVC_SRC_CFG_MODE (↑i : Nat)) = 0)
    ∧ (∃ (s : State) (c : Fin 2), (settle s).claimable (↑c : Nat) = none ∧ s.mayIssue (↑c : Nat) = true ∧
      s.regOn (EVC_CLAIM_WORD (↑c : Nat)).addr = true)
    ∧ (∃ (s : State) (c : Fin 2), ∃ e7, e7 ∈ (settle s).claimable (↑c : Nat) ∧ s.mayIssue (↑c : Nat) = true ∧
      s.regOn (EVC_CLAIM_WORD (↑c : Nat)).addr = true)
    ∧ (∃ (s : State) (c : Fin 2), ∃ e7, e7 ∈ (settle s).claimable (↑c : Nat) ∧ s.rd (EVC_SRC_CFG_MODE e7) = 1 ∧
      s.mayIssue (↑c : Nat) = true ∧ s.regOn (EVC_CLAIM_WORD (↑c : Nat)).addr = true)
    ∧ (∃ (s : State), s.regOn EVC_SW_SET_WORD.addr = true)
    ∧ (∃ (s : State), s.regOn EVC_SW_CLR_WORD.addr = true)
    ∧ (∃ (s : State) (i : Fin 128), (↑i : Nat) ≠ 95 ∧ (↑i : Nat) ≠ 127 ∧ s.regOn (EVC_SRC_CFG_WORD (↑i :
      Nat)).addr = true)
    ∧ (∃ (s : State) (i : Fin 128), ((↑i : Nat) = 95 ∨ (↑i : Nat) = 127) ∧ s.regOn (EVC_SRC_CFG_WORD (↑i :
      Nat)).addr = true) := by
  refine ⟨?_, ?_, ?_, ?_, ?_, ?_, ?_, ?_, ?_⟩
  · refine ⟨((pulse 6 ((((State.reset.wr (EVC_SRC_CFG_MODE 6) 1).wr (EVC_SRC_CFG_TARGET 6) 1).wr
      (EVC_SRC_CFG_PRIO 6) 3).wr (EVC_MASK_BIT 6) 0)).wr (EVC_SRC_CFG_MODE 2) 1), 2, ?_⟩
    decide +kernel
  · refine ⟨State.reset, 3, ?_⟩
    decide +kernel
  · refine ⟨State.reset, 1, ?_⟩
    decide +kernel
  · refine ⟨((fun (s : State) => { s with pw := { s.pw with sleep := .idle } }) (pulse 6 ((((State.reset.wr
      (EVC_SRC_CFG_MODE 6) 1).wr (EVC_SRC_CFG_TARGET 6) 2).wr (EVC_SRC_CFG_PRIO 6) 3).wr (EVC_MASK_BIT 6) 0))),
      1, ?_⟩
    decide +kernel
  · refine ⟨(allOn (pulse 6 ((((State.reset.wr (EVC_SRC_CFG_MODE 6) 1).wr (EVC_SRC_CFG_TARGET 6) 2).wr
      (EVC_SRC_CFG_PRIO 6) 3).wr (EVC_MASK_BIT 6) 0))), 1, ?_⟩
    decide +kernel
  · refine ⟨State.reset, ?_⟩
    decide +kernel
  · refine ⟨State.reset, ?_⟩
    decide +kernel
  · refine ⟨State.reset, 89, ?_⟩
    decide +kernel
  · refine ⟨(pulse 6 ((((State.reset.wr (EVC_SRC_CFG_MODE 6) 1).wr (EVC_SRC_CFG_TARGET 6) 1).wr
      (EVC_SRC_CFG_PRIO 6) 3).wr (EVC_MASK_BIT 6) 0)), 95, ?_⟩
    decide +kernel

/-- What HostPortCycles assumes is met, clause by clause. -/
theorem witness_HostPortCycles :
    (∃ (s : State), s.hpServes = true ∧ s.pw.sleep = Sleep.idle ∧ s.hpAwake = true ∧ True)
    ∧ (∃ (s : State) (a : Fin 16), s.hpServes = true ∧ s.pw.sleep = Sleep.idle ∧ s.hpAwake = true ∧ (↑a : Nat) ≠
      4 ∧ (↑a : Nat) ≠ 6 ∧ (↑a : Nat) ≠ 9 ∧ (↑a : Nat) ≠ 14)
    ∧ (∃ (s : State), s.hpServes = true ∧ s.pw.sleep = Sleep.idle ∧ s.hpAwake = true ∧ s.bit SYS_STRAP_HP_MODE 1
      = false)
    ∧ (∃ (s : State), s.hpServes = true ∧ s.hpAwake = true ∧ ∃ e8, e8 ∈ s.hp.held ∧ True)
    ∧ (∃ (s : State), s.hpServes = true ∧ s.pw.sleep ≠ Sleep.idle ∧ True)
    ∧ (∃ (s : State) (a : Fin 16), s.hpServes = true ∧ s.pw.sleep ≠ Sleep.idle ∧ (↑a : Nat) ≠ 4 ∧ (↑a : Nat) ≠ 6
      ∧ (↑a : Nat) ≠ 9 ∧ (↑a : Nat) ≠ 14 ∧ (↑a : Nat) ≠ 15 ∧ (s.hpAwake = true ∨ (↑a : Nat) = 0 ∨ (↑a : Nat) =
      5))
    ∧ (∃ (s : State), s.hpServes = true ∧ s.pw.sleep ≠ Sleep.idle ∧ s.hpAwake = true)
    ∧ (∃ (s : State), s.hpServes = true ∧ s.pw.sleep ≠ Sleep.idle ∧ s.hpAwake = true ∧ s.rd HW_INDEX_SPACE = 0 ∧
      let o : Nat := if s.hpWide = true then s.rd HW_INDEX_OFFSET / 2 * 2 else s.rd HW_INDEX_OFFSET;
      let tag : Fin 32 := tagOf (o / 32); s.tagState tag = 0 ∧ s.usbTag tag = false ∧ s.sbTag tag = false)
    ∧ (∃ (s : State), s.hpServes = true ∧ s.pw.sleep ≠ Sleep.idle ∧ s.hpAwake = true ∧ s.rd HW_INDEX_SPACE = 0 ∧
      let o : Nat := if s.hpWide = true then s.rd HW_INDEX_OFFSET / 2 * 2 else s.rd HW_INDEX_OFFSET;
      let tag : Fin 32 := tagOf (o / 32); s.tagState tag ≠ 0 ∨ s.usbTag tag = true ∨ s.sbTag tag = true)
    ∧ (∃ (s : State), s.hpServes = true ∧ s.pw.sleep ≠ Sleep.idle ∧ s.hpAwake = true ∧ (s.rd HW_INDEX_SPACE = 1
      ∨ s.rd HW_INDEX_SPACE = 2))
    ∧ (∃ (s : State), s.hpServes = true ∧ s.pw.sleep ≠ Sleep.idle ∧ s.hpAwake = true ∧ s.rd HW_INDEX_SPACE = 3)
    ∧ (∃ (s : State), s.hpServes = true ∧ s.pw.sleep ≠ Sleep.idle ∧ s.hpAwake = true ∧ (s.rd HW_INDEX_SPACE = 0
      ∨ s.rd HW_INDEX_SPACE = 1) ∧
      let o : Nat := if s.hpWide = true then s.rd HW_INDEX_OFFSET / 2 * 2 else s.rd HW_INDEX_OFFSET;
      let d : List PByte × State := State.readMem (s.hqArea + 1024 * s.rd HW_INDEX_SPACE + o) s.hpUnit (s.initMem 1);
      poisoned d.fst = false)
    ∧ (∃ (s : State), s.hpServes = true ∧ s.pw.sleep ≠ Sleep.idle ∧ s.hpAwake = true ∧ s.rd HW_INDEX_SPACE = 2 ∧
      let a : Nat := if s.hpWide = true then s.hp.peek / 2 * 2 else s.hp.peek;
      let d : BusOut × State := s.dmaRead 4 a s.hpUnit; d.fst.bad = false)
    ∧ (∃ (s : State) (v : BitVec 16), s.hpServes = true ∧ s.pw.sleep ≠ Sleep.idle ∧
      let word : BitVec 16 → Nat := fun v => if s.hpWide = true then v.toNat else s.hp.whi * 256 + v.toNat % 256;
      s.hpAwake = true ∧
      let room : Bool := decide ((word v % 128 + 128 - s.rd HQE_CQ_HP_HEAD) % 128 ≤ s.cqCount 0); room = true)
    ∧ (∃ (s : State) (v : BitVec 16), s.hpServes = true ∧ s.pw.sleep ≠ Sleep.idle ∧
      let word : BitVec 16 → Nat := fun v => if s.hpWide = true then v.toNat else s.hp.whi * 256 + v.toNat % 256;
      s.hpAwake = true ∧
      let room : Bool := decide ((word v % 128 + 128 - s.rd HQE_CQ_HP_HEAD) % 128 ≤ s.cqCount 0); room = false)
    ∧ (∃ (s : State), s.hpServes = true ∧ s.pw.sleep ≠ Sleep.idle ∧ s.bit SYS_STRAP_HP_MODE 1 = false)
    ∧ (∃ (s : State), s.hpServes = true ∧ s.pw.sleep ≠ Sleep.idle ∧ s.hpAwake = true ∧ s.hq.cur[0] = none ∧
      s.hpUnit ≤ s.hp.fifo.length)
    ∧ (∃ (s : State), s.hpServes = true ∧ s.pw.sleep ≠ Sleep.idle ∧ ∃ e9, e9 ∈ s.hq.cur[0] ∧ s.hpAwake = true ∧
      e9.fromHost = false ∧ e9.segs = [] ∧ s.hpUnit ≤ s.hp.fifo.length)
    ∧ (∃ (s : State), s.hpServes = true ∧ s.pw.sleep ≠ Sleep.idle ∧ ∃ e0, e0 ∈ s.hq.cur[0] ∧ s.hpAwake = true ∧
      e0.fromHost = true ∧ e0.stop = none ∧ e0.moved + s.hp.fifo.length < e0.total ∧ s.hp.fifo.length + s.hpUnit
      < 64)
    ∧ (∃ (s : State), s.hpServes = true ∧ s.pw.sleep ≠ Sleep.idle ∧ s.hpAwake = true ∧ s.hq.cur[0] = none ∧
      s.hp.fifo = [] ∧ s.flag HW_CONTROL_WAIT_EN = true)
    ∧ (∃ (s : State), s.hpServes = true ∧ s.pw.sleep ≠ Sleep.idle ∧ s.hpAwake = true ∧ s.hq.cur[0] = none ∧
      s.hp.fifo = [] ∧ s.flag HW_CONTROL_WAIT_EN = false) := by
  refine ⟨?_, ?_, ?_, ?_, ?_, ?_, ?_, ?_, ?_, ?_, ?_, ?_, ?_, ?_, ?_, ?_, ?_, ?_, ?_, ?_, ?_⟩
  · refine ⟨((fun (s : State) => { s with pw := { s.pw with sleep := .idle } })
      ({ ((State.reset.wr HP_CFG_ENABLE 1).wr HW_INDEX_SPACE 2) with hp := { peek := 0x20000000 } })), ?_⟩
    decide +kernel
  · refine ⟨((fun (s : State) => { s with pw := { s.pw with sleep := .idle } }) (State.reset.wr HP_CFG_ENABLE
      1)), 0, ?_⟩
    decide +kernel
  · refine ⟨((fun (s : State) => { s with pw := { s.pw with sleep := .idle } })
      ({ ((State.reset.wr HP_CFG_ENABLE 1).wr HW_INDEX_SPACE 2) with hp := { peek := 0x20000000 } })), ?_⟩
    decide +kernel
  · refine ⟨((fun (s : State) => { s with hp := { s.hp with held := (some false) } })
      ({ (State.reset.wr HP_CFG_ENABLE 1) with hq := { (State.reset.wr HP_CFG_ENABLE 1).hq with cur := #v[some { fast := false, tag := 0, gen := 0, fromHost := true, last := true, id := 1, segs := [], total := 64, moved := 0, given := 0, stop := none }, none] }, hp := { (State.reset.wr HP_CFG_ENABLE 1).hp with fifo := [] } })),
      ?_⟩
    decide +kernel
  · refine ⟨(State.reset.wr HP_CFG_ENABLE 1), ?_⟩
    decide +kernel
  · refine ⟨(State.reset.wr HP_CFG_ENABLE 1), 8, ?_⟩
    decide +kernel
  · refine ⟨(State.reset.wr HP_CFG_ENABLE 1), ?_⟩
    decide +kernel
  · refine ⟨(State.reset.wr HP_CFG_ENABLE 1), ?_⟩
    decide +kernel
  · refine
      ⟨(({ (State.reset.wr HP_CFG_ENABLE 1) with hq := { (State.reset.wr HP_CFG_ENABLE 1).hq with cur := #v[some { fast := false, tag := 0, gen := 0, fromHost := false, last := true, id := 1, segs := [], total := 64, moved := 64, given := 0, stop := none }, none] }, hp := { (State.reset.wr HP_CFG_ENABLE 1).hp with fifo := List.replicate 32 (0x5A#8, false) } }).wr
      HQE_TAG_SPLIT_SPLIT 0), ?_⟩
    decide +kernel
  · refine ⟨({ ((State.reset.wr HP_CFG_ENABLE 1).wr HW_INDEX_SPACE 2) with hp := { peek := 0x80000000 } }), ?_⟩
    decide +kernel
  · refine ⟨(({ ((State.reset.wr HP_CFG_ENABLE 1).wr HW_INDEX_SPACE 2) with hp := { peek := 0x80000000 } }).wr
      HW_INDEX_SPACE 3), ?_⟩
    decide +kernel
  · refine ⟨(State.reset.wr HP_CFG_ENABLE 1), ?_⟩
    decide +kernel
  · refine ⟨({ ((State.reset.wr HP_CFG_ENABLE 1).wr HW_INDEX_SPACE 2) with hp := { peek := 0x80000000 } }), ?_⟩
    decide +kernel
  · refine ⟨(State.reset.wr HP_CFG_ENABLE 1), 0x100#16, ?_⟩
    decide +kernel
  · refine ⟨({ ((State.reset.wr HP_CFG_ENABLE 1).wr HW_INDEX_SPACE 2) with hp := { peek := 0x80000000 } }),
      0x3#16, ?_⟩
    decide +kernel
  · refine ⟨(State.reset.wr HP_CFG_ENABLE 1), ?_⟩
    decide +kernel
  · refine ⟨((fun (s : State) => { s with hp := { s.hp with fifo := [(0x11#8, true)] } })
      ({ ((State.reset.wr HP_CFG_ENABLE 1).wr HW_INDEX_SPACE 2) with hp := { peek := 0x80000000 } })), ?_⟩
    decide +kernel
  · refine
      ⟨({ (State.reset.wr HP_CFG_ENABLE 1) with hq := { (State.reset.wr HP_CFG_ENABLE 1).hq with cur := #v[some { fast := false, tag := 0, gen := 0, fromHost := false, last := true, id := 1, segs := [], total := 64, moved := 64, given := 0, stop := none }, none] }, hp := { (State.reset.wr HP_CFG_ENABLE 1).hp with fifo := List.replicate 32 (0x5A#8, false) } }),
      ?_⟩
    decide +kernel
  · refine
      ⟨({ (State.reset.wr HP_CFG_ENABLE 1) with hq := { (State.reset.wr HP_CFG_ENABLE 1).hq with cur := #v[some { fast := false, tag := 0, gen := 0, fromHost := true, last := true, id := 1, segs := [], total := 64, moved := 0, given := 0, stop := none }, none] }, hp := { (State.reset.wr HP_CFG_ENABLE 1).hp with fifo := List.replicate 32 (0x5A#8, false) } }),
      ?_⟩
    decide +kernel
  · refine ⟨(State.reset.wr HP_CFG_ENABLE 1), ?_⟩
    decide +kernel
  · refine ⟨((State.reset.wr HP_CFG_ENABLE 1).wr HW_CONTROL_WAIT_EN 2), ?_⟩
    decide +kernel

/-- What HostPortModes assumes is met, clause by clause. -/
theorem witness_HostPortModes :
    (∃ (s : State), s.hpServes = true ∧ s.hpAwake = true ∧ s.pw.sleep = Sleep.idle ∧ True)
    ∧ (∃ (s : State), s.hpServes = true ∧ s.hpAwake = true ∧ s.pw.sleep ≠ Sleep.idle ∧ True)
    ∧ (∃ (s : State), s.hpServes = true ∧ s.hpAwake = true ∧ s.pw.sleep ≠ Sleep.idle ∧ s.hp.inWait = none ∧
      s.hp.inBuf.length < 29)
    ∧ (∃ (s : State), s.hpServes = true ∧ s.hpAwake = true ∧ s.pw.sleep ≠ Sleep.idle ∧ s.hp.inWait = none ∧
      s.hp.inBuf.length = 29 ∧ s.enqTest 2 = EnqResult.ok)
    ∧ (∃ (s : State), s.hpServes = true ∧ s.hpAwake = true ∧ s.pw.sleep ≠ Sleep.idle ∧ (s.hp.inWait ≠ none ∨ 30
      ≤ s.hp.inBuf.length))
    ∧ (∃ (s : State), s.hpServes = true ∧ s.hpAwake = true ∧ s.pw.sleep ≠ Sleep.idle ∧ s.hp.inWait = none ∧
      s.hp.inBuf ≠ [] ∧ s.hp.inBuf.length ≤ 30 ∧ s.enqTest 2 = EnqResult.ok)
    ∧ (∃ (s : State), s.hpServes = true ∧ s.hpAwake = true ∧ s.pw.sleep ≠ Sleep.idle ∧ (s.hp.inWait ≠ none ∨
      s.hp.inBuf = []))
    ∧ (∃ (s : State), s.hpServes = true ∧ s.hpAwake = true ∧ s.pw.sleep ≠ Sleep.idle ∧ s.hp.inWait = none ∧
      s.hp.inBuf.length ≤ 30 ∧ s.enqTest 2 = EnqResult.ok)
    ∧ (∃ (s : State), s.hpServes = true ∧ s.hpAwake = true ∧ s.pw.sleep ≠ Sleep.idle ∧ s.hp.inWait ≠ none)
    ∧ (∃ (s : State), s.hpServes = true ∧ s.hpAwake = true ∧ s.pw.sleep ≠ Sleep.idle ∧ (s.hp.outBuf = [] ∨
      s.hp.outEnd = true))
    ∧ (∃ (s : State), s.hpServes = true ∧ s.hpAwake = true ∧ s.pw.sleep ≠ Sleep.idle ∧ ∃ e1, e1 ∈
      s.hp.outBuf.head? ∧ e1.snd = false)
    ∧ (∃ (s : State), s.hpServes = true ∧ s.hpAwake = true ∧ s.pw.sleep ≠ Sleep.idle ∧ s.hp.outBuf = [])
    ∧ (∃ (s : State), s.hpServes = true ∧ s.hpAwake = true ∧ s.pw.sleep ≠ Sleep.idle ∧
      let go : Bool := s.flag HP_CFG_SB_EN && s.flag HQE_CTRL_ENABLE && !s.flag HW_SB_CMD_BUSY && s.tagState 31 == 0;
      go = true)
    ∧ (∃ (s : State), s.hpServes = true ∧ s.hpAwake = true ∧ s.pw.sleep ≠ Sleep.idle ∧
      let go : Bool := s.flag HP_CFG_SB_EN && s.flag HQE_CTRL_ENABLE && !s.flag HW_SB_CMD_BUSY && s.tagState 31 == 0;
      go = false)
    ∧ (∃ (s : State) (v : BitVec 16), s.hpServes = true ∧ s.hpAwake = true ∧ s.pw.sleep ≠ Sleep.idle ∧
      let w : Nat := if s.hpWide = true then v.toNat else s.hp.whi * 256 + v.toNat % 256; s.flag HQE_CTRL_ENABLE
      = true ∧ s.usbTag (tagOf (w % 32)) = false ∧ s.sbTag (tagOf (w % 32)) = false ∧ s.tagState (tagOf (w %
      32)) = 0)
    ∧ (∃ (s : State), ∃ e2, e2 ∈ s.hp.inWait ∧ s.hp.inBuf.length ≤ 30 ∧ s.enqTest 2 = EnqResult.ok ∧ s.runs 13 =
      true)
    ∧ (∃ (s : State), let r : Ring := s.ring 3;
      let d : List PByte × State := State.readMem (r.slotAddr r.ci) r.bytes (s.initMem 1); s.hp.outBuf = [] ∧
      r.consumer = 4 ∧ r.en = true ∧ 0 < r.count ∧ poisoned d.fst = false ∧ s.runs 13 = true)
    ∧ (∃ (s : State), ∃ e3, e3 ∈ s.hq.tags[31].entry ∧ s.tagState 31 = 5 ∧ s.hq.tags[31].sb = true ∧ s.runs 13 =
      true ∧ True)
    ∧ (∃ (s : State), s.on 13 = true ∧ s.regOn HP_CFG_WORD.addr = true) := by
  refine ⟨?_, ?_, ?_, ?_, ?_, ?_, ?_, ?_, ?_, ?_, ?_, ?_, ?_, ?_, ?_, ?_, ?_, ?_, ?_⟩
  · refine ⟨((fun (s : State) => { s with hp := { s.hp with resetting := false } }) ((fun (s : State) =>
      { s with pw := { s.pw with sleep := .idle } })
      ({ (State.reset.wr HP_CFG_ENABLE 1) with hp := { outBuf := [(5, false)], outEnd := true } }))), ?_⟩
    decide +kernel
  · refine ⟨(withRing 2 8 1 1 0 (State.reset.wr HP_CFG_ENABLE 1)), ?_⟩
    decide +kernel
  · refine ⟨(withRing 2 8 1 1 0 (State.reset.wr HP_CFG_ENABLE 1)), ?_⟩
    decide +kernel
  · refine
      ⟨({ (withRing 2 8 1 1 0 (State.reset.wr HP_CFG_ENABLE 1)) with hp := { inBuf := List.replicate 29 7 } }),
      ?_⟩
    decide +kernel
  · refine
      ⟨({ (withRing 2 8 1 1 0 (State.reset.wr HP_CFG_ENABLE 1)) with hp := { inBuf := List.replicate 30 7, inWait := some true } }),
      ?_⟩
    decide +kernel
  · refine
      ⟨({ (withRing 2 8 1 1 0 (State.reset.wr HP_CFG_ENABLE 1)) with hp := { inBuf := List.replicate 29 7 } }),
      ?_⟩
    decide +kernel
  · refine ⟨(withRing 2 8 1 1 0 (State.reset.wr HP_CFG_ENABLE 1)), ?_⟩
    decide +kernel
  · refine ⟨(withRing 2 8 1 1 0 (State.reset.wr HP_CFG_ENABLE 1)), ?_⟩
    decide +kernel
  · refine
      ⟨({ (withRing 2 8 1 1 0 (State.reset.wr HP_CFG_ENABLE 1)) with hp := { inBuf := List.replicate 30 7, inWait := some true } }),
      ?_⟩
    decide +kernel
  · refine ⟨(withRing 2 8 1 1 0 (State.reset.wr HP_CFG_ENABLE 1)), ?_⟩
    decide +kernel
  · refine ⟨({ (State.reset.wr HP_CFG_ENABLE 1) with hp := { outBuf := [(5, false)], outEnd := true } }), ?_⟩
    decide +kernel
  · refine ⟨(withRing 2 8 1 1 0 (State.reset.wr HP_CFG_ENABLE 1)), ?_⟩
    decide +kernel
  · refine ⟨(((State.reset.wr HP_CFG_ENABLE 1).wr HP_CFG_SB_EN 1).wr HQE_CTRL_ENABLE 1), ?_⟩
    decide +kernel
  · refine ⟨(withRing 2 8 1 1 0 (State.reset.wr HP_CFG_ENABLE 1)), ?_⟩
    decide +kernel
  · refine ⟨(((State.reset.wr HP_CFG_ENABLE 1).wr HP_CFG_SB_EN 1).wr HQE_CTRL_ENABLE 1), 0x3#16, ?_⟩
    decide +kernel
  · refine
      ⟨({ (withRing 2 8 1 1 0 (State.reset.wr HP_CFG_ENABLE 1)) with hp := { inBuf := List.replicate 30 7, inWait := some true } }),
      ?_⟩
    decide +kernel
  · refine ⟨(withEntry 3 8 4 (leBytes 2 0x105 ++ leBytes 30 0x123456789) (State.reset.wr HP_CFG_ENABLE 1)), ?_⟩
    decide +kernel
  · refine ⟨((fun (s : State) =>
      { s with hq := { s.hq with tags := vmod s.hq.tags 31 (fun _ => { s.hq.tags[31] with entry := (some [0x5#8]) }) } })
      (((fun (s : State) =>
      { s with hq := { s.hq with tags := vmod s.hq.tags 31 (fun _ => { s.hq.tags[31] with sb := true }) } })
      ({ (State.reset.wr HP_CFG_ENABLE 1) with hp := { resetting := true } })).wr (HQE_TAG_STATE_OF 31) 5)), ?_⟩
    decide +kernel
  · refine ⟨State.reset, ?_⟩
    decide +kernel

/-- What HostQueue assumes is met, clause by clause. -/
theorem witness_HostQueue :
    (∃ (s : State) (tag : Fin 32), s.flag HQE_CTRL_ENABLE = true ∧ s.tagState tag = 0 ∧
      let d : List PByte × State := State.readMem (s.slotAddr tag) 32 (s.leaveIdle.initMem 1);
      let c : List Byte := bits d.fst; fieldB c 0 1 ≠ 4 ∧ s.runs 1 = true)
    ∧ (∃ (s : State) (usb : Bool) (tag : Fin 32), (s.flag HQE_CTRL_ENABLE = false ∨ s.usbTag tag ≠ usb ∨
      s.tagState tag ≠ 0) ∧ s.rd HQE_ERR_INFO_CODE = 0 ∧ s.runs 1 = true)
    ∧ (∃ (s : State), ∃ e4, e4 ∈ (s.dequeue 7).fst ∧ (s.ring 7).consumer = 3 ∧ poisoned e4 = false ∧ s.descOk
      (bits e4) = true ∧ (s.dequeue 7).snd.hq.stopped.contains (fieldB (bits e4) 2 1, fieldB (bits e4) 3 1 / 32)
      = false ∧ s.runs 1 = true)
    ∧ (∃ (s : State) (usb : Bool), ∃ e5, e5 ∈ s.hq.cur[trOf usb] ∧ e5.stop = none ∧ e5.fast = false ∧ e5.segs =
      [] ∧ e5.total ≤ e5.given ∧ s.runs 1 = true)
    ∧ (∃ (s : State) (usb : Bool), ∃ e6, e6 ∈ s.hq.cur[trOf usb] ∧ e6.stop = none ∧ e6.fast = true ∧ e6.segs =
      [] ∧ e6.total ≤ e6.given ∧ s.runs 1 = true)
    ∧ (∃ (s : State), ∃ e7, e7 ∈ (s.dequeue 1).fst ∧ (s.ring 1).consumer = 3 ∧ poisoned e7 = false ∧
      let u : State := (s.dequeue 1).snd; let d : List Byte := bits e7; let g : Fin 32 := tagOf (fieldB d 4 1);
      let x : HqTag := u.hq.tags[g]; u.tagState g = 3 ∧ x.unposted = false ∧ x.fwDone = false ∧ u.tagGen g =
      fieldB d 15 1 / 32 ∧ fieldB x.slot 0 1 ≠ 4 ∧ s.runs 1 = true)
    ∧ (∃ (s : State) (usb : Bool), ∃ e8, e8 ∈ s.hq.waiting[trOf usb].head? ∧ s.cqCount (trOf usb) < 64 ∧ s.runs
      1 = true)
    ∧ (∃ (s : State), s.regOn HQE_MAP_SYNC_WORD.addr = true)
    ∧ (∃ (s : State), s.hq.sync = [] ∧ s.runs 1 = true)
    ∧ (∃ (s : State) (v : Word), getF v 0 6 ≤ 32 ∧ (∀ (g : Fin 32), s.tagState g = 0) ∧ s.regOn
      HQE_TAG_SPLIT_WORD.addr = true)
    ∧ (∃ (s : State) (g : Fin 32), s.tagState g ≠ 0 ∧ s.rd HQE_ERR_INFO_CODE = 0 ∧ s.regOn
      HQE_TAG_SPLIT_WORD.addr = true) := by
  refine ⟨?_, ?_, ?_, ?_, ?_, ?_, ?_, ?_, ?_, ?_, ?_⟩
  · refine ⟨(withEntry 7 8 3 (leBytes 2 5 ++ leBytes 1 0 ++ leBytes 1 2 ++ leBytes 4 64 ++ leBytes 4 0x80000000
      ++ leBytes 4 0) (State.reset.wr HQE_CTRL_ENABLE 1)), 3, ?_⟩
    decide +kernel
  · refine ⟨State.reset, false, 3, ?_⟩
    decide +kernel
  · refine ⟨(withEntry 7 8 3 (leBytes 2 5 ++ leBytes 1 0 ++ leBytes 1 2 ++ leBytes 4 64 ++ leBytes 4 0x80000000
      ++ leBytes 20 0) ((State.reset.wr HQE_CTRL_ENABLE 1).setTag 0 3)), ?_⟩
    decide +kernel
  · refine
      ⟨({ State.reset with hq := { cur := #v[some {  fast := false, tag := 0, gen := 0, fromHost := false, last := true, id := 1, segs := [], total := 64, moved := 64, given := 64, stop := none }, some {  fast := false, tag := 0, gen := 0, fromHost := false, last := true, id := 1, segs := [], total := 64, moved := 64, given := 64, stop := none }] } }),
      true, ?_⟩
    decide +kernel
  · refine
      ⟨({ State.reset with hq := { cur := #v[some {  fast := true, tag := 0, gen := 0, fromHost := false, last := true, id := 1, segs := [], total := 64, moved := 64, given := 64, stop := none }, some {  fast := true, tag := 0, gen := 0, fromHost := false, last := true, id := 1, segs := [], total := 64, moved := 64, given := 64, stop := none }] } }),
      true, ?_⟩
    decide +kernel
  · refine ⟨(withEntry 1 8 3 (leBytes 4 5 ++ leBytes 12 0) ((State.reset.wr HQE_CTRL_ENABLE 1).setTag 0 3)), ?_⟩
    decide +kernel
  · refine ⟨({ State.reset with hq := { waiting := #v[[3], [4]] } }), false, ?_⟩
    decide +kernel
  · refine ⟨State.reset, ?_⟩
    decide +kernel
  · refine ⟨State.reset, ?_⟩
    decide +kernel
  · refine ⟨State.reset, 0x5#32, ?_⟩
    decide +kernel
  · refine ⟨((withEntry 7 8 3 (leBytes 2 5 ++ leBytes 1 0 ++ leBytes 1 2 ++ leBytes 4 64 ++ leBytes 4 0x80000000
      ++ leBytes 20 0) ((State.reset.wr HQE_CTRL_ENABLE 1).setTag 0 3)).wr (HQE_TAG_STATE_OF 7) 1), 7, ?_⟩
    decide +kernel

/-- What UsbHub assumes is met, clause by clause. -/
theorem witness_UsbHub :
    (∃ (s : State), s.hubLive = true ∧ True)
    ∧ (∃ (s : State) (n : Byte), s.hubLive = true ∧ BitVec.toNat n ≤ 1)
    ∧ (∃ (s : State) (n : Fin 5), s.hubLive = true ∧ (↑n : Nat) < 4)
    ∧ (∃ (s : State) (n : Fin 5), s.hubLive = true ∧ (↑n : Nat) = 4)
    ∧ (∃ (s : State) (n : Fin 5), s.hubLive = true ∧
      let port : Nat → Nat → Prop := fun n v => s.bit (USB_PORT_STATUS n) v = true; (↑n : Nat) < 4 ∧ port (↑n :
      Nat) 0 ∧ port (↑n : Nat) 8)
    ∧ (∃ (s : State) (n : Fin 5), s.hubLive = true ∧
      let port : Nat → Nat → Prop := fun n v => s.bit (USB_PORT_STATUS n) v = true; port (↑n : Nat) 1)
    ∧ (∃ (s : State), s.hubLive = true ∧ (∀ (n : Fin 5), s.rd (USB_PORT_CHANGE (↑n : Nat)) = 0) ∧ s.usb.hubHalt
      = false)
    ∧ (∃ (s : State) (n : Fin 5), s.hubLive = true ∧ s.rd (USB_PORT_CHANGE (↑n : Nat)) ≠ 0 ∧ s.usb.hubHalt =
      false)
    ∧ (∃ (s : State) (n : Fin 4), s.hubLive = true ∧
      let port : Nat → Nat → Prop := fun n v => s.bit (USB_PORT_STATUS n) v = true; port (↑n : Nat) 8)
    ∧ (∃ (s : State), s.hubLive = true ∧ s.flag USB_STATUS_SUSPENDED = true ∧ s.flag USB_STATUS_RWE_HUB = true)
    ∧ (∃ (s : State) (n : Fin 4), s.hubLive = true ∧
      let port : Nat → Nat → Prop := fun n v => s.bit (USB_PORT_STATUS n) v = true; s.flag USB_STATUS_SUSPENDED
      = false ∧ port (↑n : Nat) 2) := by
  refine ⟨?_, ?_, ?_, ?_, ?_, ?_, ?_, ?_, ?_, ?_, ?_⟩
  · refine ⟨(usbUp State.reset), ?_⟩
    decide +kernel
  · refine ⟨(usbUp State.reset), 0x1#8, ?_⟩
    decide +kernel
  · refine ⟨(usbUp State.reset), 1, ?_⟩
    decide +kernel
  · refine ⟨(usbUp State.reset), 4, ?_⟩
    decide +kernel
  · refine ⟨(((usbUp State.reset).wr USB_CTRL_PULLUP 1).wr (USB_PORT_STATUS 3) 65535), 3, ?_⟩
    decide +kernel
  · refine ⟨(usbUp State.reset), 4, ?_⟩
    decide +kernel
  · refine ⟨(usbUp State.reset), ?_⟩
    decide +kernel
  · refine ⟨((usbUp State.reset).wr (USB_PORT_CHANGE 3) 1), 3, ?_⟩
    decide +kernel
  · refine ⟨(((State.reset.wr (USB_PORT_STATUS 2) 65535).wr USB_STATUS_VBUS 1).wr USB_CTRL_PULLUP 1), 2, ?_⟩
    decide +kernel
  · refine ⟨((((fun (s : State) => { s with pw := { s.pw with lostLock := 0x0#5 } }) (usbUp State.reset)).wr
      USB_STATUS_RWE_HUB 1).wr USB_STATUS_SUSPENDED 1), ?_⟩
    decide +kernel
  · refine ⟨((usbUp State.reset).wr (USB_PORT_STATUS 0) 4), 0, ?_⟩
    decide +kernel

/-- What UsbFunction assumes is met, clause by clause. -/
theorem witness_UsbFunction :
    (∃ (s : State), s.fnLive = true ∧ True)
    ∧ (∃ (s : State) (req : Vector Byte 8), s.fnLive = true ∧ s.ownRequest req.toList = false ∧ s.usb.posts = []
      ∧ s.enqTest 4 = EnqResult.ok ∧ (s.ring 4).bytes = 16)
    ∧ (∃ (s : State) (req : Vector Byte 8) (d : List Byte), s.fnLive = true ∧ s.ownRequest req.toList = false ∧
      1024 < d.length)
    ∧ (∃ (s : State) (a : BitVec 32), s.fnLive = true ∧
      let setup : List Byte → Usb := fun p => { s.usb with setups := (s.usb.setups + 1) % 256, ep0 := { setup := p } };
      s.flag USB_CTRL_DBG_EN = true ∧
      let p : Vector Byte 8 := #v[192, 208, BitVec.extractLsb' 0 8 a, BitVec.extractLsb' 8 8 a, BitVec.extractLsb' 16 8 a, BitVec.extractLsb' 24 8 a, 4, 0];
      let u : State := have __src : State := s.up (USB_EP_CTL_TOGGLE 0); { __src with usb := setup p.toList };
      let d : BusOut × State := u.masterRead 5 true false false a.toNat 4; d.fst.bad = false)
    ∧ (∃ (s : State) (a : BitVec 32), s.fnLive = true ∧
      let setup : List Byte → Usb := fun p => { s.usb with setups := (s.usb.setups + 1) % 256, ep0 := { setup := p } };
      s.flag USB_CTRL_DBG_EN = true ∧
      let p : Vector Byte 8 := #v[192, 208, BitVec.extractLsb' 0 8 a, BitVec.extractLsb' 8 8 a, BitVec.extractLsb' 16 8 a, BitVec.extractLsb' 24 8 a, 4, 0];
      let u : State := have __src : State := s.up (USB_EP_CTL_TOGGLE 0); { __src with usb := setup p.toList };
      let d : BusOut × State := u.masterRead 5 true false false a.toNat 4; d.fst.bad = true)
    ∧ (∃ (s : State) (a : BitVec 32) (v : BitVec 32), s.fnLive = true ∧
      let setup : List Byte → Usb := fun p => { s.usb with setups := (s.usb.setups + 1) % 256, ep0 := { setup := p } };
      s.flag USB_CTRL_DBG_EN = true ∧
      let p : Vector Byte 8 := #v[64, 209, BitVec.extractLsb' 0 8 a, BitVec.extractLsb' 8 8 a, BitVec.extractLsb' 16 8 a, BitVec.extractLsb' 24 8 a, 4, 0];
      let u : State := have __src : State := s.up (USB_EP_CTL_TOGGLE 0); { __src with usb := setup p.toList };
      let d : BusOut × State := u.masterWrite 5 true false a.toNat (clean (leBytes 4 v.toNat)); d.fst.bad =
      false)
    ∧ (∃ (s : State) (a : BitVec 32) (v : BitVec 32), s.fnLive = true ∧
      let setup : List Byte → Usb := fun p => { s.usb with setups := (s.usb.setups + 1) % 256, ep0 := { setup := p } };
      s.flag USB_CTRL_DBG_EN = true ∧
      let p : Vector Byte 8 := #v[64, 209, BitVec.extractLsb' 0 8 a, BitVec.extractLsb' 8 8 a, BitVec.extractLsb' 16 8 a, BitVec.extractLsb' 24 8 a, 4, 0];
      let u : State := have __src : State := s.up (USB_EP_CTL_TOGGLE 0); { __src with usb := setup p.toList };
      let d : BusOut × State := u.masterWrite 5 true false a.toNat (clean (leBytes 4 v.toNat)); d.fst.bad =
      true)
    ∧ (∃ (s : State) (v : Word), getF v 24 8 ≠ s.rd USB_SETUP_SEQ_SEQ ∧ s.regOn USB_EP0_CTL_WORD.addr = true)
    ∧ (∃ (s : State) (v : Word), let x : Ep0 := s.usb.ep0; getF v 24 8 = s.rd USB_SETUP_SEQ_SEQ ∧ x.stage =
      Ep0Stage.posted ∧ s.regOn USB_EP0_CTL_WORD.addr = true)
    ∧ (∃ (s : State) (v : Word), let x : Ep0 := s.usb.ep0; getF v 24 8 = s.rd USB_SETUP_SEQ_SEQ ∧ x.stage =
      Ep0Stage.posted ∧ let want : Nat := fieldB x.setup 6 2; 128 ≤ fieldB x.setup 0 1 ∧ 0 < want ∧ getF v 12 11
      ≤ 1024 ∧ s.regOn USB_EP0_CTL_WORD.addr = true)
    ∧ (∃ (s : State), s.hubLive = true ∧ s.flag USB_STATUS_SUSPENDED = false)
    ∧ (∃ (s : State), s.hubLive = true ∧ s.flag USB_STATUS_SUSPENDED = true)
    ∧ (∃ (s : State), s.hubLive = true)
    ∧ (∃ (s : State) (v : Word), BitVec.getLsbD v 2 = true ∧ s.flag USB_STATUS_FN_SUSPENDED = true ∧ s.flag
      USB_STATUS_RWE_FN = true ∧ (s.flag USB_STATUS_SUSPENDED = true → s.flag USB_STATUS_RWE_HUB = true) ∧
      s.regOn USB_CTRL_WORD.addr = true)
    ∧ (∃ (s : State) (v : Word), BitVec.getLsbD v 2 = true ∧ (s.flag USB_STATUS_FN_SUSPENDED = false ∨ s.flag
      USB_STATUS_RWE_FN = false) ∧ s.regOn USB_CTRL_WORD.addr = true)
    ∧ (∃ (s : State), s.usb.rwakeWait = some true)
    ∧ (∃ (s : State), s.usb.rwakeWait = some false ∧ s.bit (USB_PORT_STATUS 4) 2 = true)
    ∧ (∃ (s : State), s.runs 12 = true ∧ s.flag USB_STATUS_VBUS = true)
    ∧ (∃ (s : State), s.runs 12 = true)
    ∧ (∃ (s : State) (v : Word), BitVec.getLsbD v 1 ≠ s.flag USB_CTRL_FN_ATTACH ∧ s.regOn USB_CTRL_WORD.addr =
      true) := by
  refine ⟨?_, ?_, ?_, ?_, ?_, ?_, ?_, ?_, ?_, ?_, ?_, ?_, ?_, ?_, ?_, ?_, ?_, ?_, ?_, ?_⟩
  · refine ⟨(usbUp State.reset), ?_⟩
    decide +kernel
  · refine ⟨(withRing 4 8 1 0 0 (usbUp State.reset)), ⟨#[33, 34, 0, 0, 0, 0, 0, 0], rfl⟩, ?_⟩
    decide +kernel
  · refine ⟨(withRing 4 8 1 0 0 (usbUp State.reset)), ⟨#[0, 9, 1, 0, 0, 0, 0, 0], rfl⟩, (List.replicate 1025 0),
      ?_⟩
    decide +kernel
  · refine ⟨((((State.reset.wr USB_STATUS_VBUS 1).wr USB_CTRL_PULLUP 1).wr USB_CTRL_DBG_EN 1).wr
      (USB_PORT_STATUS 4) 191), 0x80000000#32, ?_⟩
    decide +kernel
  · refine ⟨((usbUp State.reset).wr USB_CTRL_DBG_EN 1), 0x3#32, ?_⟩
    decide +kernel
  · refine ⟨(((((fun (s : State) => { s with pw := { s.pw with lostLock := 0x1#5 } })
      (({ (usbUp State.reset) with usb := { ep0 := { stage := .posted, setup := [0x00, 6, 0, 1, 0, 0, 0, 0] } } }).wr
      USB_CTRL_DBG_EN 1)).wr USB_STATUS_VBUS 1).wr (USB_PORT_STATUS 4) 6).wr USB_CTRL_PULLUP 1), 0x80000000#32,
      0x100#32, ?_⟩
    decide +kernel
  · refine ⟨((usbUp State.reset).wr USB_CTRL_DBG_EN 1), 0x41#32, 0x0#32, ?_⟩
    decide +kernel
  · refine
      ⟨({ (usbUp State.reset) with usb := { ep0 := { stage := .posted, setup := [0x80, 6, 0, 1, 0, 0, 18, 0] } } }),
      0x80000000#32, ?_⟩
    decide +kernel
  · refine
      ⟨({ (usbUp State.reset) with usb := { ep0 := { stage := .posted, setup := [0x80, 6, 0, 1, 0, 0, 18, 0] } } }),
      0x19#32, ?_⟩
    decide +kernel
  · refine
      ⟨({ (usbUp State.reset) with usb := { ep0 := { stage := .posted, setup := [0x80, 6, 0, 1, 0, 0, 18, 0] } } }),
      0x0#32, ?_⟩
    decide +kernel
  · refine ⟨(usbUp State.reset), ?_⟩
    decide +kernel
  · refine ⟨(((usbUp State.reset).wr USB_CTRL_DBG_EN 1).wr USB_STATUS_SUSPENDED 1), ?_⟩
    decide +kernel
  · refine ⟨(usbUp State.reset), ?_⟩
    decide +kernel
  · refine ⟨(((usbUp State.reset).wr USB_STATUS_RWE_FN 1).wr USB_STATUS_FN_SUSPENDED 1), 0xffffffff#32, ?_⟩
    decide +kernel
  · refine ⟨State.reset, 0x1f#32, ?_⟩
    decide +kernel
  · refine ⟨((fun (s : State) => { s with usb := { s.usb with rwakeWait := (some true) } }) ((usbUp
      State.reset).wr USB_CTRL_DBG_EN 1)), ?_⟩
    decide +kernel
  · refine ⟨(((fun (s : State) => { s with usb := { s.usb with rwakeWait := (some false) } }) ((usbUp
      State.reset).wr USB_CTRL_DBG_EN 1)).wr (USB_PORT_STATUS 4) 4), ?_⟩
    decide +kernel
  · refine ⟨(usbUp State.reset), ?_⟩
    decide +kernel
  · refine ⟨State.reset, ?_⟩
    decide +kernel
  · refine ⟨State.reset, 0x1f#32, ?_⟩
    decide +kernel

/-- What UsbStorage assumes is met, clause by clause. -/
theorem witness_UsbStorage :
    (∃ (s : State) (pkt : List Byte), s.fnLive = true ∧ s.flag (USB_EP_CFG_EN 2) = true ∧ s.flag USB_MSE_CFG_UAS
      = false ∧ s.rd (USB_EP_CTL_HALT 2) = 0 ∧ s.ctxState 0 = 0 ∧ pkt.length = 31 ∧ fieldB pkt 0 4 = 1128420181)
    ∧ (∃ (s : State), s.fnLive = true ∧ s.flag (USB_EP_CFG_EN 2) = true ∧ s.flag USB_MSE_CFG_UAS = false ∧ s.rd
      (USB_EP_CTL_HALT 2) = 0 ∧ s.ctxState 0 ≠ 0)
    ∧ (∃ (s : State) (pkt : List Byte), s.fnLive = true ∧ s.flag (USB_EP_CFG_EN 2) = true ∧ s.flag
      USB_MSE_CFG_UAS = false ∧ s.rd (USB_EP_CTL_HALT 2) = 0 ∧ s.ctxState 0 = 0 ∧ (pkt.length ≠ 31 ∨ fieldB pkt
      0 4 ≠ 1128420181))
    ∧ (∃ (s : State) (pkt : List Byte), s.fnLive = true ∧ s.flag (USB_EP_CFG_EN 4) = true ∧ s.flag
      USB_MSE_CFG_UAS = true ∧ s.rd (USB_EP_CTL_HALT 4) = 0 ∧ s.usbQuiet = true ∧ 4 ≤ pkt.length ∧ ∃ e9, e9 ∈
      s.freeCtx ∧ True)
    ∧ (∃ (s : State) (pkt : List Byte), s.fnLive = true ∧ s.flag (USB_EP_CFG_EN 4) = true ∧ s.flag
      USB_MSE_CFG_UAS = true ∧ s.rd (USB_EP_CTL_HALT 4) = 0 ∧ s.usbQuiet = true ∧ 4 ≤ pkt.length ∧
      let tag : Nat := beVal (sliceB pkt 2 2);
      let used : Bool := (List.finRange 16).any fun c => s.ctxState c != 0 && s.rd (USB_MSE_CTX_UAS_TAG (↑c : Nat)) == tag;
      ∃ e9, e9 ∈ s.freeCtx ∧ used = false)
    ∧ (∃ (s : State) (pkt : List Byte), s.fnLive = true ∧ s.flag (USB_EP_CFG_EN 4) = true ∧ s.flag
      USB_MSE_CFG_UAS = true ∧ s.rd (USB_EP_CTL_HALT 4) = 0 ∧ s.usbQuiet = true ∧ 4 ≤ pkt.length ∧
      let tag : Nat := beVal (sliceB pkt 2 2);
      let used : Bool := (List.finRange 16).any fun c => s.ctxState c != 0 && s.rd (USB_MSE_CTX_UAS_TAG (↑c : Nat)) == tag;
      ∃ e9, e9 ∈ s.freeCtx ∧ used = true)
    ∧ (∃ (s : State) (pkt : List Byte), s.fnLive = true ∧ s.flag (USB_EP_CFG_EN 4) = true ∧ s.flag
      USB_MSE_CFG_UAS = true ∧ s.rd (USB_EP_CTL_HALT 4) = 0 ∧ s.usbQuiet = true ∧ 4 ≤ pkt.length ∧ s.freeCtx =
      none)
    ∧ (∃ (s : State) (v : Word), s.usbQuiet = true ∧ s.hq.cur[1] = none ∧
      let c : Fin 16 := Fin.ofNat 16 (getF v 0 4); s.ctxState c ≠ 1 ∧ s.regOn USB_MSE_START_WORD.addr = true)
    ∧ (∃ (s : State) (v : Word), s.usbQuiet = true ∧ s.hq.cur[1] = none ∧
      let c : Fin 16 := Fin.ofNat 16 (getF v 0 4); let x : MseCtx := s.usb.ctx[c];
      let q : Nat × State := s.hqDoorbell true false (tagOf (getF v 16 5)); s.ctxState c = 1 ∧ s.flag
      USB_MSE_CFG_UAS = true ∧ x.moved = 0 ∧ x.phased = false ∧ q.fst = 0 ∧ s.regOn USB_MSE_START_WORD.addr =
      true)
    ∧ (∃ (s : State) (v : Word), s.usbQuiet = true ∧ s.hq.cur[1] = none ∧
      let c : Fin 16 := Fin.ofNat 16 (getF v 0 4); let x : MseCtx := s.usb.ctx[c];
      let q : Nat × State := s.hqDoorbell true false (tagOf (getF v 16 5)); s.ctxState c = 1 ∧ s.flag
      USB_MSE_CFG_UAS = true ∧ x.moved = 0 ∧ x.phased = false ∧ q.fst ≠ 0 ∧ s.regOn USB_MSE_START_WORD.addr =
      true)
    ∧ (∃ (s : State) (v : Word), s.usbQuiet = true ∧ s.hq.cur[1] = none ∧
      let c : Fin 16 := Fin.ofNat 16 (getF v 0 4); let x : MseCtx := s.usb.ctx[c];
      let d : Nat := s.rd USB_MSE_DLEN_BYTES; s.ctxState c = 1 ∧ s.flag USB_MSE_CFG_UAS = true ∧ x.moved = 0 ∧
      x.phased = false ∧ 0 < d ∧ s.regOn USB_MSE_START_WORD.addr = true)
    ∧ (∃ (s : State) (v : Word), s.usbQuiet = true ∧ s.hq.cur[1] = none ∧
      let c : Fin 16 := Fin.ofNat 16 (getF v 0 4); let x : MseCtx := s.usb.ctx[c]; s.ctxState c = 1 ∧ s.flag
      USB_MSE_CFG_UAS = true ∧ x.moved = 0 ∧ x.phased = false ∧ s.regOn USB_MSE_START_WORD.addr = true)
    ∧ (∃ (s : State) (v : Word), s.usbQuiet = true ∧ s.hq.cur[1] = none ∧
      let c : Fin 16 := Fin.ofNat 16 (getF v 0 4); let x : MseCtx := s.usb.ctx[c]; s.ctxState c = 1 ∧ s.flag
      USB_MSE_CFG_UAS = true ∧ x.moved = 0 ∧ x.phased = false ∧ x.task = true ∧ s.regOn USB_MSE_START_WORD.addr
      = true)
    ∧ (∃ (s : State) (v : Word), s.usbQuiet = true ∧ s.hq.cur[1] = none ∧
      let c : Fin 16 := Fin.ofNat 16 (getF v 0 4); let x : MseCtx := s.usb.ctx[c]; s.ctxState c = 1 ∧ s.flag
      USB_MSE_CFG_UAS = false ∧ x.moved = 0 ∧ s.regOn USB_MSE_START_WORD.addr = true)
    ∧ (∃ (s : State), ∃ e0, e0 ∈ s.usb.ready.head? ∧ s.usbQuiet = true ∧ s.hq.cur[1] = none ∧
      let x : MseCtx := s.usb.ctx[e0]; x.toHost = false ∧ x.moved < x.len ∧ x.compl = none ∧ x.phased = true)
    ∧ (∃ (s : State), ∃ e1, e1 ∈ s.usb.ready.head? ∧ s.usbQuiet = true ∧ s.hq.cur[1] = none ∧
      let x : MseCtx := s.usb.ctx[e1]; let n : Nat := min (s.epSize 1) (x.len - x.filled);
      let m : BusOut × State := (s.wr (USB_MSE_CTX_STATE (↑e1 : Nat)) 3).dmaRead 5 (x.buf + x.filled) n;
      x.toHost = true ∧ x.kind = 1 ∧ x.moved < x.len ∧ x.compl = none ∧ 0 < n ∧ m.fst.blocked = false ∧
      m.fst.error = false)
    ∧ (∃ (s : State), s.fnLive = true ∧ s.usb.ep0.stage = Ep0Stage.status ∧ s.flag (USB_EP_CFG_EN 0) = true ∧
      fieldB s.usb.ep0.setup 0 1 < 128)
    ∧ (∃ (s : State) (e : Fin 7), s.fnLive = true ∧ e ≠ 0 ∧ s.flag (USB_EP_CFG_EN (↑e : Nat)) = true ∧ s.flag
      (USB_EP_CFG_DIR (↑e : Nat)) = true ∧ s.rd (USB_EP_CTL_HALT (↑e : Nat)) = 1)
    ∧ (∃ (s : State), s.fnLive = true ∧ ∃ e2, e2 ∈ s.usb.out.head? ∧ s.flag USB_MSE_CFG_UAS = true ∧ s.flag
      (USB_EP_CFG_EN 3) = true ∧ s.flag (USB_EP_CFG_DIR 3) = true ∧ s.rd (USB_EP_CTL_HALT 3) = 0 ∧ s.usbQuiet =
      true)
    ∧ (∃ (s : State), s.fnLive = true ∧ ∃ e2, e2 ∈ s.usb.out.head? ∧ s.flag USB_MSE_CFG_UAS = true ∧ s.flag
      (USB_EP_CFG_EN 3) = true ∧ s.flag (USB_EP_CFG_DIR 3) = true ∧ s.rd (USB_EP_CTL_HALT 3) = 0 ∧ s.usbQuiet =
      true ∧ e2.ctx = none)
    ∧ (∃ (s : State), s.fnLive = true ∧ ∃ e3, e3 ∈ s.usb.cur ∧ let x : MseCtx := s.usb.ctx[e3];
      let n : Nat := min (s.rd (USB_EP_CFG_MAXPKT 1)) (s.epHeld 1);
      let m : List PByte × State := State.epBytes 1 s.usb.ep[1].lo n s; x.toHost = true ∧ s.iuWaits = false ∧
      s.epHeld 1 ≠ 0 ∧ s.rd (USB_EP_CTL_HALT 1) = 0 ∧ poisoned m.fst = false ∧ s.flag (USB_EP_CFG_EN 1) = true ∧
      s.flag (USB_EP_CFG_DIR 1) = true)
    ∧ (∃ (s : State), s.fnLive = true ∧ ∃ e3, e3 ∈ s.usb.cur ∧ let x : MseCtx := s.usb.ctx[e3];
      let n : Nat := min (s.rd (USB_EP_CFG_MAXPKT 1)) (s.epHeld 1);
      let m : List PByte × State := State.epBytes 1 s.usb.ep[1].lo n s; x.toHost = true ∧ s.iuWaits = false ∧
      s.epHeld 1 ≠ 0 ∧ s.rd (USB_EP_CTL_HALT 1) = 0 ∧ poisoned m.fst = false ∧ s.flag (USB_EP_CFG_EN 1) = true ∧
      s.flag (USB_EP_CFG_DIR 1) = true ∧ x.kind = 1 ∧ n < s.epHeld 1 ∧ x.moved + n < x.len ∧ x.compl = none ∧
      s.usb.posts = [] ∧ s.usb.drains = [])
    ∧ (∃ (s : State) (d : List Byte), s.fnLive = true ∧ s.flag (USB_EP_CFG_EN 5) = true ∧ s.flag (USB_EP_CFG_DIR
      5) = false ∧ d.length ≤ s.rd (USB_EP_CFG_MAXPKT 5) ∧ s.rd (USB_EP_CTL_HALT 5) = 0 ∧ d.length ≤ s.epRoom 5)
    ∧ (∃ (s : State) (d : List Byte), s.fnLive = true ∧ s.flag (USB_EP_CFG_EN 5) = true ∧ s.flag (USB_EP_CFG_DIR
      5) = false ∧ d.length ≤ s.rd (USB_EP_CFG_MAXPKT 5) ∧ s.rd (USB_EP_CTL_HALT 5) = 0 ∧ s.epRoom 5 < d.length)
    ∧ (∃ (s : State), ∃ e4, e4 ∈ List.find? (fun c => (s.ctxState c == 2 || s.ctxState c == 3) &&
      s.usb.ctx[c].compl.isNone && Option.map Prod.fst s.usb.ctx[c].hq == some (fieldB (s.peekBytes (s.hqArea +
      2048 + 16 * (s.rd HQE_CQ_USB_HEAD % 64)) 16) 4 1)) (List.finRange 16) ∧ s.cqCount 1 ≠ 0 ∧ s.usbQuiet =
      true ∧ s.hq.cur[1] = none ∧ s.ecc = [] ∧ s.memDue.getLsbD 1 = false ∧
      let st : Nat := fieldB (s.peekBytes (s.hqArea + 2048 + 16 * (s.rd HQE_CQ_USB_HEAD % 64)) 16) 5 1; st ≠ 0)
    ∧ (∃ (s : State), ∃ e4, e4 ∈ List.find? (fun c => (s.ctxState c == 2 || s.ctxState c == 3) &&
      s.usb.ctx[c].compl.isNone && Option.map Prod.fst s.usb.ctx[c].hq == some (fieldB (s.peekBytes (s.hqArea +
      2048 + 16 * (s.rd HQE_CQ_USB_HEAD % 64)) 16) 4 1)) (List.finRange 16) ∧ s.cqCount 1 ≠ 0 ∧ s.usbQuiet =
      true ∧ s.hq.cur[1] = none ∧ s.ecc = [] ∧ s.memDue.getLsbD 1 = false ∧
      let st : Nat := fieldB (s.peekBytes (s.hqArea + 2048 + 16 * (s.rd HQE_CQ_USB_HEAD % 64)) 16) 5 1; st = 0)
    ∧ (∃ (s : State) (v : Word), let c : Fin 16 := Fin.ofNat 16 (getF v 0 4); let x : MseCtx := s.usb.ctx[c];
      s.ctxState c = 4 ∧ s.usbQuiet = true ∧ s.hq.cur[1] = none ∧ s.flag USB_MSE_CFG_UAS = false ∧ x.csw = none
      ∧ s.regOn USB_MSE_FINISH_WORD.addr = true)
    ∧ (∃ (s : State), ∃ e5, e5 ∈ s.usb.out.head? ∧ ∃ e6, e6 ∈ e5.ctx ∧ s.fnLive = true ∧ s.usbQuiet = true ∧
      s.hq.cur[1] = none ∧ let e : Nat := if s.flag USB_MSE_CFG_UAS = true then 3 else 1; s.rd (USB_EP_CTL_HALT
      e) = 0)
    ∧ (∃ (s : State) (v : Word), s.usb.posts = [] ∧ s.hq.cur[1] = none ∧ BitVec.getLsbD v 0 ≠ s.flag
      USB_MSE_CFG_UAS ∧ s.regOn USB_MSE_CFG_WORD.addr = true)
    ∧ (∃ (s : State), s.usb.posts = [] ∧ s.hq.cur[1] = none ∧ s.fnLive = true ∧ s.enqTest 4 = EnqResult.ok ∧
      (s.ring 4).bytes = 16)
    ∧ (∃ (s : State), let m : Nat × Bool := transferAvail s.usb.pkts; let n : Nat := min 30 m.fst;
      let last : Bool := m.snd && decide (m.fst ≤ 30);
      let d : List PByte × State := State.epBytes 5 s.usb.ep[5].lo n s; (last = true ∨ 30 < m.fst) ∧ s.enqTest 5
      = EnqResult.ok ∧ poisoned d.fst = false ∧ s.memDue.getLsbD 1 = false)
    ∧ (∃ (s : State), ∃ e7, e7 ∈ (s.dequeue 6).fst ∧ s.usb.vendorEnd = false ∧ 30 ≤ s.epRoom 6 ∧ (s.ring
      6).consumer = 5 ∧ True) := by
  refine ⟨?_, ?_, ?_, ?_, ?_, ?_, ?_, ?_, ?_, ?_, ?_, ?_, ?_, ?_, ?_, ?_, ?_, ?_, ?_, ?_, ?_, ?_, ?_, ?_, ?_, ?_, ?_, ?_, ?_, ?_, ?_, ?_⟩
  · refine ⟨(usbMse 0 State.reset), ([85, 83, 66, 67, 0, 0, 0, 0, 0, 0, 0, 0, 0, 0, 0, 0, 0, 0, 0, 0, 0, 0, 0,
      0, 0, 0, 0, 0, 0, 0, 0] : List Byte), ?_⟩
    decide +kernel
  · refine ⟨((List.range 16).foldl (fun s c => s.wr (USB_MSE_CTX_STATE c) 1)
      { (usbMse 0 State.reset) with usb := { ctx := Vector.replicate 16 { task := true } } }), ?_⟩
    decide +kernel
  · refine ⟨(usbMse 0 State.reset), ([1, 2, 3, 4] : List Byte), ?_⟩
    decide +kernel
  · refine ⟨(usbMse 1 State.reset), ((List.replicate 64 9) : List Byte), ?_⟩
    decide +kernel
  · refine ⟨(usbMse 1 State.reset), ((List.replicate 64 9) : List Byte), ?_⟩
    decide +kernel
  · refine ⟨((usbMse 1 State.reset).wr (USB_MSE_CTX_STATE 1) 1), ((List.replicate 31 0) : List Byte), ?_⟩
    decide +kernel
  · refine ⟨((List.range 16).foldl (fun s c => s.wr (USB_MSE_CTX_STATE c) 1)
      { (usbMse 1 State.reset) with usb := { ctx := Vector.replicate 16 { task := true } } }), ([85, 83, 66, 67,
      5, 0, 0, 0, 0, 0, 0, 0, 128, 0, 10, 0, 0, 0, 0, 0, 0, 0, 0, 0, 0, 0, 0, 0, 0, 0, 0] : List Byte), ?_⟩
    decide +kernel
  · refine ⟨State.reset, 0x4#32, ?_⟩
    decide +kernel
  · refine ⟨((((usbMse 1 State.reset).wr HQE_CTRL_ENABLE 1).wr HQE_TAG_SPLIT_SPLIT 0).wr (USB_MSE_CTX_STATE 0)
      1), 0x10#32, ?_⟩
    decide +kernel
  · refine ⟨((List.range 16).foldl (fun s c => s.wr (USB_MSE_CTX_STATE c) 1)
      { (usbMse 1 State.reset) with usb := { ctx := Vector.replicate 16 { task := true } } }), 0x4#32, ?_⟩
    decide +kernel
  · refine ⟨(((fun (s : State) => { s with bus := { data := [(1, false), (2, false)], blocked := true } })
      ((List.range 16).foldl (fun s c => s.wr (USB_MSE_CTX_STATE c) 1)
      { (usbMse 1 State.reset) with usb := { ctx := Vector.replicate 16 { task := true } } })).wr
      USB_MSE_DLEN_BYTES 17), 0x2#32, ?_⟩
    decide +kernel
  · refine ⟨((List.range 16).foldl (fun s c => s.wr (USB_MSE_CTX_STATE c) 1)
      { (usbMse 1 State.reset) with usb := { ctx := Vector.replicate 16 { task := true } } }), 0x4#32, ?_⟩
    decide +kernel
  · refine ⟨((List.range 16).foldl (fun s c => s.wr (USB_MSE_CTX_STATE c) 1)
      { (usbMse 1 State.reset) with usb := { ctx := Vector.replicate 16 { task := true } } }), 0x4#32, ?_⟩
    decide +kernel
  · refine ⟨((List.range 16).foldl (fun s c => s.wr (USB_MSE_CTX_STATE c) 1)
      { (usbMse 0 State.reset) with usb := { ctx := Vector.replicate 16 { task := true } } }), 0x0#32, ?_⟩
    decide +kernel
  · refine
      ⟨({ (usbMse 0 State.reset) with usb := { ready := [2], ctx := Vector.replicate 16 { len := 64, phased := true } } }),
      ?_⟩
    decide +kernel
  · refine
      ⟨({ (usbMse 0 State.reset) with usb := { ready := [2], ctx := Vector.replicate 16 { len := 64, toHost := true, kind := 1, buf := 0x80000000 } } }),
      ?_⟩
    decide +kernel
  · refine ⟨((fun (s : State) => { s with usb := { s.usb with ep0 := { s.usb.ep0 with stage := .status } } })
      (withRing 5 8 1 1 0 (usbMse 0 State.reset))), ?_⟩
    decide +kernel
  · refine ⟨(((fun (s : State) =>
      { s with usb := { s.usb with out := [{ ctx := some 2, ready := false, bytes := List.replicate 32 7 }] } })
      ((usbMse 1 State.reset).wr (USB_EP_CFG_SIZE 3) 64)).wr (USB_EP_CTL_HALT 1) 1), 1, ?_⟩
    decide +kernel
  · refine ⟨((fun (s : State) =>
      { s with usb := { s.usb with out := [{ ctx := some 2, ready := true, bytes := List.replicate 32 7 }] } })
      ((usbMse 1 State.reset).wr (USB_EP_CFG_SIZE 1) 64)), ?_⟩
    decide +kernel
  · refine ⟨((fun (s : State) =>
      { s with usb := { s.usb with out := (List.replicate 32 ({ ctx := none, ready := false, bytes := [] })) } })
      ({ (withRing 5 8 1 1 0 (usbMse 1 State.reset)) with usb := { pkts := [(64, true)] , ep := #v[{}, {}, {}, {}, {}, { hi := 64 }, {}] } })),
      ?_⟩
    decide +kernel
  · refine
      ⟨({ ((usbMse 0 State.reset).wr (USB_EP_CFG_MAXPKT 1) 64) with usb := { cur := some 2, ctx := Vector.replicate 16 { len := 1024, toHost := true, kind := 1, buf := 0x80000000 }, ep := #v[{}, { hi := 512 }, {}, {}, {}, {}, {}] } }),
      ?_⟩
    decide +kernel
  · refine
      ⟨({ ((usbMse 0 State.reset).wr (USB_EP_CFG_MAXPKT 1) 64) with usb := { cur := some 2, ctx := Vector.replicate 16 { len := 1024, toHost := true, kind := 1, buf := 0x80000000 }, ep := #v[{}, { hi := 512 }, {}, {}, {}, {}, {}] } }),
      ?_⟩
    decide +kernel
  · refine ⟨(usbMse 0 State.reset), ([1, 2, 3, 4] : List Byte), ?_⟩
    decide +kernel
  · refine ⟨((withRing 4 8 1 0 0 (usbMse 0 State.reset)).wr (USB_EP_CFG_SIZE 5) 0), ([85, 83, 66, 67, 5, 0, 0,
      0, 0, 0, 0, 0, 128, 0, 10, 0, 0, 0, 0, 0, 0, 0, 0, 0, 0, 0, 0, 0, 0, 0, 0] : List Byte), ?_⟩
    decide +kernel
  · refine ⟨((fun (s : State) =>
      { (s.pokeBytes (s.hqArea + 2048) (zerosB 4 ++ [3, 2] ++ zerosB 10)) with usb := { s.usb with ctx := Vector.replicate 16 { hq := some (3, 0), len := 64, cmd := leBytes 32 0x0100 } }, memDue := 0 })
      (((usbMse 0 State.reset).wr HQE_CQ_USB_TAIL 1).wr (USB_MSE_CTX_STATE 2) 2)), ?_⟩
    decide +kernel
  · refine ⟨((fun (s : State) =>
      { (s.pokeBytes (s.hqArea + 2048) (zerosB 4 ++ [3, 0] ++ zerosB 10)) with usb := { s.usb with ctx := Vector.replicate 16 { hq := some (3, 0), len := 64, cmd := leBytes 32 0x0100 } }, memDue := 0 })
      (((usbMse 0 State.reset).wr HQE_CQ_USB_TAIL 1).wr (USB_MSE_CTX_STATE 2) 2)), ?_⟩
    decide +kernel
  · refine ⟨(((usbMse 0 State.reset).wr (USB_MSE_CTX_STATE 1) 1).wr (USB_MSE_CTX_STATE 1) 4), 0x11#32, ?_⟩
    decide +kernel
  · refine ⟨((fun (s : State) =>
      { s with usb := { s.usb with out := [{ ctx := some 2, ready := true, bytes := List.replicate 32 7 }] } })
      ((usbMse 0 State.reset).wr (USB_EP_CFG_SIZE 1) 64)), ?_⟩
    decide +kernel
  · refine ⟨(withRing 4 8 1 0 0 (usbMse 0 State.reset)), 0x11#32, ?_⟩
    decide +kernel
  · refine ⟨(withRing 4 8 1 0 0 (usbMse 0 State.reset)), ?_⟩
    decide +kernel
  · refine
      ⟨({ (withRing 5 8 1 1 0 (usbMse 0 State.reset)) with usb := { pkts := [(64, true)] , ep := #v[{}, {}, {}, {}, {}, { hi := 64 }, {}] } }),
      ?_⟩
    decide +kernel
  · refine ⟨(withEntry 6 8 5 (leBytes 2 0x104 ++ leBytes 30 0x1234) (usbMse 0 State.reset)), ?_⟩
    decide +kernel

/-- What PowerClocks assumes is met, clause by clause. -/
theorem witness_PowerClocks :
    (∃ (s : State), s.flag CLK_STATUS_AON_SRC = false)
    ∧ (∃ (s : State) (p : Fin 5), s.pw.lostLock.getLsbD (↑p : Nat) = false ∧ s.pllNeeded (↑p : Nat) = true)
    ∧ (∃ (s : State) (p : Fin 5), s.pllNeeded (↑p : Nat) = false)
    ∧ (∃ (s : State) (p : Fin 5), s.pw.lostLock.getLsbD (↑p : Nat) = true)
    ∧ (∃ (s : State), s.pw.sleep = Sleep.active ∧ s.pw.goal = DevGoal.none ∧ s.on 1 = true ∧ s.flag
      PWR_CTRL_IDLE_AUTO = true ∧ s.enginesIdle = true ∧ s.irqPending 0 = false ∧ s.irqPending 1 = false)
    ∧ (∃ (s : State), s.pw.sleep ≠ Sleep.active ∨ s.flag PWR_CTRL_IDLE_AUTO = false ∨ s.enginesIdle = false ∨
      s.irqPending 0 = true)
    ∧ (∃ (s : State), s.pw.sleep = Sleep.idle)
    ∧ (∃ (s : State), s.runs 14 = true ∧ True) := by
  refine ⟨?_, ?_, ?_, ?_, ?_, ?_, ?_, ?_⟩
  · refine ⟨(State.reset.wr CLK_STATUS_AON_SRC 2), ?_⟩
    decide +kernel
  · refine ⟨State.reset, 2, ?_⟩
    decide +kernel
  · refine ⟨(State.reset.wr (PWR_DOMAIN_STATUS_BIT 12) 0), 4, ?_⟩
    decide +kernel
  · refine ⟨((fun (s : State) => { s with pw := { s.pw with lostLock := 0x10#5 } }) State.reset), 4, ?_⟩
    decide +kernel
  · refine ⟨State.reset, ?_⟩
    decide +kernel
  · refine ⟨((fun (s : State) =>
      { s with hq := { s.hq with cur := vmod s.hq.cur 0 (fun _ => (some ({ fast := false, tag := 0, gen := 0, fromHost := false, last := false, id := 0, segs := [], total := 0, moved := 0, given := 0, stop := none }))) } })
      State.reset), ?_⟩
    decide +kernel
  · refine ⟨((fun (s : State) => { s with pw := { s.pw with sleep := .idle } }) State.reset), ?_⟩
    decide +kernel
  · refine ⟨State.reset, ?_⟩
    decide +kernel

/-- What PowerTransitions assumes is met, clause by clause. -/
theorem witness_PowerTransitions :
    (∃ (s : State), s.flag PWR_STATE_AON_BUSY = false ∧ s.aonStalled 0 = false ∧ s.sleepReason false = none)
    ∧ (∃ (s : State), s.flag PWR_STATE_AON_BUSY = false ∧ s.aonStalled 0 = false ∧ s.sleepReason true = none)
    ∧ (∃ (s : State), s.flag PWR_STATE_AON_BUSY = false ∧ s.aonStalled 0 = false ∧ ∃ e8, e8 ∈ s.sleepReason
      false ∧ True)
    ∧ (∃ (s : State) (p : Fin 8), s.flag PWR_STATE_AON_BUSY = false ∧ s.aonStalled 0 = false ∧ s.rd
      (SPN_STATUS_STATE (↑p : Nat)) ≠ 0)
    ∧ (∃ (s : State) (v : Word), s.flag PWR_STATE_AON_BUSY = false ∧ s.aonStalled 0 = false ∧ (∀ (d : Fin 15),
      BitVec.getLsbD (s.reg PWR_DOMAIN_REQ_WORD.addr) (↑d : Nat) = true → BitVec.getLsbD v (↑d : Nat) = false →
      s.domainBusy (↑d : Nat) = none) ∧ (BitVec.getLsbD v 14 = true ∨ getF v 2 8 = 0) ∧ BitVec.getLsbD v 0 =
      false ∧ BitVec.getLsbD v 1 = false ∧ BitVec.getLsbD v 11 = false)
    ∧ (∃ (s : State) (v : Word) (d : Fin 14), s.flag PWR_STATE_AON_BUSY = false ∧ s.aonStalled 0 = false ∧ 2 ≤
      (↑d : Nat) ∧ (↑d : Nat) ≠ 11 ∧ BitVec.getLsbD (s.reg PWR_DOMAIN_REQ_WORD.addr) (↑d : Nat) = true ∧
      BitVec.getLsbD v (↑d : Nat) = false ∧ s.domainBusy (↑d : Nat) ≠ none)
    ∧ (∃ (s : State), s.aonStalled 0 = true)
    ∧ (∃ (s : State), s.flag PWR_STATE_AON_BUSY = true ∧ s.aonStalled 0 = false)
    ∧ (∃ (s : State) (src : Fin 6), (↑src : Nat) ≠ 0 ∧ (↑src : Nat) ≠ 2 ∧ (↑src : Nat) ≠ 3 ∧ s.pw.sleep =
      Sleep.active ∧ s.pw.goal = DevGoal.none)
    ∧ (∃ (s : State) (src : Fin 6), (↑src : Nat) ≠ 0 ∧ (↑src : Nat) ≠ 2 ∧ (↑src : Nat) ≠ 3 ∧ s.pw.sleep =
      Sleep.standby ∧ s.pw.goal = DevGoal.none ∧ s.bit PWR_WAKE_EN_EN (↑src : Nat) = true)
    ∧ (∃ (s : State) (src : Fin 6), (↑src : Nat) ≠ 0 ∧ (↑src : Nat) ≠ 2 ∧ (↑src : Nat) ≠ 3 ∧ s.pw.sleep =
      Sleep.standby ∧ s.pw.goal = DevGoal.none ∧ s.bit PWR_WAKE_EN_EN (↑src : Nat) = false)
    ∧ (∃ (s : State) (src : Fin 6), (↑src : Nat) ≠ 0 ∧ (↑src : Nat) ≠ 2 ∧ (↑src : Nat) ≠ 3 ∧ s.pw.sleep =
      Sleep.nadir ∧ s.pw.goal = DevGoal.none ∧ s.bit PWR_WAKE_EN_EN (↑src : Nat) = true ∧ s.rd PWR_PMIC_USE ≠ 0)
    ∧ (∃ (s : State) (src : Fin 6), (↑src : Nat) ≠ 0 ∧ (↑src : Nat) ≠ 2 ∧ (↑src : Nat) ≠ 3 ∧ (s.pw.goal =
      DevGoal.toStandby ∨ s.pw.goal = DevGoal.toNadir) ∧ s.bit PWR_WAKE_EN_EN (↑src : Nat) = true)
    ∧ (∃ (s : State), s.pw.sleep = Sleep.standby ∧ s.pw.goal = DevGoal.none ∧ s.rd PWR_WAKE_TIMER_TICKS ≠ 0 ∧
      s.bit PWR_WAKE_EN_EN 4 = true)
    ∧ (∃ (s : State), s.pw.railWait = true)
    ∧ (∃ (s : State), s.pw.railWait = true ∧ s.boot.reset = none)
    ∧ (∃ (s : State) (d : Fin 16), (↑d : Nat) < 15 ∧ s.phaseDue (↑d : Nat) Phase.dusk = true ∧ ((↑d : Nat) = 14
      → s.anyPort = false))
    ∧ (∃ (s : State) (d : Fin 16), ((↑d : Nat) = 12 ∨ (↑d : Nat) = 13) ∧ s.phaseDue (↑d : Nat) Phase.dusk =
      true)
    ∧ (∃ (s : State) (d : Fin 16), (↑d : Nat) < 15 ∧ s.phaseDue (↑d : Nat) Phase.dusk = false ∧ s.pw.goal =
      DevGoal.toStandby ∧ s.pw.todo = [(↑d : Nat)] ∧ s.pw.wakePend = false ∧ s.bit PWR_WAKE_EN_EN 2 = false ∧
      s.bit PWR_WAKE_EN_EN 3 = false)
    ∧ (∃ (s : State) (d : Fin 16), s.phaseDue (↑d : Nat) Phase.dusk = true)
    ∧ (∃ (s : State) (d : Fin 16), s.phaseDue (↑d : Nat) Phase.dusk = false ∧ (s.pw.goal = DevGoal.toStandby ∨
      s.pw.goal = DevGoal.toNadir) ∧ s.pw.todo.head? = some (↑d : Nat) ∧ s.pw.done = [])
    ∧ (∃ (s : State) (d : Fin 16), ((↑d : Nat) = 12 ∨ (↑d : Nat) = 13) ∧ s.phaseDue (↑d : Nat) Phase.dawn =
      true)
    ∧ (∃ (s : State) (d : Fin 16), 2 ≤ (↑d : Nat) ∧ (↑d : Nat) ≤ 9 ∧ s.phaseDue (↑d : Nat) Phase.dawn = true ∧
      s.servoUp = false)
    ∧ (∃ (s : State) (d : Fin 16), (↑d : Nat) < 15 ∧ s.phaseDue (↑d : Nat) Phase.dawn = true ∧ (2 ≤ (↑d : Nat) →
      (↑d : Nat) ≤ 9 → s.servoUp = true))
    ∧ (∃ (s : State) (d : Fin 16), (↑d : Nat) = 10 ∧ s.phaseDue (↑d : Nat) Phase.dawn = false ∧ s.pw.goal =
      DevGoal.fromStandby ∧ s.pw.todo = [(↑d : Nat)] ∧ s.pw.done.contains 1 = false) := by
  refine ⟨?_, ?_, ?_, ?_, ?_, ?_, ?_, ?_, ?_, ?_, ?_, ?_, ?_, ?_, ?_, ?_, ?_, ?_, ?_, ?_, ?_, ?_, ?_, ?_, ?_⟩
  · refine ⟨State.reset, ?_⟩
    decide +kernel
  · refine ⟨State.reset, ?_⟩
    decide +kernel
  · refine ⟨(allOn { State.reset with pw := { phases := [(12, .dusk)] } }), ?_⟩
    decide +kernel
  · refine ⟨((fun (s : State) => { s with pw := { s.pw with aonWait := [(4, (0, 8))] } }) (((fun (s : State) =>
      { s with pw := { s.pw with phases := [(12, .dawn), (5, .dawn), (13, .dawn), (14, .dawn), (10, .dawn)] } })
      (allOn State.reset)).wr (SPN_STATUS_STATE 3) 9)), 3, ?_⟩
    decide +kernel
  · refine ⟨(allOn { State.reset with pw := { phases := [(5, .dusk)] } }), 0x80000000#32, ?_⟩
    decide +kernel
  · refine ⟨(((allOn { State.reset with pw := { phases := [(12, .dusk)] } }).wr (SPN_STATUS_STATE 0) 10).wr
      PWR_DOMAIN_REQ_WORD 14), 0xb#32, 2, ?_⟩
    decide +kernel
  · refine ⟨((fun (s : State) => { s with pw := { s.pw with aonWait := [(0, (0, 0))] } }) ((fun (s : State) =>
      { s with pw := { s.pw with phases := [(12, .dawn), (5, .dawn), (13, .dawn), (14, .dawn), (10, .dawn)] } })
      (allOn State.reset))), ?_⟩
    decide +kernel
  · refine ⟨(((fun (s : State) =>
      { s with pw := { s.pw with phases := [(12, .dawn), (5, .dawn), (13, .dawn), (14, .dawn), (10, .dawn)] } })
      (allOn State.reset)).wr PWR_STATE_AON_BUSY 1), ?_⟩
    decide +kernel
  · refine ⟨State.reset, 5, ?_⟩
    decide +kernel
  · refine ⟨(((fun (s : State) => { s with pw := { s.pw with sleep := .standby } }) ((fun (s : State) =>
      { s with pw := { s.pw with phases := [(12, .dawn), (5, .dawn), (13, .dawn), (14, .dawn), (10, .dawn)] } })
      (allOn State.reset))).wr PWR_WAKE_EN_EN 6), 1, ?_⟩
    decide +kernel
  · refine ⟨((fun (s : State) => { s with pw := { s.pw with sleep := .standby } }) ((allOn
      { State.reset with pw := { phases := [(13, .dusk)] } }).wr PWR_WAKE_EN_EN 0)), 1, ?_⟩
    decide +kernel
  · refine ⟨(((fun (s : State) => { s with pw := { s.pw with sleep := .nadir } }) ((fun (s : State) =>
      { s with pw := { s.pw with phases := [(12, .dawn), (5, .dawn), (13, .dawn), (14, .dawn), (10, .dawn)] } })
      (allOn State.reset))).wr PWR_PMIC_USE 2), 1, ?_⟩
    decide +kernel
  · refine ⟨(allOn { State.reset with pw := { goal := .toStandby, todo := [10] } }), 5, ?_⟩
    decide +kernel
  · refine ⟨((fun (s : State) => { s with pw := { s.pw with sleep := .standby } }) (((fun (s : State) =>
      { s with pw := { s.pw with goal := .none } }) State.reset).wr PWR_WAKE_TIMER_TICKS 1)), ?_⟩
    decide +kernel
  · refine ⟨({ State.reset with pw := { railWait := true, sleep := .nadir, goal := .fromNadir } }), ?_⟩
    decide +kernel
  · refine ⟨({ State.reset with pw := { railWait := true, sleep := .nadir, goal := .fromNadir } }), ?_⟩
    decide +kernel
  · refine ⟨(allOn { State.reset with pw := { phases := [(13, .dusk)] } }), 13, ?_⟩
    decide +kernel
  · refine ⟨(allOn { State.reset with pw := { phases := [(13, .dusk)] } }), 13, ?_⟩
    decide +kernel
  · refine ⟨((fun (s : State) => { s with pw := { s.pw with todo := [4] } }) (((fun (s : State) =>
      { s with pw := { s.pw with goal := .toStandby } }) ((fun (s : State) =>
      { s with pw := { s.pw with phases := [(12, .dawn), (5, .dawn), (13, .dawn), (14, .dawn), (10, .dawn)] } })
      (allOn State.reset))).wr PWR_WAKE_EN_EN 0)), 4, ?_⟩
    decide +kernel
  · refine ⟨(allOn { State.reset with pw := { phases := [(13, .dusk)] } }), 13, ?_⟩
    decide +kernel
  · refine ⟨((fun (s : State) => { s with pw := { s.pw with todo := [1] } }) (allOn
      { State.reset with pw := { goal := .toStandby, todo := [10] } })), 1, ?_⟩
    decide +kernel
  · refine ⟨((fun (s : State) =>
      { s with pw := { s.pw with phases := [(12, .dawn), (5, .dawn), (13, .dawn), (14, .dawn), (10, .dawn)] } })
      State.reset), 12, ?_⟩
    decide +kernel
  · refine ⟨((fun (s : State) => { s with pw := { s.pw with phases := [(2, .dawn)] } }) (((fun (s : State) =>
      { s with pw := { s.pw with phases := [(12, .dawn), (5, .dawn), (13, .dawn), (14, .dawn), (10, .dawn)] } })
      State.reset).wr (PWR_DOMAIN_STATUS_BIT 14) 0)), 2, ?_⟩
    decide +kernel
  · refine ⟨((fun (s : State) =>
      { s with pw := { s.pw with phases := [(12, .dawn), (5, .dawn), (13, .dawn), (14, .dawn), (10, .dawn)] } })
      State.reset), 12, ?_⟩
    decide +kernel
  · refine ⟨((fun (s : State) => { s with pw := { s.pw with todo := [10] } })
      { State.reset with pw := { goal := .fromStandby, todo := [10] } }), 10, ?_⟩
    decide +kernel

/-- What ResetCommands assumes is met, clause by clause. -/
theorem witness_ResetCommands :
    (∃ (s : State), s.boot.reset = none)
    ∧ (∃ (s : State) (ana : Bool), s.boot.reset = none ∧ s.bit PWR_PMIC_LEVEL (b2n ana) = true)
    ∧ (∃ (s : State) (v : Word), s.boot.reset = none ∧ getF v 16 16 = 42435 ∧ BitVec.getLsbD v 2 = true)
    ∧ (∃ (s : State) (v : Word), s.boot.reset = none ∧ getF v 16 16 = 42435 ∧ BitVec.getLsbD v 2 = false ∧
      BitVec.getLsbD v 0 = true ∧ BitVec.getLsbD v 1 = false ∧ s.restartVec 0 ≠ 0)
    ∧ (∃ (s : State) (v : Word), s.boot.reset = none ∧ getF v 16 16 = 42435 ∧ BitVec.getLsbD v 2 = false ∧
      BitVec.getLsbD v 0 = false ∧ BitVec.getLsbD v 1 = true ∧ s.coreBRuns = false)
    ∧ (∃ (s : State), s.mram.last = none)
    ∧ (∃ (s : State), ∃ e9, e9 ∈ s.mram.last ∧ True)
    ∧ (∃ (s : State) (b : Nat), ∃ e9, e9 ∈ s.mram.last ∧ (b < e9.fst ∨ e9.fst + e9.snd.length ≤ b))
    ∧ (∃ (s : State) (i : Nat) (j : Nat), ∃ e9, e9 ∈ s.mram.last ∧ ∃ e0, e0 ∈ e9.snd[i]? ∧ j < 8)
    ∧ (∃ (v : Word), getF v 16 16 ≠ 42435)
    ∧ (∃ (s : State), s.boot.reset = some RClass.pin ∨ s.boot.reset = some RClass.cold)
    ∧ (∃ (s : State) (ana : Bool), s.bit PWR_PMIC_LEVEL (b2n ana) = false)
    ∧ (∃ (s : State), s.boot.coldHeld = true)
    ∧ (∃ (s : State), s.boot.otpLoading = true ∧ s.boot.otpBit = none ∧ s.boot.partFuses = [])
    ∧ (∃ (s : State), ∃ e1, e1 ∈ s.boot.reset ∧ s.boot.coldHeld = false ∧ s.boot.otpLoading = false ∧
      s.pw.thermHold = false)
    ∧ (∃ (s : State), s.boot.coldHeld = true ∨ s.boot.otpLoading = true ∨ s.pw.thermHold = true ∨ s.boot.reset =
      none)
    ∧ (∃ (s : State), s.boot.reset = none ∧ s.coreBRuns = false ∧ s.restartVec 1 ≠ 0 ∧ s.regOn
      SYS_CORE_RUN_WORD.addr = true)
    ∧ (∃ (s : State) (v : BitVec 16), s.hpServes = true ∧ s.hpWide = true ∧ v.getLsbD 7 = false)
    ∧ (∃ (s : State) (v : BitVec 16), s.hpServes = true ∧ s.hpWide = true ∧ v.getLsbD 7 = true ∧ bitsOf v.toNat
      8 8 ≠ 165)
    ∧ (∃ (s : State) (v : BitVec 16), s.hpServes = true ∧ s.hpWide = true ∧ v.getLsbD 7 = true ∧ bitsOf v.toNat
      8 8 = 165 ∧ s.flag SYS_RST_CFG_HP_SCOPE = false ∧ s.boot.reset = none)
    ∧ (∃ (s : State) (v : BitVec 16), s.hpServes = true ∧ s.hpWide = true ∧ v.getLsbD 7 = true ∧ bitsOf v.toNat
      8 8 = 165 ∧ s.flag SYS_RST_CFG_HP_SCOPE = true) := by
  refine ⟨?_, ?_, ?_, ?_, ?_, ?_, ?_, ?_, ?_, ?_, ?_, ?_, ?_, ?_, ?_, ?_, ?_, ?_, ?_, ?_, ?_⟩
  · refine ⟨State.reset, ?_⟩
    decide +kernel
  · refine ⟨State.reset, false, ?_⟩
    decide +kernel
  · refine ⟨(State.reset.wr HP_CFG_ENABLE 1), 0xa5c30004#32, ?_⟩
    decide +kernel
  · refine ⟨((State.reset.wr HP_CFG_ENABLE 1).wr SYS_RESTART_VEC_A_VECTOR 42436), 0xa5c30001#32, ?_⟩
    decide +kernel
  · refine ⟨((((State.reset.wr HP_CFG_ENABLE 1).wr SYS_STRAP_HP_MODE 2)).wr SYS_RST_CFG_HP_SCOPE 1),
      0xa5c30002#32, ?_⟩
    decide +kernel
  · refine ⟨State.reset, ?_⟩
    decide +kernel
  · refine ⟨((fun (s : State) => { s with mram := { s.mram with last := (some (6, [(0x5#8, 0x6#5)])) } })
      ((((State.reset.wr HP_CFG_ENABLE 1).wr SYS_STRAP_HP_MODE 2)).wr SYS_RST_CFG_HP_SCOPE 1)), ?_⟩
    decide +kernel
  · refine ⟨((fun (s : State) => { s with mram := { s.mram with last := (some (3, [(0x6#8, 0x6#5)])) } })
      ((((State.reset.wr HP_CFG_ENABLE 1).wr SYS_STRAP_HP_MODE 2)).wr SYS_RST_CFG_HP_SCOPE 1)), 65535, ?_⟩
    decide +kernel
  · refine ⟨((fun (s : State) => { s with mram := { s.mram with last := (some (0, [(0x5#8, 0x1#5)])) } })
      State.reset), 0, 5, ?_⟩
    decide +kernel
  · refine ⟨0x4#32, ?_⟩
    decide +kernel
  · refine ⟨((fun (s : State) => { s with boot := { s.boot with reset := (some .pin) } }) ((((State.reset.wr
      HP_CFG_ENABLE 1).wr SYS_STRAP_HP_MODE 2)).wr SYS_RST_CFG_HP_SCOPE 1)), ?_⟩
    decide +kernel
  · refine ⟨(((((State.reset.wr HP_CFG_ENABLE 1).wr SYS_STRAP_HP_MODE 2)).wr SYS_RST_CFG_HP_SCOPE 1).wr
      PWR_PMIC_LEVEL 0), true, ?_⟩
    decide +kernel
  · refine ⟨((fun (s : State) => { s with boot := { s.boot with coldHeld := true } }) ((((State.reset.wr
      HP_CFG_ENABLE 1).wr SYS_STRAP_HP_MODE 2)).wr SYS_RST_CFG_HP_SCOPE 1)), ?_⟩
    decide +kernel
  · refine ⟨((fun (s : State) => { s with boot := { s.boot with otpLoading := true } }) ((((State.reset.wr
      HP_CFG_ENABLE 1).wr SYS_STRAP_HP_MODE 2)).wr SYS_RST_CFG_HP_SCOPE 1)), ?_⟩
    decide +kernel
  · refine ⟨((fun (s : State) => { s with boot := { s.boot with reset := (some .pin) } }) ((((State.reset.wr
      HP_CFG_ENABLE 1).wr SYS_STRAP_HP_MODE 2)).wr SYS_RST_CFG_HP_SCOPE 1)), ?_⟩
    decide +kernel
  · refine ⟨State.reset, ?_⟩
    decide +kernel
  · refine ⟨(((((State.reset.wr HP_CFG_ENABLE 1).wr SYS_STRAP_HP_MODE 2)).wr SYS_RST_CFG_HP_SCOPE 1).wr
      SYS_RESTART_VEC_B_VECTOR 2), ?_⟩
    decide +kernel
  · refine ⟨(((State.reset.wr HP_CFG_ENABLE 1).wr SYS_RST_CFG_HP_SCOPE 1).wr SYS_STRAP_HP_MODE 1), 0x35#16, ?_⟩
    decide +kernel
  · refine ⟨(((((State.reset.wr HP_CFG_ENABLE 1).wr SYS_STRAP_HP_MODE 2)).wr SYS_RST_CFG_HP_SCOPE 1).wr
      SYS_STRAP_HP_MODE 3), 0xffff#16, ?_⟩
    decide +kernel
  · refine ⟨((((State.reset.wr HP_CFG_ENABLE 1).wr SYS_RST_CFG_HP_SCOPE 1).wr SYS_STRAP_HP_MODE 3).wr
      SYS_RST_CFG_HP_SCOPE 0), 0xa580#16, ?_⟩
    decide +kernel
  · refine ⟨((((State.reset.wr HP_CFG_ENABLE 1).wr SYS_RST_CFG_HP_SCOPE 1).wr SYS_STRAP_HP_MODE 3).wr
      SYS_RST_CFG_HP_SCOPE 1), 0xa5ff#16, ?_⟩
    decide +kernel

/-- What BootCommands assumes is met, clause by clause. -/
theorem witness_BootCommands :
    (∃ (s : State) (f : BitVec 8), s.boot.stage = Stage.rom ∧ s.boot.reset = none ∧ f ≠ 0 ∧ s.runs 1 = true)
    ∧ (∃ (s : State), s.boot.stage = Stage.rom ∧ s.boot.reset = none ∧ let sel : Nat := s.rd SYS_STRAP_BOOT_SEL;
      sel = 2 ∧ s.runs 1 = true)
    ∧ (∃ (s : State), s.boot.stage = Stage.rom ∧ s.boot.reset = none ∧ let sel : Nat := s.rd SYS_STRAP_BOOT_SEL;
      let hd : Bool → List Byte := fun b => s.peekBytes (slotBase b) 256; sel < 2 ∧ s.ecc = [] ∧ checkHeader
      (slotBase false) (hd false) ≠ 7 ∧ checkHeader (slotBase true) (hd true) ≠ 7 ∧ s.runs 1 = true)
    ∧ (∃ (s : State), s.boot.stage = Stage.rom ∧ s.boot.reset = none ∧ let sel : Nat := s.rd SYS_STRAP_BOOT_SEL;
      let hd : Bool → List Byte := fun b => s.peekBytes (slotBase b) 256;
      let good : Bool → Prop := fun b => checkHeader (slotBase b) (hd b) = 7 ∧ sha256 (s.peekBytes (slotBase b) 32 ++ s.peekBytes (slotBase b + 256) (fieldB (hd b) 8 4)) = sliceB (hd b) 32 32 ∧ otpBit s.boot.shadow 544 = false ∧ (countIdx 32 fun i => otpBit s.boot.shadow (512 + i)) ≤ fieldB (hd b) 16 4;
      sel = 0 ∧ s.ecc = [] ∧ good false ∧ checkHeader (slotBase true) (hd true) ≠ 7 ∧ s.runs 1 = true)
    ∧ (∃ (s : State), s.boot.stage = Stage.wakeRom ∧ s.boot.reset = none ∧ s.ecc = [] ∧ checkHeader (slotBase
      false) (s.peekBytes (slotBase false) 256) ≠ 7 ∧ checkHeader (slotBase true) (s.peekBytes (slotBase true)
      256) ≠ 7 ∧ s.runs 1 = true)
    ∧ (∃ (s : State) (tr : Transport), s.boot.stage = Stage.recovery ∧ (tr = Transport.uart → otpBit
      s.boot.shadow 547 = false) ∧ (s.boot.owner = none ∨ s.boot.owner = some tr) ∧ s.ecc = [] ∧ s.runs 1 =
      true)
    ∧ (∃ (s : State) (tr : Transport) (p : List Byte), s.boot.stage = Stage.recovery ∧ (tr = Transport.uart →
      otpBit s.boot.shadow 547 = false) ∧ (s.boot.owner = none ∨ s.boot.owner = some tr) ∧ s.ecc = [] ∧ 5 ≤
      p.length ∧ p.length ≤ 1024 ∧ let off : Nat := fieldB p 0 4; off + (p.length - 4) ≤ 393216 ∧ ∀ (i : Fin
      16), s.rd (PROT_CTRL_EN (↑i : Nat)) = 0)
    ∧ (∃ (s : State) (tr : Transport) (p : List Byte), s.boot.stage = Stage.recovery ∧ (tr = Transport.uart →
      otpBit s.boot.shadow 547 = false) ∧ (s.boot.owner = none ∨ s.boot.owner = some tr) ∧ s.ecc = [] ∧ 5 ≤
      p.length ∧ p.length ≤ 1024 ∧ let off : Nat := fieldB p 0 4; 393216 < off + (p.length - 4) ∧ s.runs 1 =
      true)
    ∧ (∃ (s : State) (tr : Transport) (type : Byte), s.boot.stage = Stage.recovery ∧ (tr = Transport.uart →
      otpBit s.boot.shadow 547 = false) ∧ (s.boot.owner = none ∨ s.boot.owner = some tr) ∧ s.ecc = [] ∧
      BitVec.toNat type < 128 ∧ (type = 0 ∨ 5 < BitVec.toNat type) ∧ s.runs 1 = true)
    ∧ (∃ (s : State) (tr : Transport), s.boot.stage = Stage.recovery ∧ (tr = Transport.uart → otpBit
      s.boot.shadow 547 = false) ∧ (s.boot.owner = none ∨ s.boot.owner = some tr) ∧ s.ecc = [] ∧ checkHeader
      (slotBase false) (s.peekBytes (slotBase false) 256) ≠ 7 ∧ checkHeader (slotBase true) (s.peekBytes
      (slotBase true) 256) ≠ 7 ∧ s.runs 1 = true)
    ∧ (∃ (s : State) (tr : Transport) (n : BitVec 8), s.boot.stage = Stage.recovery ∧ (tr = Transport.uart →
      otpBit s.boot.shadow 547 = false) ∧ (s.boot.owner = none ∨ s.boot.owner = some tr) ∧ s.ecc = [] ∧ n ≠ 0 ∧
      n.toNat ≤ 31 ∧ s.runs 1 = true)
    ∧ (∃ (s : State) (tr : Transport), s.boot.stage = Stage.recovery ∧ ∃ e2, e2 ∈ s.boot.owner ∧ e2 ≠ tr ∧ (tr =
      Transport.uart → otpBit s.boot.shadow 547 = false) ∧ s.runs 1 = true)
    ∧ (∃ (s : State), s.boot.stage = Stage.recovery ∧ otpBit s.boot.shadow 547 = true ∧ s.runs 1 = true)
    ∧ (∃ (s : State) (tr : Transport), s.boot.stage = Stage.recovery ∧ tr ≠ Transport.uart ∧ s.runs 1 = true)
    ∧ (∃ (s : State), s.boot.stage = Stage.recovery ∧ s.runs 1 = true)
    ∧ (∃ (s : State) (type : Nat) (seq : Nat) (status : Nat) (d : List Byte),
      let m : List Byte := recoveryBytes type seq status d; m.length ≤ 30 ∧ (s.ring 3).bytes = 32 ∧ s.enqTest 3
      = EnqResult.ok ∧ s.memDue = 0 ∧ s.ecc = [] ∧ s.flag INT_INJECT_ARM = false)
    ∧ (∃ (s : State) (k : BitVec 16) (d : List Byte), s.fnLive = true ∧ s.boot.stage = Stage.recovery ∧ s.dfuOwn
      = true ∧ s.ecc = [] ∧ d.length ≤ 1024 ∧ d ≠ [] ∧ k.toNat * 1024 + d.length ≤ 393216 ∧ (∀ (i : Fin 16),
      s.rd (PROT_CTRL_EN (↑i : Nat)) = 0) ∧ s.runs 1 = true)
    ∧ (∃ (s : State), s.fnLive = true ∧ s.boot.stage = Stage.recovery ∧ s.dfuOwn = true ∧ s.ecc = [] ∧
      let b : Bool := s.boot.target; (s.slotResult b).fst ≠ 0 ∧ s.runs 1 = true)
    ∧ (∃ (s : State), s.fnLive = true ∧ s.boot.stage = Stage.recovery ∧ s.dfuOwn = true ∧ s.ecc = [] ∧ True)
    ∧ (∃ (s : State) (d : List Byte), s.fnLive = true ∧ s.boot.stage = Stage.recovery ∧ s.dfuOwn = true ∧ s.ecc
      = [] ∧ 1024 < d.length ∧ s.runs 1 = true)
    ∧ (∃ (s : State), s.fnLive = true ∧ s.boot.stage = Stage.recovery ∧ s.dfuOwn = true ∧ s.ecc = [] ∧ s.runs 1
      = true)
    ∧ (∃ (v : Word), getF v 16 16 ≠ 27421)
    ∧ (∃ (s : State) (v : Word), let i : Nat := getF v 0 12; getF v 16 16 = 27421 ∧ s.flag OTP_STATUS_BUSY =
      false ∧ s.pw.vddAnaGood = true ∧ (s.otpLocked = false ∨ 512 ≤ i ∧ i < 544 ∨ 576 ≤ i))
    ∧ (∃ (s : State) (v : Word), let i : Nat := getF v 0 12; getF v 16 16 = 27421 ∧ (s.flag OTP_STATUS_BUSY =
      true ∨ s.pw.vddAnaGood = false ∨ s.otpLocked = true ∧ i < 512))
    ∧ (∃ (s : State), ∃ e3, e3 ∈ s.boot.otpBit ∧ True) := by
  refine ⟨?_, ?_, ?_, ?_, ?_, ?_, ?_, ?_, ?_, ?_, ?_, ?_, ?_, ?_, ?_, ?_, ?_, ?_, ?_, ?_, ?_, ?_, ?_, ?_, ?_⟩
  · refine ⟨State.reset, 0x7#8, ?_⟩
    decide +kernel
  · refine ⟨((withSlotA State.reset).wr SYS_STRAP_BOOT_SEL 2), ?_⟩
    decide +kernel
  · refine ⟨State.reset, ?_⟩
    decide +kernel
  · refine ⟨(withSlotA State.reset), ?_⟩
    decide +kernel
  · refine ⟨({ State.reset with boot := { stage := .wakeRom } }), ?_⟩
    decide +kernel
  · refine ⟨({ (withSlotA (usbUp State.reset)) with boot := { stage := .recovery } }), .usb, ?_⟩
    decide +kernel
  · refine ⟨({ (withSlotA (usbUp State.reset)) with boot := { stage := .recovery } }), .usb, [0x00#8, 0x00#8,
      0x00#8, 0x00#8, 0x09#8], ?_⟩
    decide +kernel
  · refine ⟨({ (usbUp State.reset) with boot := { stage := .recovery, owner := some .usb } }), .usb, [0xff#8,
      0xff#8, 0xff#8, 0x00#8, 0x01#8], ?_⟩
    decide +kernel
  · refine ⟨({ (withSlotA (usbUp State.reset)) with boot := { stage := .recovery } }), .usb, 0x8#8, ?_⟩
    decide +kernel
  · refine ⟨withRing 3 16 4 1 0 { State.reset with boot := { stage := .recovery } }, .hostPort, ?_⟩
    decide +kernel
  · refine ⟨({ (withSlotA (usbUp State.reset)) with boot := { stage := .recovery } }), .hostPort, 0x2#8, ?_⟩
    decide +kernel
  · refine ⟨({ (usbUp State.reset) with boot := { stage := .recovery, owner := some .usb } }), .uart, ?_⟩
    decide +kernel
  · refine ⟨{ (withSlotA (usbUp State.reset)) with boot := { stage := .recovery, shadow := otpSet [] 547 } },
      ?_⟩
    decide +kernel
  · refine ⟨({ (usbUp State.reset) with boot := { stage := .recovery, owner := some .usb } }), .usb, ?_⟩
    decide +kernel
  · refine ⟨({ (usbUp State.reset) with boot := { stage := .recovery, owner := some .usb } }), ?_⟩
    decide +kernel
  · refine ⟨withRing 3 16 4 1 0 { State.reset with boot := { stage := .recovery } }, 4, 30, 5, [], ?_⟩
    decide +kernel
  · refine ⟨({ (withSlotA (usbUp State.reset)) with boot := { stage := .recovery } }), 0x4#16, [0xff#8, 0xff#8,
      0xff#8, 0x00#8, 0x01#8], ?_⟩
    decide +kernel
  · refine ⟨({ (usbUp State.reset) with boot := { stage := .recovery, owner := some .usb } }), ?_⟩
    decide +kernel
  · refine ⟨({ (usbUp State.reset) with boot := { stage := .recovery, owner := some .usb } }), ?_⟩
    decide +kernel
  · refine ⟨({ (usbUp State.reset) with boot := { stage := .recovery, owner := some .usb } }), (List.replicate
      1030 0x00#8), ?_⟩
    decide +kernel
  · refine ⟨({ (usbUp State.reset) with boot := { stage := .recovery, owner := some .usb } }), ?_⟩
    decide +kernel
  · refine ⟨0x0#32, ?_⟩
    decide +kernel
  · refine ⟨State.reset, 0x6b1d0200#32, ?_⟩
    decide +kernel
  · refine ⟨((withRing 3 16 4 1 0 { State.reset with boot := { stage := .recovery } }).wr OTP_STATUS_BUSY 1),
      0x6b1d0220, ?_⟩
    decide +kernel
  · refine ⟨({ State.reset with boot := { State.reset.boot with otpBit := some 0 } }), ?_⟩
    decide +kernel

/-- What TimersAndPins assumes is met, clause by clause. -/
theorem witness_TimersAndPins :
    (∃ (s : State), s.on 0 = true ∧ s.io.timerDue = 0 ∧ (s.io.mtime + 1) % 2 ^ 64 % 1000 ≠ 0)
    ∧ (∃ (s : State) (c : Fin 2), s.on 0 = true ∧ s.io.timerDue = 0 ∧ (s.io.mtime + 1) % 2 ^ 64 % 1000 = 0 ∧
      s.flag (WDT_CTRL_ARM (↑c : Nat)) = true ∧ s.rd (WDT_STATUS_COUNT (↑c : Nat)) ≠ 0 ∧ s.rd (WDT_CTRL_ARM (1 -
      (↑c : Nat))) = 0 ∧ s.on 1 = true ∧ (s.flag (WDT_CTRL_PAUSE_WFI (↑c : Nat)) = false ∨ s.irqPending c =
      true) ∧ (s.flag (WDT_CTRL_PAUSE_DEBUG (↑c : Nat)) = false ∨ s.core[c].debug = false))
    ∧ (∃ (s : State) (c : Fin 2), s.on 0 = true ∧ s.io.timerDue = 0 ∧ (s.io.mtime + 1) % 2 ^ 64 % 1000 = 0 ∧
      s.flag (WDT_CTRL_ARM (↑c : Nat)) = true ∧ s.rd (WDT_STATUS_COUNT (↑c : Nat)) ≠ 0 ∧ s.rd (WDT_CTRL_ARM (1 -
      (↑c : Nat))) = 0 ∧ (s.on 1 = false ∨ s.flag (WDT_CTRL_PAUSE_WFI (↑c : Nat)) = true ∧ s.core[c].wfi = true
      ∧ s.irqPending c = false ∨ s.flag (WDT_CTRL_PAUSE_DEBUG (↑c : Nat)) = true ∧ s.core[c].debug = true))
    ∧ (∃ (s : State) (n : Fin 4), s.io.timerDue.getLsbD (↑n : Nat) = true)
    ∧ (∃ (s : State) (n : Fin 4), s.regOn (TIMER_LOAD_WORD (↑n : Nat)).addr = true)
    ∧ (∃ (s : State) (n : Fin 4), s.regOn (TIMER_CTRL_WORD (↑n : Nat)).addr = true)
    ∧ (∃ (s : State), s.regOn MTIME_LO_WORD.addr = true)
    ∧ (∃ (s : State) (c : Fin 2), s.flag (WDT_CTRL_ARM (↑c : Nat)) = true ∧ s.rd (WDT_STATUS_COUNT (↑c : Nat)) =
      0 ∧ s.rd (WDT_STATUS_STAGE (↑c : Nat)) = 0)
    ∧ (∃ (s : State) (c : Fin 2), s.flag (WDT_CTRL_ARM (↑c : Nat)) = true ∧ s.rd (WDT_STATUS_COUNT (↑c : Nat)) =
      0 ∧ s.rd (WDT_STATUS_STAGE (↑c : Nat)) = 1 ∧ s.boot.reset = none ∧ s.restartVec c ≠ 0 ∧ (c = 1 →
      s.coreBRuns = true))
    ∧ (∃ (s : State) (c : Fin 2) (v : Word), getF v 0 16 = 27930 ∧ s.regOn (WDT_KICK_WORD (↑c : Nat)).addr =
      true)
    ∧ (∃ (s : State) (c : Fin 2) (v : Word), getF v 0 16 ≠ 27930 ∧ s.regOn (WDT_KICK_WORD (↑c : Nat)).addr =
      true)
    ∧ (∃ (s : State) (c : Fin 2), s.flag (WDT_CTRL_ARM (↑c : Nat)) = true ∧ s.regOn (WDT_CTRL_WORD (↑c :
      Nat)).addr = true)
    ∧ (∃ (s : State) (c : Fin 2) (v : Word), s.flag (WDT_CTRL_ARM (↑c : Nat)) = false ∧ BitVec.getLsbD v 0 =
      true ∧ s.regOn (WDT_CTRL_WORD (↑c : Nat)).addr = true)
    ∧ (∃ (s : State), s.runs 1 = true ∧ s.flag UART_CTRL_RX_EN = true ∧ s.io.uartRx.length < 16)
    ∧ (∃ (s : State), s.runs 1 = true ∧ s.flag UART_CTRL_RX_EN = true ∧ 16 ≤ s.io.uartRx.length)
    ∧ (∃ (s : State), s.io.uartTx.length < 16 ∧ s.regOn UART_DATA_WORD.addr = true)
    ∧ (∃ (s : State), ∃ e4, e4 ∈ s.io.uartRx.head? ∧ s.regOn UART_DATA_WORD.addr = true)
    ∧ (∃ (s : State), s.io.uartRx = [] ∧ s.regOn UART_DATA_WORD.addr = true)
    ∧ (∃ (s : State), ∃ e5, e5 ∈ s.io.uartTx.head? ∧ s.runs 1 = true ∧ s.flag UART_CTRL_TX_EN = true)
    ∧ (∃ (s : State) (p : Fin 16), s.on 1 = true ∧ 4 ≤ (↑p : Nat)) := by
  refine ⟨?_, ?_, ?_, ?_, ?_, ?_, ?_, ?_, ?_, ?_, ?_, ?_, ?_, ?_, ?_, ?_, ?_, ?_, ?_, ?_⟩
  · refine ⟨State.reset, ?_⟩
    decide +kernel
  · refine ⟨((fun (s : State) => { s with io := { s.io with mtime := 999 } }) ((State.reset.wr (WDT_CTRL_ARM 0)
      1).wr (WDT_STATUS_COUNT 0) 5)), 0, ?_⟩
    decide +kernel
  · refine ⟨(((fun (s : State) => { s with io := { s.io with mtime := 999 } }) ((State.reset.wr (WDT_CTRL_ARM 1)
      1).wr (WDT_STATUS_COUNT 1) 5)).wr (PWR_DOMAIN_STATUS_BIT 1) 0), 1, ?_⟩
    decide +kernel
  · refine ⟨((fun (s : State) => { s with io := { s.io with timerDue := 0x3#4 } }) ((fun (s : State) =>
      { s with io := { s.io with mtime := 999 } }) ((State.reset.wr (WDT_CTRL_ARM 1) 1).wr (WDT_STATUS_COUNT 1)
      5))), 1, ?_⟩
    decide +kernel
  · refine ⟨State.reset, 1, ?_⟩
    decide +kernel
  · refine ⟨State.reset, 1, ?_⟩
    decide +kernel
  · refine ⟨State.reset, ?_⟩
    decide +kernel
  · refine ⟨(State.reset.wr (WDT_CTRL_ARM 0) 1), 0, ?_⟩
    decide +kernel
  · refine ⟨(((((fun (s : State) => { s with io := { s.io with mtime := 999 } }) ((State.reset.wr (WDT_CTRL_ARM
      0) 1).wr (WDT_STATUS_COUNT 0) 5)).wr SYS_RESTART_VEC_A_VECTOR 3).wr (WDT_STATUS_COUNT 0) 0).wr
      (WDT_STATUS_STAGE 0) 1), 0, ?_⟩
    decide +kernel
  · refine ⟨((fun (s : State) => { s with io := { s.io with mtime := 999 } }) ((State.reset.wr (WDT_CTRL_ARM 0)
      1).wr (WDT_STATUS_COUNT 0) 5)), 0, 0x6d1a#32, ?_⟩
    decide +kernel
  · refine ⟨State.reset, 1, 0x2#32, ?_⟩
    decide +kernel
  · refine ⟨((fun (s : State) => { s with io := { s.io with mtime := 999 } }) ((State.reset.wr (WDT_CTRL_ARM 0)
      1).wr (WDT_STATUS_COUNT 0) 5)), 0, ?_⟩
    decide +kernel
  · refine ⟨State.reset, 1, 0x3#32, ?_⟩
    decide +kernel
  · refine ⟨State.reset, ?_⟩
    decide +kernel
  · refine ⟨((fun (s : State) => { s with io := { s.io with uartRx := (List.replicate 32 0x11#8) } }) ((fun (s :
      State) => { s with io := { s.io with mtime := 999 } }) ((State.reset.wr (WDT_CTRL_ARM 1) 1).wr
      (WDT_STATUS_COUNT 1) 5))), ?_⟩
    decide +kernel
  · refine ⟨State.reset, ?_⟩
    decide +kernel
  · refine ⟨((fun (s : State) => { s with io := { s.io with uartRx := (List.replicate 32 0x8#8) } }) ((fun (s :
      State) => { s with io := { s.io with mtime := 999 } }) ((State.reset.wr (WDT_CTRL_ARM 1) 1).wr
      (WDT_STATUS_COUNT 1) 5))), ?_⟩
    decide +kernel
  · refine ⟨State.reset, ?_⟩
    decide +kernel
  · refine ⟨(((fun (s : State) => { s with io := { s.io with uartTx := (List.replicate 32 0x1#8) } }) ((fun (s :
      State) => { s with io := { s.io with mtime := 999 } }) ((State.reset.wr (WDT_CTRL_ARM 1) 1).wr
      (WDT_STATUS_COUNT 1) 5))).wr (PWR_DOMAIN_STATUS_BIT 1) 1), ?_⟩
    decide +kernel
  · refine ⟨State.reset, 9, ?_⟩
    decide +kernel

/-- What CoreAccesses assumes is met, clause by clause. -/
theorem witness_CoreAccesses :
    (∃ (s : State) (c : Fin 2), s.pw.sleep = Sleep.idle ∧ s.coreLive c = true)
    ∧ (∃ (s : State) (c : Fin 2) (a : Word), s.pw.sleep = Sleep.idle ∧ s.coreLive c = true ∧ regionAt
      (BitVec.toNat a) = Region.uncachedWin)
    ∧ (∃ (s : State) (b : Fin 4), s.pw.sleep = Sleep.idle ∧ b ≠ 3 ∧ s.mayIssue (↑b : Nat) = true)
    ∧ (∃ (s : State) (b : Fin 3), s.pw.sleep = Sleep.idle ∧ s.mayIssue (↑b : Nat) = true)
    ∧ (∃ (s : State) (z : Fin 3) (a : Word), s.pw.sleep = Sleep.idle ∧ s.debugOff = false ∧ s.dbg.sberror = 0 ∧
      s.mayIssue 2 = true ∧ BitVec.toNat a % 2 ^ (↑z : Nat) = 0 ∧ (regionAt (BitVec.toNat a) = Region.page → z =
      2))
    ∧ (∃ (s : State) (c : Fin 2), s.coreLive c = false)
    ∧ (∃ (s : State) (b : Fin 4), b ≠ 3 ∧ s.mayIssue (↑b : Nat) = false)
    ∧ (∃ (s : State) (b : Fin 3), s.mayIssue (↑b : Nat) = false)
    ∧ (∃ (s : State), s.mayIssue 2 = false)
    ∧ (∃ (s : State) (c : Fin 2), s.pw.sleep ≠ Sleep.idle ∧ s.coreLive c = true ∧ s.core[c].debug = false ∧
      True)
    ∧ (∃ (s : State) (c : Fin 2) (q : Fin 2), s.pw.sleep ≠ Sleep.idle ∧ s.coreLive c = true ∧ s.core[c].debug =
      false ∧ q ≠ c)
    ∧ (∃ (s : State) (c : Fin 2) (x : CoreAccess) (z : Fin 3) (a : Word), s.pw.sleep ≠ Sleep.idle ∧ s.coreLive c
      = true ∧ s.core[c].debug = false ∧ let w : State := s.coreCount c; let k : CoreSt := w.core[c]; ∃ e6, e6 ∈
      k.trigger (accessBit x) (BitVec.toNat a) (2 ^ (↑z : Nat)) ∧ True)
    ∧ (∃ (s : State) (c : Fin 2) (z : Fin 3) (a : Word), s.pw.sleep ≠ Sleep.idle ∧ s.coreLive c = true ∧
      s.core[c].debug = false ∧ let w : State := s.coreCount c; let k : CoreSt := w.core[c]; k.trigger 0
      (BitVec.toNat a) (2 ^ (↑z : Nat)) = none ∧ BitVec.toNat a % 2 ^ (↑z : Nat) ≠ 0)
    ∧ (∃ (s : State) (c : Fin 2) (z : Fin 3) (a : Word), s.pw.sleep ≠ Sleep.idle ∧ s.coreLive c = true ∧
      s.core[c].debug = false ∧ let w : State := s.coreCount c; let k : CoreSt := w.core[c]; k.trigger 1
      (BitVec.toNat a) (2 ^ (↑z : Nat)) = none ∧ BitVec.toNat a % 2 ^ (↑z : Nat) ≠ 0)
    ∧ (∃ (s : State) (c : Fin 2) (z : Fin 3) (a : Word), s.pw.sleep ≠ Sleep.idle ∧ s.coreLive c = true ∧
      s.core[c].debug = false ∧ let w : State := s.coreCount c; let k : CoreSt := w.core[c]; k.trigger 0
      (BitVec.toNat a) (2 ^ (↑z : Nat)) = none ∧ BitVec.toNat a % 2 ^ (↑z : Nat) = 0 ∧ k.pmpOk 0 (BitVec.toNat
      a) (2 ^ (↑z : Nat)) = true ∧ (regionAt (BitVec.toNat a) = Region.ringSram ∨ regionAt (BitVec.toNat a) =
      Region.mram ∨ regionAt (BitVec.toNat a) = Region.tcm) ∧ (w.gate (↑c : Nat) false (BitVec.toNat a)
      false).fst = Passage.pass ∧
      let d : List PByte × State := State.readMem (BitVec.toNat a) (2 ^ (↑z : Nat)) (w.initAt (BitVec.toNat a));
      poisoned d.fst = false)
    ∧ (∃ (s : State) (c : Fin 2) (z : Fin 3) (a : Word), s.pw.sleep ≠ Sleep.idle ∧ s.coreLive c = true ∧
      s.core[c].debug = false ∧ let w : State := s.coreCount c; let k : CoreSt := w.core[c]; k.trigger 0
      (BitVec.toNat a) (2 ^ (↑z : Nat)) = none ∧ BitVec.toNat a % 2 ^ (↑z : Nat) = 0 ∧ k.pmpOk 0 (BitVec.toNat
      a) (2 ^ (↑z : Nat)) = true ∧ (regionAt (BitVec.toNat a) = Region.ringSram ∨ regionAt (BitVec.toNat a) =
      Region.mram ∨ regionAt (BitVec.toNat a) = Region.tcm) ∧ (w.gate (↑c : Nat) false (BitVec.toNat a)
      false).fst = Passage.pass ∧
      let d : List PByte × State := State.readMem (BitVec.toNat a) (2 ^ (↑z : Nat)) (w.initAt (BitVec.toNat a));
      poisoned d.fst = true)
    ∧ (∃ (s : State) (c : Fin 2) (a : Word), s.pw.sleep ≠ Sleep.idle ∧ s.coreLive c = true ∧ s.core[c].debug =
      false ∧ let w : State := s.coreCount c; let k : CoreSt := w.core[c]; k.trigger 2 (BitVec.toNat a) 4 = none
      ∧ BitVec.toNat a % 4 = 0 ∧ k.pmpOk 2 (BitVec.toNat a) 4 = true ∧ regionAt (BitVec.toNat a) =
      Region.ownItcm ∧
      let d : List PByte × State := State.readMem (BitVec.toNat a + 16777216 * ((↑c : Nat) + 1)) 4 w; poisoned
      d.fst = false)
    ∧ (∃ (s : State) (c : Fin 2) (z : Fin 3) (a : Word), s.pw.sleep ≠ Sleep.idle ∧ s.coreLive c = true ∧
      s.core[c].debug = false ∧ let w : State := s.coreCount c; let k : CoreSt := w.core[c]; k.trigger 1
      (BitVec.toNat a) (2 ^ (↑z : Nat)) = none ∧ BitVec.toNat a % 2 ^ (↑z : Nat) = 0 ∧ k.pmpOk 1 (BitVec.toNat
      a) (2 ^ (↑z : Nat)) = true ∧ (regionAt (BitVec.toNat a) = Region.ringSram ∨ regionAt (BitVec.toNat a) =
      Region.mram ∨ regionAt (BitVec.toNat a) = Region.tcm) ∧ (w.gate (↑c : Nat) false (BitVec.toNat a)
      true).fst = Passage.pass ∧ w.memDue = 0)
    ∧ (∃ (s : State) (c : Fin 2) (a : Word), s.pw.sleep ≠ Sleep.idle ∧ s.coreLive c = true ∧ s.core[c].debug =
      false ∧ let w : State := s.coreCount c; let k : CoreSt := w.core[c]; k.trigger 0 (BitVec.toNat a) 4 = none
      ∧ k.trigger 1 (BitVec.toNat a) 4 = none ∧ BitVec.toNat a % 4 ≠ 0)
    ∧ (∃ (s : State) (c : Fin 2) (a : Word), s.pw.sleep ≠ Sleep.idle ∧ s.coreLive c = true ∧ s.core[c].debug =
      false ∧ let w : State := s.coreCount c; let k : CoreSt := w.core[c]; k.trigger 0 (BitVec.toNat a) 4 = none
      ∧ k.trigger 1 (BitVec.toNat a) 4 = none ∧ BitVec.toNat a % 4 = 0 ∧ k.pmpOk 0 (BitVec.toNat a) 4 = true ∧
      k.pmpOk 1 (BitVec.toNat a) 4 = true ∧ regionAt (BitVec.toNat a) = Region.ringSram ∧ (w.gate (↑c : Nat)
      false (BitVec.toNat a) true).fst = Passage.pass ∧ (w.gate (↑c : Nat) false (BitVec.toNat a) false).fst =
      Passage.pass ∧ w.memDue = 0 ∧ let d : List PByte × State := State.readMem (BitVec.toNat a) 4 w; poisoned
      d.fst = false)
    ∧ (∃ (s : State) (c : Fin 2) (a : Word), s.pw.sleep ≠ Sleep.idle ∧ s.coreLive c = true ∧ s.core[c].debug =
      false ∧ let w : State := s.coreCount c; let k : CoreSt := w.core[c]; k.trigger 0 (BitVec.toNat a) 4 = none
      ∧ k.trigger 1 (BitVec.toNat a) 4 = none ∧ BitVec.toNat a % 4 = 0 ∧ k.pmpOk 0 (BitVec.toNat a) 4 = true ∧
      k.pmpOk 1 (BitVec.toNat a) 4 = true ∧ regionAt (BitVec.toNat a) = Region.ringSram ∧ (w.gate (↑c : Nat)
      false (BitVec.toNat a) true).fst = Passage.pass ∧ (w.gate (↑c : Nat) false (BitVec.toNat a) false).fst =
      Passage.pass ∧ w.memDue = 0 ∧ let d : List PByte × State := State.readMem (BitVec.toNat a) 4 w; poisoned
      d.fst = false ∧ k.resv = some (BitVec.toNat a / 64))
    ∧ (∃ (s : State) (c : Fin 2) (a : Word) (late : Bool), s.pw.sleep ≠ Sleep.idle ∧ s.coreLive c = true ∧
      s.core[c].debug = false ∧ let w : State := s.coreCount c; let k : CoreSt := w.core[c]; k.trigger 0
      (BitVec.toNat a) 4 = none ∧ k.trigger 1 (BitVec.toNat a) 4 = none ∧ BitVec.toNat a % 4 = 0 ∧ k.pmpOk 0
      (BitVec.toNat a) 4 = true ∧ k.pmpOk 1 (BitVec.toNat a) 4 = true ∧ regionAt (BitVec.toNat a) =
      Region.ringSram ∧ (w.gate (↑c : Nat) false (BitVec.toNat a) true).fst = Passage.pass ∧ (w.gate (↑c : Nat)
      false (BitVec.toNat a) false).fst = Passage.pass ∧ w.memDue = 0 ∧
      let d : List PByte × State := State.readMem (BitVec.toNat a) 4 w; poisoned d.fst = false ∧ (k.resv ≠ some
      (BitVec.toNat a / 64) ∨ late = true))
    ∧ (∃ (s : State) (c : Fin 2) (a : Word), s.pw.sleep ≠ Sleep.idle ∧ s.coreLive c = true ∧ s.core[c].debug =
      false ∧ let w : State := s.coreCount c; let k : CoreSt := w.core[c]; k.trigger 0 (BitVec.toNat a) 4 = none
      ∧ k.trigger 1 (BitVec.toNat a) 4 = none ∧ BitVec.toNat a % 4 = 0 ∧ k.pmpOk 0 (BitVec.toNat a) 4 = true ∧
      k.pmpOk 1 (BitVec.toNat a) 4 = true ∧ regionAt (BitVec.toNat a) = Region.uncachedWin ∧ (w.gate (↑c : Nat)
      false (BitVec.toNat a) true).fst = Passage.pass ∧
      let d : List PByte × State := w.atomicRead (↑c : Nat) (BitVec.toNat a); poisoned d.fst = false)
    ∧ (∃ (s : State) (z : Fin 3) (a : Word), s.debugOff = false ∧ s.dbg.sberror = 0 ∧ s.mayIssue 2 = true ∧
      s.pw.sleep ≠ Sleep.idle ∧ BitVec.toNat a % 2 ^ (↑z : Nat) ≠ 0)
    ∧ (∃ (s : State) (z : Fin 3) (a : Word), s.debugOff = false ∧ s.dbg.sberror = 0 ∧ s.mayIssue 2 = true ∧
      s.pw.sleep ≠ Sleep.idle ∧ BitVec.toNat a % 2 ^ (↑z : Nat) = 0 ∧ regionAt (BitVec.toNat a) =
      Region.ringSram ∧ (s.gate 2 false (BitVec.toNat a) true).fst = Passage.pass ∧ s.memDue = 0)
    ∧ (∃ (s : State) (z : Fin 3) (a : Word), s.debugOff = false ∧ s.dbg.sberror = 0 ∧ s.mayIssue 2 = true ∧
      s.pw.sleep ≠ Sleep.idle ∧ BitVec.toNat a % 2 ^ (↑z : Nat) = 0 ∧ regionAt (BitVec.toNat a) =
      Region.ringSram ∧ (s.gate 2 false (BitVec.toNat a) true).fst = Passage.pass ∧ s.memDue = 0 ∧ (s.gate 2
      false (BitVec.toNat a) false).fst = Passage.pass ∧ True)
    ∧ (∃ (s : State) (z : Fin 3) (a : Word), s.debugOff = false ∧ s.dbg.sberror = 0 ∧ s.mayIssue 2 = true ∧
      s.pw.sleep ≠ Sleep.idle ∧ BitVec.toNat a % 2 ^ (↑z : Nat) = 0 ∧ regionAt (BitVec.toNat a) ≠ Region.page ∧
      (s.gate 2 false (BitVec.toNat a) true).fst = Passage.error)
    ∧ (∃ (s : State) (b : Fin 4) (a : Word), b ≠ 3 ∧ s.mayIssue (↑b : Nat) = true ∧ s.pw.sleep ≠ Sleep.idle ∧
      (s.gate (↑b : Nat) false (BitVec.toNat a) true).fst = Passage.pass ∧ regionAt (BitVec.toNat a) =
      Region.page ∧ BitVec.toNat a % 4 = 0 ∧ (BitVec.toNat a < 806256640 ∨ 806273024 ≤ BitVec.toNat a) ∧
      (BitVec.toNat a < 805847040 ∨ 805896192 ≤ BitVec.toNat a) ∧ s.regOn (BitVec.toNat a) = true ∧ aonResident
      (BitVec.toNat a) = false ∧ regAt (BitVec.toNat a) = none)
    ∧ (∃ (s : State) (b : Fin 4) (a : Word), b ≠ 3 ∧ s.mayIssue (↑b : Nat) = true ∧ s.pw.sleep ≠ Sleep.idle ∧
      (s.gate (↑b : Nat) false (BitVec.toNat a) true).fst = Passage.pass ∧ regionAt (BitVec.toNat a) =
      Region.page ∧ BitVec.toNat a % 4 = 0 ∧ (BitVec.toNat a < 806256640 ∨ 806273024 ≤ BitVec.toNat a) ∧
      (BitVec.toNat a < 805847040 ∨ 805896192 ≤ BitVec.toNat a) ∧ s.regOn (BitVec.toNat a) = true ∧ aonResident
      (BitVec.toNat a) = false ∧ ∃ e7, e7 ∈ regAt (BitVec.toNat a) ∧ List.lookup e7.fst.addr hooks = none)
    ∧ (∃ (s : State) (b : Fin 4) (a : Word), b ≠ 3 ∧ s.mayIssue (↑b : Nat) = true ∧ s.pw.sleep ≠ Sleep.idle ∧
      (s.gate (↑b : Nat) false (BitVec.toNat a) true).fst = Passage.pass ∧ regionAt (BitVec.toNat a) =
      Region.page ∧ BitVec.toNat a % 4 = 0 ∧ (BitVec.toNat a < 806256640 ∨ 806273024 ≤ BitVec.toNat a) ∧
      (BitVec.toNat a < 805847040 ∨ 805896192 ≤ BitVec.toNat a) ∧ s.regOn (BitVec.toNat a) = false ∧ s.flag
      SYS_BUS_ERR_VALID = false)
    ∧ (∃ (s : State) (b : Fin 4) (a : Word), b ≠ 3 ∧ s.mayIssue (↑b : Nat) = true ∧ s.pw.sleep ≠ Sleep.idle ∧
      (s.gate (↑b : Nat) false (BitVec.toNat a) true).fst = Passage.pass ∧ s.regOn (BitVec.toNat a) = true ∧
      regionAt (BitVec.toNat a) = Region.page ∧ BitVec.toNat a % 4 = 0 ∧ aonResident (BitVec.toNat a) = true ∧
      s.flag PWR_STATE_AON_BUSY = true)
    ∧ (∃ (s : State), s.hpServes = true ∧ s.hpAwake = true ∧ s.pw.sleep = Sleep.idle)
    ∧ (∃ (s : State), s.pw.sleep ≠ Sleep.idle ∧ s.hpServes = true ∧ s.hpAwake = true ∧ s.hpWide = true ∧ True)
    ∧ (∃ (s : State) (b : Fin 3) (a : Word), s.mayIssue (↑b : Nat) = true ∧ s.pw.sleep ≠ Sleep.idle ∧ (s.gate
      (↑b : Nat) false (BitVec.toNat a) false).fst = Passage.pass ∧ regionAt (BitVec.toNat a) = Region.page ∧
      BitVec.toNat a % 4 = 0 ∧ (BitVec.toNat a < 806256640 ∨ 806273024 ≤ BitVec.toNat a) ∧ (BitVec.toNat a <
      805847040 ∨ 805896192 ≤ BitVec.toNat a) ∧ s.regOn (BitVec.toNat a) = true ∧ ∃ e8, e8 ∈ regAt (BitVec.toNat
      a) ∧ List.lookup e8.fst.addr views = none)
    ∧ (∃ (s : State) (b : Fin 3) (a : Word), s.mayIssue (↑b : Nat) = true ∧ s.pw.sleep ≠ Sleep.idle ∧ (s.gate
      (↑b : Nat) false (BitVec.toNat a) false).fst = Passage.pass ∧ regionAt (BitVec.toNat a) = Region.page ∧
      BitVec.toNat a % 4 = 0 ∧ (BitVec.toNat a < 806256640 ∨ 806273024 ≤ BitVec.toNat a) ∧ (BitVec.toNat a <
      805847040 ∨ 805896192 ≤ BitVec.toNat a) ∧ s.regOn (BitVec.toNat a) = false)
    ∧ (∃ (s : State), s.pw.aonWait = []) := by
  refine ⟨?_, ?_, ?_, ?_, ?_, ?_, ?_, ?_, ?_, ?_, ?_, ?_, ?_, ?_, ?_, ?_, ?_, ?_, ?_, ?_, ?_, ?_, ?_, ?_, ?_, ?_, ?_, ?_, ?_, ?_, ?_, ?_, ?_, ?_, ?_, ?_⟩
  · refine ⟨((fun (s : State) => { s with pw := { s.pw with sleep := .idle } })
      ({ State.reset with core := #v[{ run := true, resv := some 0x800000 }, { run := true, resv := some 0x800000 }] })),
      0, ?_⟩
    decide +kernel
  · refine ⟨((fun (s : State) => { s with pw := { s.pw with sleep := .idle } }) (allOn
      { State.reset with core := State.reset.core.map (fun c => { c with run := true }) })), 0, 0xC0000000, ?_⟩
    decide +kernel
  · refine ⟨((fun (s : State) => { s with pw := { s.pw with sleep := .idle } }) State.reset), 0, ?_⟩
    decide +kernel
  · refine ⟨((fun (s : State) => { s with pw := { s.pw with sleep := .idle } }) State.reset), 0, ?_⟩
    decide +kernel
  · refine ⟨((fun (s : State) => { s with pw := { s.pw with sleep := .idle } }) (State.reset.wr
      PWR_STATE_AON_BUSY 1)), 0, 0x1000000#32, ?_⟩
    decide +kernel
  · refine ⟨State.reset, 1, ?_⟩
    decide +kernel
  · refine ⟨((fun (s : State) => { s with pw := { s.pw with lostLock := 0x2#5 } })
      { (State.reset.writeMem 0x10000010 [(5, true), (6, true), (5, true), (6, true)]) with memDue := 0, core := Vector.replicate 2 { run := true } }),
      1, ?_⟩
    decide +kernel
  · refine ⟨((fun (s : State) => { s with pw := { s.pw with lostLock := 0x3#5 } })
      { (State.reset.writeMem 0x10000010 [(5, true), (6, true), (5, true), (6, true)]) with memDue := 0, core := Vector.replicate 2 { run := true } }),
      1, ?_⟩
    decide +kernel
  · refine ⟨((fun (s : State) => { s with pw := { s.pw with aonWait := [(2, (2, 0))] } })
      { (State.reset.writeMem 0x10000010 [(5, true), (6, true), (5, true), (6, true)]) with memDue := 0, core := Vector.replicate 2 { run := true } }),
      ?_⟩
    decide +kernel
  · refine ⟨(State.reset.writeMem 0x20000000 [(5, true), (6, true)]), 0, ?_⟩
    decide +kernel
  · refine ⟨(State.reset.writeMem 0x20000000 [(5, true), (6, true)]), 0, 1, ?_⟩
    decide +kernel
  · refine
      ⟨({ (allOn State.reset) with core := State.reset.core.map (fun k => { k with run := true, tdata1 := #v[0x20001041, 0, 0, 0], tdata2 := #v[0x20000100, 0, 0, 0] }) }),
      0, (.load 5 false), 2, 0x20000100, ?_⟩
    decide +kernel
  · refine ⟨(State.reset.wr (PWR_DOMAIN_STATUS_BIT 2) 0), 0, 2, 0x20000003#32, ?_⟩
    decide +kernel
  · refine
      ⟨{ (State.reset.writeMem 0x10000010 [(5, true), (6, true), (5, true), (6, true)]) with memDue := 0, core := Vector.replicate 2 { run := true } },
      0, 1, 0xc0000041#32, ?_⟩
    decide +kernel
  · refine ⟨(State.reset.wr (PWR_DOMAIN_STATUS_BIT 13) 0), 0, 0, 0x2000040#32, ?_⟩
    decide +kernel
  · refine ⟨(State.reset.writeMem 0x20000000 [(5, true), (6, true)]), 0, 0, 0x20000000#32, ?_⟩
    decide +kernel
  · refine ⟨((fun (s : State) => { s with regs := [(2, 0x2000040#32)] }) ((fun (s : State) =>
      { s with pw := { s.pw with lostLock := 0x4#5 } }) (State.reset.wr PWR_STATE_AON_BUSY 1))), 0,
      0x1000000#32, ?_⟩
    decide +kernel
  · refine ⟨(State.reset.wr (PWR_DOMAIN_STATUS_BIT 2) 0), 0, 1, 0x20000000#32, ?_⟩
    decide +kernel
  · refine
      ⟨({ State.reset with core := #v[{ run := true, resv := some 0x800000 }, { run := true, resv := some 0x800000 }] }),
      0, 0x20000003#32, ?_⟩
    decide +kernel
  · refine ⟨(State.reset.wr (PWR_DOMAIN_STATUS_BIT 2) 0), 0, 0x20000000#32, ?_⟩
    decide +kernel
  · refine
      ⟨({ State.reset with core := #v[{ run := true, resv := some 0x800000 }, { run := true, resv := some 0x800000 }] }),
      0, 0x20000000#32, ?_⟩
    decide +kernel
  · refine ⟨(State.reset.wr (PWR_DOMAIN_STATUS_BIT 2) 0), 0, 0x20000000#32, false, ?_⟩
    decide +kernel
  · refine ⟨State.reset, 0, 0xc0000000#32, ?_⟩
    decide +kernel
  · refine ⟨State.reset, 2, 0x20000001#32, ?_⟩
    decide +kernel
  · refine ⟨(State.reset.writeMem 0x20000000 [(5, true), (6, true)]), 0, 0x20000001#32, ?_⟩
    decide +kernel
  · refine ⟨(State.reset.writeMem 0x20000000 [(5, true), (6, true)]), 0, 0x20000001#32, ?_⟩
    decide +kernel
  · refine ⟨(State.reset.wr (PWR_DOMAIN_STATUS_BIT 10) 0), 0, 0x1000000#32, ?_⟩
    decide +kernel
  · refine ⟨(((State.reset.wr HP_CFG_ENABLE 1).wr SYS_STRAP_HP_MODE 0)), 1, 0x30003000#32, ?_⟩
    decide +kernel
  · refine ⟨(State.reset.wr PWR_STATE_AON_BUSY 1), 0, 0x30180410#32, ?_⟩
    decide +kernel
  · refine ⟨(State.reset.writeMem 0x20000000 [(5, true), (6, true)]), 1, 0x30100420#32, ?_⟩
    decide +kernel
  · refine ⟨((State.reset.wr PWR_STATE_AON_BUSY 1).wr PWR_STATE_AON_BUSY 1), 1, 0x3000011c#32, ?_⟩
    decide +kernel
  · refine ⟨((fun (s : State) => { s with pw := { s.pw with sleep := .idle } }) ((allOn State.reset).wr
      HP_CFG_ENABLE 1)), ?_⟩
    decide +kernel
  · refine ⟨(((State.reset.wr HP_CFG_ENABLE 1).wr SYS_STRAP_HP_MODE 3)), ?_⟩
    decide +kernel
  · refine ⟨(State.reset.writeMem 0x20000000 [(5, true), (6, true)]), 2, 0x30000000#32, ?_⟩
    decide +kernel
  · refine ⟨(State.reset.writeMem 0x20000000 [(5, true), (6, true)]), 2, 0x30100420#32, ?_⟩
    decide +kernel
  · refine ⟨State.reset, ?_⟩
    decide +kernel

/-- What LineCacheAccesses assumes is met, clause by clause. -/
theorem witness_LineCacheAccesses :
    (∃ (s : State) (req : Fin 17) (a : Word), inDram (BitVec.toNat a) = true ∧ ∃ e9, e9 ∈ s.blockedBy (↑req :
      Nat) ((↑req : Nat) == 2 || (↑req : Nat) == 4) (BitVec.toNat a) ∧ s.runs 1 = true)
    ∧ (∃ (s : State) (req : Fin 17) (a : Word), inDram (BitVec.toNat a) = true ∧ s.blockedBy (↑req : Nat) ((↑req
      : Nat) == 2 || (↑req : Nat) == 4) (BitVec.toNat a) = none ∧ s.ecc = [] ∧ (s.lc.wcb.any fun e => e.line ==
      dramOff (BitVec.toNat a) / 64) = false ∧ s.flag INT_INJECT_ARM = false ∧ s.lcOn = false ∧ s.runs 1 = true)
    ∧ (∃ (s : State) (req : Fin 17) (a : Word), inDram (BitVec.toNat a) = true ∧ s.blockedBy (↑req : Nat) ((↑req
      : Nat) == 2 || (↑req : Nat) == 4) (BitVec.toNat a) = none ∧ s.ecc = [] ∧ (s.lc.wcb.any fun e => e.line ==
      dramOff (BitVec.toNat a) / 64) = false ∧ s.flag INT_INJECT_ARM = false ∧ s.lcOn = true ∧ regionAt
      (BitVec.toNat a) = Region.uncachedWin ∧ s.findWay (dramOff (BitVec.toNat a) / 64) = none ∧ s.runs 1 =
      true)
    ∧ (∃ (s : State) (req : Fin 17) (a : Word), inDram (BitVec.toNat a) = true ∧ s.blockedBy (↑req : Nat) ((↑req
      : Nat) == 2 || (↑req : Nat) == 4) (BitVec.toNat a) = none ∧ s.ecc = [] ∧ (s.lc.wcb.any fun e => e.line ==
      dramOff (BitVec.toNat a) / 64) = false ∧ s.flag INT_INJECT_ARM = false ∧ ∃ e0, e0 ∈ s.findWay (dramOff
      (BitVec.toNat a) / 64) ∧ s.lcOn = true ∧ regionAt (BitVec.toNat a) = Region.uncachedWin ∧ (s.way e0).pend
      = false ∧ s.runs 1 = true)
    ∧ (∃ (s : State) (req : Fin 17) (a : Word), inDram (BitVec.toNat a) = true ∧ s.blockedBy (↑req : Nat) ((↑req
      : Nat) == 2 || (↑req : Nat) == 4) (BitVec.toNat a) = none ∧ s.ecc = [] ∧ (s.lc.wcb.any fun e => e.line ==
      dramOff (BitVec.toNat a) / 64) = false ∧ s.flag INT_INJECT_ARM = false ∧ ∃ e1, e1 ∈ s.findWay (dramOff
      (BitVec.toNat a) / 64) ∧ s.lcOn = true ∧ regionAt (BitVec.toNat a) = Region.dram ∧ s.rd LC_CTRL_AGE_PERIOD
      = 0 ∧ s.lc.outcomes < 255 ∧ (s.way e1).pend = false ∧ s.runs 1 = true)
    ∧ (∃ (s : State) (req : Fin 17) (a : Word), inDram (BitVec.toNat a) = true ∧ s.blockedBy (↑req : Nat) ((↑req
      : Nat) == 2 || (↑req : Nat) == 4) (BitVec.toNat a) = none ∧ s.ecc = [] ∧ (s.lc.wcb.any fun e => e.line ==
      dramOff (BitVec.toNat a) / 64) = false ∧ s.flag INT_INJECT_ARM = false ∧ ∃ e2, e2 ∈ s.findWay (dramOff
      (BitVec.toNat a) / 64) ∧ (s.way e2).pend = true ∧ s.lcOn = true ∧ regionAt (BitVec.toNat a) = Region.dram
      ∧ s.rd LC_CTRL_AGE_PERIOD = 0 ∧ s.lc.outcomes < 255 ∧ ∃ e3, e3 ∈ s.fillOf e2 (dramOff (BitVec.toNat a) /
      64) ∧ ∃ e4, e4 ∈ s.lc.fills[e3]? ∧ s.runs 1 = true)
    ∧ (∃ (s : State) (req : Fin 17) (instr : Bool) (a : Word), inDram (BitVec.toNat a) = true ∧ s.blockedBy
      (↑req : Nat) ((↑req : Nat) == 2 || (↑req : Nat) == 4) (BitVec.toNat a) = none ∧ s.ecc = [] ∧ (s.lc.wcb.any
      fun e => e.line == dramOff (BitVec.toNat a) / 64) = false ∧ s.flag INT_INJECT_ARM = false ∧ s.findWay
      (dramOff (BitVec.toNat a) / 64) = none ∧ s.lcOn = true ∧ regionAt (BitVec.toNat a) = Region.dram ∧ s.rd
      LC_CTRL_AGE_PERIOD = 0 ∧ s.lc.outcomes < 255 ∧ ∃ e5, (e5 ∈ lowestIdx 16 fun w => s.candidate (lineSet
      (dramOff (BitVec.toNat a) / 64)) (lcClass (↑req : Nat) instr) w && !(s.way (wayIdx (lineSet (dramOff
      (BitVec.toNat a) / 64)) w)).valid) ∧ s.runs 1 = true)
    ∧ (∃ (s : State) (req : Fin 17) (instr : Bool) (a : Word), inDram (BitVec.toNat a) = true ∧ s.blockedBy
      (↑req : Nat) ((↑req : Nat) == 2 || (↑req : Nat) == 4) (BitVec.toNat a) = none ∧ s.ecc = [] ∧ (s.lc.wcb.any
      fun e => e.line == dramOff (BitVec.toNat a) / 64) = false ∧ s.flag INT_INJECT_ARM = false ∧ s.findWay
      (dramOff (BitVec.toNat a) / 64) = none ∧ s.lcOn = true ∧ regionAt (BitVec.toNat a) = Region.dram ∧ s.rd
      LC_CTRL_AGE_PERIOD = 0 ∧ s.lc.outcomes < 255 ∧ (∀ (w : Fin 16), s.candidate (lineSet (dramOff
      (BitVec.toNat a) / 64)) (lcClass (↑req : Nat) instr) (↑w : Nat) = true → (s.way (wayIdx (lineSet (dramOff
      (BitVec.toNat a) / 64)) (↑w : Nat))).valid = true) ∧ ∃ e6, (e6 ∈ lowestIdx 16 fun w => s.candidate
      (lineSet (dramOff (BitVec.toNat a) / 64)) (lcClass (↑req : Nat) instr) w && !(s.way (wayIdx (lineSet
      (dramOff (BitVec.toNat a) / 64)) w)).nru) ∧ s.runs 1 = true)
    ∧ (∃ (s : State) (req : Fin 17) (instr : Bool) (a : Word), inDram (BitVec.toNat a) = true ∧ s.blockedBy
      (↑req : Nat) ((↑req : Nat) == 2 || (↑req : Nat) == 4) (BitVec.toNat a) = none ∧ s.ecc = [] ∧ (s.lc.wcb.any
      fun e => e.line == dramOff (BitVec.toNat a) / 64) = false ∧ s.flag INT_INJECT_ARM = false ∧ s.findWay
      (dramOff (BitVec.toNat a) / 64) = none ∧ s.lcOn = true ∧ regionAt (BitVec.toNat a) = Region.dram ∧ s.rd
      LC_CTRL_AGE_PERIOD = 0 ∧ s.lc.outcomes < 255 ∧ ∃ e7, (e7 ∈ lowestIdx 16 fun w => s.candidate (lineSet
      (dramOff (BitVec.toNat a) / 64)) (lcClass (↑req : Nat) instr) w) ∧ (∀ (w : Fin 16), s.candidate (lineSet
      (dramOff (BitVec.toNat a) / 64)) (lcClass (↑req : Nat) instr) (↑w : Nat) = true → (s.way (wayIdx (lineSet
      (dramOff (BitVec.toNat a) / 64)) (↑w : Nat))).valid = true ∧ (s.way (wayIdx (lineSet (dramOff
      (BitVec.toNat a) / 64)) (↑w : Nat))).nru = true) ∧ s.runs 1 = true)
    ∧ (∃ (s : State) (req : Fin 17) (instr : Bool) (a : Word), inDram (BitVec.toNat a) = true ∧ s.blockedBy
      (↑req : Nat) ((↑req : Nat) == 2 || (↑req : Nat) == 4) (BitVec.toNat a) = none ∧ s.ecc = [] ∧ (s.lc.wcb.any
      fun e => e.line == dramOff (BitVec.toNat a) / 64) = false ∧ s.flag INT_INJECT_ARM = false ∧ s.findWay
      (dramOff (BitVec.toNat a) / 64) = none ∧ s.lcOn = true ∧ regionAt (BitVec.toNat a) = Region.dram ∧ s.rd
      LC_CTRL_AGE_PERIOD = 0 ∧ s.lc.outcomes < 255 ∧ (∀ (w : Fin 16), s.candidate (lineSet (dramOff
      (BitVec.toNat a) / 64)) (lcClass (↑req : Nat) instr) (↑w : Nat) = false) ∧ s.runs 1 = true)
    ∧ (∃ (s : State) (c : Fin 8) (l : Nat), 0 < l ∧ s.bit LC_STREAM_CFG_CLASS_EN (↑c : Nat) = false)
    ∧ (∃ (s : State) (c : Fin 8) (l : Nat), 0 < l ∧ s.bit LC_STREAM_CFG_CLASS_EN (↑c : Nat) = true)
    ∧ (∃ (s : State) (req : Fin 17) (a : Word) (d : List Byte), inDram (BitVec.toNat a) = true ∧ d ≠ [] ∧
      BitVec.toNat a % 64 + d.length ≤ 64 ∧ s.ecc = [] ∧ gateAll (↑req : Nat) false true (granules (BitVec.toNat
      a) d.length) s = (Passage.pass, s) ∧ (regionAt (BitVec.toNat a) = Region.dram → s.rd LC_CTRL_AGE_PERIOD =
      0) ∧ s.lc.outcomes < 255 ∧ s.flag INT_INJECT_ARM = false ∧ s.runs 1 = true)
    ∧ (∃ (s : State) (k : Nat), ∃ e8, e8 ∈ s.lc.fills[k]? ∧ e8.got = none ∧ s.flag BC_STATUS_INIT_DONE = true ∧
      s.rekeying (e8.line / 64) = false ∧ s.major (e8.line / 64) = 0 ∧ s.flag INT_INJECT_ARM = false ∧ s.ecc =
      [] ∧ s.runs 1 = true ∧ s.runs 11 = true)
    ∧ (∃ (s : State) (k : Nat), ∃ e9, e9 ∈ s.lc.fills[k]? ∧ ∃ e0, e0 ∈ e9.got ∧ s.runs 1 = true ∧ s.runs 11 =
      true)
    ∧ (∃ (s : State) (k : Nat), ∃ e1, e1 ∈ s.lc.fills[k]? ∧ e1.got = none ∧ s.flag BC_STATUS_INIT_DONE = true ∧
      s.rekeying (e1.line / 64) = false ∧ s.major (e1.line / 64) ≠ 0 ∧ (s.checkLine e1.line).snd ≠ 0 ∧ s.runs 1
      = true ∧ s.runs 11 = true) := by
  refine ⟨?_, ?_, ?_, ?_, ?_, ?_, ?_, ?_, ?_, ?_, ?_, ?_, ?_, ?_, ?_, ?_⟩
  · refine ⟨((((lcUp State.reset).wr (PROT_CTRL_EN 0) 1).wr (PROT_BASE_BASE 0) 0x80000).wr (PROT_LIMIT_LIMIT 0)
      0x80001), 4, 0xc0000004#32, ?_⟩
    decide +kernel
  · refine ⟨State.reset, 12, 0x80000004#32, ?_⟩
    decide +kernel
  · refine ⟨(dramLine (lcHit State.reset)), 0, 0xc0000040#32, ?_⟩
    decide +kernel
  · refine
      ⟨({ lcHit State.reset with lc := { (lcHit State.reset).lc with wcb := List.replicate 16 { aWcb 8 false with line := 5 } } }),
      1, 0xc0000004#32, ?_⟩
    decide +kernel
  · refine ⟨({ lcHit State.reset with lc := { (lcHit State.reset).lc with fills := [aFill (some 0)] } }), 5,
      0x80000004#32, ?_⟩
    decide +kernel
  · refine
      ⟨({ (lcUp State.reset).setWay 0 { aLine with pend := true } with lc := { ((lcUp State.reset).setWay 0 { aLine with pend := true }).lc with fills := [aFill (some 0)] } }),
      3, 0x80000000#32, ?_⟩
    decide +kernel
  · refine ⟨(lcUp State.reset), 14, false, 0xb7ffffc0#32, ?_⟩
    decide +kernel
  · refine ⟨((fun (s : State) =>
      { (s.wr PWR_STATE_AON_BUSY 1) with pw := { s.pw with aonWait := [(0, 0x30000120, 3), (1, 0x30000120, 3)] } })
      ((List.range 16).foldl (fun s w => s.setWay w { aLine with tag := w + 1, nru := w != 3 }) (lcUp
      State.reset))), 6, false, 0x80000000#32, ?_⟩
    decide +kernel
  · refine ⟨((List.range 16).foldl (fun s w => s.setWay w { aLine with tag := w + 1, nru := true }) (lcUp
      State.reset)), 4, true, 0x80000004#32, ?_⟩
    decide +kernel
  · refine ⟨((fun (s : State) =>
      { (s.wr PWR_STATE_AON_BUSY 1) with pw := { s.pw with aonWait := [(0, 0x30000120, 3), (1, 0x30000120, 3)] } })
      ((List.range 16).foldl (fun s w => s.setWay w { aLine with tag := w + 1, nru := w != 3, lock := true })
      (lcUp State.reset))), 3, false, 0x80000004#32, ?_⟩
    decide +kernel
  · refine ⟨State.reset, 1, 9, ?_⟩
    decide +kernel
  · refine ⟨(dramLine State.reset), 4, 1, ?_⟩
    decide +kernel
  · refine ⟨State.reset, 14, 0xc0000004#32, (List.replicate 4 1), ?_⟩
    decide +kernel
  · refine ⟨{ lcUp State.reset with lc := { fills := [{ aFill (some 0) with more := [(3, 0x80000008, 8)] }] } },
      0, ?_⟩
    decide +kernel
  · refine
      ⟨{ lcUp State.reset with lc := { fills := [{ aFill none with got := some (clean (List.replicate 64 3)), more := [(3, 0x80000008, 8)] }] } },
      0, ?_⟩
    decide +kernel
  · refine
      ⟨{ (dramLine State.reset).poke 0x80000000 1 with lc := { fills := [{ aFill none with more := [(3, 0x80000008, 8)] }] } },
      0, ?_⟩
    decide +kernel

/-- What LineCacheOperations assumes is met, clause by clause. -/
theorem witness_LineCacheOperations :
    (∃ (s : State) (k : Fin 16), ∃ e2, e2 ∈ s.lc.wcb[(↑k : Nat)]? ∧ e2.sent = false ∧ ((List.take (↑k : Nat)
      s.lc.wcb).any fun o => !o.sent && (o.line == e2.line || o.draining)) = false ∧ e2.bytes.length = 64 ∧
      e2.line < 14680064 ∧ s.flag BC_STATUS_INIT_DONE = true ∧ s.rekeying (e2.line / 64) = false ∧ s.major
      (e2.line / 64) ≠ 0 ∧ s.flag INT_INJECT_ARM = false ∧ s.ecc = [] ∧ (s.windowOn e2.line = true → s.side
      e2.line / 2 ^ 48 < 65535) ∧ s.runs 1 = true ∧ s.runs 11 = true)
    ∧ (∃ (s : State) (k : Fin 16), ∃ e2, e2 ∈ s.lc.wcb[(↑k : Nat)]? ∧ (e2.sent = true ∨ ((List.take (↑k : Nat)
      s.lc.wcb).any fun o => !o.sent && (o.line == e2.line || o.draining)) = true) ∧ s.runs 1 = true ∧ s.runs 11
      = true)
    ∧ (∃ (s : State) (k : Fin 16), ∃ e2, e2 ∈ s.lc.wcb[(↑k : Nat)]? ∧ e2.sent = true ∧ s.runs 1 = true ∧ s.runs
      11 = true)
    ∧ (∃ (s : State) (k : Fin 16), ∃ e2, e2 ∈ s.lc.wcb[(↑k : Nat)]? ∧ e2.sent = false)
    ∧ (∃ (s : State), s.lc.outcomes ≠ 0 ∧ s.rd LC_STREAM_ENV_K_MIN ≤ s.rd LC_STREAM_STATUS_K ∧ s.rd
      LC_STREAM_STATUS_K ≤ s.rd LC_STREAM_ENV_K_MAX ∧ s.runs 1 = true)
    ∧ (∃ (s : State), s.flag LC_STATUS_OP_BUSY = true ∧ s.regOn LC_OP_WORD.addr = true)
    ∧ (∃ (s : State), s.flag LC_STATUS_OP_BUSY = false ∧ s.lcInView = false ∧ s.regOn LC_OP_WORD.addr = true)
    ∧ (∃ (s : State), s.flag LC_STATUS_OP_BUSY = false ∧ s.lcInView = true ∧ s.regOn LC_OP_WORD.addr = true)
    ∧ (∃ (s : State), s.flag LC_STATUS_OP_BUSY = false ∧ s.regOn LC_OP_WORD.addr = true)
    ∧ (∃ (s : State) (ways : BitVec 16), s.flag LC_STATUS_OP_BUSY = false ∧ ways ≠ 0 ∧ s.regOn LC_OP_WORD.addr =
      true)
    ∧ (∃ (s : State) (l : Nat) (k : Nat), ∃ e3, e3 ∈ s.lc.fills[k]? ∧ e3.line ≠ l)
    ∧ (∃ (s : State) (l : Nat) (k : Nat), ∃ e4, e4 ∈ s.lc.fills[k]? ∧ ∃ e5, e5 ∈ (s.awaitFills l).lc.fills[k]? ∧
      e4.line = l)
    ∧ (∃ (s : State), s.flag LC_STATUS_OP_BUSY = false ∧ s.lcInView = true ∧ s.ecc = [] ∧ s.flag INT_INJECT_ARM
      = false ∧ (s.lc.fills.any fun f => s.lcInRange f.line) = false ∧ s.regOn LC_OP_WORD.addr = true)
    ∧ (∃ (s : State), s.flag LC_STATUS_OP_BUSY = false ∧ s.ecc = [] ∧ s.flag INT_INJECT_ARM = false ∧ (s.way
      s.lcSetWayIdx).pend = false ∧ s.regOn LC_OP_WORD.addr = true)
    ∧ (∃ (s : State) (ways : BitVec 16), s.flag LC_STATUS_OP_BUSY = false ∧ s.lcInView = true ∧ ways ≠ 0 ∧ s.ecc
      = [] ∧ s.flag INT_INJECT_ARM = false ∧ (s.lc.fills.any fun f => s.lcInRange f.line) = false ∧ s.lcOn =
      false ∧ s.regOn LC_OP_WORD.addr = true)
    ∧ (∃ (s : State) (ways : BitVec 16), s.flag LC_STATUS_OP_BUSY = false ∧ s.lcInView = true ∧ ways ≠ 0 ∧ s.ecc
      = [] ∧ s.flag INT_INJECT_ARM = false ∧ (s.lc.fills.any fun f => s.lcInRange f.line) = false ∧ s.lcOn =
      true ∧ s.rd LC_OP_LINES_LINES = 1 ∧ ∃ e6, e6 ∈ s.findWay (dramOff (s.rd LC_OP_ADDR_ADDR * 64) / 64) ∧
      ((s.way e6).lock = true ∨ ways.getLsbD (e6 % 16) = true) ∧ s.regOn LC_OP_WORD.addr = true)
    ∧ (∃ (s : State) (ways : BitVec 16), s.flag LC_STATUS_OP_BUSY = false ∧ s.lcInView = true ∧ ways ≠ 0 ∧ s.ecc
      = [] ∧ s.flag INT_INJECT_ARM = false ∧ (s.lc.fills.any fun f => s.lcInRange f.line) = false ∧ s.lcOn =
      true ∧ s.rd LC_OP_LINES_LINES = 1 ∧ s.findWay (dramOff (s.rd LC_OP_ADDR_ADDR * 64) / 64) = none ∧ (∀ (w :
      Fin 16), ways.getLsbD (↑w : Nat) = true → (s.way (wayIdx (lineSet (dramOff (s.rd LC_OP_ADDR_ADDR * 64) /
      64)) (↑w : Nat))).lock = true) ∧ s.regOn LC_OP_WORD.addr = true)
    ∧ (∃ (s : State) (ways : BitVec 16), s.flag LC_STATUS_OP_BUSY = false ∧ s.lcInView = true ∧ ways ≠ 0 ∧ s.ecc
      = [] ∧ s.flag INT_INJECT_ARM = false ∧ (s.lc.fills.any fun f => s.lcInRange f.line) = false ∧ s.lcOn =
      true ∧ s.rd LC_OP_LINES_LINES = 1 ∧ s.findWay (dramOff (s.rd LC_OP_ADDR_ADDR * 64) / 64) = none ∧ ∃ e7,
      (e7 ∈ lowestIdx 16 fun w => ways.getLsbD w && !(s.way (wayIdx (lineSet (dramOff (s.rd LC_OP_ADDR_ADDR *
      64) / 64)) w)).lock) ∧ s.rd LC_CTRL_AGE_PERIOD = 0 ∧ s.lc.wcb = [] ∧ s.lc.outcomes < 255 ∧
      s.pw.lostLock.getLsbD 2 = false ∧ s.flag BC_STATUS_INIT_DONE = true ∧ s.rekeying (dramOff (s.rd
      LC_OP_ADDR_ADDR * 64) / 64 / 64) = false ∧ s.major (dramOff (s.rd LC_OP_ADDR_ADDR * 64) / 64 / 64) = 0 ∧
      s.regOn LC_OP_WORD.addr = true)
    ∧ (∃ (s : State), ∃ e8, e8 ∈ s.lc.op ∧ s.runs 1 = true)
    ∧ (∃ (s : State), s.on 1 = true ∧ s.runs 1 = true)
    ∧ (∃ (s : State), s.regOn LC_CTRL_WORD.addr = true) := by
  refine ⟨?_, ?_, ?_, ?_, ?_, ?_, ?_, ?_, ?_, ?_, ?_, ?_, ?_, ?_, ?_, ?_, ?_, ?_, ?_, ?_, ?_⟩
  · refine ⟨({ dramLine State.reset with lc := { wcb := [aWcb 64 false, aWcb 8 true] } }), 0, ?_⟩
    decide +kernel
  · refine
      ⟨({ lcHit State.reset with lc := { (lcHit State.reset).lc with wcb := List.replicate 16 { aWcb 8 false with line := 5 } } }),
      4, ?_⟩
    decide +kernel
  · refine ⟨({ dramLine State.reset with lc := { wcb := [aWcb 64 false, aWcb 8 true] } }), 1, ?_⟩
    decide +kernel
  · refine ⟨({ dramLine State.reset with lc := { wcb := [aWcb 64 false, aWcb 8 true] } }), 0, ?_⟩
    decide +kernel
  · refine ⟨({ lcUp State.reset with lc := { outcomes := 64, regret := 60 } }), ?_⟩
    decide +kernel
  · refine ⟨(({ lcUp State.reset with lc := { outcomes := 64 } }).wr LC_STATUS_OP_BUSY 1), ?_⟩
    decide +kernel
  · refine ⟨State.reset, ?_⟩
    decide +kernel
  · refine ⟨((fun (s : State) => (s.wr LC_OP_ADDR_ADDR 0x2000000).wr LC_OP_LINES_LINES 1) (lcUp State.reset)),
      ?_⟩
    decide +kernel
  · refine ⟨State.reset, ?_⟩
    decide +kernel
  · refine ⟨State.reset, 0x11#16, ?_⟩
    decide +kernel
  · refine ⟨({ lcUp State.reset with lc := { fills := [aFill none] } }), 4, 0, ?_⟩
    decide +kernel
  · refine ⟨((fun (s : State) => (s.wr LC_OP_ADDR_ADDR 0x2000000).wr LC_OP_LINES_LINES 1)
      ({ lcHit State.reset with lc := { (lcHit State.reset).lc with fills := [aFill (some 0)] } })), 0, 0, ?_⟩
    decide +kernel
  · refine ⟨((fun (s : State) => (s.wr LC_OP_ADDR_ADDR 0x2000000).wr LC_OP_LINES_LINES 1) (lcUp State.reset)),
      ?_⟩
    decide +kernel
  · refine ⟨State.reset, ?_⟩
    decide +kernel
  · refine ⟨(((fun (s : State) => (s.wr LC_OP_ADDR_ADDR 0x2000000).wr LC_OP_LINES_LINES 1)
      ({ dramLine (lcHit State.reset) with lc := { (lcHit State.reset).lc with wcb := [aWcb 8 false] } })).wr
      LC_CTRL_ENABLE 0), 0x1#16, ?_⟩
    decide +kernel
  · refine ⟨((fun (s : State) => (s.wr LC_OP_ADDR_ADDR 0x2000000).wr LC_OP_LINES_LINES 1) (lcHit State.reset)),
      0x5#16, ?_⟩
    decide +kernel
  · refine ⟨((fun (s : State) => (s.wr LC_OP_ADDR_ADDR 0x2000000).wr LC_OP_LINES_LINES 1) ((List.range 16).foldl
      (fun s w => s.setWay w { aLine with tag := w + 1, nru := w != 3, lock := true }) (lcUp State.reset))),
      0x1#16, ?_⟩
    decide +kernel
  · refine ⟨((fun (s : State) => (s.wr LC_OP_ADDR_ADDR 0x2000000).wr LC_OP_LINES_LINES 1) (lcUp State.reset)),
      0x40#16, ?_⟩
    decide +kernel
  · refine ⟨((fun (s : State) =>
      { s with lc := { s.lc with op := (some ({ op := 0, mode := 0, ways := 0, addr := 0, lines := 0, setway := 0 })) } })
      ((fun (s : State) => { s with pw := { s.pw with lostLock := 0x1#5 } })
      ({ lcUp State.reset with lc := { outcomes := 64 } }))), ?_⟩
    decide +kernel
  · refine ⟨State.reset, ?_⟩
    decide +kernel
  · refine ⟨State.reset, ?_⟩
    decide +kernel

/-- What MemoryIntegrity assumes is met, clause by clause. -/
theorem witness_MemoryIntegrity :
    (∃ (s : State) (a : Word), inDram (BitVec.toNat a) = true ∧ s.flag BC_STATUS_INIT_DONE = true ∧ s.rekeying
      (dramOff (BitVec.toNat a) / 64 / 64) = false ∧ (s.lc.wcb.any fun e => e.line == dramOff (BitVec.toNat a) /
      64) = false ∧ s.major (dramOff (BitVec.toNat a) / 64 / 64) = 0 ∧ s.runs 11 = true)
    ∧ (∃ (s : State) (a : Word), inDram (BitVec.toNat a) = true ∧ s.flag BC_STATUS_INIT_DONE = true ∧ s.rekeying
      (dramOff (BitVec.toNat a) / 64 / 64) = false ∧ (s.lc.wcb.any fun e => e.line == dramOff (BitVec.toNat a) /
      64) = false ∧ s.major (dramOff (BitVec.toNat a) / 64 / 64) ≠ 0 ∧ s.flag INT_CTRL_DRAM_RETRY = true ∧
      (s.checkLine (dramOff (BitVec.toNat a) / 64)).snd = 0 ∧ s.runs 11 = true)
    ∧ (∃ (s : State) (a : Word), inDram (BitVec.toNat a) = true ∧ s.flag BC_STATUS_INIT_DONE = true ∧ s.rekeying
      (dramOff (BitVec.toNat a) / 64 / 64) = false ∧ (s.lc.wcb.any fun e => e.line == dramOff (BitVec.toNat a) /
      64) = false ∧ s.major (dramOff (BitVec.toNat a) / 64 / 64) ≠ 0 ∧ (s.flag INT_CTRL_DRAM_RETRY = false ∨
      (s.checkLine (dramOff (BitVec.toNat a) / 64)).snd ≠ 0) ∧ s.runs 11 = true)
    ∧ (∃ (s : State) (v : Word), getF v 24 8 = 201 ∧ s.regOn INT_INJECT_WORD.addr = true)
    ∧ (∃ (s : State) (v : Word), getF v 24 8 ≠ 201 ∧ s.regOn INT_INJECT_WORD.addr = true)
    ∧ (∃ (s : State) (a : Nat), ∃ e9, e9 ∈ memAt a ∧ s.flag INT_INJECT_ARM = true ∧ s.rd INT_INJECT_MEM =
      e9.fst)
    ∧ (∃ (s : State) (a : Nat), ∃ e9, e9 ∈ memAt a ∧ s.flag INT_INJECT_ARM = true ∧ s.rd INT_INJECT_MEM ≠
      e9.fst)
    ∧ (∃ (s : State) (l : Nat) (n : Nat) (d : List Byte), l < 14680064 ∧ n < 2 ^ 16 ∧ d.length = 64 ∧ s.flag
      INT_INJECT_ARM = true ∧ s.rd INT_INJECT_MEM = 13)
    ∧ (∃ (s : State) (m : Fin 3), s.memDue.getLsbD (↑m : Nat) = true)
    ∧ (∃ (s : State) (m : Fin 3), s.memDue.getLsbD (↑m : Nat) = false)
    ∧ (∃ (s : State), s.flag BC_STATUS_INIT_DONE = false ∧ s.runs 11 = true)
    ∧ (∃ (s : State), s.flag BC_STATUS_INIT_DONE = true ∨ s.runs 11 = false)
    ∧ (∃ (s : State) (m : Fin 13) (k : Fin 4), s.flag (INT_CAP1_VALID (↑m : Nat) (↑k : Nat)) = false ∨ s.flag
      (INT_CAP1_UNCORR (↑m : Nat) (↑k : Nat)) = true)
    ∧ (∃ (s : State) (m : Fin 13) (k : Fin 4), s.flag (INT_CAP1_VALID (↑m : Nat) (↑k : Nat)) = true ∧ s.flag
      (INT_CAP1_UNCORR (↑m : Nat) (↑k : Nat)) = false ∧ List.find? (fun e => e.fst == (↑m : Nat) && e.snd.fst ==
      s.rd (INT_CAP0_LOC (↑m : Nat) (↑k : Nat))) s.ot.repaired = none ∧ s.flag INT_INJECT_ARM = false ∧ (m = 2 ∨
      m = 9 ∨ m = 11 ∨ m = 12) ∧ memAt (s.rd (INT_CAP0_LOC (↑m : Nat) (↑k : Nat))) = some ((↑m : Nat), s.rd
      (INT_CAP0_LOC (↑m : Nat) (↑k : Nat))) ∧ eccClass (s.eccOf (↑m : Nat) (s.rd (INT_CAP0_LOC (↑m : Nat) (↑k :
      Nat)))) ≠ EccClass.uncorr)
    ∧ (∃ (s : State) (m : Fin 13) (k : Fin 4), s.flag (INT_CAP1_VALID (↑m : Nat) (↑k : Nat)) = true ∧ s.flag
      (INT_CAP1_UNCORR (↑m : Nat) (↑k : Nat)) = false ∧ List.find? (fun e => e.fst == (↑m : Nat) && e.snd.fst ==
      s.rd (INT_CAP0_LOC (↑m : Nat) (↑k : Nat))) s.ot.repaired = none ∧ s.flag INT_INJECT_ARM = false ∧ (m = 8 ∨
      m = 10) ∧ memAt (s.rd (INT_CAP0_LOC (↑m : Nat) (↑k : Nat))) = some ((↑m : Nat), s.rd (INT_CAP0_LOC (↑m :
      Nat) (↑k : Nat))))
    ∧ (∃ (s : State) (m : Fin 13) (k : Fin 4) (a : Nat), s.flag (INT_CAP1_VALID (↑m : Nat) (↑k : Nat)) = true ∧
      s.flag (INT_CAP1_UNCORR (↑m : Nat) (↑k : Nat)) = false ∧ List.find? (fun e => e.fst == (↑m : Nat) &&
      e.snd.fst == s.rd (INT_CAP0_LOC (↑m : Nat) (↑k : Nat))) s.ot.repaired = none ∧ s.flag INT_INJECT_ARM =
      false ∧ (m = 4 ∧ a = 805863424 + s.rd (INT_CAP0_LOC (↑m : Nat) (↑k : Nat)) ∨ m = 5 ∧ a = 805847040 + s.rd
      (INT_CAP0_LOC (↑m : Nat) (↑k : Nat))) ∧ memAt a = some ((↑m : Nat), s.rd (INT_CAP0_LOC (↑m : Nat) (↑k :
      Nat))) ∧ s.allHalted = true)
    ∧ (∃ (s : State) (m : Fin 13) (k : Fin 4) (a : Nat), s.flag (INT_CAP1_VALID (↑m : Nat) (↑k : Nat)) = true ∧
      s.flag (INT_CAP1_UNCORR (↑m : Nat) (↑k : Nat)) = false ∧ List.find? (fun e => e.fst == (↑m : Nat) &&
      e.snd.fst == s.rd (INT_CAP0_LOC (↑m : Nat) (↑k : Nat))) s.ot.repaired = none ∧ s.flag INT_INJECT_ARM =
      false ∧ (m = 4 ∧ a = 805863424 + s.rd (INT_CAP0_LOC (↑m : Nat) (↑k : Nat)) ∨ m = 5 ∧ a = 805847040 + s.rd
      (INT_CAP0_LOC (↑m : Nat) (↑k : Nat))) ∧ memAt a = some ((↑m : Nat), s.rd (INT_CAP0_LOC (↑m : Nat) (↑k :
      Nat))) ∧ s.allHalted = false)
    ∧ (∃ (s : State) (m : Fin 13) (k : Fin 4), s.flag (INT_CAP1_VALID (↑m : Nat) (↑k : Nat)) = true ∧ s.flag
      (INT_CAP1_UNCORR (↑m : Nat) (↑k : Nat)) = false ∧ List.find? (fun e => e.fst == (↑m : Nat) && e.snd.fst ==
      s.rd (INT_CAP0_LOC (↑m : Nat) (↑k : Nat))) s.ot.repaired = none ∧ s.flag INT_INJECT_ARM = false ∧ (m = 0 ∨
      m = 1) ∧ (s.way (s.rd (INT_CAP0_LOC (↑m : Nat) (↑k : Nat)) / 512)).lock = false)
    ∧ (∃ (s : State) (m : Fin 13) (k : Fin 4), s.flag (INT_CAP1_VALID (↑m : Nat) (↑k : Nat)) = true ∧ s.flag
      (INT_CAP1_UNCORR (↑m : Nat) (↑k : Nat)) = false ∧ List.find? (fun e => e.fst == (↑m : Nat) && e.snd.fst ==
      s.rd (INT_CAP0_LOC (↑m : Nat) (↑k : Nat))) s.ot.repaired = none ∧ s.flag INT_INJECT_ARM = false ∧ (m = 6 ∨
      m = 7)) := by
  refine ⟨?_, ?_, ?_, ?_, ?_, ?_, ?_, ?_, ?_, ?_, ?_, ?_, ?_, ?_, ?_, ?_, ?_, ?_, ?_⟩
  · refine ⟨(lcUp State.reset), 0xc0000000#32, ?_⟩
    decide +kernel
  · refine ⟨(dramLine State.reset), 0x80000000#32, ?_⟩
    decide +kernel
  · refine ⟨(dramLine (lcHit State.reset)), 0x80000040#32, ?_⟩
    decide +kernel
  · refine ⟨State.reset, 0xc90d0d01#32, ?_⟩
    decide +kernel
  · refine ⟨(lcHit State.reset), 0xc0000000#32, ?_⟩
    decide +kernel
  · refine ⟨(((lcHit State.reset).wr INT_INJECT_MEM 2).wr INT_INJECT_ARM 1), 536870912, ?_⟩
    decide +kernel
  · refine ⟨((State.reset.writeMem 0x20000000 [(5, true)]).wr INT_INJECT_ARM 1), 536870912, ?_⟩
    decide +kernel
  · refine ⟨((State.reset.wr INT_INJECT_ARM 1).wr INT_INJECT_MEM 13), 0, 1, (List.replicate 64 7), ?_⟩
    decide +kernel
  · refine ⟨({ State.reset with memDue := 7 }), 2, ?_⟩
    decide +kernel
  · refine ⟨State.reset, 2, ?_⟩
    decide +kernel
  · refine ⟨State.reset, ?_⟩
    decide +kernel
  · refine ⟨(lcUp State.reset), ?_⟩
    decide +kernel
  · refine ⟨State.reset, 11, 3, ?_⟩
    decide +kernel
  · refine ⟨((fun (s : State) => { s with boot := { s.boot with reset := some .system } }) ((State.reset.wr
      (INT_CAP1_VALID 2 1) 1).wr (INT_CAP0_LOC 2 1) 536870912)), 2, 1, ?_⟩
    decide +kernel
  · refine ⟨((State.reset.wr (INT_CAP1_VALID 10 2) 1).wr (INT_CAP0_LOC 10 2) 50331652), 10, 2, ?_⟩
    decide +kernel
  · refine ⟨(((State.reset.wr (INT_CAP1_VALID 4 0) 1).wr (INT_CAP0_LOC 4 0) 5)), 4, 0, 805863429, ?_⟩
    decide +kernel
  · refine ⟨(eachPort FMT_CTX_STATUS_STATE 1 ((State.reset.wr (INT_CAP1_VALID 4 0) 1).wr (INT_CAP0_LOC 4 0) 5)),
      4, 0, 0x30088005, ?_⟩
    decide +kernel
  · refine ⟨(((State.reset.wr (INT_CAP1_VALID 10 3) 1).wr (INT_CAP0_LOC 10 3) 50331652).wr (INT_CAP1_VALID 1 1)
      1), 1, 1, ?_⟩
    decide +kernel
  · refine ⟨(({ lcUp State.reset with lc := { wcb := [aWcb 8 true, aWcb 8 false] } }).wr (INT_CAP1_VALID 6 0)
      1), 6, 0, ?_⟩
    decide +kernel

/-- What RegionCommands assumes is met, clause by clause. -/
theorem witness_RegionCommands :
    (∃ (s : State), ∃ e0, e0 ∈ s.cip.reenc ∧ s.cip.reencWait = [] ∧ e0.region < 229376 ∧ s.major e0.region + 1 <
      2 ^ 64 ∧ s.flag INT_INJECT_ARM = false ∧ s.ecc = [] ∧ (∀ (w : Nat × List PByte × Nat), e0.write = some w →
      w.fst / 64 = e0.region ∧ w.snd.fst.length = 64) ∧ s.runs 1 = true ∧ s.runs 11 = true)
    ∧ (∃ (s : State), ∃ e1, e1 ∈ s.headEntry 322 ∧ s.cmdReady 322 323 10 = true ∧ s.cip.reenc = none ∧
      s.cip.reencWait = [] ∧
      let bad : Prop := fieldB e1 3 5 ≠ 0 ∨ fieldB e1 24 8 ≠ 0 ∨ fieldB e1 12 4 = 0 ∨ 229376 < fieldB e1 8 4 + fieldB e1 12 4;
      fieldB e1 2 1 = 2 ∧ ¬bad)
    ∧ (∃ (s : State), ∃ e1, e1 ∈ s.headEntry 322 ∧ s.cmdReady 322 323 10 = true ∧ s.cip.reenc = none ∧
      s.cip.reencWait = [] ∧
      let bad : Prop := fieldB e1 3 5 ≠ 0 ∨ fieldB e1 24 8 ≠ 0 ∨ fieldB e1 12 4 = 0 ∨ 229376 < fieldB e1 8 4 + fieldB e1 12 4;
      fieldB e1 2 1 = 2 ∧ bad)
    ∧ (∃ (s : State), ∃ e1, e1 ∈ s.headEntry 322 ∧ s.cmdReady 322 323 10 = true ∧ s.cip.reenc = none ∧
      s.cip.reencWait = [] ∧
      let bad : Prop := fieldB e1 3 5 ≠ 0 ∨ fieldB e1 24 8 ≠ 0 ∨ fieldB e1 12 4 = 0 ∨ 229376 < fieldB e1 8 4 + fieldB e1 12 4;
      fieldB e1 2 1 = 0 ∨ 2 < fieldB e1 2 1 ∨ fieldB e1 2 1 = 1 ∧ bad)
    ∧ (∃ (s : State), ∃ e1, e1 ∈ s.headEntry 322 ∧ s.cmdReady 322 323 10 = true ∧ s.cip.reenc = none ∧
      s.cip.reencWait = [] ∧
      let bad : Prop := fieldB e1 3 5 ≠ 0 ∨ fieldB e1 24 8 ≠ 0 ∨ fieldB e1 12 4 = 0 ∨ 229376 < fieldB e1 8 4 + fieldB e1 12 4;
      fieldB e1 2 1 = 1 ∧ ¬bad ∧ fieldB e1 12 4 = 1 ∧ s.major (fieldB e1 8 4) ≠ 0 ∧ s.major (fieldB e1 8 4) + 1
      < 2 ^ 64 ∧ s.windowOn (64 * fieldB e1 8 4) = true)
    ∧ (∃ (s : State), s.flag BC_LOCK_LOCK = true ∧ s.regOn BC_CTRL_WORD.addr = true)
    ∧ (∃ (s : State), s.flag BC_LOCK_LOCK = false ∧ s.cip.reenc = none ∧ s.cip.reencWait = [] ∧ s.regOn
      BC_CTRL_WORD.addr = true) := by
  refine ⟨?_, ?_, ?_, ?_, ?_, ?_, ?_⟩
  · refine ⟨((fun (s : State) =>
      { s with cip := { s.cip with reenc := (some ({ region := 0, write := none })) } }) (withRing 323 16 1 1 0
      (withEntry 322 8 10 (leBytes 2 7 ++ leBytes 1 1 ++ zerosB 5 ++ leBytes 4 7 ++ leBytes 4 2 ++ zerosB 16)
      (dramLine State.reset)))), ?_⟩
    decide +kernel
  · refine ⟨(withRing 323 16 1 1 0 (withEntry 322 8 10 (leBytes 2 7 ++ leBytes 1 2 ++ zerosB 5 ++ leBytes 4 0 ++
      leBytes 4 1 ++ zerosB 16) (lcUp State.reset))), ?_⟩
    decide +kernel
  · refine ⟨(withRing 323 16 1 1 0 (withEntry 322 8 10 (leBytes 2 7 ++ leBytes 1 2 ++ zerosB 5 ++ leBytes 4 0 ++
      leBytes 4 0 ++ zerosB 16) (lcUp State.reset))), ?_⟩
    decide +kernel
  · refine ⟨(withRing 323 16 1 1 0 (withEntry 322 8 10 (leBytes 2 7 ++ leBytes 1 0 ++ zerosB 5 ++ leBytes 4 0 ++
      leBytes 4 1 ++ zerosB 16) (lcUp State.reset))), ?_⟩
    decide +kernel
  · refine ⟨((fun (s : State) => { s with cip := { s.cip with reencWait := [] } }) ((withRing 323 16 1 1 0
      (withEntry 322 8 10 (leBytes 2 7 ++ leBytes 1 1 ++ zerosB 5 ++ leBytes 4 0 ++ leBytes 4 1 ++ zerosB 16)
      (dramLine State.reset))).wr BC_CTRL_WINDOW_EN 1)), ?_⟩
    decide +kernel
  · refine ⟨((withRing 323 16 1 1 0 (withEntry 322 8 10 (leBytes 2 7 ++ leBytes 1 1 ++ zerosB 5 ++ leBytes 4 7
      ++ leBytes 4 2 ++ zerosB 16) (dramLine State.reset))).wr BC_LOCK_LOCK 1), ?_⟩
    decide +kernel
  · refine ⟨State.reset, ?_⟩
    decide +kernel

/-- What KeyCommands assumes is met, clause by clause. -/
theorem witness_KeyCommands :
    (∃ (s : State), ∃ e2, e2 ∈ s.headEntry 320 ∧ s.mediaReady = true ∧ let b : Nat := fieldB e2 3 1; fieldB e2 2
      1 = 1 ∧ keyBad e2 = false ∧ s.bandEmpty b = true ∧ s.noRoot = true)
    ∧ (∃ (s : State), ∃ e2, e2 ∈ s.headEntry 320 ∧ s.mediaReady = true ∧ let b : Nat := fieldB e2 3 1; fieldB e2
      2 1 = 1 ∧ keyBad e2 = false ∧ s.bandEmpty b = true ∧ s.noRoot = false ∧ (fieldB e2 4 1).testBit 1 = false)
    ∧ (∃ (s : State), ∃ e2, e2 ∈ s.headEntry 320 ∧ s.mediaReady = true ∧ (fieldB e2 2 1 = 1 ∨ fieldB e2 2 1 = 0
      ∨ 8 < fieldB e2 2 1) ∧ keyBad e2 = true ∧ s.ecc = [])
    ∧ (∃ (s : State), ∃ e2, e2 ∈ s.headEntry 320 ∧ s.mediaReady = true ∧ let b : Nat := fieldB e2 3 1; ∃ e3, e3
      ∈ s.bandRecord b ∧ keyBad e2 = false ∧ fieldB e2 2 1 = 4 ∧ fieldB e3 7 1 ≠ 1)
    ∧ (∃ (s : State), ∃ e2, e2 ∈ s.headEntry 320 ∧ s.mediaReady = true ∧ let b : Nat := fieldB e2 3 1; ∃ e7, e7
      ∈ s.bandRecord b ∧ keyBad e2 = false ∧ fieldB e2 2 1 = 7 ∧ (otpField s.boot.fuses 0 256 ≠ 0 ∨ s.otpLocked
      = true ∨ s.pw.vddAnaGood = false))
    ∧ (∃ (s : State), ∃ e2, e2 ∈ s.headEntry 320 ∧ s.mediaReady = true ∧ s.runs 1 = true) := by
  refine ⟨?_, ?_, ?_, ?_, ?_, ?_⟩
  · refine ⟨(keyCmd 1 0 0 State.reset), ?_⟩
    decide +kernel
  · refine ⟨(keyCmd 1 0 0 ((fun (s : State) =>
      { s with cip := { s.cip with root := (List.range 32).map (fun i => BitVec.ofNat 8 (i + 1)) } })
      State.reset)), ?_⟩
    decide +kernel
  · refine ⟨(keyCmd 0 0 0 State.reset), ?_⟩
    decide +kernel
  · refine ⟨(keyCmd 4 0 0 (withBand 0 (spliceB (keyedRecord 0 1 false (zerosB 8) (zerosB 16) (zerosB 72)) 7 [0])
      State.reset)), ?_⟩
    decide +kernel
  · refine ⟨(keyCmd 7 0 0 (withBand 0 (keyedRecord 0 1 false (zerosB 8) (zerosB 16) (zerosB 72)) ((fun (s :
      State) => { s with boot := { s.boot with fuses := otpSet s.boot.fuses 1 } }) State.reset))), ?_⟩
    decide +kernel
  · refine ⟨(keyCmd 0 0 0 State.reset), ?_⟩
    decide +kernel

/-- What DebugAndJtag assumes is met, clause by clause. -/
theorem witness_DebugAndJtag :
    (∃ (s : State), s.debugOff = true)
    ∧ (∃ (s : State), s.debugOff = false ∧ s.dbg.haltreq = 0)
    ∧ (∃ (k : Nat), ∃ e9, e9 ∈ boundaryBalls[k]? ∧ True)
    ∧ (∃ (s : State), s.dbg.haltreq = 0 ∧ s.debugOff = true)
    ∧ (∃ (s : State) (a : BitVec 7), s.dbg.haltreq = 0 ∧ s.debugOff = true ∧ a ≠ 17)
    ∧ (∃ (s : State) (v : Word) (c : Fin 2), s.dbg.haltreq = 0 ∧ s.debugOff = false ∧ BitVec.getLsbD v 0 = true
      ∧ BitVec.getLsbD v 26 = false ∧ getF v 16 10 = (↑c : Nat) ∧ getF v 6 10 = 0 ∧ BitVec.getLsbD v 31 = true ∧
      BitVec.getLsbD v 28 = false ∧ s.coreLive c = true)
    ∧ (∃ (s : State) (v : Word) (c : Fin 2), s.dbg.haltreq = 0 ∧ s.debugOff = false ∧ BitVec.getLsbD v 0 = true
      ∧ BitVec.getLsbD v 26 = false ∧ getF v 16 10 = (↑c : Nat) ∧ getF v 6 10 = 0 ∧ BitVec.getLsbD v 31 = false
      ∧ BitVec.getLsbD v 30 = true ∧ BitVec.getLsbD v 28 = false ∧ s.core[c].debug = true)
    ∧ (∃ (s : State) (v : Word), s.dbg.haltreq = 0 ∧ s.debugOff = false ∧ BitVec.getLsbD v 0 = false)
    ∧ (∃ (s : State) (a : BitVec 7), s.dbg.haltreq = 0 ∧ s.debugOff = false ∧ s.dbg.dmactive = false ∧ a ≠ 16)
    ∧ (∃ (s : State), s.dbg.haltreq = 0 ∧ s.debugOff = false ∧ s.dbg.dmactive = true ∧ s.dbg.autoexec = 0)
    ∧ (∃ (s : State), s.dbg.haltreq = 0 ∧ s.debugOff = false ∧ s.dbg.autoexec = 0)
    ∧ (∃ (s : State) (c : Fin 2) (v : Word), s.dbg.haltreq = 0 ∧ s.debugOff = false ∧ s.dbg.dmactive = true ∧
      s.dbg.cmderr = 0 ∧ s.dbg.hartsel = (↑c : Nat) ∧ getF v 24 8 = 0 ∧ s.core[c].debug = false)
    ∧ (∃ (s : State) (c : Fin 2) (v : Word) (r : Fin 32), s.dbg.haltreq = 0 ∧ s.debugOff = false ∧
      s.dbg.dmactive = true ∧ s.dbg.cmderr = 0 ∧ s.dbg.hartsel = (↑c : Nat) ∧ getF v 24 8 = 0 ∧ s.core[c].debug
      = true ∧ getF v 0 16 = 4096 + (↑r : Nat) ∧ BitVec.getLsbD v 17 = true ∧ getF v 20 3 = 2 ∧ BitVec.getLsbD v
      16 = true)
    ∧ (∃ (s : State) (c : Fin 2) (v : Word) (r : Fin 32), s.dbg.haltreq = 0 ∧ s.debugOff = false ∧
      s.dbg.dmactive = true ∧ s.dbg.cmderr = 0 ∧ s.dbg.hartsel = (↑c : Nat) ∧ getF v 24 8 = 0 ∧ s.core[c].debug
      = true ∧ getF v 0 16 = 4096 + (↑r : Nat) ∧ BitVec.getLsbD v 17 = true ∧ getF v 20 3 = 2 ∧ BitVec.getLsbD v
      16 = false)
    ∧ (∃ (s : State) (c : Fin 2) (v : Word), s.dbg.haltreq = 0 ∧ s.debugOff = false ∧ s.dbg.dmactive = true ∧
      s.dbg.cmderr = 0 ∧ s.dbg.hartsel = (↑c : Nat) ∧ getF v 24 8 = 0 ∧ s.core[c].debug = true ∧ getF v 0 16 =
      833 ∧ BitVec.getLsbD v 17 = true ∧ getF v 20 3 = 2 ∧ BitVec.getLsbD v 16 = true)
    ∧ (∃ (s : State) (c : Fin 2) (v : Word), s.dbg.haltreq = 0 ∧ s.debugOff = false ∧ s.dbg.dmactive = true ∧
      s.dbg.cmderr = 0 ∧ s.dbg.hartsel = (↑c : Nat) ∧ getF v 24 8 = 0 ∧ s.core[c].debug = true ∧ getF v 0 16 =
      833 ∧ BitVec.getLsbD v 17 = true ∧ getF v 20 3 = 2 ∧ BitVec.getLsbD v 16 = false)
    ∧ (∃ (s : State), s.dbg.haltreq = 0 ∧ s.debugOff = false ∧ s.dbg.dmactive = true ∧ s.dbg.cmderr ≠ 0)
    ∧ (∃ (s : State), s.dbg.haltreq = 0 ∧ s.debugOff = false ∧ s.dbg.dmactive = true ∧ s.dbg.sbaccess = 2 ∧
      s.dbg.sbauto = true ∧ s.dbg.sberror = 0 ∧ s.mayIssue 2 = true ∧ BitVec.toNat s.dbg.sbaddr % 4 = 0 ∧
      regionAt (BitVec.toNat s.dbg.sbaddr) = Region.ringSram ∧ s.memDue = 0 ∧ s.flag INT_INJECT_ARM = false ∧
      s.blockedBy 2 true (BitVec.toNat s.dbg.sbaddr) = none ∧ s.blockedBy 2 true (BitVec.toNat s.dbg.sbaddr + 3)
      = none) := by
  refine ⟨?_, ?_, ?_, ?_, ?_, ?_, ?_, ?_, ?_, ?_, ?_, ?_, ?_, ?_, ?_, ?_, ?_, ?_⟩
  · refine ⟨{ State.reset with boot := { shadow := otpSet [] 545 } }, ?_⟩
    decide +kernel
  · refine ⟨State.reset, ?_⟩
    decide +kernel
  · refine ⟨0, ?_⟩
    decide +kernel
  · refine ⟨{ State.reset with boot := { shadow := otpSet [] 545 } }, ?_⟩
    decide +kernel
  · refine ⟨{ State.reset with boot := { shadow := otpSet [] 545 } }, 0x7f#7, ?_⟩
    decide +kernel
  · refine ⟨State.reset, 0x80000001#32, 0, ?_⟩
    decide +kernel
  · refine ⟨({ (allOn State.reset) with core := State.reset.core.map (fun c => { c with debug := true }) }),
      0x40000001, 0, ?_⟩
    decide +kernel
  · refine ⟨State.reset, 0x0#32, ?_⟩
    decide +kernel
  · refine ⟨State.reset, 0x6#7, ?_⟩
    decide +kernel
  · refine
      ⟨{ State.reset with dbg := { dmactive := true, data0 := 0x12345679 }, core := #v[{ run := true, debug := true, dpc := 0x100, gpr := Vector.replicate 32 7 }, {}] },
      ?_⟩
    decide +kernel
  · refine ⟨State.reset, ?_⟩
    decide +kernel
  · refine
      ⟨{ (State.reset) with dbg := { dmactive := true, sbaccess := 2, sbauto := true, sbaddr := 0x20000040 }, memDue := 0 },
      0, 0x231005#32, ?_⟩
    decide +kernel
  · refine ⟨((fun (s : State) => { s with core := vmod s.core 0 (fun _ => { s.core[0] with debug := true }) })
      { (State.reset) with dbg := { dmactive := true, sbaccess := 2, sbauto := true, sbaddr := 0x20000040 }, memDue := 0 }),
      0, 0x231005#32, 5, ?_⟩
    decide +kernel
  · refine
      ⟨{ State.reset with dbg := { dmactive := true, data0 := 0x12345679 }, core := #v[{ run := true, debug := true, dpc := 0x100, gpr := Vector.replicate 32 7 }, {}] },
      0, 0x221005#32, 5, ?_⟩
    decide +kernel
  · refine ⟨((fun (s : State) => { s with dbg := { s.dbg with hartsel := 0 } })
      { State.reset with dbg := { dmactive := true, data0 := 0x12345679 }, core := #v[{ run := true, debug := true, dpc := 0x100, gpr := Vector.replicate 32 7 }, {}] }),
      0, 0x230341#32, ?_⟩
    decide +kernel
  · refine
      ⟨{ State.reset with dbg := { dmactive := true, hartsel := 1, data0 := 0x77 }, core := #v[{ run := true }, { run := true, debug := true, mepc := 0x20, gpr := Vector.replicate 32 7 }] },
      1, 0x220341#32, ?_⟩
    decide +kernel
  · refine ⟨{ State.reset with dbg := { dmactive := true, cmderr := 2 } }, ?_⟩
    decide +kernel
  · refine
      ⟨{ (State.reset) with dbg := { dmactive := true, sbaccess := 2, sbauto := true, sbaddr := 0x20000040 }, memDue := 0 },
      ?_⟩
    decide +kernel

/-- What AlmanacCommands assumes is met, clause by clause. -/
theorem witness_AlmanacCommands :
    (∃ (s : State), s.runs 1 = false)
    ∧ (∃ (s : State), let writer : Prop := s.flag INT_INJECT_ARM = false ∧ s.ecc = [] ∧ s.memDue = 0; s.runs 1 =
      true ∧ writer)
    ∧ (∃ (s : State), s.runs 1 = false ∨ s.flag ALM_STATUS_READY = true)
    ∧ (∃ (s : State), s.runs 1 = true ∧ s.flag ALM_STATUS_READY = false ∧ s.ecc = [] ∧ s.alm.lostDue = false)
    ∧ (∃ (s : State),
      let allowed : Bool := (List.range 16).all fun i => !s.flag (PROT_CTRL_EN i) || s.bit (PROT_ALLOW_ALLOW i) 18;
      let writer : Prop := s.flag INT_INJECT_ARM = false ∧ s.ecc = [] ∧ s.memDue = 0; ∃ e0, e0 ∈ s.headEntry 448
      ∧ s.flag ALM_STATUS_READY = true ∧ s.flag ALM_CTRL_ENABLE = true ∧ s.runs 1 = true ∧ (s.ring 448).consumer
      = 11 ∧ (s.ring 448).bytes = 32 ∧ writer ∧ allowed = true ∧ let sev : Nat := fieldB e0 7 1 / 64; ∃ e1, e1 ∈
      almTarget s.alm.recs sev ∧ e1 < 4096)
    ∧ (∃ (s : State), ∃ e2, (e2 ∈ lowestIdx 4096 fun i => !s.alm.recs.any fun r => r.slot == i) ∧ True)
    ∧ (∃ (s : State), (s.flag ALM_STATUS_READY = false ∨ s.flag ALM_STATUS_CMD_BUSY = true) ∧ s.regOn
      ALM_CMD_WORD.addr = true)
    ∧ (∃ (s : State),
      let allowed : Bool := (List.range 16).all fun i => !s.flag (PROT_CTRL_EN i) || s.bit (PROT_ALLOW_ALLOW i) 18;
      let writer : Prop := s.flag INT_INJECT_ARM = false ∧ s.ecc = [] ∧ s.memDue = 0; s.flag ALM_STATUS_READY =
      true ∧ s.flag ALM_STATUS_CMD_BUSY = false ∧ writer ∧ allowed = true ∧ s.regOn ALM_CMD_WORD.addr = true)
    ∧ (∃ (s : State), s.flag ALM_STATUS_READY = true ∧ s.flag ALM_STATUS_CMD_BUSY = false ∧ s.regOn
      ALM_CMD_WORD.addr = true) := by
  refine ⟨?_, ?_, ?_, ?_, ?_, ?_, ?_, ?_, ?_⟩
  · refine ⟨(((fun (s : State) =>
      { s with alm := { s.alm with recs := (List.range 5).map (fun i => { slot := i, sev := 1, cycles := 0, time := 0, subseq := i }) } })
      ((withEntry 448 8 11 (leBytes 32 5) State.reset).wr ALM_STATUS_READY 1)).wr (PWR_DOMAIN_STATUS_BIT 1) 2),
      ?_⟩
    decide +kernel
  · refine ⟨State.reset, ?_⟩
    decide +kernel
  · refine ⟨((withEntry 448 8 11 (leBytes 32 5) State.reset).wr ALM_STATUS_READY 1), ?_⟩
    decide +kernel
  · refine ⟨State.reset, ?_⟩
    decide +kernel
  · refine ⟨((withEntry 448 8 11 (leBytes 32 5) State.reset).wr ALM_STATUS_READY 1), ?_⟩
    decide +kernel
  · refine ⟨State.reset, ?_⟩
    decide +kernel
  · refine ⟨State.reset, ?_⟩
    decide +kernel
  · refine ⟨((withEntry 448 8 11 (leBytes 32 5) State.reset).wr ALM_STATUS_READY 1), ?_⟩
    decide +kernel
  · refine ⟨((withEntry 448 8 11 (leBytes 32 5) State.reset).wr ALM_STATUS_READY 1), ?_⟩
    decide +kernel

/-- What ArrayCommands assumes is met, clause by clause. -/
theorem witness_ArrayCommands :
    (∃ (s : State), ∃ e4, e4 ∈ s.headEntry 256 ∧ s.ecc = [] ∧ s.memDue = 0 ∧ s.ae.cur = none ∧ s.flag
      AE_CTRL_ENABLE = true ∧ (s.ring 256).bytes = 32 ∧ fieldB e4 2 1 = 1 ∧ s.runs 1 = true)
    ∧ (∃ (s : State), ∃ e4, e4 ∈ s.headEntry 256 ∧ s.ecc = [] ∧ s.memDue = 0 ∧ s.ae.cur = none ∧ s.flag
      AE_CTRL_ENABLE = true ∧ (s.ring 256).bytes = 32 ∧ fieldB e4 2 1 = 2 ∧ s.runs 1 = true)
    ∧ (∃ (s : State), ∃ e4, e4 ∈ s.headEntry 256 ∧ s.ecc = [] ∧ s.memDue = 0 ∧ s.ae.cur = none ∧ s.flag
      AE_CTRL_ENABLE = true ∧ (s.ring 256).bytes = 32 ∧ fieldB e4 2 1 = 3 ∧ s.runs 1 = true)
    ∧ (∃ (s : State), ∃ e4, e4 ∈ s.headEntry 256 ∧ s.ecc = [] ∧ s.memDue = 0 ∧ s.ae.cur = none ∧ s.flag
      AE_CTRL_ENABLE = true ∧ (s.ring 256).bytes = 32 ∧ fieldB e4 2 1 = 4 ∧ s.runs 1 = true)
    ∧ (∃ (s : State), ∃ e4, e4 ∈ s.headEntry 256 ∧ s.ecc = [] ∧ s.memDue = 0 ∧ s.ae.cur = none ∧ s.flag
      AE_CTRL_ENABLE = true ∧ (s.ring 256).bytes = 32 ∧ fieldB e4 2 1 = 5 ∧ s.runs 1 = true)
    ∧ (∃ (s : State) (e : List Byte), (aeCmdOf e).ok e = true ∧ (aeCmdOf e).lines = 1 ∧ (aeCmdOf e).flags = 0 ∧
      ∃ e5, e5 ∈ (s.aeSources (aeCmdOf e)).fst.toOption ∧ ∃ e6, e6 ∈ (aeReadAll false 0 ((aeCmdOf e).uses e5)
      (s.aeSources (aeCmdOf e)).snd).fst.toOption ∧ (aeCmdOf e).op = 4)
    ∧ (∃ (s : State) (e : List Byte), (aeCmdOf e).ok e = true ∧ (aeCmdOf e).lines = 1 ∧ (aeCmdOf e).flags = 0 ∧
      ∃ e5, e5 ∈ (s.aeSources (aeCmdOf e)).fst.toOption ∧ ∃ e6, e6 ∈ (aeReadAll false 0 ((aeCmdOf e).uses e5)
      (s.aeSources (aeCmdOf e)).snd).fst.toOption ∧ let o : List Byte × List Byte := (aeCmdOf e).outputs e6;
      (aeCmdOf e).op = 4 ∧ o.fst = zerosB 64 ∧ o.snd = zerosB 64)
    ∧ (∃ (s : State) (e : List Byte), (aeCmdOf e).ok e = true ∧ (aeCmdOf e).lines = 1 ∧ (aeCmdOf e).flags = 0 ∧
      ∃ e5, e5 ∈ (s.aeSources (aeCmdOf e)).fst.toOption ∧ ∃ e6, e6 ∈ (aeReadAll false 0 ((aeCmdOf e).uses e5)
      (s.aeSources (aeCmdOf e)).snd).fst.toOption ∧ let o : List Byte × List Byte := (aeCmdOf e).outputs e6;
      (aeCmdOf e).op = 4 ∧ ∃ e7, e7 ∈ firstNonZero o.fst ∧ o.snd = zerosB 64)
    ∧ (∃ (s : State) (e : List Byte), (aeCmdOf e).ok e = true ∧ (aeCmdOf e).lines = 1 ∧ (aeCmdOf e).flags = 0 ∧
      ∃ e5, e5 ∈ (s.aeSources (aeCmdOf e)).fst.toOption ∧ ∃ e6, e6 ∈ (aeReadAll false 0 ((aeCmdOf e).uses e5)
      (s.aeSources (aeCmdOf e)).snd).fst.toOption ∧ ((aeCmdOf e).op = 5 ∨ (aeCmdOf e).op ≠ 4 ∧ (aeCmdOf e).dst1
      = 0) ∧ (aeCmdOf e).dst0 ≠ 0)
    ∧ (∃ (s : State) (e : List Byte), (aeCmdOf e).ok e = true ∧ (aeCmdOf e).lines = 1 ∧ (aeCmdOf e).flags = 0 ∧
      ∃ e5, e5 ∈ (s.aeSources (aeCmdOf e)).fst.toOption ∧ ∃ e6, e6 ∈ (aeReadAll false 0 ((aeCmdOf e).uses e5)
      (s.aeSources (aeCmdOf e)).snd).fst.toOption ∧ ((aeCmdOf e).op = 1 ∨ (aeCmdOf e).op = 3) ∧ (aeCmdOf e).dst0
      = 0 ∧ (aeCmdOf e).dst1 ≠ 0)
    ∧ (∃ (c : AeCmd) (x : AeSrc × List Byte) (y : AeSrc × List Byte), x.snd.length = 64 ∧ y.snd.length = 64 ∧
      (c.op = 1 ∨ c.op = 4) ∧ x.fst.p = true ∧ y.fst.p = true)
    ∧ (∃ (c : AeCmd) (x : AeSrc × List Byte) (y : AeSrc × List Byte), x.snd.length = 64 ∧ y.snd.length = 64 ∧
      (c.op = 1 ∨ c.op = 4) ∧ x.fst.q = true ∧ y.fst.q = true)
    ∧ (∃ (c : AeCmd) (x : AeSrc × List Byte) (y : AeSrc × List Byte), x.snd.length = 64 ∧ y.snd.length = 64 ∧
      c.op = 3)
    ∧ (∃ (c : AeCmd) (x : AeSrc × List Byte) (y : AeSrc × List Byte), x.snd.length = 64 ∧ y.snd.length = 64 ∧
      c.op = 5)
    ∧ (∃ (s : State), ∃ e8, e8 ∈ s.ae.cur ∧ s.enqTest 257 = EnqResult.ok ∧ s.ae.refused = false ∧ e8.length ≤
      (s.ring 257).bytes ∧ s.runs 1 = true)
    ∧ (∃ (s : State), ∃ e9, e9 ∈ s.ae.cur ∧ s.enqTest 257 ≠ EnqResult.ok ∧ s.runs 1 = true)
    ∧ (∃ (s : State), s.ae.refused = true ∧ s.runs 1 = true) := by
  refine ⟨?_, ?_, ?_, ?_, ?_, ?_, ?_, ?_, ?_, ?_, ?_, ?_, ?_, ?_, ?_, ?_, ?_⟩
  · refine ⟨(withEntry 256 8 14 (leBytes 32 0x900000007000001000000000080001000800100000000000102010005) (((lcUp
      State.reset).pokeBytes 0x80010000 (leBytes 16 0x301800030000000030080002000)).wr AE_CTRL_ENABLE 1)), ?_⟩
    decide +kernel
  · refine ⟨(withEntry 256 8 14 (leBytes 32 0x900000007000001000000000080001000800100000000000102020005) (((lcUp
      State.reset).pokeBytes 0x80010000 (leBytes 16 0x301800030000000030080002000)).wr AE_CTRL_ENABLE 1)), ?_⟩
    decide +kernel
  · refine ⟨(withEntry 256 8 14 (leBytes 32 0x900000007000001000000000080001000800100000000000102030005) (((lcUp
      State.reset).pokeBytes 0x80010000 (leBytes 16 0x301800030000000030080002000)).wr AE_CTRL_ENABLE 1)), ?_⟩
    decide +kernel
  · refine ⟨(withEntry 256 8 14 (leBytes 32 0x900000007000001000000000080001000800100000000000102040005) (((lcUp
      State.reset).pokeBytes 0x80010000 (leBytes 16 0x301800030000000030080002000)).wr AE_CTRL_ENABLE 1)), ?_⟩
    decide +kernel
  · refine ⟨(withEntry 256 8 14 (leBytes 32 0x900000007000001000000000080001000800100000000000102050005) (((lcUp
      State.reset).pokeBytes 0x80010000 (leBytes 16 0x301800030000000030080002000)).wr AE_CTRL_ENABLE 1)), ?_⟩
    decide +kernel
  · refine ⟨((fun (s : State) => s.wr PS_STATUS_RETRACTED 1) ((fun (s : State) => (((((((s.setMajor 16
      1).setMajor 2 1).setMajor 3 1).putLine 0x400 1 0 ((leBytes 16 0x301800030000000030080002000) ++ zerosB 48)
      false).putLine 0x80 1 0 (List.replicate 64 0) false).putLine 0xC0 1 0 (List.replicate 64 0) false))) (lcUp
      State.reset))), (leBytes 32 242639520048295470674585076680590100177128524981420754928448083066885), ?_⟩
    decide +kernel
  · refine ⟨((fun (s : State) => s.wr PS_STATUS_RETRACTED 1) ((fun (s : State) => (((((((s.setMajor 16
      1).setMajor 2 1).setMajor 3 1).putLine 0x400 1 0 ((leBytes 16 0x301800030000000030080002000) ++ zerosB 48)
      false).putLine 0x80 1 0 (List.replicate 64 0) false).putLine 0xC0 1 0 (List.replicate 64 0) false))) (lcUp
      State.reset))), (leBytes 32 242639520048295470674585076680590100177128524981420754928448083066885), ?_⟩
    decide +kernel
  · refine ⟨(withEntry 256 8 14 (leBytes 32 0x900000007000001000000000080001000800100000000000102040005) ((((fun
      (s : State) => (((((((s.setMajor 16 1).setMajor 2 1).setMajor 3 1).putLine 0x400 1 0 ((leBytes 16
      0x101800030000000010080002000) ++ zerosB 48) false).putLine 0x80 1 0 (List.replicate 64 7) false).putLine
      0xC0 1 0 (List.replicate 64 9) false))) (lcUp State.reset))).wr AE_CTRL_ENABLE 1)), (leBytes 32
      242639520048295470674585076680760241685107547871579169015319987748869), ?_⟩
    decide +kernel
  · refine ⟨(withEntry 256 8 14 (leBytes 32 0x900000007000001008000400080001000800100000000000102010005) (((lcUp
      State.reset).pokeBytes 0x80010000 (leBytes 16 0x301800030000000030080002000)).wr AE_CTRL_ENABLE 1)),
      (leBytes 32 242639520048295470673854320286908490593349920071291459343401645047813), ?_⟩
    decide +kernel
  · refine ⟨(withEntry 256 8 14 (leBytes 32 0x900000007000001000000000080001000800100000000000101010005) ((((fun
      (s : State) => (((((((s.setMajor 16 1).setMajor 2 1).setMajor 3 1).putLine 0x400 1 0 ((leBytes 16
      0x301800030000000030080002000) ++ zerosB 48) false).putLine 0x80 1 0 (List.replicate 64 7) false).putLine
      0xC0 1 0 (List.replicate 64 9) false))) (lcUp State.reset))).wr AE_CTRL_ENABLE 1)), (leBytes 32
      242639520048295470674585076680590100177128524981420754928448083001349), ?_⟩
    decide +kernel
  · refine ⟨({ op := 1, nsrc := 2, lines := 1, list := 0, dst0 := 0, dst1 := 0, x := 0, y := 1, flags := 0 } :
      AeCmd), (({ addr := 0, exp := 0, p := true, q := true } : AeSrc), leBytes 64 5),
      (({ addr := 0, exp := 0, p := true, q := true } : AeSrc), leBytes 64 5), ?_⟩
    decide +kernel
  · refine ⟨({ op := 4, nsrc := 2, lines := 1, list := 0, dst0 := 0, dst1 := 0, x := 0, y := 1, flags := 0 } :
      AeCmd), (({ addr := 0, exp := 0, p := true, q := true } : AeSrc), leBytes 64 5),
      (({ addr := 0, exp := 0, p := true, q := true } : AeSrc), leBytes 64 5), ?_⟩
    decide +kernel
  · refine ⟨({ op := 3, nsrc := 2, lines := 1, list := 0, dst0 := 0, dst1 := 0, x := 0, y := 1, flags := 0 } :
      AeCmd), (({ addr := 0, exp := 0, p := true, q := true } : AeSrc), leBytes 64 5),
      (({ addr := 0, exp := 0, p := true, q := true } : AeSrc), leBytes 64 5), ?_⟩
    decide +kernel
  · refine ⟨({ op := 5, nsrc := 2, lines := 1, list := 0, dst0 := 0, dst1 := 0, x := 0, y := 1, flags := 0 } :
      AeCmd), (({ addr := 0, exp := 0, p := true, q := true } : AeSrc), leBytes 64 5),
      (({ addr := 0, exp := 0, p := true, q := true } : AeSrc), leBytes 64 5), ?_⟩
    decide +kernel
  · refine ⟨((fun (s : State) => { s with ae := { cur := some (leBytes 16 0x5) } }) (withRing 257 8 1 0 0 (lcUp
      State.reset))), ?_⟩
    decide +kernel
  · refine ⟨((fun (s : State) => { s with ae := { cur := some (leBytes 16 0x5) } }) (lcUp State.reset)), ?_⟩
    decide +kernel
  · refine ⟨((fun (s : State) => { s with ae := { s.ae with refused := true } }) (withEntry 256 8 14 (leBytes 32
      0x900000007000001000000000080001000800100000000000102040005) ((((fun (s : State) => (((((((s.setMajor 16
      1).setMajor 2 1).setMajor 3 1).putLine 0x400 1 0 ((leBytes 16 0x101800030000000010080002000) ++ zerosB 48)
      false).putLine 0x80 1 0 (List.replicate 64 7) false).putLine 0xC0 1 0 (List.replicate 64 9) false))) (lcUp
      State.reset))).wr AE_CTRL_ENABLE 1))), ?_⟩
    decide +kernel

/-- What SolveRecovers assumes is met, clause by clause. -/
theorem witness_SolveRecovers :
    (∃ (c : AeCmd) (dx : List Byte) (dy : List Byte), c.op = 2 ∧ dx.length = 64 ∧ dy.length = 64 ∧ c.x < 255 ∧
      c.y < 255 ∧ c.x ≠ c.y)
    ∧ (∃ (c : AeCmd) (dx : List Byte) (dy : List Byte), c.op = 2 ∧ dx.length = 64 ∧ dy.length = 64 ∧ c.x < 255 ∧
      c.y = 255) := by
  refine ⟨?_, ?_⟩
  · refine ⟨({ op := 2, nsrc := 2, lines := 1, list := 0, dst0 := 0, dst1 := 0, x := 0, y := 1, flags := 0 } :
      AeCmd), (leBytes 64 5), (leBytes 64 9), ?_⟩
    decide +kernel
  · refine ⟨({ op := 2, nsrc := 2, lines := 1, list := 0, dst0 := 0, dst1 := 0, x := 0, y := 255, flags := 0 } :
      AeCmd), (leBytes 64 5), (leBytes 64 9), ?_⟩
    decide +kernel

/-- What VolumeLayouts assumes is met, clause by clause. -/
theorem witness_VolumeLayouts :
    (∃ (g : Geo) (k : Nat) (k' : Nat), g ∈ combos ∧ k < g.n ∧ k' < g.n)
    ∧ (∃ (g : Geo) (row : Nat) (k : Nat) (k' : Nat), g ∈ combos ∧ k < g.n ∧ k' < g.n ∧ g.unit row k = g.unit row
      k')
    ∧ (∃ (g : Geo), g ∈ combos)
    ∧ (∃ (g : Geo) (t : Nat), g ∈ combos ∧ t < g.t)
    ∧ (∃ (g : Geo) (row : Nat) (t : Nat) (e : Role × Nat), g ∈ combos ∧ t < g.t ∧ e ∈ g.stripe row t)
    ∧ (∃ (g : Geo) (row : Nat) (k : Nat) (f : Nat), g ∈ combos ∧ g.layout ≠ 0 ∧ k < g.t * g.w ∧ f < g.n ∧ g.unit
      row k ≠ f)
    ∧ (∃ (g : Geo) (row : Nat) (k : Nat) (f : Nat), g ∈ combos ∧ g.layout ≠ 0 ∧ k < g.t * g.w ∧ f < g.n ∧ g.unit
      row k = f ∧ 1 ≤ g.s)
    ∧ (∃ (r : VolRec) (u : Nat) (st : Nat), List.length r = 480 ∧ u < 8 ∧ st < 256 ∧ mState r u ≠ 3 ∧ (vFails
      r).contains u = false ∧ (vFails r).length < 2)
    ∧ (∃ (r : VolRec) (u : Nat) (st : Nat) (q : Nat), List.length r = 480 ∧ u < 8 ∧ st < 256 ∧ mState r u ≠ 3 ∧
      (vFails r).contains u = false ∧ (vFails r).length < 2 ∧ q < 8 ∧ q ≠ u)
    ∧ (∃ (r : VolRec) (u : Nat) (st : Nat) (q : Nat), List.length r = 480 ∧ u < 8 ∧ st < 256 ∧ mState r u ≠ 3 ∧
      (vFails r).contains u = false ∧ (vFails r).length < 2 ∧ q < 8)
    ∧ (∃ (r : VolRec) (u : Nat) (st : Nat), List.length r = 480 ∧ u < 8 ∧ st < 256 ∧ mState r u ≠ 3 ∧ (vFails
      r).contains u = false ∧ (vFails r).length = 2)
    ∧ (∃ (r : VolRec) (u : Nat), List.length r = 480 ∧ u < 8 ∧ mState r u = 3 ∧ (vFails r).contains u = true) := by
  refine ⟨?_, ?_, ?_, ?_, ?_, ?_, ?_, ?_, ?_, ?_, ?_, ?_⟩
  · refine ⟨{ layout := 1, n := 3, w := 3, s := 0 }, 2, 1, ?_⟩
    decide +kernel
  · refine ⟨{ layout := 3, n := 8, w := 2, s := 2 }, 4, 1, 1, ?_⟩
    decide +kernel
  · refine ⟨{ layout := 1, n := 8, w := 7, s := 1 }, ?_⟩
    decide +kernel
  · refine ⟨{ layout := 1, n := 8, w := 3, s := 2 }, 0, ?_⟩
    decide +kernel
  · refine ⟨{ layout := 3, n := 8, w := 2, s := 2 }, 16, 1, ((Sys2Proof.Machine.Role.data 0), 2), ?_⟩
    decide +kernel
  · refine ⟨{ layout := 3, n := 5, w := 2, s := 1 }, 3, 1, 0, ?_⟩
    decide +kernel
  · refine ⟨{ layout := 1, n := 8, w := 7, s := 1 }, 0, 1, 1, ?_⟩
    decide +kernel
  · refine ⟨(leBytes 480 5), 3, 1, ?_⟩
    decide +kernel
  · refine ⟨(leBytes 480 5), 0, 3, 3, ?_⟩
    decide +kernel
  · refine ⟨(leBytes 480 5), 0, 3, 3, ?_⟩
    decide +kernel
  · refine ⟨(aVol 1 ⟨1, 4, 3, 1⟩ 255 0 64 [2, 3] (fun _ => 0)), 0, 1, ?_⟩
    decide +kernel
  · refine ⟨(aVol 1 ⟨1, 4, 3, 1⟩ 255 0 64 [1] (fun u => if u = 1 then 3 else 0)), 1, ?_⟩
    decide +kernel

/-- What ArrayTasks assumes is met, clause by clause. -/
theorem witness_ArrayTasks :
    (∃ (s : State) (p : Fin 8), s.otRuns = false ∨ s.ot.offline.getLsbD (↑p : Nat) = true)
    ∧ (∃ (s : State) (p : Fin 8) (cause : Fin 5) (held : Bool), s.otRuns = true ∧ s.ot.offline.getLsbD (↑p :
      Nat) = false ∧ s.otWatch.fate p ((↑cause : Nat) + 1) held = PortFate.offline ∧ True)
    ∧ (∃ (s : State) (p : Fin 8) (cause : Fin 5) (held : Bool), s.otRuns = true ∧ s.ot.offline.getLsbD (↑p :
      Nat) = false ∧ s.otWatch.fate p ((↑cause : Nat) + 1) held = PortFate.retry ∧ True)
    ∧ (∃ (s : State) (p : Fin 8) (cause : Fin 5) (held : Bool), s.otRuns = true ∧ s.ot.offline.getLsbD (↑p :
      Nat) = false ∧ s.otWatch.fate p ((↑cause : Nat) + 1) held = PortFate.stay)
    ∧ (∃ (s : State) (p : Fin 8) (held : Bool), s.fate p 2 held = PortFate.retry)
    ∧ (∃ (s : State) (v : Fin 4), s.otRuns = false ∨ s.assembled v = false)
    ∧ (∃ (s : State) (v : Fin 4), s.otRuns = true ∧ s.assembled v = true ∧ (s.ot.rebuild.getLsbD (↑v : Nat) =
      false ∨ vFlag (s.vol v) 2 = true ∨ s.mayWork (s.vol v) = false ∨ s.ot.resync[v] ≠ []))
    ∧ (∃ (s : State) (v : Fin 4) (unit : BitVec 56), s.otRuns = true ∧ s.assembled v = true ∧ s.cached (↑v :
      Nat) unit.toNat = none)
    ∧ (∃ (s : State) (v : Fin 4) (unit : BitVec 56), s.otRuns = true ∧ s.assembled v = true ∧ ∃ e1, e1 ∈
      s.cached (↑v : Nat) unit.toNat ∧ e1.dirty = 0)
    ∧ (∃ (s : State) (v : Fin 4), s.otRuns = true ∧ s.assembled v = true ∧ ∃ e3, e3 ∈ s.resyncNext v (s.vol v) ∧
      True)
    ∧ (∃ (s : State) (v : Fin 4), s.otRuns = true ∧ s.assembled v = true ∧ s.resyncNext v (s.vol v) = none)
    ∧ (∃ (s : State) (v : Fin 4) (j : BitVec 18), s.otRuns = true ∧ s.assembled v = true ∧ (s.resyncNext v
      (s.vol v) ≠ some j.toNat ∨ vState (s.vol v) = 4 ∨ s.groupBusy v (s.vol v) = true))
    ∧ (∃ (m : MediaEnd) (p : Fin 8) (sec : Nat) (b : List Byte), b ≠ [] ∧ List.lookup ((↑p : Nat), sec) m.stop =
      none ∧ m.cut.contains ((↑p : Nat), sec) = false)
    ∧ (∃ (m : MediaEnd) (p : Fin 8) (sec : Nat) (b : List Byte), b ≠ [] ∧ List.lookup ((↑p : Nat), sec) m.stop =
      none ∧ m.cut.contains ((↑p : Nat), sec) = false ∧ m.fail.contains ((↑p : Nat), sec) = false)
    ∧ (∃ (s : State) (m : MediaEnd) (p : Fin 8) (sec : Nat) (b : List Byte) (k : Nat), b ≠ [] ∧ List.lookup ((↑p
      : Nat), sec) m.stop = none ∧ m.cut.contains ((↑p : Nat), sec) = false ∧ k ≠ s.sectorKey (↑p : Nat) sec)
    ∧ (∃ (m : MediaEnd) (p : Fin 8) (sec : Nat) (b : List Byte), b ≠ [] ∧ List.lookup ((↑p : Nat), sec) m.stop =
      none ∧ m.cut.contains ((↑p : Nat), sec) = true) := by
  refine ⟨?_, ?_, ?_, ?_, ?_, ?_, ?_, ?_, ?_, ?_, ?_, ?_, ?_, ?_, ?_, ?_⟩
  · refine ⟨State.reset, 1, ?_⟩
    decide +kernel
  · refine ⟨((fun (s : State) =>
      { s with ot := { s.ot with feats := [(1, 1)], errs := Vector.replicate 8 [5, 5, 5] } }) (eachPort
      SPN_STATUS_FAULT_CAUSE 3 (otUp State.reset))), 6, 4, false, ?_⟩
    decide +kernel
  · refine ⟨(otUp ((State.reset.wr (SPN_STATUS_FAULT_CAUSE 0) 1).wr (SPN_STATUS_STATE 0) 9)), 0, 1, true, ?_⟩
    decide +kernel
  · refine ⟨(otUp (withVolume State.reset)), 3, 3, false, ?_⟩
    decide +kernel
  · refine ⟨((fun (s : State) =>
      { s with ot := { s.ot with feats := [(1, 1)], errs := Vector.replicate 8 [5, 5, 5] } }) (eachPort
      SPN_STATUS_FAULT_CAUSE 1 (otUp State.reset))), 1, true, ?_⟩
    decide +kernel
  · refine ⟨State.reset, 1, ?_⟩
    decide +kernel
  · refine ⟨(otUp (withVolume State.reset)), 0, ?_⟩
    decide +kernel
  · refine ⟨((fun (s : State) => { s with ot := { s.ot with rebuild := 1 } }) (otUp (withVolume State.reset))),
      0, 0x5#56, ?_⟩
    decide +kernel
  · refine ⟨((fun (s : State) =>
      { s with ot := { s.ot with cache := (List.replicate 32 ({ vol := 0, unit := 0, buf := 0, mask := 0, dirty := 0, lost := 0 })) } })
      ((fun (s : State) =>
      { s with ot := { s.ot with cache := [{ vol := 0, unit := 0, buf := 3, mask := 0xFF, dirty := 255 }] } })
      (otUp (withVolume State.reset)))), 0, 0x0#56, ?_⟩
    decide +kernel
  · refine ⟨((fun (s : State) => { s with ot := { s.ot with resync := s.ot.resync.set 0 [0] } }) (otUp (replaced
      State.reset))), 0, ?_⟩
    decide +kernel
  · refine ⟨((fun (s : State) => { s with ot := { s.ot with rebuild := 1 } }) (otUp (withVolume State.reset))),
      0, ?_⟩
    decide +kernel
  · refine ⟨((fun (s : State) => { s with ot := { s.ot with rebuild := 1 } }) (otUp (withVolume State.reset))),
      0, 0x13#18, ?_⟩
    decide +kernel
  · refine
      ⟨{ fail := [(0, 2048), (1, 2048), (2, 2048), (3, 2048), (4, 2048), (5, 2048), (6, 2048), (7, 2048)], joint := [], cut := [], stop := [], verify := [] },
      3, 9, (zerosB 4112), ?_⟩
    decide +kernel
  · refine
      ⟨{ fail := [(0, 2048), (1, 2048), (2, 2048), (3, 2048), (4, 2048), (5, 2048), (6, 2048), (7, 2048)], joint := [], cut := [], stop := [], verify := [] },
      3, 9, (zerosB 4112), ?_⟩
    decide +kernel
  · refine ⟨State.reset, { fail := [(0, 0)], joint := [], cut := [], stop := [], verify := [] }, 0, 1, (zerosB
      1), 4, ?_⟩
    decide +kernel
  · refine ⟨{ cut := [(0, 0)] }, 0, 0, [1], ?_⟩
    decide +kernel

/-- What FirmwareStart assumes is met, clause by clause. -/
theorem witness_FirmwareStart :
    (∃ (s : State), s.boot.stage ≠ Stage.firmware ∨ s.boot.reset.isSome = true ∨ s.runs 1 = false)
    ∧ (∃ (s : State) (fault : Fin 7), s.boot.stage = Stage.firmware ∧ s.boot.reset = none ∧ s.runs 1 = true ∧
      fault ≠ 0 ∧ s.regOn HP_STATE_STATE.addr = true)
    ∧ (∃ (s : State) (img : List Byte), s.boot.stage = Stage.firmware ∧ s.boot.reset = none ∧ s.runs 1 = true ∧
      s.ot.started = false ∧ imageOk img = false ∧ s.regOn HP_STATE_STATE.addr = true)
    ∧ (∃ (s : State) (img : List Byte), s.boot.stage = Stage.firmware ∧ s.boot.reset = none ∧ s.runs 1 = true ∧
      s.ot.started = false ∧ imageOk img = true ∧ s.flag LC_STATUS_INIT_DONE = false)
    ∧ (∃ (s : State) (img : List Byte), s.boot.stage = Stage.firmware ∧ s.boot.reset = none ∧ s.runs 1 = true ∧
      s.ot.started = false ∧ imageOk img = true ∧ s.flag LC_STATUS_INIT_DONE = true ∧ s.allHalted = false)
    ∧ (∃ (s : State) (img : List Byte), s.boot.stage = Stage.firmware ∧ s.boot.reset = none ∧ s.runs 1 = true ∧
      s.ot.started = false ∧ imageOk img = true ∧ s.flag LC_STATUS_INIT_DONE = true ∧ s.allHalted = true ∧ True)
    ∧ (∃ (s : State), s.boot.stage = Stage.firmware ∧ s.boot.reset = none ∧ s.runs 1 = true ∧ s.ot.started =
      true ∧ s.ot.discovered = true)
    ∧ (∃ (s : State) (p : Fin 8), s.otRuns = false ∨ s.ot.outcome[p] ≠ 1 ∨ s.ot.offline.getLsbD (↑p : Nat) =
      true ∨ s.ot.loaded.getLsbD (↑p : Nat) = true ∧ (s.srv[p].checked = true ∨ s.srv[p].loaded = false))
    ∧ (∃ (s : State) (p : Fin 8), s.otRuns = true ∧ s.ot.outcome[p] = 1 ∧ s.ot.offline.getLsbD (↑p : Nat) =
      false ∧ (s.ot.loaded.getLsbD (↑p : Nat) = false ∨ s.srv[p].checked = false ∧ s.srv[p].loaded = true) ∧
      s.rd (SRV_STATUS_STATE (↑p : Nat)) = 0 ∧ s.rd (SPN_STATUS_STATE (↑p : Nat)) = 5)
    ∧ (∃ (s : State) (p : Fin 8), s.otRuns = true ∧ s.ot.outcome[p] = 1 ∧ s.ot.offline.getLsbD (↑p : Nat) =
      false ∧ (s.ot.loaded.getLsbD (↑p : Nat) = false ∨ s.srv[p].checked = false ∧ s.srv[p].loaded = true) ∧
      s.rd (SRV_STATUS_STATE (↑p : Nat)) = 4)
    ∧ (∃ (s : State) (p : Fin 8) (m : MediaEnd), s.otRuns = true ∧ s.ot.outcome[p] = 1 ∧ s.ot.offline.getLsbD
      (↑p : Nat) = false ∧ (s.ot.loaded.getLsbD (↑p : Nat) = false ∨ s.srv[p].checked = false ∧ s.srv[p].loaded
      = true) ∧ s.rd (SRV_STATUS_STATE (↑p : Nat)) = 4 ∧ recordValid (s.hda p) = false ∧ (s.getCopy m p 0).fst =
      none ∧ (s.getCopy m p 1).fst = none)
    ∧ (∃ (s : State) (p : Fin 8), s.otRuns = false ∨ recordValid (s.hda p) = false)
    ∧ (∃ (s : State) (p : Fin 8) (sec : BitVec 40), s.otRuns = false ∨ recordValid (s.hda p) = false ∨ bdUser
      (bodyOf (s.hda p)) ≤ sec.toNat ∨ List.find? (fun e => e.port == (↑p : Nat) && e.sec == sec.toNat) s.ot.bad
      = none)
    ∧ (∃ (s : State) (v : Fin 4), s.otRuns = false ∨ s.ot.discovered = false ∨ s.assembled v = true)
    ∧ (∃ (s : State), s.otRuns = false)
    ∧ (∃ (s : State), s.otRuns = true)
    ∧ (∃ (s : State), s.otRuns = true ∧ ((List.range 4).all fun k => !s.flag (INT_DRAM_CAP1_VALID k)) = true ∧
      s.flag INT_DRAM_STATUS_CAP_LOST = false)
    ∧ (∃ (e : CacheEnt) (j : Nat), j < 8 ∧ e.dirty.testBit j = true)
    ∧ (∃ (s : State), s.otRuns = true ∧ s.dirtyCounts = s.ot.dirtyTold)
    ∧ (∃ (s : State), s.otRuns = true ∧ s.dirtyCounts ≠ s.ot.dirtyTold ∧ s.ecc = [] ∧ s.memDue = 0 ∧ s.flag
      INT_INJECT_ARM = false ∧ ((List.range 16).all fun i => !s.flag (PROT_CTRL_EN i) || s.bit (PROT_ALLOW_ALLOW
      i) 1) = true)
    ∧ (∃ (s : State), s.otRuns = true ∧ s.flag USB_STATUS_FN_SUSPENDED = false)
    ∧ (∃ (s : State), s.otRuns = true ∧ s.flag USB_STATUS_FN_SUSPENDED = true ∧ (allTags.any fun t => s.usbTag t
      && s.tagState t != 0) = true)
    ∧ (∃ (s : State), s.otRuns = true ∧ s.flag USB_STATUS_FN_SUSPENDED = true ∧ (allTags.any fun t => s.usbTag t
      && s.tagState t != 0) = false ∧ s.feat 16 = 0)
    ∧ (∃ (s : State), s.otRuns = true ∧ s.flag USB_STATUS_FN_SUSPENDED = true ∧ (allTags.any fun t => s.usbTag t
      && s.tagState t != 0) = false ∧ s.feat 16 = 1)
    ∧ (∃ (s : State), s.otRuns = true ∧ s.flag USB_STATUS_FN_SUSPENDED = true ∧ (allTags.any fun t => s.usbTag t
      && s.tagState t != 0) = false ∧ s.feat 16 = 2)
    ∧ (∃ (s : State), s.otRuns = true ∧ s.flag USB_STATUS_FN_SUSPENDED = true ∧ (allTags.any fun t => s.usbTag t
      && s.tagState t != 0) = false ∧ s.feat 16 = 3) := by
  refine ⟨?_, ?_, ?_, ?_, ?_, ?_, ?_, ?_, ?_, ?_, ?_, ?_, ?_, ?_, ?_, ?_, ?_, ?_, ?_, ?_, ?_, ?_, ?_, ?_, ?_, ?_⟩
  · refine ⟨State.reset, ?_⟩
    decide +kernel
  · refine ⟨({ State.reset with boot := { stage := .firmware } }), 4, ?_⟩
    decide +kernel
  · refine ⟨({ State.reset with boot := { stage := .firmware } }), (zerosB 0), ?_⟩
    decide +kernel
  · refine ⟨({ State.reset with boot := { stage := .firmware } }), ((fun (b : List Byte) => b ++ leBytes 4
      (crc32c b)) (leBytes 4 0x3141424D ++ leBytes 2 1 ++ leBytes 2 0 ++ leBytes 2 0x1400 ++ leBytes 2 1 ++
      leBytes 2 0x260 ++ leBytes 2 0 ++ zerosB 148)), ?_⟩
    decide +kernel
  · refine ⟨(eachPort FMT_CTX_STATUS_STATE 1 (({ State.reset with boot := { stage := .firmware } }).wr
      LC_STATUS_INIT_DONE 1)), ((fun (b : List Byte) => b ++ leBytes 4 (crc32c b)) (leBytes 4 0x3141424D ++
      leBytes 2 1 ++ leBytes 2 0 ++ leBytes 2 0x1400 ++ leBytes 2 1 ++ leBytes 2 0x260 ++ leBytes 2 0 ++ zerosB
      148)), ?_⟩
    decide +kernel
  · refine ⟨(({ State.reset with boot := { stage := .firmware } }).wr LC_STATUS_INIT_DONE 1), ((fun (b : List
      Byte) => b ++ leBytes 4 (crc32c b)) (leBytes 4 0x3141424D ++ leBytes 2 1 ++ leBytes 2 0 ++ leBytes 2
      0x1400 ++ leBytes 2 1 ++ leBytes 2 0x260 ++ leBytes 2 0 ++ zerosB 148)), ?_⟩
    decide +kernel
  · refine ⟨((fun (s : State) => { s with ot := { s.ot with discovered := true, assembled := 0 } }) (otUp
      (withVolume State.reset))), ?_⟩
    decide +kernel
  · refine ⟨State.reset, 1, ?_⟩
    decide +kernel
  · refine ⟨((fun (s : State) => { s with ot := { s.ot with outcome := Vector.replicate 8 1 } }) (eachPort
      SPN_STATUS_STATE 5 (otUp State.reset))), 3, ?_⟩
    decide +kernel
  · refine ⟨((fun (s : State) => { s with ot := { s.ot with outcome := Vector.replicate 8 1 } }) (eachPort
      SRV_STATUS_STATE 4 (otUp State.reset))), 5, ?_⟩
    decide +kernel
  · refine ⟨((fun (s : State) => { s with ot := { s.ot with outcome := Vector.replicate 8 1 } }) (eachPort
      SRV_STATUS_STATE 4 (otUp State.reset))), 1,
      { fail := [], joint := [], cut := [(0, 2048), (1, 2048), (2, 2048), (3, 2048), (4, 2048), (5, 2048), (6, 2048), (7, 2048)], stop := [] },
      ?_⟩
    decide +kernel
  · refine ⟨State.reset, 1, ?_⟩
    decide +kernel
  · refine ⟨State.reset, 1, 0x9#40, ?_⟩
    decide +kernel
  · refine ⟨State.reset, 1, ?_⟩
    decide +kernel
  · refine ⟨State.reset, ?_⟩
    decide +kernel
  · refine ⟨(otUp State.reset), ?_⟩
    decide +kernel
  · refine ⟨(otUp State.reset), ?_⟩
    decide +kernel
  · refine ⟨{ vol := 1, unit := 5, buf := 3, mask := 255, dirty := 255, lost := 1 }, 0, ?_⟩
    decide +kernel
  · refine ⟨(otUp State.reset), ?_⟩
    decide +kernel
  · refine ⟨((fun (s : State) =>
      { s with ot := { s.ot with cache := [{ vol := 0, unit := 0, buf := 3, mask := 0xFF, dirty := 3 }] } })
      (otUp State.reset)), ?_⟩
    decide +kernel
  · refine ⟨(otUp State.reset), ?_⟩
    decide +kernel
  · refine ⟨(otUp ((State.reset.wr USB_STATUS_FN_SUSPENDED 1).setTag 30 1)), ?_⟩
    decide +kernel
  · refine ⟨((fun (s : State) => { s with ot := { s.ot with feats := [(0x10, 0)] } }) (otUp (State.reset.wr
      USB_STATUS_FN_SUSPENDED 1))), ?_⟩
    decide +kernel
  · refine ⟨(otUp (State.reset.wr USB_STATUS_FN_SUSPENDED 1)), ?_⟩
    decide +kernel
  · refine ⟨((fun (s : State) => { s with ot := { s.ot with feats := [(0x10, 2)] } }) (otUp (State.reset.wr
      USB_STATUS_FN_SUSPENDED 1))), ?_⟩
    decide +kernel
  · refine ⟨((fun (s : State) => { s with ot := { s.ot with feats := [(0x10, 3)] } }) (otUp (State.reset.wr
      USB_STATUS_FN_SUSPENDED 1))), ?_⟩
    decide +kernel

/-- What OcsMessages assumes is met, clause by clause. -/
theorem witness_OcsMessages :
    (∃ (s : State) (i : Instr), ∃ e7, e7 ∈ ocsServes i ∧ s.otRuns = false)
    ∧ (∃ (s : State) (i : Instr), ∃ e7, e7 ∈ ocsServes i ∧ s.otRuns = true ∧ s.ocsNext e7.fst = none)
    ∧ (∃ (s : State) (i : Instr), ∃ e7, e7 ∈ ocsServes i ∧ ∃ e8, e8 ∈ s.ocsNext e7.fst ∧ e8.fst.stage ≠
      OcsStage.running ∧ e8.fst.pathOk = false)
    ∧ (∃ (s : State) (i : Instr), ∃ e7, e7 ∈ ocsServes i ∧ ∃ e8, e8 ∈ s.ocsNext e7.fst ∧ e8.fst.stage ≠
      OcsStage.running ∧ ∃ e9, e9 ∈ e8.fst.headBad ∧ e8.fst.pathOk = true)
    ∧ (∃ (s : State) (i : Instr), ∃ e7, e7 ∈ ocsServes i ∧ ∃ e8, e8 ∈ s.ocsNext e7.fst ∧ e8.fst.stage ≠
      OcsStage.running ∧ e8.fst.pathOk = true ∧ e8.fst.headBad = none ∧ e8.fst.io = false ∧ e8.fst.lenOk =
      false)
    ∧ (∃ (s : State) (i : Instr), ∃ e7, e7 ∈ ocsServes i ∧ ∃ e8, e8 ∈ s.ocsNext e7.fst ∧ e8.fst.stage ≠
      OcsStage.running ∧ e8.fst.pathOk = true ∧ e8.fst.headBad = none ∧ e8.fst.io = false ∧ e8.fst.lenOk = true
      ∧ e8.snd.configRuns e8.fst = true)
    ∧ (∃ (s : State) (i : Instr), ∃ e7, e7 ∈ ocsServes i ∧ ∃ e8, e8 ∈ s.ocsNext e7.fst ∧ e8.fst.stage ≠
      OcsStage.running ∧ e8.fst.pathOk = true ∧ e8.fst.headBad = none ∧ e8.fst.io = false ∧ e8.fst.lenOk = true
      ∧ e8.snd.configRuns e8.fst = false ∧ e8.fst.awaitsData = true ∧ (e8.snd.needBufs (ceilDiv e8.fst.len
      4096)).fst = none)
    ∧ (∃ (s : State) (i : Instr), ∃ e7, e7 ∈ ocsServes i ∧ ∃ e8, e8 ∈ s.ocsNext e7.fst ∧ e8.fst.stage ≠
      OcsStage.running ∧ e8.fst.pathOk = true ∧ e8.fst.headBad = none ∧ e8.fst.io = false ∧ e8.fst.lenOk = true
      ∧ e8.snd.configRuns e8.fst = false ∧ e8.fst.awaitsData = true ∧ ∃ e0, e0 ∈ (e8.snd.needBufs (ceilDiv
      e8.fst.len 4096)).fst ∧ True)
    ∧ (∃ (s : State), ∃ e1, (e1 ∈ s.ocsNext fun c => !opcodes.contains c.op || decide (actionsOf c.op ≤ c.par
      20)) ∧ e1.snd.ocsClear e1.fst = true ∧ e1.fst.stage ≠ OcsStage.running ∧ opcodes.contains e1.fst.op =
      false)
    ∧ (∃ (s : State), ∃ e1, (e1 ∈ s.ocsNext fun c => !opcodes.contains c.op || decide (actionsOf c.op ≤ c.par
      20)) ∧ e1.snd.ocsClear e1.fst = true ∧ e1.fst.stage ≠ OcsStage.running ∧ opcodes.contains e1.fst.op =
      true)
    ∧ (∃ (s : State) (c : OcsCmd) (st : Nat) (data : List Byte) (usb : Bool) (tag : Nat) (gen : Nat), st < 256 ∧
      (st ≠ 0 ∨ data = [] ∨ c.len = 0) ∧ c.path = OcsPath.tag usb tag gen ∧ tag < 32 ∧ gen < 8 ∧ s.otReady 1 =
      true)
    ∧ (∃ (c : OcsCmd) (st : Nat) (data : List Byte) (q : Nat), st < 256 ∧ (st ≠ 0 ∨ data = [] ∨ c.len = 0) ∧
      c.path = OcsPath.uart q ∧ q < 256 ∧ True)
    ∧ (∃ (c : OcsCmd) (st : Nat) (data : List Byte) (l : Nat) (q : Nat), st < 256 ∧ (st ≠ 0 ∨ data = [] ∨ c.len
      = 0) ∧ c.path = OcsPath.tunnel l q ∧ l < 4)
    ∧ (∃ (s : State) (c : OcsCmd) (st : Nat) (data : List Byte) (q : Nat), st < 256 ∧ (st ≠ 0 ∨ data = [] ∨
      c.len = 0) ∧ c.path = OcsPath.mailbox q ∧ q < 256 ∧ s.otReady 3 = true ∧ (s.ring 3).bytes = 32)
    ∧ (∃ (c : OcsCmd) (data : List Byte) (q : Nat), c.path = OcsPath.uart q ∧ data ≠ [] ∧ c.len ≠ 0)
    ∧ (∃ (s : State) (c : OcsCmd) (data : List Byte) (u : Bool) (tag : Nat) (gen : Nat), c.path = OcsPath.tag u
      tag gen ∧ data ≠ [] ∧ c.len ≠ 0 ∧ ∃ e2, e2 ∈ (s.needBufs (ceilDiv c.len 4096)).fst ∧ c.bufs = [])
    ∧ (∃ (s : State), s.otRuns = false)
    ∧ (∃ (s : State) (good : Bool), s.otRuns = true ∧ let w : State := s.otIntake.pumpPower;
      let held : Nat := (List.filter (fun c => pathNo c.path == some 2) w.ot.cmds).length; good = false ∨ 4 ≤
      held)
    ∧ (∃ (s : State) (frame : List Byte), s.otRuns = true ∧ let w : State := s.otIntake.pumpPower;
      let held : Nat := (List.filter (fun c => pathNo c.path == some 2) w.ot.cmds).length; held < 4 ∧ fieldB
      frame 0 1 ≠ 33)
    ∧ (∃ (s : State) (frame : List Byte), s.otRuns = true ∧ let w : State := s.otIntake.pumpPower;
      let held : Nat := (List.filter (fun c => pathNo c.path == some 2) w.ot.cmds).length; held < 4 ∧ fieldB
      frame 0 1 = 33 ∧ (frame.length < 36 ∨ 8228 < frame.length))
    ∧ (∃ (s : State) (frame : List Byte), s.otRuns = true ∧ let w : State := s.otIntake.pumpPower;
      let held : Nat := (List.filter (fun c => pathNo c.path == some 2) w.ot.cmds).length; held < 4 ∧ fieldB
      frame 0 1 = 33 ∧ 36 ≤ frame.length ∧ frame.length ≤ 8228)
    ∧ (∃ (s : State) (i : Fin 2), s.otRuns = true ∧ let w : State := s.otIntake.pumpPower;
      let n : Fin 3 := if i = 0 then 0 else 1;
      let held : Nat := (List.filter (fun c => pathNo c.path == some n) w.ot.cmds).length; 4 ≤ held)
    ∧ (∃ (s : State) (i : Fin 2), s.otRuns = true ∧ let w : State := s.otIntake.pumpPower;
      let n : Fin 3 := if i = 0 then 0 else 1; let ring : Nat := if i = 0 then 2 else 5;
      let held : Nat := (List.filter (fun c => pathNo c.path == some n) w.ot.cmds).length;
      let d : (Bool × List Byte) × State := drainMsg ring (w.ring ring).count w.ot.partMsg[i] w; held < 4 ∧
      d.fst.fst = false)
    ∧ (∃ (s : State) (i : Fin 2), s.otRuns = true ∧ let w : State := s.otIntake.pumpPower;
      let n : Fin 3 := if i = 0 then 0 else 1; let ring : Nat := if i = 0 then 2 else 5;
      let held : Nat := (List.filter (fun c => pathNo c.path == some n) w.ot.cmds).length;
      let d : (Bool × List Byte) × State := drainMsg ring (w.ring ring).count w.ot.partMsg[i] w; held < 4 ∧
      d.fst.fst = true)
    ∧ (∃ (s : State) (ring : Nat) (part : List Byte), ∃ e3, e3 ∈ s.headEntry ring ∧ e3.length = 32 ∧ s.memDue =
      0 ∧ s.ecc = [] ∧ part.length ≤ 8000 ∧ fieldB e3 0 1 ≤ 30 ∧ (fieldB e3 1 1).testBit 0 = true)
    ∧ (∃ (s : State) (t : MsgPath), s.otRuns = true ∧
      let n : Fin 3 := match t with | MsgPath.mailbox => 0 | MsgPath.vendor => 1 | MsgPath.uart => 2;
      let w : State := s.otRetry.otWatch; w.ot.notes[n] = [])
    ∧ (∃ (s : State) (t : MsgPath), s.otRuns = true ∧
      let n : Fin 3 := match t with | MsgPath.mailbox => 0 | MsgPath.vendor => 1 | MsgPath.uart => 2;
      let w : State := s.otRetry.otWatch; ∃ e4, e4 ∈ w.ot.notes[n].head? ∧ ((w.ot.posts.any fun e => e.fst ==
      448) = true ∨ (w.ring 448).count ≠ 0 ∨ w.mayNotify n = false))
    ∧ (∃ (s : State) (t : MsgPath), s.otRuns = true ∧
      let n : Fin 3 := match t with | MsgPath.mailbox => 0 | MsgPath.vendor => 1 | MsgPath.uart => 2;
      let w : State := s.otRetry.otWatch; ∃ e4, e4 ∈ w.ot.notes[n].head? ∧ (w.ot.posts.any fun e => e.fst ==
      448) = false ∧ (w.ring 448).count = 0 ∧ w.mayNotify n = true)
    ∧ (∃ (s : State) (code : Nat), 1 ≤ code ∧ (s.feat 24).testBit (code - 1) = false)
    ∧ (∃ (s : State) (code : Nat), 1 ≤ code ∧ (s.feat 24).testBit (code - 1) = true)
    ∧ (∃ (s : State) (code : Nat) (n : Fin 3), 1 ≤ code ∧ (s.feat 24).testBit (code - 1) = true ∧
      s.ot.notes[n].length < 16)
    ∧ (∃ (s : State) (code : Nat) (n : Fin 3), 1 ≤ code ∧ (s.feat 24).testBit (code - 1) = true ∧
      s.ot.notes[n].length = 16) := by
  refine ⟨?_, ?_, ?_, ?_, ?_, ?_, ?_, ?_, ?_, ?_, ?_, ?_, ?_, ?_, ?_, ?_, ?_, ?_, ?_, ?_, ?_, ?_, ?_, ?_, ?_, ?_, ?_, ?_, ?_, ?_, ?_, ?_⟩
  · refine ⟨State.reset, .ocsAbort, ?_⟩
    decide +kernel
  · refine ⟨(otUp State.reset), .ocsAbort, ?_⟩
    decide +kernel
  · refine ⟨(holding (cmdOf (.uart 5) 4 0 0 0 0 [] []) State.reset), .ocsAbort, ?_⟩
    decide +kernel
  · refine ⟨(holding (cmdOf (.uart 5) 0x10 8 0 0 0 [] []) State.reset), .ocsIdentify, ?_⟩
    decide +kernel
  · refine ⟨(holding (cmdOf (.uart 5) 0x10 0 0 0 8193 [] []) State.reset), .ocsIdentify, ?_⟩
    decide +kernel
  · refine ⟨((fun (s : State) =>
      { s with ot := { s.ot with cmds := s.ot.cmds ++ [{ cmdOf (.uart 5) 0x20 0 0 0 0 [] [] with stage := .running }] } })
      (holding (cmdOf (.uart 5) 0x21 0 0 0 0 [] []) State.reset)), .ocsVolumeDelete, ?_⟩
    decide +kernel
  · refine ⟨(holding (cmdOf (.tag false 3 0) 0x48 0 0 0 4096 [] []) ((withRing 1 8 1 0 0 (withRing 7 72 3 1 0
      State.reset)).wr HQE_BUF_BASE_BASE 0xB7FE0)), .ocsFwDownload, ?_⟩
    decide +kernel
  · refine ⟨(holding (cmdOf (.tag false 3 0) 0x48 0 0 0 4096 [] []) (withRing 1 8 1 0 0 (withRing 7 72 3 1 0
      State.reset))), .ocsFwDownload, ?_⟩
    decide +kernel
  · refine ⟨(holding (cmdOf (.uart 5) 153 0 0 0 64 ([]) ([])) (withRing 1 8 1 0 0 (withRing 7 72 3 1 0 (withRing
      3 16 1 1 0 State.reset)))), ?_⟩
    decide +kernel
  · refine ⟨(holding (cmdOf (.uart 5) 40 0 0 0 64 (leBytes 1 0x9) ([])) (withRing 1 8 1 0 0 (withRing 7 72 3 1 0
      (withRing 3 16 1 1 0 State.reset)))), ?_⟩
    decide +kernel
  · refine ⟨(holding (cmdOf (.tag false 3 0) 40 0 0 0 64 (leBytes 1 0x9) ([])) (withRing 1 8 1 0 0 (withRing 7
      72 3 1 0 (withRing 3 16 1 1 0 State.reset)))),
      { path := Sys2Proof.Machine.OcsPath.tag false 3 0, bytes := [0x10#8, 0x00#8, 0x00#8, 0x00#8, 0x77#8, 0x00#8, 0x00#8, 0x00#8, 0x00#8, 0x00#8, 0x00#8, 0x00#8, 0x00#8, 0x00#8, 0x00#8, 0x00#8, 0x00#8, 0x00#8, 0x00#8, 0x00#8, 0x00#8, 0x00#8, 0x00#8, 0x00#8, 0x00#8, 0x00#8, 0x00#8, 0x00#8, 0x00#8, 0x00#8, 0x00#8, 0x00#8], stage := Sys2Proof.Machine.OcsStage.fresh, data := [], bufs := [], xfers := [], rows := 0, status := 0, result := 0, detail := 0 },
      255, (List.replicate 9000 33), false, 3, 0, ?_⟩
    decide +kernel
  · refine
      ⟨{ path := Sys2Proof.Machine.OcsPath.uart 5, bytes := [0x10#8, 0x00#8, 0x00#8, 0x00#8, 0x77#8, 0x00#8, 0x00#8, 0x00#8, 0x00#8, 0x00#8, 0x00#8, 0x00#8, 0x00#8, 0x00#8, 0x00#8, 0x00#8, 0x40#8, 0x00#8, 0x00#8, 0x00#8, 0x00#8, 0x00#8, 0x00#8, 0x00#8, 0x00#8, 0x00#8, 0x00#8, 0x00#8, 0x00#8, 0x00#8, 0x00#8, 0x00#8], stage := Sys2Proof.Machine.OcsStage.fresh, data := [], bufs := [], xfers := [], rows := 0, status := 0, result := 0, detail := 0 },
      5, (List.replicate 9000 33), 5, ?_⟩
    decide +kernel
  · refine
      ⟨{ path := Sys2Proof.Machine.OcsPath.tunnel 1 3, bytes := [0x10#8, 0x00#8, 0x00#8, 0x00#8, 0x77#8, 0x00#8, 0x00#8, 0x00#8, 0x00#8, 0x00#8, 0x00#8, 0x00#8, 0x00#8, 0x00#8, 0x00#8, 0x00#8, 0x40#8, 0x00#8, 0x00#8, 0x00#8, 0x00#8, 0x00#8, 0x00#8, 0x00#8, 0x00#8, 0x00#8, 0x00#8, 0x00#8, 0x00#8, 0x00#8, 0x00#8, 0x00#8], stage := Sys2Proof.Machine.OcsStage.fresh, data := [], bufs := [], xfers := [], rows := 0, status := 0, result := 0, detail := 0 },
      0, (List.replicate 0 0), 1, 3, ?_⟩
    decide +kernel
  · refine ⟨(holding (cmdOf (.uart 5) 153 0 0 0 64 ([]) ([])) (withRing 1 8 1 0 0 (withRing 7 72 3 1 0 (withRing
      3 16 1 1 0 State.reset)))),
      { path := Sys2Proof.Machine.OcsPath.mailbox 4, bytes := [0x10#8, 0x00#8, 0x00#8, 0x00#8, 0x77#8, 0x00#8, 0x00#8, 0x00#8, 0x00#8, 0x00#8, 0x00#8, 0x00#8, 0x00#8, 0x00#8, 0x00#8, 0x00#8, 0x00#8, 0x00#8, 0x00#8, 0x00#8, 0x00#8, 0x00#8, 0x00#8, 0x00#8, 0x00#8, 0x00#8, 0x00#8, 0x00#8, 0x00#8, 0x00#8, 0x00#8, 0x00#8], stage := Sys2Proof.Machine.OcsStage.fresh, data := [], bufs := [], xfers := [], rows := 0, status := 0, result := 0, detail := 0 },
      2, (List.replicate 0 0), 4, ?_⟩
    decide +kernel
  · refine
      ⟨{ path := Sys2Proof.Machine.OcsPath.uart 5, bytes := [0x10#8, 0x00#8, 0x00#8, 0x00#8, 0x77#8, 0x00#8, 0x00#8, 0x00#8, 0x00#8, 0x00#8, 0x00#8, 0x00#8, 0x00#8, 0x00#8, 0x00#8, 0x00#8, 0x00#8, 0x10#8, 0x00#8, 0x00#8, 0x00#8, 0x00#8, 0x00#8, 0x00#8, 0x00#8, 0x00#8, 0x00#8, 0x00#8, 0x00#8, 0x00#8, 0x00#8, 0x00#8], stage := Sys2Proof.Machine.OcsStage.fresh, data := [], bufs := [], xfers := [], rows := 0, status := 0, result := 0, detail := 0 },
      (List.replicate 4 1), 5, ?_⟩
    decide +kernel
  · refine ⟨(withRing 1 8 1 1 0 (withRing 3 24 1 1 0 (otUp State.reset))),
      { path := Sys2Proof.Machine.OcsPath.tag false 3 0, bytes := [0x10#8, 0x00#8, 0x00#8, 0x00#8, 0x77#8, 0x00#8, 0x00#8, 0x00#8, 0x00#8, 0x00#8, 0x00#8, 0x00#8, 0x00#8, 0x00#8, 0x00#8, 0x00#8, 0x40#8, 0x00#8, 0x00#8, 0x00#8, 0x00#8, 0x00#8, 0x00#8, 0x00#8, 0x00#8, 0x00#8, 0x00#8, 0x00#8, 0x00#8, 0x00#8, 0x00#8, 0x00#8], stage := Sys2Proof.Machine.OcsStage.fresh, data := [], bufs := [], xfers := [], rows := 0, status := 0, result := 0, detail := 0 },
      (List.replicate 4 1), false, 3, 0, ?_⟩
    decide +kernel
  · refine ⟨State.reset, ?_⟩
    decide +kernel
  · refine ⟨(holding (cmdOf (.uart 5) 153 0 0 0 64 ([]) ([])) (withRing 1 8 1 0 0 (withRing 7 72 3 1 0 (withRing
      3 16 1 1 0 State.reset)))), false, ?_⟩
    decide +kernel
  · refine ⟨(holding (cmdOf (.uart 5) 153 0 0 0 64 ([]) ([])) (withRing 1 8 1 0 0 (withRing 7 72 3 1 0 (withRing
      3 16 1 1 0 State.reset)))), (List.replicate 4 1), ?_⟩
    decide +kernel
  · refine ⟨(holding (cmdOf (.tag false 3 0) 40 0 0 0 64 (leBytes 1 0x9) ([])) (withRing 1 8 1 0 0 (withRing 7
      72 3 1 0 (withRing 3 16 1 1 0 State.reset)))), (List.replicate 1 33), ?_⟩
    decide +kernel
  · refine ⟨(holding (cmdOf (.uart 5) 153 0 0 0 64 ([]) ([])) (withRing 1 8 1 0 0 (withRing 7 72 3 1 0 (withRing
      3 16 1 1 0 State.reset)))), (List.replicate 44 33), ?_⟩
    decide +kernel
  · refine ⟨((fun (s : State) =>
      { s with ot := { s.ot with cmds := List.replicate 4 (cmdOf (.mailbox 4) 0x10 0 0 0 0 [] []) } }) (otUp
      State.reset)), 0, ?_⟩
    decide +kernel
  · refine ⟨(holding (cmdOf (.uart 5) 153 0 0 0 64 ([]) ([])) (withRing 1 8 1 0 0 (withRing 7 72 3 1 0 (withRing
      3 16 1 1 0 State.reset)))), 1, ?_⟩
    decide +kernel
  · refine ⟨(withEntry 2 8 0 ([30, 1] ++ zerosB 30) (otUp State.reset)), 0, ?_⟩
    decide +kernel
  · refine ⟨(withEntry 5 8 0 ([10, 1] ++ zerosB 30) (otUp State.reset)), 5, (List.replicate 0 0), ?_⟩
    decide +kernel
  · refine ⟨(holding (cmdOf (.uart 5) 153 0 0 0 64 ([]) ([])) (withRing 1 8 1 0 0 (withRing 7 72 3 1 0 (withRing
      3 16 1 1 0 State.reset)))), .mailbox, ?_⟩
    decide +kernel
  · refine ⟨(fun (s : State) =>
      { s with ot := { s.ot with notes := Vector.replicate 3 (List.replicate 16 (zerosB 16, [1, 1])) } }) (otUp
      State.reset), .uart, ?_⟩
    decide +kernel
  · refine ⟨(fun (s : State) =>
      { s with ot := { s.ot with notes := #v[[(zerosB 16, [1, 1])], [(zerosB 16, [1, 1])], [(zerosB 16, [1, 1])]], session := true, vendorUsed := true } })
      (otUp (State.reset.wr HP_CFG_ENABLE 1)), .uart, ?_⟩
    decide +kernel
  · refine ⟨(holding (cmdOf (.tunnel 0 3) 153 0 0 0 64 ([]) ([])) (withRing 1 8 1 0 0 (withRing 7 72 3 1 0
      (withRing 3 16 1 1 0 State.reset)))), 25, ?_⟩
    decide +kernel
  · refine ⟨State.reset, 5, ?_⟩
    decide +kernel
  · refine ⟨State.reset, 2, 2, ?_⟩
    decide +kernel
  · refine ⟨(fun (s : State) =>
      { s with ot := { s.ot with notes := Vector.replicate 3 (List.replicate 16 (zerosB 16, [1, 1])) } }) (otUp
      State.reset), 2, 2, ?_⟩
    decide +kernel

/-- What OcsReadWrite assumes is met, clause by clause. -/
theorem witness_OcsReadWrite :
    (∃ (s : State) (op : Nat), (op = 1 ∨ op = 2) ∧ ∃ e5, e5 ∈ s.ocsNext (isOp op) ∧ e5.snd.ocsClear e5.fst =
      true ∧ e5.fst.stage = OcsStage.fresh ∧ (e5.fst.len = 0 ∨ 65536 < e5.fst.len))
    ∧ (∃ (s : State), ∃ e8, e8 ∈ s.ocsNext (isOp 3) ∧ e8.snd.ocsClear e8.fst = true ∧ e8.fst.stage ≠
      OcsStage.running ∧ 2 ≤ e8.fst.par 20)
    ∧ (∃ (s : State), ∃ e9, e9 ∈ s.ocsNext (isOp 4) ∧ e9.snd.ocsClear e9.fst = true ∧ e9.fst.stage ≠
      OcsStage.running ∧
      let hit : OcsCmd → Bool := fun x => Option.any (fun y => y.snd.fst == e9.fst.par 20 % 32) x.tag? && x.path != e9.fst.path;
      List.find? hit e9.snd.ot.cmds = none)
    ∧ (∃ (s : State), ∃ e9, e9 ∈ s.ocsNext (isOp 4) ∧ e9.snd.ocsClear e9.fst = true ∧ e9.fst.stage ≠
      OcsStage.running ∧
      let hit : OcsCmd → Bool := fun x => Option.any (fun y => y.snd.fst == e9.fst.par 20 % 32) x.tag? && x.path != e9.fst.path;
      ∃ e0, e0 ∈ List.find? hit e9.snd.ot.cmds ∧ e0.stage = OcsStage.fresh ∧ e0.xfers = [])
    ∧ (∃ (s : State), ∃ e9, e9 ∈ s.ocsNext (isOp 4) ∧ e9.snd.ocsClear e9.fst = true ∧ e9.fst.stage ≠
      OcsStage.running ∧
      let hit : OcsCmd → Bool := fun x => Option.any (fun y => y.snd.fst == e9.fst.par 20 % 32) x.tag? && x.path != e9.fst.path;
      ∃ e0, e0 ∈ List.find? hit e9.snd.ot.cmds ∧ e0.stage ≠ OcsStage.fresh ∧ (e0.op = 1 ∨ e0.op = 2) ∧ e0.status
      ≤ 1 ∧ e0.xfers ≠ [])
    ∧ (∃ (s : State), ∃ e9, e9 ∈ s.ocsNext (isOp 4) ∧ e9.snd.ocsClear e9.fst = true ∧ e9.fst.stage ≠
      OcsStage.running ∧
      let hit : OcsCmd → Bool := fun x => Option.any (fun y => y.snd.fst == e9.fst.par 20 % 32) x.tag? && x.path != e9.fst.path;
      ∃ e0, e0 ∈ List.find? hit e9.snd.ot.cmds ∧ e0.stage ≠ OcsStage.fresh ∧ (e0.op ≠ 1 ∧ e0.op ≠ 2 ∨ 2 ≤
      e0.status)) := by
  refine ⟨?_, ?_, ?_, ?_, ?_, ?_⟩
  · refine ⟨(holding (cmdOf (.tag false 3 0) 1 0 0 0 0 ([]) ([])) (withRing 1 8 1 0 0 (withRing 7 72 3 1 0
      (degraded State.reset)))), 1, ?_⟩
    decide +kernel
  · refine ⟨(holding (cmdOf (.tag false 3 0) 3 0 0 0 0 (leBytes 1 0x2) ([])) (withRing 1 8 1 0 0 (withRing 7 72
      3 1 0 (withVolume State.reset)))), ?_⟩
    decide +kernel
  · refine ⟨(holding (cmdOf (.tag false 3 0) 4 0 0 0 0 (leBytes 1 0x9) ([])) (withRing 1 8 1 0 0 (withRing 7 72
      3 1 0 State.reset))), ?_⟩
    decide +kernel
  · refine ⟨((fun (s : State) =>
      { s with ot := { s.ot with cmds := [cmdOf (.tag false 9 0) 1 0 0 0 4 ([]) ([]), cmdOf (.tag false 3 0) 4 0 0 0 0 (leBytes 1 0x9) ([])] } })
      (otUp (withRing 1 8 1 0 0 (withRing 7 72 3 1 0 State.reset)))), ?_⟩
    decide +kernel
  · refine ⟨((fun (s : State) =>
      { s with ot := { s.ot with cmds := [{ cmdOf (.tag false 9 0) 1 0 0 0 4 ([]) ([]) with stage := .dataOut, xfers := [3] }, cmdOf (.tag false 3 0) 4 0 0 0 0 (leBytes 1 0x9) ([])] } })
      (otUp (withRing 1 8 1 0 0 (withRing 7 72 3 1 0 State.reset)))), ?_⟩
    decide +kernel
  · refine ⟨((fun (s : State) =>
      { s with ot := { s.ot with cmds := [{ cmdOf (.tag false 9 0) 3 0 0 0 4 ([]) ([]) with stage := .ready }, cmdOf (.tag false 3 0) 4 0 0 0 0 (leBytes 1 0x9) ([])] } })
      (otUp (withRing 1 8 1 0 0 (withRing 7 72 3 1 0 State.reset)))), ?_⟩
    decide +kernel

/-- What OcsReports assumes is met, clause by clause. -/
theorem witness_OcsReports :
    (∃ (s : State), ∃ e1, e1 ∈ s.ocsNext (isOp 16) ∧ e1.snd.ocsClear e1.fst = true)
    ∧ (∃ (s : State), ∃ e2, e2 ∈ s.ocsNext (isOp 20) ∧ e2.snd.ocsClear e2.fst = true)
    ∧ (∃ (s : State), ∃ e3, e3 ∈ s.ocsNext (isOp 17) ∧ e3.snd.ocsClear e3.fst = true ∧
      let id : Nat := fieldB e3.fst.bytes 20 2; let perVol : Prop := id = 32 ∨ id = 33; ¬perVol ∧ featRange id =
      none)
    ∧ (∃ (s : State), ∃ e3, e3 ∈ s.ocsNext (isOp 17) ∧ e3.snd.ocsClear e3.fst = true ∧
      let id : Nat := fieldB e3.fst.bytes 20 2; let perVol : Prop := id = 32 ∨ id = 33;
      let live : Bool := vLive (e3.snd.vol (volOf e3.fst.volNo)); perVol ∧ live = true ∨ ¬perVol ∧ (featRange
      id).isSome = true)
    ∧ (∃ (s : State), ∃ e4, e4 ∈ s.ocsNext (isOp 18) ∧ e4.snd.ocsClear e4.fst = true ∧
      let id : Nat := fieldB e4.fst.bytes 20 2; let perVol : Prop := id = 32 ∨ id = 33; ¬perVol ∧ featRange id =
      none)
    ∧ (∃ (s : State), ∃ e4, e4 ∈ s.ocsNext (isOp 18) ∧ e4.snd.ocsClear e4.fst = true ∧
      let id : Nat := fieldB e4.fst.bytes 20 2; let perVol : Prop := id = 32 ∨ id = 33;
      let live : Bool := vLive (e4.snd.vol (volOf e4.fst.volNo)); (perVol ∧ live = true ∨ ¬perVol ∧ (featRange
      id).isSome = true) ∧ 2 ≤ e4.fst.par 22)
    ∧ (∃ (s : State) (lo : Nat) (hi : Nat), ∃ e4, e4 ∈ s.ocsNext (isOp 18) ∧ e4.snd.ocsClear e4.fst = true ∧
      let id : Nat := fieldB e4.fst.bytes 20 2; let perVol : Prop := id = 32 ∨ id = 33;
      let live : Bool := vLive (e4.snd.vol (volOf e4.fst.volNo)); e4.fst.par 22 < 2 ∧ (perVol ∧ live = true ∧ lo
      = 0 ∧ hi = 1 ∨ ¬perVol ∧ featRange id = some (lo, hi)) ∧ let x : Nat := fieldB e4.fst.bytes 24 8; x < lo ∨
      hi < x)
    ∧ (∃ (s : State) (lo : Nat) (hi : Nat), ∃ e4, e4 ∈ s.ocsNext (isOp 18) ∧ e4.snd.ocsClear e4.fst = true ∧
      let id : Nat := fieldB e4.fst.bytes 20 2; let perVol : Prop := id = 32 ∨ id = 33;
      let live : Bool := vLive (e4.snd.vol (volOf e4.fst.volNo)); e4.fst.par 22 < 2 ∧ (perVol ∧ live = true ∧ lo
      = 0 ∧ hi = 1 ∨ ¬perVol ∧ featRange id = some (lo, hi)) ∧ let x : Nat := fieldB e4.fst.bytes 24 8; lo ≤ x ∧
      x ≤ hi ∧ ¬perVol ∧ ¬id ∈ [18, 19, 20, 21])
    ∧ (∃ (s : State) (lo : Nat) (hi : Nat), ∃ e4, e4 ∈ s.ocsNext (isOp 18) ∧ e4.snd.ocsClear e4.fst = true ∧
      let id : Nat := fieldB e4.fst.bytes 20 2; let perVol : Prop := id = 32 ∨ id = 33;
      let live : Bool := vLive (e4.snd.vol (volOf e4.fst.volNo)); e4.fst.par 22 < 2 ∧ (perVol ∧ live = true ∧ lo
      = 0 ∧ hi = 1 ∨ ¬perVol ∧ featRange id = some (lo, hi)) ∧ let x : Nat := fieldB e4.fst.bytes 24 8; lo ≤ x ∧
      x ≤ hi ∧ ¬perVol ∧ ¬id ∈ [18, 19, 20, 21] ∧ (e4.fst.par 22).testBit 0 = true)
    ∧ (∃ (s : State) (lo : Nat) (hi : Nat), ∃ e4, e4 ∈ s.ocsNext (isOp 18) ∧ e4.snd.ocsClear e4.fst = true ∧
      let id : Nat := fieldB e4.fst.bytes 20 2; let perVol : Prop := id = 32 ∨ id = 33;
      let live : Bool := vLive (e4.snd.vol (volOf e4.fst.volNo)); e4.fst.par 22 < 2 ∧ (perVol ∧ live = true ∧ lo
      = 0 ∧ hi = 1 ∨ ¬perVol ∧ featRange id = some (lo, hi)) ∧ let x : Nat := fieldB e4.fst.bytes 24 8; lo ≤ x ∧
      x ≤ hi ∧ ¬perVol ∧ ¬id ∈ [18, 19, 20, 21] ∧ (e4.fst.par 22).testBit 0 = false)
    ∧ (∃ (s : State) (lo : Nat) (hi : Nat), ∃ e4, e4 ∈ s.ocsNext (isOp 18) ∧ e4.snd.ocsClear e4.fst = true ∧
      let id : Nat := fieldB e4.fst.bytes 20 2; let perVol : Prop := id = 32 ∨ id = 33;
      let live : Bool := vLive (e4.snd.vol (volOf e4.fst.volNo)); e4.fst.par 22 < 2 ∧ (perVol ∧ live = true ∧ lo
      = 0 ∧ hi = 1 ∨ ¬perVol ∧ featRange id = some (lo, hi)) ∧ let x : Nat := fieldB e4.fst.bytes 24 8; lo ≤ x ∧
      x ≤ hi ∧ id = 18)
    ∧ (∃ (s : State) (lo : Nat) (hi : Nat), ∃ e4, e4 ∈ s.ocsNext (isOp 18) ∧ e4.snd.ocsClear e4.fst = true ∧
      let id : Nat := fieldB e4.fst.bytes 20 2; let perVol : Prop := id = 32 ∨ id = 33;
      let live : Bool := vLive (e4.snd.vol (volOf e4.fst.volNo)); e4.fst.par 22 < 2 ∧ (perVol ∧ live = true ∧ lo
      = 0 ∧ hi = 1 ∨ ¬perVol ∧ featRange id = some (lo, hi)) ∧ let x : Nat := fieldB e4.fst.bytes 24 8; lo ≤ x ∧
      x ≤ hi ∧ id = 20)
    ∧ (∃ (s : State) (lo : Nat) (hi : Nat), ∃ e4, e4 ∈ s.ocsNext (isOp 18) ∧ e4.snd.ocsClear e4.fst = true ∧
      let id : Nat := fieldB e4.fst.bytes 20 2; let perVol : Prop := id = 32 ∨ id = 33;
      let live : Bool := vLive (e4.snd.vol (volOf e4.fst.volNo)); e4.fst.par 22 < 2 ∧ (perVol ∧ live = true ∧ lo
      = 0 ∧ hi = 1 ∨ ¬perVol ∧ featRange id = some (lo, hi)) ∧ let x : Nat := fieldB e4.fst.bytes 24 8; lo ≤ x ∧
      x ≤ hi ∧ id = 21)
    ∧ (∃ (s : State), ∃ e5, e5 ∈ s.ocsNext (isOp 19) ∧ e5.snd.ocsClear e5.fst = true ∧ e5.fst.par 20 = 0 ∧ 4095
      < e5.fst.arg)
    ∧ (∃ (s : State), ∃ e5, e5 ∈ s.ocsNext (isOp 19) ∧ e5.snd.ocsClear e5.fst = true ∧ e5.fst.par 20 = 0 ∧
      e5.fst.arg ≤ 4095 ∧ (e5.fst.len = 0 ∨ e5.fst.len % 32 ≠ 0))
    ∧ (∃ (s : State), ∃ e5, e5 ∈ s.ocsNext (isOp 19) ∧ e5.snd.ocsClear e5.fst = true ∧ e5.fst.par 20 = 0 ∧
      e5.fst.arg ≤ 4095 ∧ e5.fst.len ≠ 0 ∧ e5.fst.len % 32 = 0)
    ∧ (∃ (s : State), ∃ e5, e5 ∈ s.ocsNext (isOp 19) ∧ e5.snd.ocsClear e5.fst = true ∧ e5.fst.par 20 = 1)
    ∧ (∃ (s : State), ∃ e5, e5 ∈ s.ocsNext (isOp 19) ∧ e5.snd.ocsClear e5.fst = true ∧ e5.fst.par 20 = 2)
    ∧ (∃ (s : State), ∃ e5, e5 ∈ s.ocsNext (isOp 19) ∧ e5.snd.ocsClear e5.fst = true ∧ 3 ≤ e5.fst.par 20)
    ∧ (∃ (s : State), ∃ e6, e6 ∈ s.ocsNext (isOp 35) ∧ e6.snd.ocsClear e6.fst = true ∧ True)
    ∧ (∃ (s : State), ∃ e7, e7 ∈ s.ocsNext (isAct 41 0) ∧ e7.snd.ocsClear e7.fst = true ∧ 8 ≤ e7.fst.par 21)
    ∧ (∃ (s : State), ∃ e7, e7 ∈ s.ocsNext (isAct 41 0) ∧ e7.snd.ocsClear e7.fst = true ∧ e7.fst.par 21 < 8) := by
  refine ⟨?_, ?_, ?_, ?_, ?_, ?_, ?_, ?_, ?_, ?_, ?_, ?_, ?_, ?_, ?_, ?_, ?_, ?_, ?_, ?_, ?_, ?_⟩
  · refine ⟨(holding (cmdOf (.uart 5) 16 0 0 0 512 ([]) ([])) (withVolume State.reset)), ?_⟩
    decide +kernel
  · refine ⟨(holding (cmdOf (.uart 5) 20 0 0 0 512 ([]) ([])) (withVolume State.reset)), ?_⟩
    decide +kernel
  · refine ⟨(holding (cmdOf (.uart 5) 17 0 0 0 0 (leBytes 2 0x99) ([])) (withVolume State.reset)), ?_⟩
    decide +kernel
  · refine ⟨(holding (cmdOf (.uart 5) 17 0 0 0 0 (leBytes 2 0x1) ([])) (withVolume State.reset)), ?_⟩
    decide +kernel
  · refine ⟨(holding (cmdOf (.uart 5) 18 0 0 0 0 (leBytes 12 0x99) ([])) (withVolume State.reset)), ?_⟩
    decide +kernel
  · refine ⟨(holding (cmdOf (.uart 5) 18 0 0 0 0 (leBytes 12 0x20001) ([])) (withVolume State.reset)), ?_⟩
    decide +kernel
  · refine ⟨(holding (cmdOf (.uart 5) 18 0 0 0 0 (leBytes 12 0x500010010) ([])) (degraded State.reset)), 0, 3,
      ?_⟩
    decide +kernel
  · refine ⟨(holding (cmdOf (.uart 5) 18 0 0 0 0 (leBytes 12 0x100000001) ([])) (withVolume State.reset)), 1,
      65535, ?_⟩
    decide +kernel
  · refine ⟨(holding (cmdOf (.uart 5) 18 0 0 0 0 (leBytes 12 0x100010016) ([])) (withVolume State.reset)), 0, 1,
      ?_⟩
    decide +kernel
  · refine ⟨(holding (cmdOf (.uart 5) 18 0 0 0 0 (leBytes 12 0x100000001) ([])) (withVolume State.reset)), 1,
      65535, ?_⟩
    decide +kernel
  · refine ⟨(holding (cmdOf (.uart 5) 18 0 0 0 0 (leBytes 12 0x10012) ([])) (degraded State.reset)), 0, 1, ?_⟩
    decide +kernel
  · refine ⟨(holding (cmdOf (.uart 5) 18 0 0 0 0 (leBytes 12 0x100000014) ([])) (withVolume State.reset)), 0, 1,
      ?_⟩
    decide +kernel
  · refine ⟨(holding (cmdOf (.uart 5) 18 0 0 0 0 (leBytes 12 0x100000015) ([])) (degraded State.reset)), 1, 15,
      ?_⟩
    decide +kernel
  · refine ⟨(holding (cmdOf (.uart 5) 19 0 0 4096 64 (leBytes 1 0x0) ([])) (withVolume State.reset)), ?_⟩
    decide +kernel
  · refine ⟨(holding (cmdOf (.uart 5) 19 0 0 0 33 (leBytes 1 0x0) ([])) (withVolume State.reset)), ?_⟩
    decide +kernel
  · refine ⟨(holding (cmdOf (.uart 5) 19 0 0 0 64 (leBytes 1 0x0) ([])) (withVolume State.reset)), ?_⟩
    decide +kernel
  · refine ⟨(holding (cmdOf (.uart 5) 19 0 0 0 64 (leBytes 1 0x1) ([])) (withVolume State.reset)), ?_⟩
    decide +kernel
  · refine ⟨(holding (cmdOf (.uart 5) 19 0 0 0 64 (leBytes 1 0x2) ([])) (withVolume State.reset)), ?_⟩
    decide +kernel
  · refine ⟨(holding (cmdOf (.uart 5) 19 0 0 0 64 (leBytes 1 0x3) ([])) (withVolume State.reset)), ?_⟩
    decide +kernel
  · refine ⟨(holding (cmdOf (.uart 5) 35 0 0 0 512 ([]) ([])) (withVolume State.reset)), ?_⟩
    decide +kernel
  · refine ⟨(holding (cmdOf (.uart 5) 41 0 0 0 5632 (leBytes 2 0x800) ([])) (withVolume State.reset)), ?_⟩
    decide +kernel
  · refine ⟨(holding (cmdOf (.uart 5) 41 0 0 0 5632 (leBytes 2 0x0) ([])) (withVolume State.reset)), ?_⟩
    decide +kernel

/-- What OcsVolumes assumes is met, clause by clause. -/
theorem witness_OcsVolumes :
    (∃ (s : State), ∃ e8, e8 ∈ s.ocsNext (isOp 32) ∧ e8.snd.ocsClear e8.fst = true ∧ e8.fst.stage =
      OcsStage.running)
    ∧ (∃ (s : State), ∃ e8, e8 ∈ s.ocsNext (isOp 32) ∧ e8.snd.ocsClear e8.fst = true ∧ e8.fst.stage ≠
      OcsStage.running ∧ e8.fst.data.length < 96)
    ∧ (∃ (s : State), ∃ e8, e8 ∈ s.ocsNext (isOp 32) ∧ e8.snd.ocsClear e8.fst = true ∧ e8.fst.stage ≠
      OcsStage.running ∧ 96 ≤ e8.fst.data.length ∧ ∃ e9, e9 ∈ crBad e8.fst.data ∧ True)
    ∧ (∃ (s : State), ∃ e8, e8 ∈ s.ocsNext (isOp 32) ∧ e8.snd.ocsClear e8.fst = true ∧ e8.fst.stage =
      OcsStage.running ∧ ∃ e2, e2 ∈ List.find? (fun q => !e8.snd.portReady q) (crPorts e8.fst.data) ∧ fieldB
      e8.fst.data 5 1 = 0)
    ∧ (∃ (s : State), ∃ e8, e8 ∈ s.ocsNext (isOp 32) ∧ e8.snd.ocsClear e8.fst = true ∧
      let v : Fin 4 := volOf e8.fst.volNo; e8.fst.stage = OcsStage.running ∧ List.find? (fun q =>
      !e8.snd.portReady q) (crPorts e8.fst.data) = none ∧ e8.fst.rows < vCpu (e8.snd.crRecord v e8.fst.data))
    ∧ (∃ (w : State) (d : List Byte), 32 ≤ d.length ∧ w.crChunks d < 2 ^ 64 ∧ True)
    ∧ (∃ (s : State), ∃ e3, e3 ∈ s.ocsNext (isOp 33) ∧ e3.snd.ocsClear e3.fst = true ∧
      let good : Prop := fieldB e3.fst.bytes 20 4 = 1279608132; ¬good)
    ∧ (∃ (s : State), ∃ e5, e5 ∈ s.ocsNext (isOp 34) ∧ e5.snd.ocsClear e5.fst = true ∧
      let d : List Byte := e5.fst.data; d.length < 16)
    ∧ (∃ (s : State), ∃ e5, e5 ∈ s.ocsNext (isOp 34) ∧ e5.snd.ocsClear e5.fst = true ∧
      let d : List Byte := e5.fst.data; 16 ≤ d.length ∧ fieldB d 4 4 ≠ 0) := by
  refine ⟨?_, ?_, ?_, ?_, ?_, ?_, ?_, ?_, ?_⟩
  · refine ⟨(holding
      ({ cmdOf (.uart 5) 32 0 0 0 96 ([]) (leBytes 96 0xffffffff030201000000000001030401) with stage := .running, rows := 3 })
      State.reset), ?_⟩
    decide +kernel
  · refine ⟨(holding (cmdOf (.uart 5) 32 0 0 0 0 ([]) ([])) State.reset), ?_⟩
    decide +kernel
  · refine ⟨(holding (cmdOf (.uart 5) 32 0 0 0 96 ([]) (leBytes 96 0xffffffff030201000000000001010109))
      State.reset), ?_⟩
    decide +kernel
  · refine ⟨(holding
      ({ cmdOf (.uart 5) 32 0 0 0 96 ([]) (leBytes 96 0xffffffff030201000000000001030401) with stage := .running, rows := 3 })
      State.reset), ?_⟩
    decide +kernel
  · refine ⟨(holding ({ cmdOf (.uart 5) 32 0 0 0 0 ([]) ([]) with stage := .running, rows := 3 }) State.reset),
      ?_⟩
    decide +kernel
  · refine ⟨State.reset, (zerosB 96), ?_⟩
    decide +kernel
  · refine ⟨(holding (cmdOf (.uart 5) 33 0 0 0 0 (leBytes 4 0x5) ([])) (withVolume State.reset)), ?_⟩
    decide +kernel
  · refine ⟨(holding (cmdOf (.uart 5) 34 0 0 0 0 ([]) ([])) (withVolume State.reset)), ?_⟩
    decide +kernel
  · refine ⟨(holding (cmdOf (.uart 5) 34 0 0 0 16 ([]) (leBytes 16 0xffffffffffffff040000000101040501))
      (withVolume State.reset)), ?_⟩
    decide +kernel

/-- What OcsPortsAndSecurity assumes is met, clause by clause. -/
theorem witness_OcsPortsAndSecurity :
    (∃ (s : State), ∃ e7, e7 ∈ s.ocsNext (isAct 40 0) ∧ e7.snd.ocsClear e7.fst = true ∧ 8 ≤ e7.fst.par 21)
    ∧ (∃ (s : State), ∃ e7, e7 ∈ s.ocsNext (isAct 40 0) ∧ e7.snd.ocsClear e7.fst = true ∧ e7.fst.par 21 < 8 ∧ 2
      ≤ e7.fst.par 22)
    ∧ (∃ (s : State), ∃ e7, e7 ∈ s.ocsNext (isAct 40 0) ∧ e7.snd.ocsClear e7.fst = true ∧
      let p : Fin 8 := fin8 (e7.fst.par 21); e7.fst.par 21 < 8 ∧ e7.fst.par 22 < 2 ∧ e7.snd.ot.offline.getLsbD
      (↑p : Nat) = true)
    ∧ (∃ (s : State), ∃ e8, e8 ∈ s.ocsNext (isAct 40 1) ∧ e8.snd.ocsClear e8.fst = true ∧
      let p : Fin 8 := fin8 (e8.fst.par 21); e8.fst.stage = OcsStage.running ∧ e8.snd.ot.loaded.getLsbD (↑p :
      Nat) = true)
    ∧ (∃ (s : State), ∃ e8, e8 ∈ s.ocsNext (isAct 40 1) ∧ e8.snd.ocsClear e8.fst = true ∧
      let p : Fin 8 := fin8 (e8.fst.par 21); e8.fst.stage = OcsStage.running ∧ e8.snd.ot.loaded.getLsbD (↑p :
      Nat) = false ∧ (e8.snd.ot.outcome[p] ≠ 1 ∨ e8.snd.rd (SPN_STATUS_STATE (↑p : Nat)) = 9))
    ∧ (∃ (s : State), ∃ e8, e8 ∈ s.ocsNext (isAct 40 1) ∧ e8.snd.ocsClear e8.fst = true ∧
      let p : Fin 8 := fin8 (e8.fst.par 21); e8.fst.stage = OcsStage.running ∧ e8.snd.ot.loaded.getLsbD (↑p :
      Nat) = false ∧ e8.snd.ot.outcome[p] = 1 ∧ e8.snd.rd (SPN_STATUS_STATE (↑p : Nat)) ≠ 9)
    ∧ (∃ (s : State), ∃ e8, e8 ∈ s.ocsNext (isAct 40 1) ∧ e8.snd.ocsClear e8.fst = true ∧ e8.fst.stage ≠
      OcsStage.running ∧ 8 ≤ e8.fst.par 21)
    ∧ (∃ (s : State), ∃ e8, e8 ∈ s.ocsNext (isAct 40 1) ∧ e8.snd.ocsClear e8.fst = true ∧ e8.fst.stage ≠
      OcsStage.running ∧ e8.fst.par 21 < 8 ∧ 2 ≤ e8.fst.par 22)
    ∧ (∃ (s : State), ∃ e8, e8 ∈ s.ocsNext (isAct 40 1) ∧ e8.snd.ocsClear e8.fst = true ∧
      let p : Fin 8 := fin8 (e8.fst.par 21); e8.fst.stage ≠ OcsStage.running ∧ e8.fst.par 21 < 8 ∧ e8.fst.par 22
      < 2 ∧ e8.snd.ot.offline.getLsbD (↑p : Nat) = false)
    ∧ (∃ (s : State) (seen : PortSeen), ∃ e8, e8 ∈ s.ocsNext (isAct 40 1) ∧ e8.snd.ocsClear e8.fst = true ∧
      let p : Fin 8 := fin8 (e8.fst.par 21); e8.fst.stage ≠ OcsStage.running ∧ e8.fst.par 21 < 8 ∧ e8.fst.par 22
      < 2 ∧ e8.snd.ot.offline.getLsbD (↑p : Nat) = true ∧ let y : State := e8.snd.spnClearFault p true;
      let x : State := { y with ot := { y.ot with offline := y.ot.offline &&& ~~~portBit p } }.discover p seen;
      let u : State := x.notify 2 255 (↑p : Nat) x.ot.outcome[p] 1 []; u.ot.outcome[p] ≠ 1)
    ∧ (∃ (s : State), ∃ e9, e9 ∈ s.ocsNext (isAct 41 1) ∧ e9.snd.ocsClear e9.fst = true ∧ 8 ≤ e9.fst.par 21)
    ∧ (∃ (s : State), ∃ e9, e9 ∈ s.ocsNext (isAct 41 1) ∧ e9.snd.ocsClear e9.fst = true ∧ e9.fst.par 21 < 8 ∧
      e9.fst.data.length < 5632)
    ∧ (∃ (s : State), ∃ e9, e9 ∈ s.ocsNext (isAct 41 1) ∧ e9.snd.ocsClear e9.fst = true ∧
      let p : Fin 8 := fin8 (e9.fst.par 21); let d : List Byte := sliceB e9.fst.data 0 5632;
      let inUse : Bool := e9.snd.readyVols.any fun v => !(e9.snd.portMembers v (↑p : Nat)).isEmpty; e9.fst.par
      21 < 8 ∧ 5632 ≤ e9.fst.data.length ∧ inUse = false ∧ (bootOf d = none ∨ recordValid d = false))
    ∧ (∃ (s : State), ∃ e3, e3 ∈ s.ocsNext (isAct 48 3) ∧ e3.snd.ocsClear e3.fst = true ∧
      let u : Nat := e3.fst.par 21; 8 ≤ u)
    ∧ (∃ (s : State), ∃ e3, e3 ∈ s.ocsNext (isAct 48 3) ∧ e3.snd.ocsClear e3.fst = true ∧
      let u : Nat := e3.fst.par 21; let q : Nat := e3.fst.par 22; u < 8 ∧ 8 ≤ q)
    ∧ (∃ (s : State) (act : Fin 5), ∃ e4, e4 ∈ s.ocsNext (isAct 56 (↑act : Nat)) ∧ e4.snd.ocsClear e4.fst = true
      ∧ e4.fst.data.length < 64) := by
  refine ⟨?_, ?_, ?_, ?_, ?_, ?_, ?_, ?_, ?_, ?_, ?_, ?_, ?_, ?_, ?_, ?_⟩
  · refine ⟨(holding (cmdOf (.uart 5) 40 0 0 0 0 (leBytes 2 0x800) ([])) (withVolume State.reset)), ?_⟩
    decide +kernel
  · refine ⟨(holding (cmdOf (.uart 5) 40 0 0 0 0 (leBytes 3 0x20000) ([])) (withVolume State.reset)), ?_⟩
    decide +kernel
  · refine ⟨(holding (cmdOf (.uart 5) 40 0 0 0 0 (leBytes 3 0x0) ([])) ((fun (s : State) =>
      { s with ot := { s.ot with offline := 0xFF } }) (withVolume State.reset))), ?_⟩
    decide +kernel
  · refine ⟨(holding ({ cmdOf (.uart 5) 40 0 0 0 0 (leBytes 2 0x801) ([]) with stage := .running }) (withVolume
      State.reset)), ?_⟩
    decide +kernel
  · refine ⟨(holding ({ cmdOf (.uart 5) 40 0 0 0 0 (leBytes 2 0x801) ([]) with stage := .running })
      State.reset), ?_⟩
    decide +kernel
  · refine ⟨(holding ({ cmdOf (.uart 5) 40 0 0 0 0 (leBytes 3 0x1) ([]) with stage := .running }) ((fun (s :
      State) => { s with ot := { s.ot with outcome := Vector.replicate 8 1, loaded := 0 } }) State.reset)), ?_⟩
    decide +kernel
  · refine ⟨(holding (cmdOf (.uart 5) 40 0 0 0 0 (leBytes 2 0x801) ([])) (withVolume State.reset)), ?_⟩
    decide +kernel
  · refine ⟨(holding (cmdOf (.uart 5) 40 0 0 0 0 (leBytes 3 0x20001) ([])) (withVolume State.reset)), ?_⟩
    decide +kernel
  · refine ⟨(holding (cmdOf (.uart 5) 40 0 0 0 0 (leBytes 3 0x1) ([])) (withVolume State.reset)), ?_⟩
    decide +kernel
  · refine ⟨(holding (cmdOf (.uart 5) 40 0 0 0 0 (leBytes 3 0x1) ([])) ((fun (s : State) =>
      { s with ot := { s.ot with offline := 0xFF } }) (withVolume State.reset))),
      { answers := [], uv := 65535, vw := 65535, wu := 65535, turning := none }, ?_⟩
    decide +kernel
  · refine ⟨(holding (cmdOf (.uart 5) 41 0 0 0 0 (leBytes 2 0x801) ([])) State.reset), ?_⟩
    decide +kernel
  · refine ⟨(holding (cmdOf (.uart 5) 41 0 0 0 0 (leBytes 2 0x1) ([])) State.reset), ?_⟩
    decide +kernel
  · refine ⟨(holding (cmdOf (.uart 5) 41 0 0 0 5632 (leBytes 2 0x1) (zerosB 5632)) State.reset), ?_⟩
    decide +kernel
  · refine ⟨(holding (cmdOf (.uart 5) 48 0 0 0 0 (leBytes 3 0x803) ([])) (withVolume State.reset)), ?_⟩
    decide +kernel
  · refine ⟨(holding (cmdOf (.uart 5) 48 0 0 0 0 (leBytes 3 0x80003) ([])) (withVolume State.reset)), ?_⟩
    decide +kernel
  · refine ⟨(holding (cmdOf (.uart 5) 56 0 0 0 0 (leBytes 1 0x0) ([])) (withVolume State.reset)), 0, ?_⟩
    decide +kernel

/-- What OcsPower assumes is met, clause by clause. -/
theorem witness_OcsPower :
    (∃ (s : State) (act : Fin 3), ∃ e0, e0 ∈ s.ocsNext (isAct 64 (↑act : Nat)) ∧ e0.snd.ocsClear e0.fst = true ∧
      True)
    ∧ (∃ (s : State), s.ot.power = none ∧ ∃ e1, e1 ∈ s.ocsNext (isAct 64 3) ∧ e1.snd.ocsClear e1.fst = true ∧
      let u : State := e1.snd.ocsEnd e1.fst 0 0 0 [];
      let d : State := { u with ot := { u.ot with power := some { action := 3 } } };
      let f : Bool × State := d.wakeDirty d.readyVols; f.fst = false)
    ∧ (∃ (s : State), ∃ e2, e2 ∈ s.ot.power ∧ (s.tagsFree = false ∨ e2.action = 3 ∧ (s.dirtyCounts.any fun n =>
      n != 0) = true))
    ∧ (∃ (s : State), ∃ e3, e3 ∈ s.ot.power ∧ e3.action ≠ 3 ∧ s.tagsFree = true ∧
      let x : State := s.haltAll.settleHeads e3.action; x.sleepReason false = none)
    ∧ (∃ (s : State), ∃ e3, e3 ∈ s.ot.power ∧ e3.action ≠ 3 ∧ s.tagsFree = true ∧
      let x : State := s.haltAll.settleHeads e3.action; ∃ e4, e4 ∈ x.sleepReason false ∧ True)
    ∧ (∃ (s : State), ∃ e5, e5 ∈ s.ot.power ∧ s.otRuns = true ∧ e5.refused = true ∧ True)
    ∧ (∃ (s : State), ∃ e5, e5 ∈ s.ot.power ∧ s.otRuns = true ∧ e5.refused = false)
    ∧ (∃ (s : State), s.ot.power = none ∨ s.otRuns = false)
    ∧ (∃ (s : State), ∃ e6, e6 ∈ s.ocsNext (isAct 64 4) ∧ e6.snd.ocsClear e6.fst = true ∧ True)
    ∧ (∃ (s : State) (p : Fin 8), ∃ e6, e6 ∈ s.ocsNext (isAct 64 4) ∧ e6.snd.ocsClear e6.fst = true ∧
      let mine : Fin 8 → Bool := fun p => (e6.fst.par 21).testBit (↑p : Nat) && e6.snd.online p && e6.snd.on (2 + (↑p : Nat));
      mine p = true)
    ∧ (∃ (s : State), ∃ e7, e7 ∈ s.ocsNext (isAct 64 5) ∧ e7.snd.ocsClear e7.fst = true ∧
      let ps : List (Fin 8) := List.filter (fun p => (e7.fst.par 21).testBit (↑p : Nat) && e7.snd.online p && e7.snd.on (2 + (↑p : Nat))) ports;
      let x : State := if e7.fst.stage = OcsStage.running then e7.snd else { e7.snd with ot := { e7.snd.ot with parked := List.foldl (fun a p => a ||| portBit p) e7.snd.ot.parked ps } };
      let u : State := List.foldl (fun s p => s.wakePort p) x ps; ∀ (p : Fin 8), p ∈ ps → u.ot.parked.getLsbD
      (↑p : Nat) = false ∨ u.rd (SPN_STATUS_STATE (↑p : Nat)) = 9)
    ∧ (∃ (s : State) (p : Fin 8), ∃ e7, e7 ∈ s.ocsNext (isAct 64 5) ∧ e7.snd.ocsClear e7.fst = true ∧
      let ps : List (Fin 8) := List.filter (fun p => (e7.fst.par 21).testBit (↑p : Nat) && e7.snd.online p && e7.snd.on (2 + (↑p : Nat))) ports;
      let x : State := if e7.fst.stage = OcsStage.running then e7.snd else { e7.snd with ot := { e7.snd.ot with parked := List.foldl (fun a p => a ||| portBit p) e7.snd.ot.parked ps } };
      let u : State := List.foldl (fun s p => s.wakePort p) x ps; p ∈ ps ∧ u.ot.parked.getLsbD (↑p : Nat) = true
      ∧ u.rd (SPN_STATUS_STATE (↑p : Nat)) ≠ 9)
    ∧ (∃ (s : State) (p : Fin 8), s.ot.parked.getLsbD (↑p : Nat) = true ∧ s.rd (SRV_STATUS_STATE (↑p : Nat)) =
      4)
    ∧ (∃ (s : State) (p : Fin 8) (q : Fin 8), s.ot.parked.getLsbD (↑p : Nat) = true ∧ s.rd (SRV_STATUS_STATE (↑p
      : Nat)) = 4 ∧ q ≠ p)
    ∧ (∃ (s : State) (p : Fin 8), s.ot.parked.getLsbD (↑p : Nat) = true ∧ s.rd (SRV_STATUS_STATE (↑p : Nat)) ≠ 4
      ∧ s.rd (SPN_STATUS_STATE (↑p : Nat)) = 0)
    ∧ (∃ (s : State) (p : Fin 8), s.ot.parked.getLsbD (↑p : Nat) = true ∧ s.rd (SRV_STATUS_STATE (↑p : Nat)) = 0
      ∧ s.rd (SPN_STATUS_STATE (↑p : Nat)) = 5) := by
  refine ⟨?_, ?_, ?_, ?_, ?_, ?_, ?_, ?_, ?_, ?_, ?_, ?_, ?_, ?_, ?_, ?_⟩
  · refine ⟨(holding (cmdOf (.uart 5) 64 0 0 0 0 (leBytes 2 0xff00) ([])) State.reset), 0, ?_⟩
    decide +kernel
  · refine ⟨(holding (cmdOf (.uart 5) 64 0 0 0 0 (leBytes 2 0xff03) ([])) State.reset), ?_⟩
    decide +kernel
  · refine ⟨((fun (s : State) => { s with ot := { s.ot with power := some { action := 1 } } }) (otUp
      (State.reset.setTag 3 1))), ?_⟩
    decide +kernel
  · refine ⟨((fun (s : State) => { s with ot := { s.ot with power := some { action := 0, refused := true } } })
      (otUp State.reset)), ?_⟩
    decide +kernel
  · refine ⟨((fun (s : State) =>
      { s with ae := s.ae, lc := { s.lc with wcb := [aWcb 8 false] }, ot := { s.ot with power := some { action := 1 } } })
      (otUp State.reset)), ?_⟩
    decide +kernel
  · refine ⟨((fun (s : State) => { s with ot := { s.ot with power := some { action := 0, refused := true } } })
      (otUp State.reset)), ?_⟩
    decide +kernel
  · refine ⟨((fun (s : State) => { s with ot := { s.ot with power := some { action := 0, refused := false } } })
      (otUp State.reset)), ?_⟩
    decide +kernel
  · refine ⟨State.reset, ?_⟩
    decide +kernel
  · refine ⟨(holding (cmdOf (.uart 5) 64 0 0 0 0 (leBytes 2 0xff04) ([])) State.reset), ?_⟩
    decide +kernel
  · refine ⟨(allOn (holding (cmdOf (.uart 5) 64 0 0 0 0 (leBytes 2 0xff04) ([])) ((fun (s : State) =>
      { s with ot := { s.ot with outcome := Vector.replicate 8 1, loaded := 0xFF } }) State.reset))), 2, ?_⟩
    decide +kernel
  · refine ⟨(holding (cmdOf (.uart 5) 64 0 0 0 0 (leBytes 2 0xff05) ([])) State.reset), ?_⟩
    decide +kernel
  · refine ⟨(allOn (holding (cmdOf (.uart 5) 64 0 0 0 0 (leBytes 2 0xff05) ([])) ((fun (s : State) =>
      { s with ot := { s.ot with outcome := Vector.replicate 8 1, loaded := 0xFF } }) State.reset))), 4, ?_⟩
    decide +kernel
  · refine ⟨((holding (cmdOf (.uart 5) 64 0 0 0 0 (leBytes 2 0xff03) ([])) ((fun (s : State) =>
      { s with ot := { s.ot with parked := 0xFF, cache := [{ vol := 0, unit := 0, buf := 3, mask := 0xFF, dirty := 255 }] } })
      (withVolume State.reset))).wr (SRV_STATUS_STATE 0) 4), 0, ?_⟩
    decide +kernel
  · refine ⟨(((fun (s : State) => { s with ot := { s.ot with parked := 0x7#8 } }) ((fun (s : State) =>
      { s with lc := { s.lc with wcb := [aWcb 8 false] }, ot := { s.ot with power := some { action := 0 } } })
      (otUp State.reset))).wr (SRV_STATUS_STATE 0) 4), 0, 3, ?_⟩
    decide +kernel
  · refine ⟨(holding (cmdOf (.uart 5) 64 0 0 0 0 (leBytes 2 0xff03) ([])) ((fun (s : State) =>
      { s with ot := { s.ot with parked := 0xFF, cache := [{ vol := 0, unit := 0, buf := 3, mask := 0xFF, dirty := 255 }] } })
      (withVolume State.reset))), 2, ?_⟩
    decide +kernel
  · refine ⟨((holding (cmdOf (.uart 5) 64 0 0 0 0 (leBytes 2 0xff03) ([])) ((fun (s : State) =>
      { s with ot := { s.ot with parked := 0xFF, cache := [{ vol := 0, unit := 0, buf := 3, mask := 0xFF, dirty := 255 }] } })
      (withVolume State.reset))).wr (SPN_STATUS_STATE 0) 5), 0, ?_⟩
    decide +kernel

/-- What OcsFirmware assumes is met, clause by clause. -/
theorem witness_OcsFirmware :
    (∃ (s : State), ∃ e8, e8 ∈ s.ocsNext (isOp 72) ∧ e8.snd.ocsClear e8.fst = true ∧ e8.fst.arg % 4 ≠ 0)
    ∧ (∃ (s : State), ∃ e8, e8 ∈ s.ocsNext (isOp 72) ∧ e8.snd.ocsClear e8.fst = true ∧ e8.fst.arg % 4 = 0 ∧
      e8.fst.len % 4 ≠ 0)
    ∧ (∃ (s : State), ∃ e8, e8 ∈ s.ocsNext (isOp 72) ∧ e8.snd.ocsClear e8.fst = true ∧ e8.fst.arg % 4 = 0 ∧
      e8.fst.len % 4 = 0 ∧ 393216 < e8.fst.arg)
    ∧ (∃ (s : State), ∃ e8, e8 ∈ s.ocsNext (isOp 72) ∧ e8.snd.ocsClear e8.fst = true ∧ e8.fst.arg % 4 = 0 ∧
      e8.fst.len % 4 = 0 ∧ e8.fst.arg ≤ 393216 ∧ 393216 < e8.fst.arg + e8.fst.len)
    ∧ (∃ (s : State), ∃ e8, e8 ∈ s.ocsNext (isOp 72) ∧ e8.snd.ocsClear e8.fst = true ∧ e8.fst.arg % 4 = 0 ∧
      e8.fst.len % 4 = 0 ∧ e8.fst.arg + e8.fst.len ≤ 393216)
    ∧ (∃ (s : State), ∃ e9, e9 ∈ s.ocsNext (isAct 73 0) ∧ e9.snd.ocsClear e9.fst = true ∧
      let spare : Bool := !e9.snd.slotRun; let k : Nat × State := e9.snd.slotResult spare; k.fst ≠ 0)
    ∧ (∃ (s : State), ∃ e9, e9 ∈ s.ocsNext (isAct 73 0) ∧ e9.snd.ocsClear e9.fst = true ∧
      let spare : Bool := !e9.snd.slotRun; let k : Nat × State := e9.snd.slotResult spare;
      let new : Nat := fieldB (k.snd.slotHead !k.snd.slotRun) 12 4;
      let old : Nat := fieldB (k.snd.slotHead k.snd.slotRun) 12 4; k.fst = 0 ∧ new ≤ old)
    ∧ (∃ (s : State), s.otRuns = true ∧ s.ot.activate = 0)
    ∧ (∃ (s : State), s.otRuns = true ∧ s.ot.activate = 1 ∧ s.tagsFree = false)
    ∧ (∃ (s : State) (timeout : Bool), s.otRuns = true ∧ s.ot.activate = 1 ∧ (s.tagsFree = true ∨ timeout =
      true) ∧ True)
    ∧ (∃ (s : State), s.otRuns = true ∧ 2 ≤ s.ot.activate ∧ let u : State := s.otRetry; (u.ot.posts.any fun e =>
      e.fst == 448) = true ∨ (u.ring 448).count ≠ 0)
    ∧ (∃ (s : State), s.otRuns = true ∧ 2 ≤ s.ot.activate ∧ let u : State := s.otRetry; (u.ot.posts.any fun e =>
      e.fst == 448) = false ∧ (u.ring 448).count = 0)
    ∧ (∃ (s : State), ∃ e0, e0 ∈ s.ocsNext (isAct 73 1) ∧ e0.snd.ocsClear e0.fst = true ∧
      let want : Nat := fieldB (e0.snd.slotHead e0.snd.slotRun) 16 4; let n : Nat := e0.snd.rollbackCount;
      e0.fst.stage ≠ OcsStage.running ∧ (want ≤ n ∨ 32 < want))
    ∧ (∃ (s : State), ∃ e0, e0 ∈ s.ocsNext (isAct 73 1) ∧ e0.snd.ocsClear e0.fst = true ∧
      let want : Nat := fieldB (e0.snd.slotHead e0.snd.slotRun) 16 4; let n : Nat := e0.snd.rollbackCount;
      (e0.fst.stage = OcsStage.running ∨ n < want ∧ want ≤ 32) ∧ e0.snd.flag OTP_STATUS_BUSY = true)
    ∧ (∃ (s : State), ∃ e0, e0 ∈ s.ocsNext (isAct 73 1) ∧ e0.snd.ocsClear e0.fst = true ∧
      let want : Nat := fieldB (e0.snd.slotHead e0.snd.slotRun) 16 4; let n : Nat := e0.snd.rollbackCount;
      e0.fst.stage = OcsStage.running ∧ e0.snd.flag OTP_STATUS_BUSY = false ∧ want ≤ n)
    ∧ (∃ (s : State) (i : Nat), ∃ e0, e0 ∈ s.ocsNext (isAct 73 1) ∧ e0.snd.ocsClear e0.fst = true ∧
      let want : Nat := fieldB (e0.snd.slotHead e0.snd.slotRun) 16 4; let n : Nat := e0.snd.rollbackCount;
      (e0.fst.stage = OcsStage.running ∨ want ≤ 32) ∧ n < want ∧ e0.snd.flag OTP_STATUS_BUSY = false ∧ i < 32 ∧
      otpBit e0.snd.boot.fuses (512 + i) = false ∧ (∀ (j : Nat), j < i → otpBit e0.snd.boot.fuses (512 + j) =
      true) ∧ let u : State := e0.snd.pageWrite 0 OTP_PROG_WORD.addr (BitVec.ofNat 32 (1797062656 + 512 + i));
      u.flag OTP_STATUS_BUSY = true)
    ∧ (∃ (s : State), ∃ e1, e1 ∈ s.ocsNext (isAct 80 0) ∧ e1.snd.ocsClear e1.fst = true ∧ 6 ≤ e1.fst.par 21)
    ∧ (∃ (s : State) (i : Fin 6), ∃ e1, e1 ∈ s.ocsNext (isAct 80 0) ∧ e1.snd.ocsClear e1.fst = true ∧ e1.fst.par
      21 = (↑i : Nat) ∧ e1.snd.regOn IDU_FENCE_FENCED.addr = false)
    ∧ (∃ (s : State) (i : Fin 6), ∃ e1, e1 ∈ s.ocsNext (isAct 80 0) ∧ e1.snd.ocsClear e1.fst = true ∧ e1.fst.par
      21 = (↑i : Nat) ∧ e1.snd.regOn IDU_FENCE_FENCED.addr = true ∧ e1.fst.stage ≠ OcsStage.running)
    ∧ (∃ (s : State) (i : Fin 6), ∃ e1, e1 ∈ s.ocsNext (isAct 80 0) ∧ e1.snd.ocsClear e1.fst = true ∧ e1.fst.par
      21 = (↑i : Nat) ∧ e1.snd.regOn IDU_FENCE_FENCED.addr = true ∧ e1.fst.stage = OcsStage.running ∧
      e1.snd.idu.kat[i] = 0 ∧ e1.snd.idu.katDue.getLsbD (↑i : Nat) = false)
    ∧ (∃ (s : State) (i : Fin 6), ∃ e1, e1 ∈ s.ocsNext (isAct 80 0) ∧ e1.snd.ocsClear e1.fst = true ∧ e1.fst.par
      21 = (↑i : Nat) ∧ e1.snd.regOn IDU_FENCE_FENCED.addr = true ∧ e1.fst.stage = OcsStage.running ∧
      (e1.snd.idu.kat[i] ≠ 0 ∨ e1.snd.idu.katDue.getLsbD (↑i : Nat) = true))
    ∧ (∃ (s : State), ∃ e2, e2 ∈ s.ocsNext (isAct 80 1) ∧ e2.snd.ocsClear e2.fst = true ∧ 6 ≤ e2.fst.par 21)
    ∧ (∃ (s : State) (i : Fin 6), ∃ e2, e2 ∈ s.ocsNext (isAct 80 1) ∧ e2.snd.ocsClear e2.fst = true ∧ e2.fst.par
      21 = (↑i : Nat) ∧ e2.snd.regOn IDU_FENCE_FENCED.addr = false)
    ∧ (∃ (s : State) (i : Fin 6), ∃ e2, e2 ∈ s.ocsNext (isAct 80 1) ∧ e2.snd.ocsClear e2.fst = true ∧ e2.fst.par
      21 = (↑i : Nat) ∧ e2.snd.regOn IDU_FENCE_FENCED.addr = true)
    ∧ (∃ (s : State), ∃ e3, e3 ∈ s.ocsNext (isAct 80 2) ∧ e3.snd.ocsClear e3.fst = true ∧ e3.fst.stage ≠
      OcsStage.running ∧ 8 ≤ e3.fst.par 21)
    ∧ (∃ (s : State), ∃ e3, e3 ∈ s.ocsNext (isAct 80 2) ∧ e3.snd.ocsClear e3.fst = true ∧
      let p : Fin 8 := fin8 (e3.fst.par 21); e3.fst.par 21 < 8 ∧ e3.fst.stage = OcsStage.running ∧ e3.snd.flag
      (SPN_STATUS_MEASURE_BUSY (↑p : Nat)) = true)
    ∧ (∃ (s : State), ∃ e3, e3 ∈ s.ocsNext (isAct 80 2) ∧ e3.snd.ocsClear e3.fst = true ∧
      let p : Fin 8 := fin8 (e3.fst.par 21); e3.fst.par 21 < 8 ∧ e3.fst.stage = OcsStage.running ∧ e3.snd.flag
      (SPN_STATUS_MEASURE_BUSY (↑p : Nat)) = false)
    ∧ (∃ (s : State), ∃ e3, e3 ∈ s.ocsNext (isAct 80 2) ∧ e3.snd.ocsClear e3.fst = true ∧
      let p : Fin 8 := fin8 (e3.fst.par 21); e3.fst.par 21 < 8 ∧ e3.fst.stage ≠ OcsStage.running ∧ (e3.snd.on (2
      + (↑p : Nat)) = false ∨ e3.snd.rd (SPN_STATUS_STATE (↑p : Nat)) ≠ 0))
    ∧ (∃ (s : State), ∃ e3, e3 ∈ s.ocsNext (isAct 80 2) ∧ e3.snd.ocsClear e3.fst = true ∧
      let p : Fin 8 := fin8 (e3.fst.par 21); e3.fst.par 21 < 8 ∧ e3.fst.stage ≠ OcsStage.running ∧ e3.snd.on (2
      + (↑p : Nat)) = true ∧ e3.snd.rd (SPN_STATUS_STATE (↑p : Nat)) = 0)
    ∧ (∃ (s : State), ∃ e4, e4 ∈ s.ocsNext (isAct 80 3) ∧ e4.snd.ocsClear e4.fst = true ∧ 8 ≤ e4.fst.par 21)
    ∧ (∃ (s : State), ∃ e4, e4 ∈ s.ocsNext (isAct 80 3) ∧ e4.snd.ocsClear e4.fst = true ∧ e4.fst.par 21 < 8 ∧ 3
      ≤ e4.fst.par 22)
    ∧ (∃ (s : State), ∃ e4, e4 ∈ s.ocsNext (isAct 80 3) ∧ e4.snd.ocsClear e4.fst = true ∧
      let p : Fin 8 := fin8 (e4.fst.par 21); e4.fst.par 21 < 8 ∧ e4.fst.par 22 < 3 ∧ (e4.snd.on (2 + (↑p : Nat))
      = false ∨ e4.snd.rd (SRV_STATUS_STATE (↑p : Nat)) ≠ 4))
    ∧ (∃ (s : State), ∃ e4, e4 ∈ s.ocsNext (isAct 80 3) ∧ e4.snd.ocsClear e4.fst = true ∧
      let p : Fin 8 := fin8 (e4.fst.par 21); e4.fst.par 21 < 8 ∧ e4.fst.par 22 < 3 ∧ e4.snd.on (2 + (↑p : Nat))
      = true ∧ e4.snd.rd (SRV_STATUS_STATE (↑p : Nat)) = 4 ∧ bdUser (bodyOf (e4.snd.hda p)) ≤ e4.fst.arg)
    ∧ (∃ (s : State), ∃ e7, e7 ∈ s.ocsNext (isAct 80 4) ∧ e7.snd.ocsClear e7.fst = true ∧ e7.snd.feat 23 ≠ 1)
    ∧ (∃ (s : State), ∃ e7, e7 ∈ s.ocsNext (isAct 80 4) ∧ e7.snd.ocsClear e7.fst = true ∧ e7.snd.feat 23 = 1 ∧
      e7.fst.arg % 4 ≠ 0)
    ∧ (∃ (s : State), ∃ e7, e7 ∈ s.ocsNext (isAct 80 4) ∧ e7.snd.ocsClear e7.fst = true ∧ e7.snd.feat 23 = 1 ∧
      e7.fst.arg % 4 = 0 ∧ (e7.fst.len < 4 ∨ 256 < e7.fst.len ∨ e7.fst.len % 4 ≠ 0))
    ∧ (∃ (s : State) (a : Nat), ∃ e7, e7 ∈ s.ocsNext (isAct 80 4) ∧ e7.snd.ocsClear e7.fst = true ∧
      let as : List Nat := List.map (fun i => e7.fst.arg + 4 * i) (List.range (e7.fst.len / 4)); a ∈ as ∧
      e7.snd.feat 23 = 1 ∧ e7.fst.arg % 4 = 0 ∧ 4 ≤ e7.fst.len ∧ e7.fst.len ≤ 256 ∧ e7.fst.len % 4 = 0 ∧
      (regionAt a = Region.unmapped ∨ regionAt a = Region.metadata ∨ 269418496 ≤ a ∧ a < 269434880))
    ∧ (∃ (s : State), ∃ e8, e8 ∈ s.ocsNext (isAct 80 5) ∧ e8.snd.ocsClear e8.fst = true ∧ e8.snd.feat 23 ≠ 1)
    ∧ (∃ (s : State), ∃ e8, e8 ∈ s.ocsNext (isAct 80 5) ∧ e8.snd.ocsClear e8.fst = true ∧ e8.snd.feat 23 = 1) := by
  refine ⟨?_, ?_, ?_, ?_, ?_, ?_, ?_, ?_, ?_, ?_, ?_, ?_, ?_, ?_, ?_, ?_, ?_, ?_, ?_, ?_, ?_, ?_, ?_, ?_, ?_, ?_, ?_, ?_, ?_, ?_, ?_, ?_, ?_, ?_, ?_, ?_, ?_, ?_, ?_⟩
  · refine ⟨(holding (cmdOf (.uart 5) 72 0 0 2 0 ([]) (zerosB 0)) State.reset), ?_⟩
    decide +kernel
  · refine ⟨(holding (cmdOf (.uart 5) 72 0 0 0 2 ([]) (zerosB 2)) State.reset), ?_⟩
    decide +kernel
  · refine ⟨(holding (cmdOf (.uart 5) 72 0 0 393220 0 ([]) (zerosB 0)) State.reset), ?_⟩
    decide +kernel
  · refine ⟨(holding (cmdOf (.uart 5) 72 0 0 393216 64 ([]) (zerosB 64)) State.reset), ?_⟩
    decide +kernel
  · refine ⟨(holding (cmdOf (.uart 5) 72 0 0 0 64 ([]) (zerosB 64)) State.reset), ?_⟩
    decide +kernel
  · refine ⟨(holding ({ cmdOf (.uart 5) 73 0 0 0 0 (leBytes 1 0x0) ([]) with stage := .fresh }) State.reset),
      ?_⟩
    decide +kernel
  · refine ⟨(holding ({ cmdOf (.uart 5) 73 0 0 0 0 (leBytes 1 0x0) ([]) with stage := .fresh }) ((withSlotA
      State.reset).pokeBytes 0x10060000 (anImage 0x10060000 2))), ?_⟩
    decide +kernel
  · refine ⟨(holding (cmdOf (.uart 5) 72 0 0 2 0 ([]) (zerosB 0)) State.reset), ?_⟩
    decide +kernel
  · refine ⟨((fun (s : State) => { s with ot := { s.ot with activate := 1 } }) (otUp (State.reset.setTag 3 1))),
      ?_⟩
    decide +kernel
  · refine ⟨((fun (s : State) => { s with ot := { s.ot with activate := 1 } }) (otUp State.reset)), true, ?_⟩
    decide +kernel
  · refine ⟨((fun (s : State) => { s with ot := { s.ot with activate := 2 } }) (otUp (withEntry 448 8 0 (zerosB
      16) State.reset))), ?_⟩
    decide +kernel
  · refine ⟨((fun (s : State) => { s with ot := { s.ot with activate := 2 } }) (otUp State.reset)), ?_⟩
    decide +kernel
  · refine ⟨(holding ({ cmdOf (.uart 5) 73 0 0 0 0 (leBytes 1 0x1) ([]) with stage := .fresh }) State.reset),
      ?_⟩
    decide +kernel
  · refine ⟨(holding ({ cmdOf (.uart 5) 73 0 0 0 0 (leBytes 1 0x1) ([]) with stage := .running })
      (State.reset.wr OTP_STATUS_BUSY 1)), ?_⟩
    decide +kernel
  · refine ⟨(holding ({ cmdOf (.uart 5) 73 0 0 0 0 (leBytes 1 0x1) ([]) with stage := .running }) State.reset),
      ?_⟩
    decide +kernel
  · refine ⟨((fun (s : State) => s.wr PS_STATUS_RETRACTED 1) (allOn (holding
      ({ cmdOf (.uart 5) 73 0 0 0 0 (leBytes 1 0x1) ([]) with stage := .running }) (withSlotA State.reset)))),
      0, ?_⟩
    decide +kernel
  · refine ⟨(holding ({ cmdOf (.uart 5) 80 0 0 0 0 (leBytes 2 0x600) ([]) with stage := .fresh }) State.reset),
      ?_⟩
    decide +kernel
  · refine ⟨(holding ({ cmdOf (.uart 5) 80 0 0 0 0 (leBytes 2 0x0) ([]) with stage := .fresh }) State.reset), 0,
      ?_⟩
    decide +kernel
  · refine ⟨(allOn (holding ({ cmdOf (.uart 5) 80 0 0 0 0 (leBytes 2 0x0) ([]) with stage := .fresh })
      (State.reset.wr (PWR_DOMAIN_STATUS_BIT 10) 0))), 0, ?_⟩
    decide +kernel
  · refine ⟨(allOn (holding ({ cmdOf (.uart 5) 80 0 0 0 0 (leBytes 2 0x0) ([]) with stage := .running })
      (eachPort SPN_STATUS_MEASURE_BUSY 1 State.reset))), 0, ?_⟩
    decide +kernel
  · refine ⟨(allOn (holding { cmdOf (.uart 5) 80 0 0 5 4160 (leBytes 2 0x0) ([]) with stage := .running } ((fun
      (s : State) => { s with idu := { s.idu with katDue := 0x3F } }) State.reset))), 0, ?_⟩
    decide +kernel
  · refine ⟨(holding ({ cmdOf (.uart 5) 80 0 0 0 0 (leBytes 2 0x601) ([]) with stage := .fresh }) State.reset),
      ?_⟩
    decide +kernel
  · refine ⟨(holding ({ cmdOf (.uart 5) 80 0 0 0 0 (leBytes 2 0x1) ([]) with stage := .fresh }) (State.reset.wr
      (PWR_DOMAIN_STATUS_BIT 10) 0)), 0, ?_⟩
    decide +kernel
  · refine ⟨(allOn (holding ({ cmdOf (.uart 5) 80 0 0 0 0 (leBytes 2 0x1) ([]) with stage := .fresh })
      State.reset)), 0, ?_⟩
    decide +kernel
  · refine ⟨(holding ({ cmdOf (.uart 5) 80 0 0 0 0 (leBytes 2 0x802) ([]) with stage := .fresh }) State.reset),
      ?_⟩
    decide +kernel
  · refine ⟨(holding ({ cmdOf (.uart 5) 80 0 0 0 0 (leBytes 2 0x2) ([]) with stage := .running }) (eachPort
      SPN_STATUS_MEASURE_BUSY 1 State.reset)), ?_⟩
    decide +kernel
  · refine ⟨(holding ({ cmdOf (.uart 5) 80 0 0 0 0 (leBytes 2 0x2) ([]) with stage := .running }) State.reset),
      ?_⟩
    decide +kernel
  · refine ⟨(holding ({ cmdOf (.uart 5) 80 0 0 0 0 (leBytes 2 0x2) ([]) with stage := .fresh }) State.reset),
      ?_⟩
    decide +kernel
  · refine ⟨(allOn (holding ({ cmdOf (.uart 5) 80 0 0 0 0 (leBytes 2 0x2) ([]) with stage := .fresh })
      State.reset)), ?_⟩
    decide +kernel
  · refine ⟨(holding ({ cmdOf (.uart 5) 80 0 0 0 0 (leBytes 2 0x803) ([]) with stage := .fresh }) State.reset),
      ?_⟩
    decide +kernel
  · refine ⟨(holding (cmdOf (.uart 5) 80 0 0 5 4160 (leBytes 3 0x30003) ([])) (eachPort SRV_STATUS_STATE 4
      (State.reset.pokeBytes (hdaAddr 0) (sealBoot (leBytes 4 0x48444231 ++ leBytes 2 1 ++ zerosB 138) 1 ++
      sealBoot (leBytes 4 0x48444231 ++ leBytes 2 1 ++ zerosB 138) 1 ++ sealBody (leBytes 4 0x48444232 ++
      leBytes 2 1 ++ zerosB 2 ++ leBytes 8 1000 ++ zerosB 4 ++ leBytes 4 1 ++ zerosB 5320))))), ?_⟩
    decide +kernel
  · refine ⟨(holding ({ cmdOf (.uart 5) 80 0 0 0 0 (leBytes 2 0x3) ([]) with stage := .fresh }) State.reset),
      ?_⟩
    decide +kernel
  · refine ⟨(allOn (holding ({ cmdOf (.uart 5) 80 0 0 0 0 (leBytes 2 0x3) ([]) with stage := .fresh }) (eachPort
      SRV_STATUS_STATE 4 State.reset))), ?_⟩
    decide +kernel
  · refine ⟨(holding ({ cmdOf (.uart 5) 80 0 0 0 64 (leBytes 2 0x4) ([]) with stage := .fresh }) State.reset),
      ?_⟩
    decide +kernel
  · refine ⟨(holding (cmdOf (.uart 5) 80 0 0 2 4 (leBytes 1 0x4) ([])) ((fun (s : State) =>
      { s with ot := { s.ot with feats := [(0x17, 1), (0x16, 1)] } }) State.reset)), ?_⟩
    decide +kernel
  · refine ⟨(holding (cmdOf (.uart 5) 80 0 0 0 0 (leBytes 1 0x4) ([])) ((fun (s : State) =>
      { s with ot := { s.ot with feats := [(0x17, 1), (0x16, 1)] } }) State.reset)), ?_⟩
    decide +kernel
  · refine ⟨((fun (s : State) => { s with ot := { s.ot with feats := [(23, 1)] } }) (holding (cmdOf (.uart 5)
      0x50 0 0 0x100F0000 4 [4] []) State.reset)), 0x100F0000, ?_⟩
    decide +kernel
  · refine ⟨(holding ({ cmdOf (.uart 5) 80 0 0 0 0 (leBytes 2 0x5) ([]) with stage := .fresh }) State.reset),
      ?_⟩
    decide +kernel
  · refine ⟨(holding (cmdOf (.uart 5) 80 0 0 3372220417 0 (leBytes 1 0x5) ([])) ((fun (s : State) =>
      { s with ot := { s.ot with feats := [(0x17, 1), (0x16, 1)] } }) State.reset)), ?_⟩
    decide +kernel

/-- What OcsMicrocode assumes is met, clause by clause. -/
theorem witness_OcsMicrocode :
    (∃ (s : State) (act : Fin 4), ∃ e9, e9 ∈ s.ocsNext (isAct 88 (↑act : Nat)) ∧ e9.snd.ocsClear e9.fst = true ∧
      e9.snd.feat 22 ≠ 1 ∧ True)
    ∧ (∃ (s : State), ∃ e0, e0 ∈ s.ocsNext (isAct 88 0) ∧ e0.snd.ocsClear e0.fst = true ∧ e0.snd.feat 22 = 1 ∧
      65536 < e0.fst.arg)
    ∧ (∃ (s : State), ∃ e0, e0 ∈ s.ocsNext (isAct 88 0) ∧ e0.snd.ocsClear e0.fst = true ∧ e0.snd.feat 22 = 1 ∧
      e0.fst.arg ≤ 65536 ∧ 65536 < e0.fst.arg + e0.fst.len)
    ∧ (∃ (s : State), ∃ e0, e0 ∈ s.ocsNext (isAct 88 0) ∧ e0.snd.ocsClear e0.fst = true ∧ e0.snd.feat 22 = 1 ∧
      e0.fst.arg + e0.fst.len ≤ 65536)
    ∧ (∃ (s : State), ∃ e1, e1 ∈ s.ocsNext (isAct 88 1) ∧ e1.snd.ocsClear e1.fst = true ∧ e1.snd.feat 22 = 1 ∧
      let img : List Byte := e1.snd.staged; e1.fst.stage ≠ OcsStage.running ∧ (imageOk img = false ∨ imageFree
      img = false))
    ∧ (∃ (s : State), ∃ e1, e1 ∈ s.ocsNext (isAct 88 1) ∧ e1.snd.ocsClear e1.fst = true ∧ e1.snd.feat 22 = 1 ∧
      let img : List Byte := e1.snd.staged; (e1.fst.stage = OcsStage.running ∨ imageOk img = true ∧ imageFree
      img = true) ∧ e1.snd.haltAll.allHalted = false)
    ∧ (∃ (s : State), ∃ e1, e1 ∈ s.ocsNext (isAct 88 1) ∧ e1.snd.ocsClear e1.fst = true ∧ e1.snd.feat 22 = 1 ∧
      let img : List Byte := e1.snd.staged; (e1.fst.stage = OcsStage.running ∨ imageOk img = true ∧ imageFree
      img = true) ∧ e1.snd.haltAll.allHalted = true ∧ (imageOk img = false ∨ imageFree img = false))
    ∧ (∃ (s : State), ∃ e2, e2 ∈ s.ocsNext (isAct 88 2) ∧ e2.snd.ocsClear e2.fst = true ∧ e2.snd.feat 22 = 1 ∧
      let p : Nat := e2.fst.par 21; 8 ≤ p)
    ∧ (∃ (s : State), ∃ e2, e2 ∈ s.ocsNext (isAct 88 2) ∧ e2.snd.ocsClear e2.fst = true ∧ e2.snd.feat 22 = 1 ∧
      let p : Nat := e2.fst.par 21; p < 8 ∧ e2.fst.stage = OcsStage.running ∧ e2.snd.headEntry (65 + 16 * p) =
      none)
    ∧ (∃ (s : State), ∃ e2, e2 ∈ s.ocsNext (isAct 88 2) ∧ e2.snd.ocsClear e2.fst = true ∧ e2.snd.feat 22 = 1 ∧
      let p : Nat := e2.fst.par 21; let d : List Byte := e2.fst.data; p < 8 ∧ e2.fst.stage ≠ OcsStage.running ∧
      d.length < 32)
    ∧ (∃ (s : State), ∃ e2, e2 ∈ s.ocsNext (isAct 88 2) ∧ e2.snd.ocsClear e2.fst = true ∧ e2.snd.feat 22 = 1 ∧
      let p : Nat := e2.fst.par 21; let d : List Byte := e2.fst.data; p < 8 ∧ e2.fst.stage ≠ OcsStage.running ∧
      32 ≤ d.length ∧ let taken : Bool := e2.snd.readyVols.any fun v => !(e2.snd.portMembers v p).isEmpty;
      fieldB d 2 1 % 16 < 8 ∨ taken = true)
    ∧ (∃ (s : State), ∃ e2, e2 ∈ s.ocsNext (isAct 88 2) ∧ e2.snd.ocsClear e2.fst = true ∧ e2.snd.feat 22 = 1 ∧
      let p : Nat := e2.fst.par 21; let d : List Byte := e2.fst.data; p < 8 ∧ e2.fst.stage ≠ OcsStage.running ∧
      32 ≤ d.length ∧ let taken : Bool := e2.snd.readyVols.any fun v => !(e2.snd.portMembers v p).isEmpty; 8 ≤
      fieldB d 2 1 % 16 ∧ taken = false ∧ ∃ e3, e3 ∈ requestBad d ∧ True)
    ∧ (∃ (s : State), ∃ e2, e2 ∈ s.ocsNext (isAct 88 2) ∧ e2.snd.ocsClear e2.fst = true ∧ e2.snd.feat 22 = 1 ∧
      let p : Nat := e2.fst.par 21; let d : List Byte := e2.fst.data; p < 8 ∧ e2.fst.stage ≠ OcsStage.running ∧
      32 ≤ d.length ∧ let taken : Bool := e2.snd.readyVols.any fun v => !(e2.snd.portMembers v p).isEmpty; 8 ≤
      fieldB d 2 1 % 16 ∧ taken = false ∧ requestBad d = none)
    ∧ (∃ (s : State), ∃ e2, e2 ∈ s.ocsNext (isAct 88 2) ∧ e2.snd.ocsClear e2.fst = true ∧ e2.snd.feat 22 = 1 ∧
      let p : Nat := e2.fst.par 21; p < 8 ∧ e2.fst.stage = OcsStage.running ∧ ∃ e4, e4 ∈ (e2.snd.dequeue (65 +
      16 * p)).fst ∧ True)
    ∧ (∃ (s : State), s.otRuns = true ∧
      let mine : OcsCmd → Bool := fun x => x.op == 88 && x.par 20 == 2 && x.stage == OcsStage.running;
      List.find? mine s.ot.cmds = none)
    ∧ (∃ (s : State), s.otRuns = true ∧
      let mine : OcsCmd → Bool := fun x => x.op == 88 && x.par 20 == 2 && x.stage == OcsStage.running; ∃ e5, e5
      ∈ List.find? mine s.ot.cmds ∧ True)
    ∧ (∃ (s : State), s.otRuns = false)
    ∧ (∃ (s : State), ∃ e6, e6 ∈ s.ocsNext (isAct 88 3) ∧ e6.snd.ocsClear e6.fst = true ∧ e6.snd.feat 22 = 1 ∧
      65536 < e6.fst.arg)
    ∧ (∃ (s : State), ∃ e6, e6 ∈ s.ocsNext (isAct 88 3) ∧ e6.snd.ocsClear e6.fst = true ∧ e6.snd.feat 22 = 1 ∧
      e6.fst.arg ≤ 65536 ∧ 65536 < e6.fst.arg + e6.fst.len)
    ∧ (∃ (s : State), ∃ e6, e6 ∈ s.ocsNext (isAct 88 3) ∧ e6.snd.ocsClear e6.fst = true ∧ e6.snd.feat 22 = 1 ∧
      e6.fst.arg + e6.fst.len ≤ 65536 ∧
      let x : BusOut × State := e6.snd.masterRead 0 false false false (3086942208 + e6.fst.arg) e6.fst.len;
      poisoned x.fst.data = false) := by
  refine ⟨?_, ?_, ?_, ?_, ?_, ?_, ?_, ?_, ?_, ?_, ?_, ?_, ?_, ?_, ?_, ?_, ?_, ?_, ?_, ?_⟩
  · refine ⟨(holding (cmdOf (.uart 5) 88 0 0 0 0 (leBytes 1 0x0) ([])) State.reset), 0, ?_⟩
    decide +kernel
  · refine ⟨(holding (cmdOf (.uart 5) 88 0 0 70000 0 (leBytes 1 0x0) (zerosB 0)) ((fun (s : State) =>
      { s with ot := { s.ot with feats := [(0x17, 1), (0x16, 1)] } }) State.reset)), ?_⟩
    decide +kernel
  · refine ⟨(holding (cmdOf (.uart 5) 88 0 0 65536 64 (leBytes 1 0x0) (zerosB 64)) ((fun (s : State) =>
      { s with ot := { s.ot with feats := [(0x17, 1), (0x16, 1)] } }) State.reset)), ?_⟩
    decide +kernel
  · refine ⟨(holding (cmdOf (.uart 5) 88 0 0 0 0 (leBytes 1 0x0) ([])) ((fun (s : State) =>
      { s with ot := { s.ot with feats := [(0x17, 1), (0x16, 1)] } }) State.reset)), ?_⟩
    decide +kernel
  · refine ⟨(holding ({ cmdOf (.uart 5) 88 0 0 0 0 (leBytes 1 0x1) ([]) with stage := .fresh }) ((fun (s :
      State) => { s with ot := { s.ot with feats := [(0x17, 1), (0x16, 1)] } }) State.reset)), ?_⟩
    decide +kernel
  · refine ⟨(holding ({ cmdOf (.uart 5) 88 0 0 0 0 (leBytes 1 0x1) ([]) with stage := .running }) ((fun (s :
      State) => { s with ot := { s.ot with feats := [(0x17, 1), (0x16, 1)] } }) (eachPort FMT_CTX_STATUS_STATE 1
      State.reset))), ?_⟩
    decide +kernel
  · refine ⟨(holding ({ cmdOf (.uart 5) 88 0 0 0 0 (leBytes 1 0x1) ([]) with stage := .running }) ((fun (s :
      State) => { s with ot := { s.ot with feats := [(0x17, 1), (0x16, 1)] } }) State.reset)), ?_⟩
    decide +kernel
  · refine ⟨(holding ({ cmdOf (.uart 5) 88 0 0 0 0 (leBytes 2 0x802) ([]) with stage := .fresh }) ((fun (s :
      State) => { s with ot := { s.ot with feats := [(0x17, 1), (0x16, 1)] } }) (withRing 64 8 16 1 0 (withRing
      65 24 0 0 0 State.reset)))), ?_⟩
    decide +kernel
  · refine ⟨(holding ({ cmdOf (.uart 5) 88 0 0 0 0 (leBytes 2 0x2) ([]) with stage := .running }) ((fun (s :
      State) => { s with ot := { s.ot with feats := [(0x17, 1), (0x16, 1)] } }) (withRing 64 8 16 1 0 (withRing
      65 24 0 0 0 State.reset)))), ?_⟩
    decide +kernel
  · refine ⟨(holding ({ cmdOf (.uart 5) 88 0 0 0 0 (leBytes 2 0x2) ([]) with stage := .fresh }) ((fun (s :
      State) => { s with ot := { s.ot with feats := [(0x17, 1), (0x16, 1)] } }) (withRing 64 8 16 1 0 (withRing
      65 24 0 0 0 State.reset)))), ?_⟩
    decide +kernel
  · refine ⟨(holding ({ cmdOf (.uart 5) 88 0 0 0 32 (leBytes 2 0x2) (zerosB 32) with stage := .fresh }) ((fun (s
      : State) => { s with ot := { s.ot with feats := [(0x17, 1), (0x16, 1)] } }) (withRing 64 8 16 1 0
      (withRing 65 24 0 0 0 State.reset)))), ?_⟩
    decide +kernel
  · refine ⟨(holding
      ({ cmdOf (.uart 5) 88 0 0 0 42 (leBytes 2 0x2) ([0, 0, 8, 8] ++ zerosB 6 ++ [1, 0] ++ zerosB 30) with stage := .fresh })
      ((fun (s : State) => { s with ot := { s.ot with feats := [(0x17, 1), (0x16, 1)] } }) (withRing 64 8 16 1 0
      (withRing 65 24 0 0 0 State.reset)))), ?_⟩
    decide +kernel
  · refine ⟨(holding
      ({ cmdOf (.uart 5) 88 0 0 0 32 (leBytes 2 0x2) ([0, 0, 8] ++ zerosB 7 ++ [1, 0] ++ zerosB 20) with stage := .fresh })
      ((fun (s : State) => { s with ot := { s.ot with feats := [(0x17, 1), (0x16, 1)] } }) (withRing 64 8 16 1 0
      (withRing 65 24 0 0 0 State.reset)))), ?_⟩
    decide +kernel
  · refine ⟨(holding ({ cmdOf (.uart 5) 88 0 0 0 0 (leBytes 2 0x2) ([]) with stage := .running }) ((fun (s :
      State) => { s with ot := { s.ot with feats := [(0x17, 1), (0x16, 1)] } }) (withRing 64 8 16 1 0 (withEntry
      65 24 0 (leBytes 16 0x123456789ABC) State.reset)))), ?_⟩
    decide +kernel
  · refine ⟨(holding (cmdOf (.uart 5) 88 0 0 0 0 (leBytes 1 0x0) ([])) State.reset), ?_⟩
    decide +kernel
  · refine ⟨(holding ({ cmdOf (.uart 5) 88 0 0 0 0 (leBytes 2 0x2) ([]) with stage := .running }) ((fun (s :
      State) => { s with ot := { s.ot with feats := [(0x17, 1), (0x16, 1)] } }) (withRing 64 8 16 1 0 (withRing
      65 24 0 0 0 State.reset)))), ?_⟩
    decide +kernel
  · refine ⟨State.reset, ?_⟩
    decide +kernel
  · refine ⟨(holding (cmdOf (.uart 5) 88 0 0 70000 0 (leBytes 1 0x3) ([])) ((fun (s : State) =>
      { s with ot := { s.ot with feats := [(0x17, 1), (0x16, 1)] } }) State.reset)), ?_⟩
    decide +kernel
  · refine ⟨(holding (cmdOf (.uart 5) 88 0 0 65536 64 (leBytes 1 0x3) ([])) ((fun (s : State) =>
      { s with ot := { s.ot with feats := [(0x17, 1), (0x16, 1)] } }) State.reset)), ?_⟩
    decide +kernel
  · refine ⟨(holding (cmdOf (.uart 5) 88 0 0 0 0 (leBytes 1 0x3) ([])) ((fun (s : State) =>
      { s with ot := { s.ot with feats := [(0x17, 1), (0x16, 1)] } }) State.reset)), ?_⟩
    decide +kernel

/-- What ScsiDirect assumes is met, clause by clause. -/
theorem witness_ScsiDirect :
    (∃ (s : State) (i : Instr), ∃ e7, e7 ∈ scsiServes i ∧ (s.otRuns = false ∨ s.runs 12 = false))
    ∧ (∃ (s : State) (i : Instr), ∃ e7, e7 ∈ scsiServes i ∧ s.otRuns = true ∧ s.runs 12 = true ∧ s.scsiNext e7 =
      none)
    ∧ (∃ (s : State), ∃ e9, e9 ∈ s.scsiNext (scsiOf [3]) ∧ e9.snd.lun e9.fst < 4 ∧
      let x : Nat := e9.snd.ot.sense[volOf (e9.snd.lun e9.fst)];
      let u : State := e9.snd.scsiData e9.fst ([112, 0] ++ leBytes 1 (x / 65536 % 16) ++ [0, 0, 0, 0, 10, 0, 0, 0, 0] ++ leBytes 1 (x / 256) ++ leBytes 1 x ++ (List.replicate 4 0)) (fieldB (e9.snd.cdb e9.fst) 4 1);
      u.ctxState e9.fst ≠ 1)
    ∧ (∃ (s : State), ∃ e3, e3 ∈ s.scsiNext (scsiOf [30]) ∧ True)
    ∧ (∃ (s : State), ∃ e6, e6 ∈ s.scsiNext (scsiOf [160]) ∧ True)
    ∧ (∃ (s : State), ∃ e7, e7 ∈ s.scsiNext scsiOther ∧ e7.snd.usb.ctx[e7.fst].task = false)
    ∧ (∃ (s : State), ∃ e7, e7 ∈ s.scsiNext scsiOther ∧ e7.snd.usb.ctx[e7.fst].task = true ∧ fieldB
      e7.snd.usb.ctx[e7.fst].cmd 4 1 ≠ 1)
    ∧ (∃ (s : State), ∃ e7, e7 ∈ s.scsiNext scsiOther ∧ e7.snd.usb.ctx[e7.fst].task = true ∧ fieldB
      e7.snd.usb.ctx[e7.fst].cmd 4 1 = 1 ∧
      let named : Fin 16 → Bool := fun x => e7.snd.ctxState x != 0 && !e7.snd.usb.ctx[x].task && e7.snd.usb.ctx[x].hq.isSome && e7.snd.rd (USB_MSE_CTX_UAS_TAG (↑x : Nat)) == beVal (sliceB e7.snd.usb.ctx[e7.fst].cmd 6 2);
      ∀ (x : Fin 16), named x = false)
    ∧ (∃ (s : State) (x : Fin 16), ∃ e7, e7 ∈ s.scsiNext scsiOther ∧ e7.snd.usb.ctx[e7.fst].task = true ∧ fieldB
      e7.snd.usb.ctx[e7.fst].cmd 4 1 = 1 ∧
      let named : Fin 16 → Bool := fun x => e7.snd.ctxState x != 0 && !e7.snd.usb.ctx[x].task && e7.snd.usb.ctx[x].hq.isSome && e7.snd.rd (USB_MSE_CTX_UAS_TAG (↑x : Nat)) == beVal (sliceB e7.snd.usb.ctx[e7.fst].cmd 6 2);
      named x = true ∧ (∀ (y : Fin 16), named y = true → y = x) ∧ ∃ e8, e8 ∈ e7.snd.usb.ctx[x].hq ∧ True)
    ∧ (∃ (w : State) (c : Fin 16) (x : Nat), w.lun c < 4 ∧ x / 2 ^ 24 = 2) := by
  refine ⟨?_, ?_, ?_, ?_, ?_, ?_, ?_, ?_, ?_, ?_⟩
  · refine ⟨State.reset, .scsiInquiry, ?_⟩
    decide +kernel
  · refine ⟨(otUp State.reset), .scsiInquiry, ?_⟩
    decide +kernel
  · refine ⟨(scsiCmd 0 (leBytes 5 0x1200000003) (withVolume State.reset)), ?_⟩
    decide +kernel
  · refine ⟨(scsiCmd 0 (leBytes 1 0x1e) (withVolume State.reset)), ?_⟩
    decide +kernel
  · refine ⟨(scsiCmd 0 (leBytes 10 0x400000000000000000a0) (withVolume State.reset)), ?_⟩
    decide +kernel
  · refine ⟨(scsiCmd 0 (leBytes 1 0x99) (withVolume State.reset)), ?_⟩
    decide +kernel
  · refine ⟨((fun (s : State) =>
      { s with usb := { s.usb with ctx := Vector.replicate 16 { task := true, cmd := zerosB 32 } } }) (scsiCmd 0
      [] State.reset)), ?_⟩
    decide +kernel
  · refine ⟨((fun (s : State) =>
      { s with usb := { s.usb with ctx := Vector.replicate 16 { task := true, cmd := ([0, 0, 0, 0, 1] ++ zerosB 27) } } })
      (scsiCmd 0 [] State.reset)), ?_⟩
    decide +kernel
  · refine ⟨((fun (s : State) =>
      { (s.wr (USB_MSE_CTX_STATE 2) 2).wr (USB_MSE_CTX_UAS_TAG 2) 0x0102 with usb := { s.usb with ctx := #v[{}, { task := true, cmd := [5, 0, 0, 1, 1, 0, 1, 2] ++ zerosB 24 }, { hq := some (3, 0) }, {}, {}, {}, {}, {}, {}, {}, {}, {}, {}, {}, {}, {}] } })
      (((usbMse 1 (otUp State.reset)).wr (USB_MSE_CTX_STATE 1) 1))), 2, ?_⟩
    decide +kernel
  · refine ⟨State.reset, 9, 33817346, ?_⟩
    decide +kernel

/-- What ScsiThroughQueue assumes is met, clause by clause. -/
theorem witness_ScsiThroughQueue :
    (∃ (s : State) (i : Instr), ∃ e9, e9 ∈ hqeServes i ∧ (s.otRuns = false ∨ s.runs 12 = false))
    ∧ (∃ (s : State) (i : Instr), ∃ e9, e9 ∈ hqeServes i ∧ s.otRuns = true ∧ s.runs 12 = true ∧ (s.finishHeld
      e9).otRuns = true ∧ (s.finishHeld e9).runs 12 = true ∧ (s.finishHeld e9).scsiNext (scsiOf e9) = none)
    ∧ (∃ (s : State) (i : Instr), ∃ e9, e9 ∈ hqeServes i ∧ s.otRuns = true ∧ s.runs 12 = true ∧ ∃ e0, e0 ∈
      (s.finishHeld e9).scsiNext (scsiOf e9) ∧ e0.snd.lunLive e0.fst = false)
    ∧ (∃ (s : State) (i : Instr), ∃ e9, e9 ∈ hqeServes i ∧ ∀ (c : Fin 16), s.ctxState c ≠ 4 ∨ opIs e9 (s.cdb c)
      = false)
    ∧ (∃ (s : State) (i : Instr) (c : Fin 16), ∃ e9, e9 ∈ hqeServes i ∧ s.ctxState c = 4 ∧ opIs e9 (s.cdb c) =
      true ∧ (∀ (d : Fin 16), d < c → s.ctxState d ≠ 4) ∧ True)
    ∧ (∃ (st : Nat), ¬st ∈ [0, 1, 2, 32, 33, 34, 35])
    ∧ (∃ (s : State), ∃ e5, e5 ∈ s.scsiNext scsiTunnel ∧ 4 ≤ e5.snd.lun e5.fst)
    ∧ (∃ (s : State), ∃ e5, e5 ∈ s.scsiNext scsiTunnel ∧ e5.snd.lun e5.fst < 4 ∧ fieldB (e5.snd.cdb e5.fst) 1 1
      = 0 ∧ let full : Bool := decide (4 ≤ (e5.snd.tunnelled none).length + e5.snd.ot.tunIn.length); full =
      true)
    ∧ (∃ (s : State), ∃ e5, e5 ∈ s.scsiNext scsiTunnel ∧ e5.snd.lun e5.fst < 4 ∧ fieldB (e5.snd.cdb e5.fst) 1 1
      = 0 ∧ let n : Nat := min (beVal (sliceB (e5.snd.cdb e5.fst) 2 4)) 8229;
      let full : Bool := decide (4 ≤ (e5.snd.tunnelled none).length + e5.snd.ot.tunIn.length); full = false ∧ n
      = 0)
    ∧ (∃ (s : State), ∃ e5, e5 ∈ s.scsiNext scsiTunnel ∧ e5.snd.lun e5.fst < 4 ∧ fieldB (e5.snd.cdb e5.fst) 1 1
      = 0 ∧ let n : Nat := min (beVal (sliceB (e5.snd.cdb e5.fst) 2 4)) 8229;
      let full : Bool := decide (4 ≤ (e5.snd.tunnelled none).length + e5.snd.ot.tunIn.length); full = false ∧ n
      ≠ 0 ∧ ∃ e6, e6 ∈ e5.snd.runBufs (ceilDiv n 4096) ∧ True)
    ∧ (∃ (s : State), ∃ e5, e5 ∈ s.scsiNext scsiTunnel ∧ e5.snd.lun e5.fst < 4 ∧ fieldB (e5.snd.cdb e5.fst) 1 1
      = 1 ∧ ∃ e7, e7 ∈ e5.snd.ot.tunnel[volOf (e5.snd.lun e5.fst)] ∧
      let u : State := e5.snd.scsiData e5.fst e7 e7.length; u.ctxState e5.fst ≠ 1)
    ∧ (∃ (s : State), ∃ e5, e5 ∈ s.scsiNext scsiTunnel ∧ e5.snd.lun e5.fst < 4 ∧ fieldB (e5.snd.cdb e5.fst) 1 1
      = 1 ∧ e5.snd.ot.tunnel[volOf (e5.snd.lun e5.fst)] = none ∧
      let waits : Bool := !(e5.snd.tunnelled (some (e5.snd.lun e5.fst))).isEmpty || e5.snd.ot.tunIn.any fun e => e.snd.fst == e5.snd.lun e5.fst;
      waits = true)
    ∧ (∃ (s : State) (timeout : Bool), ∃ e5, e5 ∈ s.scsiNext scsiTunnel ∧ e5.snd.lun e5.fst < 4 ∧ fieldB
      (e5.snd.cdb e5.fst) 1 1 = 1 ∧ e5.snd.ot.tunnel[volOf (e5.snd.lun e5.fst)] = none ∧
      let waits : Bool := !(e5.snd.tunnelled (some (e5.snd.lun e5.fst))).isEmpty || e5.snd.ot.tunIn.any fun e => e.snd.fst == e5.snd.lun e5.fst;
      waits = false ∨ timeout = true)
    ∧ (∃ (s : State), s.otRuns = false ∨ s.runs 12 = false)
    ∧ (∃ (s : State), s.otRuns = true ∧ s.runs 12 = true ∧
      let x : Option (List PByte) × State := s.otRetry.abortPump.dequeue 4; x.fst = none)
    ∧ (∃ (s : State), s.otRuns = true ∧ s.runs 12 = true ∧
      let x : Option (List PByte) × State := s.otRetry.abortPump.dequeue 4; ∃ e8, e8 ∈ x.fst ∧
      let e : List Byte := bits e8; let kind : Nat := fieldB e 0 1; let req : Nat := fieldB e 1 1; kind = 161 ∧
      req = 254)
    ∧ (∃ (s : State), s.otRuns = true ∧ s.runs 12 = true ∧
      let x : Option (List PByte) × State := s.otRetry.abortPump.dequeue 4; ∃ e8, e8 ∈ x.fst ∧
      let e : List Byte := bits e8; let kind : Nat := fieldB e 0 1; let req : Nat := fieldB e 1 1; kind = 33 ∧
      req = 255)
    ∧ (∃ (s : State), s.otRuns = true ∧ s.runs 12 = true ∧
      let x : Option (List PByte) × State := s.otRetry.abortPump.dequeue 4; ∃ e8, e8 ∈ x.fst ∧
      let e : List Byte := bits e8; let kind : Nat := fieldB e 0 1; let req : Nat := fieldB e 1 1; kind = 1 ∧
      req = 11 ∧ fieldB e 4 2 = 0 ∧ 2 ≤ fieldB e 2 2)
    ∧ (∃ (s : State), s.otRuns = true ∧ s.runs 12 = true ∧
      let x : Option (List PByte) × State := s.otRetry.abortPump.dequeue 4; ∃ e8, e8 ∈ x.fst ∧
      let e : List Byte := bits e8; let kind : Nat := fieldB e 0 1; let req : Nat := fieldB e 1 1; kind = 1 ∧
      req = 11 ∧ fieldB e 4 2 = 0 ∧ fieldB e 2 2 ≤ 1)
    ∧ (∃ (s : State), s.otRuns = true ∧ s.runs 12 = true ∧
      let x : Option (List PByte) × State := s.otRetry.abortPump.dequeue 4; ∃ e8, e8 ∈ x.fst ∧
      let e : List Byte := bits e8; let kind : Nat := fieldB e 0 1; let req : Nat := fieldB e 1 1; kind = 192 ∧
      req = 208 ∨ kind = 64 ∧ req = 209)
    ∧ (∃ (s : State), s.otRuns = true ∧ s.runs 12 = true ∧
      let x : Option (List PByte) × State := s.otRetry.abortPump.dequeue 4; ∃ e8, e8 ∈ x.fst ∧
      let e : List Byte := bits e8; let kind : Nat := fieldB e 0 1; ¬kind ∈ [161, 33, 1, 192, 64]) := by
  refine ⟨?_, ?_, ?_, ?_, ?_, ?_, ?_, ?_, ?_, ?_, ?_, ?_, ?_, ?_, ?_, ?_, ?_, ?_, ?_, ?_, ?_⟩
  · refine ⟨State.reset, .scsiRead, ?_⟩
    decide +kernel
  · refine ⟨(otUp State.reset), .scsiRead, ?_⟩
    decide +kernel
  · refine ⟨(scsiCmd 5 [0x28, 0, 0, 0, 0, 0, 0, 0, 1, 0] State.reset), .scsiRead, ?_⟩
    decide +kernel
  · refine ⟨State.reset, .scsiRead, ?_⟩
    decide +kernel
  · refine ⟨((scsiCmd 0 [0x28, 0, 0, 0, 0, 0, 0, 0, 1, 0] State.reset).wr (USB_MSE_CTX_STATE 1) 4), .scsiRead,
      1, ?_⟩
    decide +kernel
  · refine ⟨31, ?_⟩
    decide +kernel
  · refine ⟨(scsiCmd 5 (leBytes 1 0xc0) State.reset), ?_⟩
    decide +kernel
  · refine ⟨((fun (s : State) =>
      { s with ot := { s.ot with cmds := List.replicate 4 (cmdOf (.tunnel 0 1) 0x10 0 0 0 0 [] []) } }) (scsiCmd
      0 (leBytes 1 0xc0) (withVolume State.reset))), ?_⟩
    decide +kernel
  · refine ⟨(scsiCmd 0 (leBytes 1 0xc0) (withVolume State.reset)), ?_⟩
    decide +kernel
  · refine ⟨(scsiCmd 0 (leBytes 6 0x4000000000c0) (withVolume State.reset)), ?_⟩
    decide +kernel
  · refine ⟨((fun (s : State) =>
      { s with ot := { s.ot with tunnel := #v[some [1, 2, 3], some [1, 2, 3], none, none] } }) (scsiCmd 0
      (leBytes 2 0x1c0) (withVolume State.reset))), ?_⟩
    decide +kernel
  · refine ⟨((fun (s : State) =>
      { s with ot := { s.ot with cmds := List.replicate 4 (cmdOf (.tunnel 0 1) 0x10 0 0 0 0 [] []) } }) (scsiCmd
      0 (leBytes 2 0x1c0) (withVolume State.reset))), ?_⟩
    decide +kernel
  · refine ⟨(scsiCmd 0 (leBytes 2 0x1c0) (withVolume State.reset)), false, ?_⟩
    decide +kernel
  · refine ⟨State.reset, ?_⟩
    decide +kernel
  · refine ⟨(scsiCmd 0 (leBytes 9 0x20000000000000028) (withVolume State.reset)), ?_⟩
    decide +kernel
  · refine ⟨(withEntry 4 8 0 (leBytes 32 0xfea1) (otUp (usbMse 0 State.reset))), ?_⟩
    decide +kernel
  · refine ⟨(withEntry 4 8 0 (leBytes 32 0xff21) (otUp (usbMse 0 State.reset))), ?_⟩
    decide +kernel
  · refine ⟨(withEntry 4 8 0 (leBytes 32 0x20b01) (otUp (usbMse 0 State.reset))), ?_⟩
    decide +kernel
  · refine ⟨(withEntry 4 8 0 (leBytes 32 0xb01) (otUp (usbMse 0 State.reset))), ?_⟩
    decide +kernel
  · refine ⟨(withEntry 4 8 0 (leBytes 32 0xd0c0) (otUp (usbMse 0 State.reset))), ?_⟩
    decide +kernel
  · refine ⟨(withEntry 4 8 0 (leBytes 32 0x55) (otUp (usbMse 0 State.reset))), ?_⟩
    decide +kernel

/-- What StepRunsFront assumes is met, clause by clause. -/
theorem witness_StepRunsFront :
    ∃ (s : State), s.pending = [] := by
  refine ⟨State.reset, ?_⟩
  decide +kernel

/-- What StoppedClocks assumes is met, clause by clause. -/
theorem witness_StoppedClocks :
    (∃ (s : State) (p : Fin 8) (c : Instr), s.portRuns p = false ∧ c ∈ [Instr.alignEnd p, Instr.lossOfLock p,
      Instr.flyRestartTimeout p, Instr.spinupFail p, Instr.spindleStopped p, Instr.commutation p,
      Instr.pwmPeriodBoundary p, Instr.servoGateOpen p, Instr.servoLoss p, Instr.servoRecoveryTimeout p,
      Instr.seekTimeout p, Instr.loadTimeout p, Instr.unloadDone p, Instr.paFrameStart p, Instr.preampFault p,
      Instr.preampFaultClear p])
    ∧ (∃ (s : State) (p : Fin 8), s.portRuns p = false)
    ∧ (∃ (s : State) (p : Fin 8) (c : Instr), s.runs (2 + (↑p : Nat)) = false ∧ c ∈ [Instr.zoneLoadDeferred p,
      Instr.zoneLoadDone p, Instr.agcWindowUpdate p, Instr.lmsUpdate p, Instr.syncDetect p, Instr.syncMiss p,
      Instr.llrSlotFilled p, Instr.readGateOpen p, Instr.readGateClose p, Instr.writeGateOpen p,
      Instr.writeGateEnd p])
    ∧ (∃ (s : State) (p : Fin 8), s.runs (2 + (↑p : Nat)) = false)
    ∧ (∃ (s : State) (c : Instr), s.runs 14 = false ∧ c ∈ [Instr.spinupAdmit, Instr.sceDrivingUpdate,
      Instr.sceSpindleUpdate, Instr.sceInitDone])
    ∧ (∃ (s : State), s.runs 14 = false)
    ∧ (∃ (s : State) (c : Instr), s.runs 10 = false ∧ c ∈ [Instr.complOverflow, Instr.completionRetry,
      Instr.iduGovUpdate, Instr.katPeriod])
    ∧ (∃ (s : State), s.runs 10 = false)
    ∧ (∃ (s : State) (n : Fin 6) (b : Fin 65536) (pass : Bool) (c : Instr), s.runs 10 = false ∧ c ∈
      [Instr.iduDispatch n, Instr.iduJobEnd n, Instr.jobTimeout n, Instr.iduMemoryError n b,
      Instr.katWaitTimeout n, Instr.katDone n pass])
    ∧ (∃ (s : State), s.runs 1 = false)
    ∧ (∃ (s : State) (p : Fin 8) (e : Bool) (c : Instr), s.runs 1 = false ∧ c ∈ [Instr.microNext p e,
      Instr.microJump p, Instr.microJcc p, Instr.microJnc p, Instr.microCall p, Instr.microCallv p,
      Instr.microRet p, Instr.microLoop p, Instr.microPoll p, Instr.microDispatch p, Instr.microHalt p,
      Instr.illegalSeq p, Instr.stalledWordComplete p, Instr.ringStallTimeout p, Instr.contextTimerExpiry p,
      Instr.gateSlotStart p e, Instr.writePrefetchDone p, Instr.gateEnd p, Instr.fmtDmaDone p,
      Instr.safePointLimit p])
    ∧ (∃ (s : State) (req : Fin 17) (i : Bool) (h : Bool) (a : Word) (n : Fin 65) (d : List Byte) (k : Nat) (w :
      Fin 16) (c : Instr), s.runs 1 = false ∧ c ∈ [Instr.lcRead req i h a n, Instr.lcWrite req h a d,
      Instr.lcFillDone k, Instr.wcbDrain w, Instr.wcbDrainDone w, Instr.streamDetectorUpdate, Instr.lcOpDone,
      Instr.lcInitDone, Instr.reencryptionDone, Instr.authHoldEnd])
    ∧ (∃ (s : State) (usb : Bool) (tag : Fin 32) (c : Instr), s.runs 1 = false ∧ c ∈ [Instr.aeGen,
      Instr.aeSolve, Instr.aeCopy, Instr.aeCheck, Instr.aeZero, Instr.aeCommandComplete, Instr.aeComplOverflow,
      Instr.hqeDoorbell usb tag, Instr.transferDescriptor, Instr.transferDone usb, Instr.fastPathDone usb,
      Instr.firmwareCompletion, Instr.postingRelease usb, Instr.mapSyncDone, Instr.almanacRecord,
      Instr.almanacIndexBuild, Instr.sjdRequest, Instr.sjdMemberCompletion])
    ∧ (∃ (s : State) (healthy : Bool) (c : Instr), s.runs 1 = false ∧ c ∈ [Instr.bcRekey, Instr.bcDiscard,
      Instr.keyGenerate healthy, Instr.keyLoad, Instr.keyUnload, Instr.keyErase healthy, Instr.keyDelete,
      Instr.keyRewrap healthy, Instr.rootProgram healthy, Instr.keyStatus])
    ∧ (∃ (s : State) (f : Byte) (x : Byte) (type : Byte) (seq : Byte) (tr : Transport) (good : Bool) (d : List
      Byte) (c : Instr), s.runs 1 = false ∧ c ∈ [Instr.bootRomStart f x, Instr.bootRomWakePath,
      Instr.recoveryHello tr seq good d, Instr.recoveryWrite tr seq good d, Instr.recoveryVerify type tr seq
      good d, Instr.recoveryBoot tr seq good d, Instr.recoveryAlmanac tr seq good d])
    ∧ (∃ (s : State), s.pw.lostLock.getLsbD 1 = true)
    ∧ (∃ (s : State), s.runs 11 = false)
    ∧ (∃ (s : State), s.runs 12 = false)
    ∧ (∃ (s : State) (c : Instr), s.runs 13 = false ∧ c ∈ [Instr.hpMboxInEnqueue, Instr.hpMboxOutTake,
      Instr.hpSbComplete])
    ∧ (∃ (s : State), s.runs 13 = false)
    ∧ (∃ (s : State) (type : Nat) (req : Nat) (a : Nat), type < 4 ∧ req < 32 ∧ a < 2 ^ 32 ∧ s.flag
      SYS_BUS_ERR_VALID = true)
    ∧ (∃ (s : State) (type : Nat) (req : Nat) (a : Nat), type < 4 ∧ req < 32 ∧ a < 2 ^ 32 ∧ s.flag
      SYS_BUS_ERR_VALID = false ∧ True)
    ∧ (∃ (s : State) (p : Fin 8), s.regOn (SPN_CMD_WORD (↑p : Nat)).addr = false)
    ∧ (∃ (s : State), s.regOn PS_RETRACT_CLR_WORD.addr = false)
    ∧ (∃ (s : State), s.regOn HQE_MAP_SYNC_WORD.addr = false)
    ∧ (∃ (s : State), s.regOn HQE_TAG_SPLIT_WORD.addr = false)
    ∧ (∃ (s : State), s.regOn ALM_CMD_WORD.addr = false)
    ∧ (∃ (s : State), s.regOn HP_CFG_WORD.addr = false)
    ∧ (∃ (s : State) (c : Fin 24), s.regOn (CTX_CMD_WORD (↑c : Nat)).addr = false)
    ∧ (∃ (s : State) (c : Fin 24) (set : Fin 16) (w : Fin 32), s.regOn (SCE_COEF_WORD (↑c : Nat) (↑set : Nat)
      (↑w : Nat)).addr = false)
    ∧ (∃ (s : State) (c : Fin 24), s.regOn (CTX_STATE_LO_WORD (↑c : Nat)).addr = false)
    ∧ (∃ (s : State) (p : Fin 8), s.regOn (SRV_CMD_WORD (↑p : Nat)).addr = false)
    ∧ (∃ (s : State), s.regOn SYS_CORE_RUN_WORD.addr = false)
    ∧ (∃ (s : State) (p : Fin 8), s.regOn (CH_ZONE_WORD (↑p : Nat)).addr = false)
    ∧ (∃ (s : State) (p : Fin 8), s.regOn (PA_CMD_WORD (↑p : Nat)).addr = false)
    ∧ (∃ (s : State) (p : Fin 8) (i : Fin 12), s.regOn (EQ_TAP_WORD (↑p : Nat) (↑i : Nat)).addr = false)
    ∧ (∃ (s : State), s.regOn QM_DOORBELL_WORD.addr = false)
    ∧ (∃ (s : State), s.regOn QM_CONSUME_WORD.addr = false)
    ∧ (∃ (s : State) (b : Fin 3), s.regOn QM_ENQ_RING_WORD.addr = false ∧ s.mayIssue (↑b : Nat) = true)
    ∧ (∃ (s : State) (b : Fin 3), s.regOn QM_RING_CFG_WORD.addr = false ∧ s.mayIssue (↑b : Nat) = true)
    ∧ (∃ (s : State) (b : Fin 3), s.regOn QM_RING_BASE_WORD.addr = false ∧ s.mayIssue (↑b : Nat) = true)
    ∧ (∃ (s : State) (b : Fin 3), s.regOn QM_RING_CMD_WORD.addr = false ∧ s.mayIssue (↑b : Nat) = true)
    ∧ (∃ (s : State), s.regOn QM_ERR_INFO_WORD.addr = false)
    ∧ (∃ (s : State) (c : Fin 2) (dbg : Bool), s.regOn (EVC_CLAIM_WORD (↑c : Nat)).addr = false ∧ s.mayIssue (if
      dbg = true then 2 else (↑c : Nat)) = true)
    ∧ (∃ (s : State), s.regOn EVC_SW_SET_WORD.addr = false)
    ∧ (∃ (s : State), s.regOn EVC_SW_CLR_WORD.addr = false)
    ∧ (∃ (s : State) (i : Fin 128), s.regOn (EVC_SRC_CFG_WORD (↑i : Nat)).addr = false)
    ∧ (∃ (s : State), s.regOn BC_CTRL_WORD.addr = false)
    ∧ (∃ (s : State), s.regOn INT_INJECT_WORD.addr = false)
    ∧ (∃ (s : State) (p : Fin 8), s.regOn (FMT_CTX_CMD_WORD (↑p : Nat)).addr = false)
    ∧ (∃ (s : State) (i : Fin 1024), s.regOn (805847052 + 16 * (↑i : Nat)) = false)
    ∧ (∃ (s : State), s.regOn LC_OP_WORD.addr = false)
    ∧ (∃ (s : State), s.regOn LC_CTRL_WORD.addr = false)
    ∧ (∃ (s : State) (n : Fin 4), s.regOn (TIMER_LOAD_WORD (↑n : Nat)).addr = false)
    ∧ (∃ (s : State) (n : Fin 4), s.regOn (TIMER_CTRL_WORD (↑n : Nat)).addr = false)
    ∧ (∃ (s : State), s.regOn MTIME_LO_WORD.addr = false)
    ∧ (∃ (s : State) (c : Fin 2), s.regOn (WDT_KICK_WORD (↑c : Nat)).addr = false)
    ∧ (∃ (s : State) (c : Fin 2), s.regOn (WDT_CTRL_WORD (↑c : Nat)).addr = false)
    ∧ (∃ (s : State), s.regOn UART_DATA_WORD.addr = false)
    ∧ (∃ (s : State), s.regOn USB_EP0_CTL_WORD.addr = false)
    ∧ (∃ (s : State), s.regOn USB_MSE_START_WORD.addr = false)
    ∧ (∃ (s : State), s.regOn USB_MSE_FINISH_WORD.addr = false)
    ∧ (∃ (s : State), s.regOn USB_MSE_CFG_WORD.addr = false)
    ∧ (∃ (s : State), s.regOn USB_CTRL_WORD.addr = false)
    ∧ (∃ (s : State), s.regOn IDU_SLOT_ALLOC_WORD.addr = false)
    ∧ (∃ (s : State), s.regOn IDU_SLOT_RELEASE_WORD.addr = false)
    ∧ (∃ (s : State), s.regOn IDU_CMD_WORD.addr = false)
    ∧ (∃ (s : State), s.regOn LLR_WIN_DATA_WORD.addr = false) := by
  refine ⟨?_, ?_, ?_, ?_, ?_, ?_, ?_, ?_, ?_, ?_, ?_, ?_, ?_, ?_, ?_, ?_, ?_, ?_, ?_, ?_, ?_, ?_, ?_, ?_, ?_, ?_, ?_, ?_, ?_, ?_, ?_, ?_, ?_, ?_, ?_, ?_, ?_, ?_, ?_, ?_, ?_, ?_, ?_, ?_, ?_, ?_, ?_, ?_, ?_, ?_, ?_, ?_, ?_, ?_, ?_, ?_, ?_, ?_, ?_, ?_, ?_, ?_, ?_, ?_, ?_, ?_, ?_, ?_⟩
  · refine ⟨({ State.reset with pw := { State.reset.pw with lostLock := 31#5 } }), 0, (.alignEnd 0), ?_⟩
    decide +kernel
  · refine ⟨State.reset, 1, ?_⟩
    decide +kernel
  · refine ⟨({ State.reset with pw := { State.reset.pw with lostLock := 31#5 } }), 0, (.agcWindowUpdate 0), ?_⟩
    decide +kernel
  · refine ⟨State.reset, 1, ?_⟩
    decide +kernel
  · refine ⟨({ State.reset with pw := { State.reset.pw with lostLock := 31#5 } }), .sceInitDone, ?_⟩
    decide +kernel
  · refine ⟨(State.reset.wr (PWR_DOMAIN_STATUS_BIT 14) 2), ?_⟩
    decide +kernel
  · refine ⟨({ State.reset with pw := { State.reset.pw with lostLock := 31#5 } }), .katPeriod, ?_⟩
    decide +kernel
  · refine ⟨State.reset, ?_⟩
    decide +kernel
  · refine ⟨({ State.reset with pw := { State.reset.pw with lostLock := 31#5 } }), 0, 0, true, (.iduDispatch 0),
      ?_⟩
    decide +kernel
  · refine ⟨(State.reset.wr (PWR_DOMAIN_STATUS_BIT 1) 2), ?_⟩
    decide +kernel
  · refine ⟨({ State.reset with pw := { State.reset.pw with lostLock := 31#5 } }), 0, true, (.microJump 0), ?_⟩
    decide +kernel
  · refine ⟨({ State.reset with pw := { State.reset.pw with lostLock := 31#5 } }), 0, true, true, 0x80000000, 4,
      [1], 0, 0, (.wcbDrain 0), ?_⟩
    decide +kernel
  · refine ⟨({ State.reset with pw := { State.reset.pw with lostLock := 31#5 } }), true, 0, .aeCopy, ?_⟩
    decide +kernel
  · refine ⟨({ State.reset with pw := { State.reset.pw with lostLock := 31#5 } }), true, .bcRekey, ?_⟩
    decide +kernel
  · refine ⟨({ State.reset with pw := { State.reset.pw with lostLock := 31#5 } }), 0, 0, 3, 1, .uart, true, [],
      .bootRomWakePath, ?_⟩
    decide +kernel
  · refine ⟨((fun (s : State) => { s with pw := { s.pw with lostLock := 0x2#5 } }) State.reset), ?_⟩
    decide +kernel
  · refine ⟨(State.reset.wr (PWR_DOMAIN_STATUS_BIT 11) 2), ?_⟩
    decide +kernel
  · refine ⟨(State.reset.wr (PWR_DOMAIN_STATUS_BIT 12) 2), ?_⟩
    decide +kernel
  · refine ⟨({ State.reset with pw := { State.reset.pw with lostLock := 31#5 } }), .hpSbComplete, ?_⟩
    decide +kernel
  · refine ⟨({ State.reset with pw := { State.reset.pw with lostLock := 31#5 } }), ?_⟩
    decide +kernel
  · refine ⟨(State.reset.wr SYS_BUS_ERR_VALID 1), 2, 4, 4096, ?_⟩
    decide +kernel
  · refine ⟨State.reset, 0, 5, 5, ?_⟩
    decide +kernel
  · refine ⟨State.reset, 1, ?_⟩
    decide +kernel
  · refine ⟨((fun (s : State) => s.wr PWR_DOMAIN_STATUS_ON 0) State.reset), ?_⟩
    decide +kernel
  · refine ⟨((fun (s : State) => s.wr PWR_DOMAIN_STATUS_ON 0) State.reset), ?_⟩
    decide +kernel
  · refine ⟨((fun (s : State) => s.wr PWR_DOMAIN_STATUS_ON 0) State.reset), ?_⟩
    decide +kernel
  · refine ⟨((fun (s : State) => s.wr PWR_DOMAIN_STATUS_ON 0) State.reset), ?_⟩
    decide +kernel
  · refine ⟨((fun (s : State) => s.wr PWR_DOMAIN_STATUS_ON 0) State.reset), ?_⟩
    decide +kernel
  · refine ⟨((fun (s : State) => s.wr PWR_DOMAIN_STATUS_ON 0) State.reset), 17, ?_⟩
    decide +kernel
  · refine ⟨((fun (s : State) => s.wr PWR_DOMAIN_STATUS_ON 0) State.reset), 1, 1, 23, ?_⟩
    decide +kernel
  · refine ⟨((fun (s : State) => s.wr PWR_DOMAIN_STATUS_ON 0) State.reset), 17, ?_⟩
    decide +kernel
  · refine ⟨State.reset, 1, ?_⟩
    decide +kernel
  · refine ⟨((fun (s : State) => s.wr PWR_DOMAIN_STATUS_ON 0) State.reset), ?_⟩
    decide +kernel
  · refine ⟨State.reset, 1, ?_⟩
    decide +kernel
  · refine ⟨State.reset, 1, ?_⟩
    decide +kernel
  · refine ⟨State.reset, 1, 3, ?_⟩
    decide +kernel
  · refine ⟨((fun (s : State) => s.wr PWR_DOMAIN_STATUS_ON 0) State.reset), ?_⟩
    decide +kernel
  · refine ⟨((fun (s : State) => s.wr PWR_DOMAIN_STATUS_ON 0) State.reset), ?_⟩
    decide +kernel
  · refine ⟨((fun (s : State) => s.wr PWR_DOMAIN_STATUS_ON 0) State.reset), 1, ?_⟩
    decide +kernel
  · refine ⟨((fun (s : State) => s.wr PWR_DOMAIN_STATUS_ON 0) State.reset), 1, ?_⟩
    decide +kernel
  · refine ⟨((fun (s : State) => s.wr PWR_DOMAIN_STATUS_ON 0) State.reset), 1, ?_⟩
    decide +kernel
  · refine ⟨((fun (s : State) => s.wr PWR_DOMAIN_STATUS_ON 0) State.reset), 2, ?_⟩
    decide +kernel
  · refine ⟨((fun (s : State) => s.wr PWR_DOMAIN_STATUS_ON 0) State.reset), ?_⟩
    decide +kernel
  · refine ⟨((fun (s : State) => s.wr PWR_DOMAIN_STATUS_ON 0) State.reset), 1, true, ?_⟩
    decide +kernel
  · refine ⟨((fun (s : State) => s.wr PWR_DOMAIN_STATUS_ON 0) State.reset), ?_⟩
    decide +kernel
  · refine ⟨((fun (s : State) => s.wr PWR_DOMAIN_STATUS_ON 0) State.reset), ?_⟩
    decide +kernel
  · refine ⟨((fun (s : State) => s.wr PWR_DOMAIN_STATUS_ON 0) State.reset), 2, ?_⟩
    decide +kernel
  · refine ⟨((fun (s : State) => s.wr PWR_DOMAIN_STATUS_ON 0) State.reset), ?_⟩
    decide +kernel
  · refine ⟨((fun (s : State) => s.wr PWR_DOMAIN_STATUS_ON 0) State.reset), ?_⟩
    decide +kernel
  · refine ⟨((fun (s : State) => s.wr PWR_DOMAIN_STATUS_ON 0) State.reset), 2, ?_⟩
    decide +kernel
  · refine ⟨((fun (s : State) => s.wr PWR_DOMAIN_STATUS_ON 0) State.reset), 2, ?_⟩
    decide +kernel
  · refine ⟨((fun (s : State) => s.wr PWR_DOMAIN_STATUS_ON 0) State.reset), ?_⟩
    decide +kernel
  · refine ⟨((fun (s : State) => s.wr PWR_DOMAIN_STATUS_ON 0) State.reset), ?_⟩
    decide +kernel
  · refine ⟨((fun (s : State) => s.wr PWR_DOMAIN_STATUS_ON 0) State.reset), 3, ?_⟩
    decide +kernel
  · refine ⟨((fun (s : State) => s.wr PWR_DOMAIN_STATUS_ON 0) State.reset), 3, ?_⟩
    decide +kernel
  · refine ⟨((fun (s : State) => s.wr PWR_DOMAIN_STATUS_ON 0) State.reset), ?_⟩
    decide +kernel
  · refine ⟨((fun (s : State) => s.wr PWR_DOMAIN_STATUS_ON 0) State.reset), 1, ?_⟩
    decide +kernel
  · refine ⟨((fun (s : State) => s.wr PWR_DOMAIN_STATUS_ON 0) State.reset), 1, ?_⟩
    decide +kernel
  · refine ⟨((fun (s : State) => s.wr PWR_DOMAIN_STATUS_ON 0) State.reset), ?_⟩
    decide +kernel
  · refine ⟨((fun (s : State) => s.wr PWR_DOMAIN_STATUS_ON 0) State.reset), ?_⟩
    decide +kernel
  · refine ⟨((fun (s : State) => s.wr PWR_DOMAIN_STATUS_ON 0) State.reset), ?_⟩
    decide +kernel
  · refine ⟨((fun (s : State) => s.wr PWR_DOMAIN_STATUS_ON 0) State.reset), ?_⟩
    decide +kernel
  · refine ⟨((fun (s : State) => s.wr PWR_DOMAIN_STATUS_ON 0) State.reset), ?_⟩
    decide +kernel
  · refine ⟨((fun (s : State) => s.wr PWR_DOMAIN_STATUS_ON 0) State.reset), ?_⟩
    decide +kernel
  · refine ⟨State.reset, ?_⟩
    decide +kernel
  · refine ⟨State.reset, ?_⟩
    decide +kernel
  · refine ⟨State.reset, ?_⟩
    decide +kernel
  · refine ⟨State.reset, ?_⟩
    decide +kernel

/-- What MediaRequests assumes is met, clause by clause. -/
theorem witness_MediaRequests :
    (∃ (m : MediaEnd) (p : Fin 8) (sec : Nat), ∃ e9, e9 ∈ List.lookup ((↑p : Nat), sec) m.stop ∧ True)
    ∧ (∃ (s : State) (m : MediaEnd) (p : Fin 8) (sec : Nat), let k : Nat := s.sectorKey (↑p : Nat) sec;
      List.lookup ((↑p : Nat), sec) m.stop = none ∧ m.fail.contains ((↑p : Nat), sec) = false ∧ s.discAt k ≠ [])
    ∧ (∃ (s : State) (m : MediaEnd) (p : Fin 8) (sec : Nat), let k : Nat := s.sectorKey (↑p : Nat) sec;
      List.lookup ((↑p : Nat), sec) m.stop = none ∧ (m.fail.contains ((↑p : Nat), sec) = true ∨ s.discAt k =
      []))
    ∧ (∃ (s : State) (m : MediaEnd) (p : Fin 8) (sec : Nat) (q : Fin 8),
      let k : Nat := s.sectorKey (↑p : Nat) sec; List.lookup ((↑p : Nat), sec) m.stop = none ∧ (m.fail.contains
      ((↑p : Nat), sec) = true ∨ s.discAt k = []) ∧ q ≠ p)
    ∧ (∃ (m : MediaEnd) (p : Fin 8) (sec : Nat), List.lookup ((↑p : Nat), sec) m.stop = none ∧ m.cut.contains
      ((↑p : Nat), sec) = false)
    ∧ (∃ (s : State) (m : MediaEnd) (p : Fin 8) (sec : Nat) (x : Nat),
      let k : Nat := s.sectorKey (↑p : Nat) sec; List.lookup ((↑p : Nat), sec) m.stop = none ∧ m.cut.contains
      ((↑p : Nat), sec) = false ∧ x ≠ k)
    ∧ (∃ (m : MediaEnd) (p : Fin 8) (sec : Nat) (q : Fin 8), List.lookup ((↑p : Nat), sec) m.stop = none ∧
      m.cut.contains ((↑p : Nat), sec) = false ∧ q ≠ p)
    ∧ (∃ (m : MediaEnd) (p : Fin 8) (sec : Nat), List.lookup ((↑p : Nat), sec) m.stop = none ∧ m.cut.contains
      ((↑p : Nat), sec) = true)
    ∧ (∃ (m : MediaEnd) (p : Fin 8) (sec : Nat) (q : Fin 8), List.lookup ((↑p : Nat), sec) m.stop = none ∧
      m.cut.contains ((↑p : Nat), sec) = true ∧ q ≠ p) := by
  refine ⟨?_, ?_, ?_, ?_, ?_, ?_, ?_, ?_, ?_⟩
  · refine
      ⟨{ fail := [], joint := [], cut := [], stop := [((0, 0), Sys2Proof.MediaStatus.seekFail)], verify := [] },
      0, 0, ?_⟩
    decide +kernel
  · refine ⟨((fun (s : State) => { s with media := { s.media with disc := [(1, [0x21#8])] } }) (otUp
      State.reset)), { fail := [(0, 0)], joint := [], cut := [], stop := [], verify := [] }, 0, 1, ?_⟩
    decide +kernel
  · refine ⟨State.reset, { fail := [(0, 0)], joint := [], cut := [], stop := [], verify := [] }, 7, 0, ?_⟩
    decide +kernel
  · refine ⟨State.reset, { fail := [(0, 0)], joint := [], cut := [], stop := [], verify := [] }, 7, 0, 0, ?_⟩
    decide +kernel
  · refine ⟨{ fail := [(0, 0)], joint := [], cut := [], stop := [], verify := [] }, 7, 0, ?_⟩
    decide +kernel
  · refine ⟨State.reset, { fail := [], joint := [], cut := [], stop := [] }, 1, 1, 0, ?_⟩
    decide +kernel
  · refine ⟨{ fail := [(0, 0)], joint := [], cut := [], stop := [], verify := [] }, 7, 0, 0, ?_⟩
    decide +kernel
  · refine ⟨{ fail := [], joint := [], cut := [(0, 0), (1, 0), (2, 0), (3, 0)], stop := [], verify := [] }, 0,
      0, ?_⟩
    decide +kernel
  · refine ⟨{ fail := [], joint := [], cut := [(0, 0), (1, 0), (2, 0), (3, 0)], stop := [], verify := [] }, 0,
      0, 7, ?_⟩
    decide +kernel

/-- What RegionCommands assumes is met of an INIT over a region of which no line has been written. -/
theorem witness_RegionCommands_fresh : ∃ (s : State) (e : List Byte), s.headEntry 322 = some e ∧ s.cmdReady 322 323 10 = true
    ∧ s.cip.reenc = none ∧ s.cip.reencWait = [] ∧ fieldB e 2 1 = 1 ∧ fieldB e 3 5 = 0 ∧ fieldB e 24 8 = 0
    ∧ fieldB e 12 4 ≠ 0 ∧ fieldB e 8 4 + fieldB e 12 4 ≤ 229376
    ∧ ∀ x, fieldB e 8 4 ≤ x → x < fieldB e 8 4 + fieldB e 12 4 → s.major x = 0 ∨ s.windowOn (64 * x) = false := by
  have hlo : fieldB (leBytes 2 7 ++ leBytes 1 1 ++ zerosB 5 ++ leBytes 4 0 ++ leBytes 4 1 ++ zerosB 16) 8 4 = 0 := by
    decide +kernel
  have hn : fieldB (leBytes 2 7 ++ leBytes 1 1 ++ zerosB 5 ++ leBytes 4 0 ++ leBytes 4 1 ++ zerosB 16) 12 4 = 1 := by
    decide +kernel
  refine ⟨withRing 323 16 1 1 0 (withEntry 322 8 10
      (leBytes 2 7 ++ leBytes 1 1 ++ zerosB 5 ++ leBytes 4 0 ++ leBytes 4 1 ++ zerosB 16) (lcUp State.reset)),
    leBytes 2 7 ++ leBytes 1 1 ++ zerosB 5 ++ leBytes 4 0 ++ leBytes 4 1 ++ zerosB 16, by decide +kernel, by decide +kernel,
    rfl, rfl, by decide +kernel, by decide +kernel, by decide +kernel, by decide +kernel, by decide +kernel, fun x h₁ h₂ => ?_⟩
  rw [hlo] at h₁ h₂
  rw [hn] at h₂
  obtain rfl : x = 0 := by omega
  decide +kernel

/-- A boot block of two heads, two wedges and MAX_TRACK 12. -/
def twoHeads : List Byte := zerosB 68 ++ leBytes 4 (2 ^ 28 + 2 * 512) ++ zerosB 12 ++ leBytes 4 12

/-- A record body of two zones, from tracks 0 and 10, with two slots a frame and three. -/
def twoZones : List Byte :=
  zerosB 6 ++ leBytes 2 2 ++ zerosB 88 ++ leBytes 4 0 ++ [2] ++ zerosB 75 ++ leBytes 3 10 ++ [0] ++ [3]

/-- What SlotOrder assumes is met, with the first and the last slot of a user area, the first place past it, and a track
below the area. -/
theorem witness_SlotOrder : (zoneStart twoZones 0 = 0 ∧ ∀ z, z + 1 < bdZones twoZones → zoneStart twoZones z < zoneStart twoZones (z + 1))
    ∧ slotPlace twoHeads twoZones 0 = some ⟨8, 0, 0, 0⟩ ∧ slotPlace twoHeads twoZones 51 = some ⟨12, 1, 1, 2⟩
    ∧ slotPlace twoHeads twoZones 52 = none
    ∧ (bitsOf (bootImg twoHeads 16) 0 24 = 12 ∧ 1 < bootHeads twoHeads ∧ 1 < bootWedges twoHeads ∧ 1 < bdZones twoZones
      ∧ zoneStart twoZones 1 ≤ 12 ∧ 2 < zoneK twoZones 1)
    ∧ ∃ x : SlotPlace, x.track < 8 := by
  refine ⟨⟨by decide +kernel, fun z h => ?_⟩, by decide +kernel, by decide +kernel, by decide +kernel, by decide +kernel,
    ⟨7, 0, 0, 0⟩, by decide⟩
  have hz : bdZones twoZones = 2 := by decide +kernel
  obtain rfl : z = 0 := by omega
  decide +kernel

/-- What StepKeepsEventsSettled assumes is met. -/
theorem witness_StepKeepsEventsSettled : ∃ (s t : State), s.settled = true ∧ step s = .next t :=
  ⟨State.reset, State.reset, by decide +kernel, rfl⟩

/-- What StepKeepsCanonicalForm assumes is met. -/
theorem witness_StepKeepsCanonicalForm :
    ∃ (s t : State), Memory.wf s.mem = true ∧ Registers.wf s.regs = true ∧ step s = .next t :=
  ⟨State.reset, State.reset, by decide, by decide, rfl⟩

end Sys2Proof.Tests
end

section
/-! SUPPORT. The commands of the Servo Control Engine (chapter 6): which state each ends in, the stages of an update with the
frame of each, and the statement ControlEngine settled from them. -/

namespace Sys2Proof.Machine
open Sys2Proof

/-! ### The engine's registers lie in PD_SERVO -/

/-- A row whose registers lie in PD_SERVO, or outside the memories and contexts of the Servo Control Engine. -/
def RegRow.sparesScePage (r : RegRow) : Bool :=
  r.dom == .servo || decide (0x300BE000 ≤ r.addr)
    || match r.dims with
      | [] => decide (r.addr < 0x300B0000)
      | (stride, count) :: _ => decide (0 < stride ∧ r.addr + count * stride ≤ 0x300B0000)

theorem regRows_spareScePage : regRows.all RegRow.sparesScePage = true := by decide +kernel

/-- A row that holds a register of the engine's memories and contexts belongs to PD_SERVO (Table 14.4). -/
theorem RegRow.dom_of_index_scePage {r : RegRow} {a : Nat} {is : List Nat} (hr : r.sparesScePage = true)
    (hi : r.index a = some is) (lo : 0x300B0000 ≤ a) (hend : a < 0x300BE000) : r.dom = .servo := by
  obtain ⟨name, addr, dims, dom, fields⟩ := r
  simp only [RegRow.sparesScePage, Bool.or_eq_true, beq_iff_eq, decide_eq_true_eq] at hr
  simp only [RegRow.index] at hi
  split at hi
  case isFalse => simp at hi
  case isTrue hle =>
    rcases hr with (hdom | hpast) | hbefore
    · exact hdom
    · omega
    · cases dims with
      | nil =>
        have hoff : a - addr = 0 := Decidable.byContradiction fun hne => by simp [idxOf, hne] at hi
        have hlow : addr < 0x300B0000 := of_decide_eq_true hbefore
        omega
      | cons d ds =>
        obtain ⟨stride, count⟩ := d
        obtain ⟨hpos, hrowEnd⟩ : 0 < stride ∧ addr + count * stride ≤ 0x300B0000 := of_decide_eq_true hbefore
        have hlt : (a - addr) / stride < count := Decidable.byContradiction fun hge => by simp [idxOf, hge] at hi
        have hspan := (Nat.div_lt_iff_lt_mul hpos).1 hlt
        omega

theorem regDom_scePage {a : Nat} (lo : 0x300B0000 ≤ a) (hi : a < 0x300BE000) : regDom a = .servo := by
  have hmod : a % 2 ^ 36 = a := Nat.mod_eq_of_lt (by omega)
  rw [regDom, hmod]
  cases h : regAt a with
  | none =>
    have hpage : a / 0x10000 = 0x300B := by omega
    have : ¬ 0x100000000 ≤ a := by omega
    simp [pageDom, hpage, this]
  | some e =>
    obtain ⟨r, is⟩ := e
    obtain ⟨r', hmem, hrow⟩ := List.exists_of_findSome?_eq_some h
    have hidx : r'.index a = some is ∧ r' = r := by
      cases hx : r'.index a with
      | none => simp [hx] at hrow
      | some js => simp [hx] at hrow; simp [hrow]
    obtain ⟨hidx, rfl⟩ := hidx
    exact RegRow.dom_of_index_scePage (List.all_eq_true.1 regRows_spareScePage r' hmem) hidx lo hi

/-- A register of the engine's memories and contexts answers while PD_SERVO's logic runs (R634). -/
theorem State.regOn_scePage {s : State} {a : Nat} (hrun : s.runs 14 = true) (lo : 0x300B0000 ≤ a)
    (hi : a < 0x300BE000) : s.regOn a = true := by
  have hon : s.on 14 = true := by
    simp only [State.runs, Bool.and_eq_true] at hrun
    exact hrun.1
  simp [State.regOn, regDom_scePage lo hi, domId, hon]

/-! ### Contexts of the engine, and its frame -/

theorem getElem_vmod_same {α : Type} {n : Nat} (v : Vector α n) (i : Fin n) (g : α → α) :
    (vmod v i g)[i.val] = g v[i.val] := by
  simp [vmod]

theorem getElem_vmod_ne {α : Type} {n : Nat} (v : Vector α n) {i j : Fin n} (g : α → α) (h : j ≠ i) :
    (vmod v i g)[j.val] = v[j.val] := by
  have hne : i.val ≠ j.val := fun e => h (Fin.ext e.symm)
  simp [vmod, hne]

@[simp] theorem State.modCtx_sce (s : State) (c : Fin 24) (g : SceCtx → SceCtx) :
    (s.modCtx c g).sce = { s.sce with ctx := vmod s.sce.ctx c g } := (rfl)

@[simp] theorem State.rd_modCtx (s : State) (c : Fin 24) (g : SceCtx → SceCtx) (f : Fld) : (s.modCtx c g).rd f = s.rd f :=
  (rfl)

/-- `t` is `s` but for its registers, its spindles, its servos and the Servo Control Engine. -/
def State.sceFrame (s t : State) : Prop :=
  ∃ regs spn srv sce, t = { s with regs := regs, spn := spn, srv := srv, sce := sce }

theorem State.sceFrame.trans {s t u : State} (h : s.sceFrame t) (k : t.sceFrame u) : s.sceFrame u := by
  obtain ⟨_, _, _, _, rfl⟩ := h
  obtain ⟨_, _, _, _, rfl⟩ := k
  exact ⟨_, _, _, _, rfl⟩

theorem State.sceFrame_modCtx (s : State) (c : Fin 24) (g : SceCtx → SceCtx) : s.sceFrame (s.modCtx c g) :=
  ⟨_, _, _, _, rfl⟩

theorem State.sceFrame.eq {s t : State} (h : s.sceFrame t) :
    t = { s with regs := t.regs, spn := t.spn, srv := t.srv, sce := t.sce } := by
  obtain ⟨_, _, _, _, rfl⟩ := h
  rfl

theorem State.sceFrame.eq_of_srv {s t : State} (h : s.sceFrame t) (hsrv : t.srv = s.srv) :
    t = { s with regs := t.regs, spn := t.spn, sce := t.sce } := by
  obtain ⟨_, _, _, _, rfl⟩ := h
  subst hsrv
  rfl

theorem State.sceFrame.eq_of_spn_srv {s t : State} (h : s.sceFrame t) (hspn : t.spn = s.spn) (hsrv : t.srv = s.srv) :
    t = { s with regs := t.regs, sce := t.sce } := by
  obtain ⟨_, _, _, _, rfl⟩ := h
  subst hspn hsrv
  rfl

/-- `t` is `s` but for its registers. -/
def State.regsFrame (s t : State) : Prop := ∃ regs, t = { s with regs := regs }

theorem State.regsFrame_self (s : State) : s.regsFrame s := ⟨_, rfl⟩

theorem State.regsFrame.wr {s t : State} (h : s.regsFrame t) (f : Fld) (v : Nat) : s.regsFrame (t.wr f v) := by
  obtain ⟨_, rfl⟩ := h
  exact ⟨_, rfl⟩

theorem State.regsFrame.sceFrame {s t : State} (h : s.regsFrame t) : s.sceFrame t := by
  obtain ⟨_, rfl⟩ := h
  exact ⟨_, _, _, _, rfl⟩

theorem State.regsFrame.eq {s t : State} (h : s.regsFrame t) : t = { s with regs := t.regs } := by
  obtain ⟨_, rfl⟩ := h
  rfl

/-! ### The stages of an update -/

/-- What a driving update shows of a context in CTX_STATUS, CTX_IN and CTX_OUT beside its role. -/
structure DriveShown where
  mode : Nat
  radial : Nat
  set : Nat
  band : Nat
  blending : Bool
  blendK : Nat
  oldSet : Nat
  clamped : Bool
  x : Int
  y : Int

/-- A context's registers after a driving update (R262 to R274), but for SATURATED. -/
def State.showDrive (s : State) (c : Fin 24) (d : DriveShown) : State :=
  let s := (s.report c 1 d.mode d.radial d.set).wr (CTX_STATUS_BAND c) d.band
  let s := ((s.put (CTX_STATUS_BLENDING c) d.blending).wr (CTX_STATUS_BLEND_K c) d.blendK).wr (CTX_STATUS_OLD_SET c) d.oldSet
  ((s.put (CTX_STATUS_CLAMPED c) d.clamped).wrI (CTX_IN_X c) d.x).wrI (CTX_OUT_Y c) d.y

/-- The output `y` of a driving update applied: a spindle's duty, or a VCM command (R259, R274). -/
def State.applyDrive (s : State) (c : Fin 24) (mode : Nat) (y : Int) : State :=
  if ctxKind c = 2 then
    s.modSpn (ctxPort c) (fun z => { z with duty := (clampInt (s.ctxClamp c mode).1 (s.ctxClamp c mode).2 y).toNat })
  else s.vcmDrive (ctxPort c) (clampInt (s.ownClamp c mode).1 (s.ownClamp c mode).2 y)

/-- A driving update takes a pending CLEAR_STATES, applies its output, gives its context the next states, shows what it did
and notes its saturation. -/
theorem State.driveUpdate_stages (s : State) (c : Fin 24) (xin : Int) : ∃ mode y g d sat, (∀ z, (g z).tracked = false) ∧
    s.driveUpdate c xin
      = ((((s.takeClear c).applyDrive c mode y).modCtx c g).showDrive c d).noteSat c sat := by
  refine ⟨_, _, _, ⟨_, _, _, _, _, _, _, _, _, _⟩, _, ?_, rfl⟩
  intro z
  rfl

/-! A pending CLEAR_STATES taken. -/

theorem State.takeClear_eq (s : State) (c : Fin 24) :
    s.takeClear c = { s with sce := { s.sce with ctx := (s.takeClear c).sce.ctx } } := by
  unfold State.takeClear
  split <;> rfl

@[simp] theorem State.takeClear_regs (s : State) (c : Fin 24) : (s.takeClear c).regs = s.regs := by rw [takeClear_eq]
@[simp] theorem State.takeClear_spn (s : State) (c : Fin 24) : (s.takeClear c).spn = s.spn := by rw [takeClear_eq]
@[simp] theorem State.takeClear_srv (s : State) (c : Fin 24) : (s.takeClear c).srv = s.srv := by rw [takeClear_eq]
@[simp] theorem State.takeClear_queue (s : State) (c : Fin 24) : (s.takeClear c).sce.queue = s.sce.queue := by
  rw [takeClear_eq]

@[simp] theorem State.rd_takeClear (s : State) (c : Fin 24) (f : Fld) : (s.takeClear c).rd f = s.rd f := by
  simp [State.rd, State.reg]

theorem State.sceFrame_takeClear (s : State) (c : Fin 24) : s.sceFrame (s.takeClear c) :=
  ⟨_, _, _, _, s.takeClear_eq c⟩

/-- A pending CLEAR_STATES zeroes states only: the run of saturations and the blend go on (R292). -/
theorem State.takeClear_ctx_same (s : State) (c : Fin 24) :
    (s.takeClear c).sce.ctx[c].sat = s.sce.ctx[c].sat ∧ (s.takeClear c).sce.ctx[c].k = s.sce.ctx[c].k := by
  unfold State.takeClear
  split
  · simp [getElem_vmod_same]
  · exact ⟨rfl, rfl⟩

theorem State.takeClear_ctx_ne (s : State) {c d : Fin 24} (h : d ≠ c) : (s.takeClear c).sce.ctx[d] = s.sce.ctx[d] := by
  unfold State.takeClear
  split
  · simp [getElem_vmod_ne _ _ h]
  · rfl

/-! The output of a driving update. -/

theorem State.vcmDrive_eq (s : State) (p : Fin 8) (i : Int) :
    s.vcmDrive p i = { s with regs := (s.vcmDrive p i).regs, srv := (s.vcmDrive p i).srv } := by
  unfold State.vcmDrive
  split <;> rfl

theorem State.sceFrame_applyDrive (s : State) (c : Fin 24) (mode : Nat) (y : Int) : s.sceFrame (s.applyDrive c mode y) := by
  unfold State.applyDrive
  split
  · exact ⟨_, _, _, _, rfl⟩
  · exact ⟨_, _, _, _, s.vcmDrive_eq _ _⟩

@[simp] theorem State.applyDrive_sce (s : State) (c : Fin 24) (mode : Nat) (y : Int) : (s.applyDrive c mode y).sce = s.sce := by
  unfold State.applyDrive
  split
  · rfl
  · rw [vcmDrive_eq]

theorem State.applyDrive_srv (s : State) {c : Fin 24} (h : ctxKind c = 2) (mode : Nat) (y : Int) :
    (s.applyDrive c mode y).srv = s.srv := by
  simp [State.applyDrive, h]

/-- A clamped value lies between its bounds. -/
theorem clampInt_bounds {lo hi : Int} (h : lo ≤ hi) (i : Int) : lo ≤ clampInt lo hi i ∧ clampInt lo hi i ≤ hi := by
  unfold clampInt
  split
  · omega
  · split <;> omega

/-- A spindle's clamp is its duty envelope, whatever its mode: no bound is negative, and the lower is not above the upper
(R276). -/
theorem State.ctxClamp_spindle (s : State) {c : Fin 24} (h : ctxKind c = 2) (mode : Nat) : s.ctxClamp c mode
    = ((s.rd (SPN_DUTY_ENV_DUTY_MIN (ctxPort c)) : Int),
       max (s.rd (SPN_DUTY_ENV_DUTY_MIN (ctxPort c)) : Int) (s.rd (SPN_DUTY_ENV_DUTY_MAX (ctxPort c)))) := by
  simp [State.ctxClamp, State.ownClamp, h]

theorem State.applyDrive_duty (s : State) {c : Fin 24} (h : ctxKind c = 2) (mode : Nat) (y : Int) :
    (s.ctxClamp c 0).1 ≤ ((s.applyDrive c mode y).spn[ctxPort c].duty : Int)
      ∧ ((s.applyDrive c mode y).spn[ctxPort c].duty : Int) ≤ (s.ctxClamp c 0).2 := by
  have hnonneg : 0 ≤ (s.ctxClamp c 0).1 := by simp only [s.ctxClamp_spindle h]; omega
  have hordered : (s.ctxClamp c 0).1 ≤ (s.ctxClamp c 0).2 := by simp only [s.ctxClamp_spindle h]; omega
  have hb := clampInt_bounds hordered y
  have hmode : s.ctxClamp c mode = s.ctxClamp c 0 := by simp only [s.ctxClamp_spindle h]
  simp only [State.applyDrive, h, if_true, State.modSpn_spn, Fin.getElem_fin, getElem_vmod_same, hmode]
  omega

/-! What an update shows. -/

theorem State.regsFrame_report (s : State) (c : Fin 24) (role mode radial set : Nat) :
    s.regsFrame (s.report c role mode radial set) :=
  (((s.regsFrame_self.wr _ _).wr _ _).wr _ _).wr _ _

theorem State.regsFrame_showDrive (s : State) (c : Fin 24) (d : DriveShown) : s.regsFrame (s.showDrive c d) :=
  ((((((((s.regsFrame_report c 1 d.mode d.radial d.set).wr _ _).wr _ _).wr _ _).wr _ _).wr _ _).wr _ _).wr _ _)

/-- The fields that a report of a context writes. -/
def reportFields (c : Fin 24) : List Fld :=
  [CTX_STATUS_ROLE c, CTX_STATUS_MODE c, CTX_STATUS_RADIAL c, CTX_STATUS_SET c]

theorem State.keeps_report (s : State) (c : Fin 24) (role mode radial set : Nat) :
    s.keeps (s.report c role mode radial set) (reportFields c) := by
  simp [State.report, State.keeps_wr, reportFields]

theorem State.rd_report_role (s : State) (c : Fin 24) {role : Nat} (h : role < 4) (mode radial set : Nat) :
    (s.report c role mode radial set).rd (CTX_STATUS_ROLE c) = role := by
  have hkeep : (s.wr (CTX_STATUS_ROLE c) role).keeps (s.report c role mode radial set)
      [CTX_STATUS_MODE c, CTX_STATUS_RADIAL c, CTX_STATUS_SET c] := by
    simp [State.report, State.keeps_wr]
  rw [State.rd_keeps hkeep, State.rd_wr]
  · exact Nat.mod_eq_of_lt h
  · simp [CTX_STATUS_ROLE]
  · simp [CTX_STATUS_ROLE, CTX_STATUS_MODE, CTX_STATUS_RADIAL, CTX_STATUS_SET]

theorem State.rd_showDrive_role (s : State) (c : Fin 24) (d : DriveShown) :
    (s.showDrive c d).rd (CTX_STATUS_ROLE c) = 1 := by
  have hkeep : (s.report c 1 d.mode d.radial d.set).keeps (s.showDrive c d)
      [CTX_STATUS_BAND c, CTX_STATUS_BLENDING c, CTX_STATUS_BLEND_K c, CTX_STATUS_OLD_SET c, CTX_STATUS_CLAMPED c, CTX_IN_X c,
       CTX_OUT_Y c] := by
    simp [State.showDrive, State.put, State.wrI, State.keeps_wr]
  rw [State.rd_keeps hkeep, State.rd_report_role _ _ (by decide)]
  simp [CTX_STATUS_ROLE, CTX_STATUS_BAND, CTX_STATUS_BLENDING, CTX_STATUS_BLEND_K, CTX_STATUS_OLD_SET, CTX_STATUS_CLAMPED,
    CTX_IN_X, CTX_OUT_Y]

/-! Saturation noted. -/

/-- The run of saturations of a context and SATURATED, both set. -/
def State.markSat (s : State) (c : Fin 24) (run : Sat) (b : Bool) : State :=
  (s.modCtx c (fun x => { x with sat := run })).put (CTX_STATUS_SATURATED c) b

/-- Noting a saturation marks it, and raises at most the event of the context's kind (R172, R277, R278). -/
theorem State.noteSat_cases (s : State) (c : Fin 24) (b : Bool) : ∃ run, s.noteSat c b = s.markSat c run b
    ∨ s.noteSat c b = ((s.markSat c run b).up (SPN_EVENT_SAT (ctxPort c))).up SYS_LOOP_SAT_SPINDLE
    ∨ s.noteSat c b = ((s.markSat c run b).setBit SCE_SAT_SAT (2 * (ctxPort c).val + ctxKind c)).up SYS_LOOP_SAT_SCE_GAIN := by
  unfold State.noteSat
  dsimp only
  generalize s.sce.ctx[c].sat.update b _ = u
  refine ⟨u.1, ?_⟩
  split
  · split
    · exact .inr (.inl rfl)
    · exact .inr (.inr rfl)
  · exact .inl rfl

/-- Noting a saturation changes registers and the context's run of saturations alone. -/
theorem State.noteSat_eq (s : State) (c : Fin 24) (b : Bool) : ∃ run, s.noteSat c b
    = { s with regs := (s.noteSat c b).regs
               sce := { s.sce with ctx := vmod s.sce.ctx c (fun x => { x with sat := run }) } } := by
  obtain ⟨run, h | h | h⟩ := s.noteSat_cases c b <;> exact ⟨run, by rw [h]; rfl⟩

theorem State.sceFrame_noteSat (s : State) (c : Fin 24) (b : Bool) : s.sceFrame (s.noteSat c b) := by
  obtain ⟨run, h⟩ := s.noteSat_eq c b
  exact ⟨_, _, _, _, h⟩

/-- The fields that noting a context's saturation may write. -/
def satFields (c : Fin 24) : List Fld :=
  [CTX_STATUS_SATURATED c, SPN_EVENT_SAT (ctxPort c), SYS_LOOP_SAT_SPINDLE, SCE_SAT_SAT, SYS_LOOP_SAT_SCE_GAIN]

theorem State.keeps_noteSat (s : State) (c : Fin 24) (b : Bool) : s.keeps (s.noteSat c b) (satFields c) := by
  obtain ⟨run, h⟩ := s.noteSat_cases c b
  have hmark : s.keeps (s.markSat c run b) (satFields c) :=
    (State.keeps_wr _ _ _ _ _ (by simp [satFields])).2 (s.keeps_self _)
  rcases h with h | h | h <;> rw [h]
  · exact hmark
  · simpa [State.up, State.keeps_wr, satFields] using hmark
  · simpa [State.up, State.setBit, State.keeps_wr, satFields] using hmark

theorem State.rd_noteSat_role (s : State) (c : Fin 24) (b : Bool) :
    (s.noteSat c b).rd (CTX_STATUS_ROLE c) = s.rd (CTX_STATUS_ROLE c) := by
  refine State.rd_keeps (s.keeps_noteSat c b) _ fun f hf haddr => ?_
  simp only [satFields, List.mem_cons, List.not_mem_nil, or_false] at hf
  have hc := c.isLt
  rcases hf with rfl | rfl | rfl | rfl | rfl
  · exact .inr (by simp [CTX_STATUS_SATURATED, CTX_STATUS_ROLE])
  all_goals
    simp [CTX_STATUS_ROLE, SPN_EVENT_SAT, SYS_LOOP_SAT_SPINDLE, SCE_SAT_SAT, SYS_LOOP_SAT_SCE_GAIN] at haddr
    omega

/-! ### A driving update -/

theorem State.sceFrame_driveUpdate (s : State) (c : Fin 24) (x : Int) : s.sceFrame (s.driveUpdate c x) := by
  obtain ⟨mode, y, g, d, sat, -, h⟩ := s.driveUpdate_stages c x
  rw [h]
  exact (s.sceFrame_takeClear c).trans <| (State.sceFrame_applyDrive _ c mode y).trans <|
    (State.sceFrame_modCtx _ c g).trans <| (State.regsFrame_showDrive _ c d).sceFrame.trans (State.sceFrame_noteSat _ c sat)

theorem State.rd_driveUpdate_role (s : State) (c : Fin 24) (x : Int) :
    (s.driveUpdate c x).rd (CTX_STATUS_ROLE c) = 1 := by
  obtain ⟨mode, y, g, d, sat, -, h⟩ := s.driveUpdate_stages c x
  rw [h, State.rd_noteSat_role, State.rd_showDrive_role]

/-- A driving update leaves the queue as it is, and of the contexts changes its own alone, which tracks no longer. -/
theorem State.driveUpdate_sce (s : State) (c : Fin 24) (x : Int) : (s.driveUpdate c x).sce.queue = s.sce.queue
    ∧ (s.driveUpdate c x).sce.ctx[c].tracked = false
    ∧ ∀ d : Fin 24, d ≠ c → (s.driveUpdate c x).sce.ctx[d] = s.sce.ctx[d] := by
  obtain ⟨mode, y, g, d, sat, hg, h⟩ := s.driveUpdate_stages c x
  obtain ⟨run, hn⟩ := State.noteSat_eq ((((s.takeClear c).applyDrive c mode y).modCtx c g).showDrive c d) c sat
  rw [h, hn, (State.regsFrame_showDrive _ c d).eq]
  refine ⟨?_, ?_, fun e he => ?_⟩
  · simp
  · simp [getElem_vmod_same, hg]
  · simpa [getElem_vmod_ne _ _ he] using s.takeClear_ctx_ne he

/-- A driving update of a spindle leaves the servos as they are and the spindle's duty inside its context's clamp. -/
theorem State.driveUpdate_spindle (s : State) {c : Fin 24} (hc : ctxKind c = 2) (x : Int) :
    (s.driveUpdate c x).srv = s.srv
    ∧ (s.ctxClamp c 0).1 ≤ ((s.driveUpdate c x).spn[ctxPort c].duty : Int)
    ∧ ((s.driveUpdate c x).spn[ctxPort c].duty : Int) ≤ (s.ctxClamp c 0).2 := by
  obtain ⟨mode, y, g, d, sat, -, h⟩ := s.driveUpdate_stages c x
  obtain ⟨run, hn⟩ := State.noteSat_eq ((((s.takeClear c).applyDrive c mode y).modCtx c g).showDrive c d) c sat
  have hclamp : (s.takeClear c).ctxClamp c 0 = s.ctxClamp c 0 := by simp [State.ctxClamp_spindle _ hc]
  rw [h, hn, (State.regsFrame_showDrive _ c d).eq, ← hclamp]
  exact ⟨(State.applyDrive_srv _ hc mode y).trans (s.takeClear_srv c), State.applyDrive_duty _ hc mode y⟩

/-! ### A tracking update -/

theorem State.sceFrame_trackUpdate (s : State) (c : Fin 24) (x u : Int) : s.sceFrame (s.trackUpdate c x u) :=
  (s.sceFrame_takeClear c).trans <| (State.regsFrame_report ..).sceFrame.trans <|
    (State.sceFrame_modCtx ..).trans (State.sceFrame_modCtx ..)

theorem State.trackUpdate_spn (s : State) (c : Fin 24) (x u : Int) : (s.trackUpdate c x u).spn = s.spn :=
  s.takeClear_spn c

theorem State.trackUpdate_srv (s : State) (c : Fin 24) (x u : Int) : (s.trackUpdate c x u).srv = s.srv :=
  s.takeClear_srv c

/-- A tracking update shows its role, and leaves BAND and BLENDING as they were (R281). -/
theorem State.rd_trackUpdate (s : State) (c : Fin 24) (x u : Int) : (s.trackUpdate c x u).rd (CTX_STATUS_ROLE c) = 2
    ∧ (s.trackUpdate c x u).rd (CTX_STATUS_BLENDING c) = s.rd (CTX_STATUS_BLENDING c)
    ∧ (s.trackUpdate c x u).rd (CTX_STATUS_BAND c) = s.rd (CTX_STATUS_BAND c) := by
  unfold State.trackUpdate State.preset
  simp only [State.rd_modCtx]
  refine ⟨State.rd_report_role _ _ (by decide) .., ?_, ?_⟩
  all_goals
    rw [State.rd_keeps (State.keeps_report _ _ _ _ _ _), State.rd_takeClear]
    simp [reportFields, CTX_STATUS_BLENDING, CTX_STATUS_BAND, CTX_STATUS_ROLE, CTX_STATUS_MODE, CTX_STATUS_RADIAL,
      CTX_STATUS_SET]

/-- A tracking update presets its context's states from the output measured, and leaves its run of saturations and its
blend as they were (R258, R281). -/
theorem State.trackUpdate_ctx (s : State) (c : Fin 24) (x u : Int) : (s.trackUpdate c x u).sce.ctx[c]
    = { m1 := u * 1048576, sat := s.sce.ctx[c].sat, k := s.sce.ctx[c].k, tracked := true
        clear := (s.takeClear c).sce.ctx[c].clear, captured := (s.takeClear c).sce.ctx[c].captured } := by
  obtain ⟨hsat, hk⟩ := s.takeClear_ctx_same c
  simp only [Fin.getElem_fin] at hsat hk
  simp [State.trackUpdate, State.preset, State.report, getElem_vmod_same, hsat, hk]

/-! ### The request served -/

theorem State.sceFrame_dropIdle (s : State) : s.sceFrame s.dropIdle := ⟨_, _, _, _, rfl⟩

theorem State.sceFrame_takeReq (s : State) (r : SceReq) : s.sceFrame (s.takeReq r) := ⟨_, _, _, _, rfl⟩

theorem State.rd_dropIdle (s : State) {f : Fld} (h : f.addr ≠ SCE_STATUS_QUEUE.addr) : s.dropIdle.rd f = s.rd f :=
  State.rd_wr_addr _ _ _ _ h

theorem State.rd_takeReq (s : State) (r : SceReq) {f : Fld} (h : f.addr ≠ SCE_STATUS_QUEUE.addr) :
    (s.takeReq r).rd f = s.rd f :=
  State.rd_wr_addr _ _ _ _ h

/-- The state in which the engine serves a request: the idle contexts' requests discarded, and the request taken. -/
def State.serving (s : State) (r : SceReq) : State := s.dropIdle.takeReq r

theorem State.sceFrame_serving (s : State) (r : SceReq) : s.sceFrame (s.serving r) :=
  s.sceFrame_dropIdle.trans (State.sceFrame_takeReq _ r)

@[simp] theorem State.serving_ctx (s : State) (r : SceReq) : (s.serving r).sce.ctx = s.sce.ctx := (rfl)
@[simp] theorem State.serving_spn (s : State) (r : SceReq) : (s.serving r).spn = s.spn := (rfl)
@[simp] theorem State.serving_srv (s : State) (r : SceReq) : (s.serving r).srv = s.srv := (rfl)

theorem State.rd_serving (s : State) (r : SceReq) {f : Fld} (h : f.addr ≠ SCE_STATUS_QUEUE.addr) :
    (s.serving r).rd f = s.rd f :=
  (State.rd_takeReq _ r h).trans (s.rd_dropIdle h)

theorem State.ctx_ne_of_mem_serving_queue (s : State) (r : SceReq) : ∀ x ∈ (s.serving r).sce.queue, x.ctx ≠ r.ctx := by
  intro x hx
  simpa using (List.mem_filter.1 hx).2

/-- A register of a port is not SCE_STATUS. -/
theorem port_addr_ne_sce_status (p : Fin 8) (o : Nat) : 0x30100000 + o + 0x10000 * p.val ≠ SCE_STATUS_QUEUE.addr := by
  simp [SCE_STATUS_QUEUE]
  omega

/-- The state in which the engine serves a tracking request: the current sensed stands in VCM_ISENSE (R258). -/
def State.sensing (s : State) (r : SceReq) (i : Int) : State :=
  (s.serving r).wrI (VCM_ISENSE_CURRENT (ctxPort (ctxOf r.ctx))) i

@[simp] theorem State.sensing_ctx (s : State) (r : SceReq) (i : Int) : (s.sensing r i).sce.ctx = s.sce.ctx := (rfl)

theorem State.sceFrame_sensing (s : State) (r : SceReq) (i : Int) : s.sceFrame (s.sensing r i) :=
  (s.sceFrame_serving r).trans (State.regsFrame_self _ |>.wr _ _).sceFrame

theorem State.rd_sensing_status (s : State) (r : SceReq) (i : Int) (c : Fin 24) {f : Fld}
    (h : f.addr = (CTX_STATUS_ROLE c).addr) : (s.sensing r i).rd f = s.rd f := by
  have hc := c.isLt
  simp only [CTX_STATUS_ROLE] at h
  have hsense : f.addr ≠ (VCM_ISENSE_CURRENT (ctxPort (ctxOf r.ctx))).addr := by
    simp [h, VCM_ISENSE_CURRENT]
    omega
  have hqueue : f.addr ≠ SCE_STATUS_QUEUE.addr := by
    simp [h, SCE_STATUS_QUEUE]
    omega
  exact (State.rd_wr_addr _ _ _ _ hsense).trans (s.rd_serving r hqueue)

theorem exec_sceDrivingUpdate {s : State} {r : SceReq} (hrun : s.runs 14 = true) (hr : s.dropIdle.pickReq 0 = some r) :
    exec .sceDrivingUpdate s = .next (settle ((s.serving r).driveUpdate (ctxOf r.ctx) r.x)) := by
  show execSceDrivingUpdate s = _
  simp [execSceDrivingUpdate, State.sceRun, hrun, hr, fin, State.serving]

theorem exec_sceSpindleUpdate {s : State} {r : SceReq} (hrun : s.runs 14 = true) (htop : s.dropIdle.topClass = some 1)
    (hr : s.dropIdle.pickReq 1 = some r) :
    exec .sceSpindleUpdate s = .next (settle ((s.serving r).driveUpdate (ctxOf r.ctx) r.x)) := by
  show execSceSpindleUpdate s = _
  simp [execSceSpindleUpdate, State.sceRun, hrun, htop, hr, fin, State.serving]

theorem exec_sceTrackingUpdate {s : State} {r : SceReq} (sense : Word) (hrun : s.runs 14 = true)
    (htop : s.dropIdle.topClass = some 2) (hr : s.dropIdle.pickReq 2 = some r) (hvcm : ctxKind (ctxOf r.ctx) ≠ 2) :
    exec (.sceTrackingUpdate sense) s
      = .next (settle ((s.sensing r (signedOf 16 sense.toNat)).trackUpdate (ctxOf r.ctx) r.x (signedOf 16 sense.toNat))) := by
  show execSceTrackingUpdate sense s = _
  simp [execSceTrackingUpdate, State.sceRun, hrun, htop, hr, hvcm, fin, State.serving, State.sensing]

/-! ### Initialisation, CLEAR_STATES, coefficients and the capture of a state -/

theorem State.sceReady_done {s : State} (h : s.flag SCE_STATUS_INIT_DONE = true) : s.sceReady = s := by
  simp [State.sceReady, h]

theorem exec_sceInitDone {s : State} (hrun : s.runs 14 = true) : exec .sceInitDone s = .next (settle s.sceReady) := by
  show execSceInitDone s = _
  simp [execSceInitDone, hrun, fin]

theorem State.sceReady_fresh {s : State} (h : s.rd SCE_STATUS_INIT_DONE = 0) :
    s.sceReady = s.sceClear.up SCE_STATUS_INIT_DONE := by
  simp [State.sceReady, State.flag, h]

theorem State.reg_sceClear (s : State) (a : Nat) :
    s.sceClear.reg a = if 0x300B0000 ≤ a ∧ a < 0x300BC600 then regReset a else s.reg a := by
  simp [State.reg, State.sceClear, smGet_smDrop]

/-- Initialisation writes the registers of the engine's memories and SCE_STATUS alone (R288). -/
theorem State.keepsOutside_sceReady {s : State} (h : s.rd SCE_STATUS_INIT_DONE = 0) :
    s.keepsOutside s.sceReady [(0x300B0000, 0x300BC600), fldReg SCE_STATUS_INIT_DONE] := by
  intro a ha
  simp only [inRanges, fldReg, or_false, not_or] at ha
  rw [s.sceReady_fresh h, State.up, State.reg_wr_ne _ _ _ _ (by omega), State.reg_sceClear, if_neg ha.1]

theorem State.reg_sceReady {s : State} (h : s.rd SCE_STATUS_INIT_DONE = 0) {a : Nat} (lo : 0x300B0000 ≤ a)
    (hi : a < 0x300BC600) : s.sceReady.reg a = regReset a := by
  have hne : a ≠ SCE_STATUS_INIT_DONE.addr := by simp [SCE_STATUS_INIT_DONE]; omega
  rw [s.sceReady_fresh h, State.up, State.reg_wr_ne _ _ _ _ hne, State.reg_sceClear, if_pos ⟨lo, hi⟩]

theorem exec_clearStates {s : State} (hrun : s.runs 14 = true) (c : Fin 24) :
    exec (.clearStates c) s = .next (settle (s.modCtx c (fun t => { t with clear := true }))) := by
  have hon : s.regOn (CTX_CMD_WORD c).addr = true := by
    have := c.isLt
    apply State.regOn_scePage hrun <;> simp [CTX_CMD_WORD] <;> omega
  show execClearStates c s = _
  simp [execClearStates, State.regCmd, State.regCmdBy, hon, fin]

theorem exec_coefficientWrite {s : State} (hrun : s.runs 14 = true) (c : Fin 24) (set : Fin 16) (w : Fin 32) (v : Word) :
    exec (.coefficientWrite c set w v) s = .next (settle (s.coefWrite c set w v)) := by
  have hon : s.regOn (SCE_COEF_WORD c set w).addr = true := by
    have := c.isLt
    have := set.isLt
    have := w.isLt
    apply State.regOn_scePage hrun <;> simp [SCE_COEF_WORD] <;> omega
  show execCoefficientWrite c set w v s = _
  simp [execCoefficientWrite, State.regCmd, State.regCmdBy, hon, fin]

theorem exec_stateCaptureRead {s : State} (hrun : s.runs 14 = true) (c : Fin 24) :
    exec (.stateCaptureRead c) s = .next (settle (s.captureState c)) := by
  have hon : s.regOn (CTX_STATE_LO_WORD c).addr = true := by
    have := c.isLt
    apply State.regOn_scePage hrun <;> simp [CTX_STATE_LO_WORD] <;> omega
  show execStateCaptureRead c s = _
  simp [execStateCaptureRead, State.regAsk, hon, fin]

/-- Whether a context drives with a set, or blends from it, when one of its coefficients is written (R290). -/
def State.liveSet (s : State) (c : Fin 24) (set : Fin 16) : Bool :=
  s.role c == 1 && (s.rd (CTX_STATUS_SET c) == set.val
    || (s.flag (CTX_STATUS_BLENDING c) && s.rd (CTX_STATUS_OLD_SET c) == set.val))

/-- A coefficient stored as 24 bits, its sign extended (R290). -/
def State.storeCoef (s : State) (c : Fin 24) (set : Fin 16) (w : Fin 32) (v : Word) : State :=
  s.wr (SCE_COEF_WORD c set w) (unsignedOf 32 (signedOf 24 v.toNat))

theorem State.coefWrite_eq {s : State} (hdone : s.flag SCE_STATUS_INIT_DONE = true) (c : Fin 24) (set : Fin 16) {w : Fin 32}
    (hw : w.val < 18) (hcfg : w.val ≠ 7) (v : Word) : s.coefWrite c set w v
      = if s.liveSet c set then (s.storeCoef c set w v).setBit SCE_LIVE_WRITE_CTX c else s.storeCoef c set w v := by
  simp [State.coefWrite, s.sceReady_done hdone, hw, hcfg, State.liveSet, State.storeCoef]

/-- The low bits of a field written. -/
theorem getF_putF_low (w : Word) {lo m n : Nat} (v : Nat) (h : lo + n ≤ 32) (hm : m ≤ n) :
    getF (putF w lo n v) lo m = v % 2 ^ m := by
  apply Nat.eq_of_testBit_eq
  intro i
  rw [testBit_getF, Nat.testBit_mod_two_pow]
  by_cases hi : i < m
  · rw [getLsbD_putF _ _ _ _ _ (by omega), if_pos (by omega)]
    simp
  · simp [hi]

/-- A 24-bit value reads back from the low 24 bits of its 32. -/
theorem signedOf_unsignedOf_signedOf (n : Nat) : signedOf 24 (unsignedOf 32 (signedOf 24 n)) = signedOf 24 n := by
  simp only [signedOf, unsignedOf, Nat.reducePow, Nat.reduceSub]
  split <;> split <;> omega

theorem State.coef_storeCoef (s : State) (c : Fin 24) (set : Fin 16) (w : Fin 32) (v : Word) :
    (s.storeCoef c set w v).coef c set w = signedOf 24 v.toNat := by
  have hrd : (s.storeCoef c set w v).rd (SCE_COEF_COEF c set w) = unsignedOf 32 (signedOf 24 v.toNat) % 2 ^ 24 := by
    have haddr : (SCE_COEF_COEF c set w).addr = (SCE_COEF_WORD c set w).addr := rfl
    rw [State.rd, State.storeCoef, State.reg_wr, if_pos haddr]
    exact getF_putF_low (s.reg _) (m := 24) (n := 32) _ (by simp [SCE_COEF_WORD]) (by decide)
  have hmod (u : Nat) : signedOf 24 (u % 2 ^ 24) = signedOf 24 u := by simp [signedOf]
  show signedOf 24 ((s.storeCoef c set w v).rd (SCE_COEF_COEF c set w)) = _
  rw [hrd, hmod, signedOf_unsignedOf_signedOf]

theorem coef_addr_ne_live (c : Fin 24) (set : Fin 16) (w : Fin 32) :
    (SCE_COEF_COEF c set w).addr ≠ SCE_LIVE_WRITE_CTX.addr := by
  have := c.isLt
  have := set.isLt
  have := w.isLt
  simp [SCE_COEF_COEF, SCE_LIVE_WRITE_CTX]
  omega

theorem State.bit_setBit_live (s : State) (c : Fin 24) : (s.setBit SCE_LIVE_WRITE_CTX c).bit SCE_LIVE_WRITE_CTX c = true := by
  rw [State.bit, State.setBit, State.rd_wr _ _ _ (by decide), Nat.testBit_mod_two_pow]
  simp [SCE_LIVE_WRITE_CTX]

/-- A coefficient written reads back as signed 24 bits. -/
theorem State.coef_coefWrite {s : State} (hdone : s.flag SCE_STATUS_INIT_DONE = true) (c : Fin 24) (set : Fin 16)
    {w : Fin 32} (hw : w.val < 18) (hcfg : w.val ≠ 7) (v : Word) :
    (s.coefWrite c set w v).coef c set w = signedOf 24 v.toNat := by
  rw [State.coefWrite_eq hdone c set hw hcfg]
  split
  · rw [State.coef, State.rdI, State.setBit, State.rd_wr_addr _ _ _ _ (coef_addr_ne_live c set w)]
    exact s.coef_storeCoef c set w v
  · exact s.coef_storeCoef c set w v

theorem State.coefWrite_notes_live {s : State} (hdone : s.flag SCE_STATUS_INIT_DONE = true) (c : Fin 24) (set : Fin 16)
    {w : Fin 32} (hw : w.val < 18) (hcfg : w.val ≠ 7) (v : Word) (hrole : s.role c = 1)
    (hset : s.rd (CTX_STATUS_SET c) = set.val) : (s.coefWrite c set w v).bit SCE_LIVE_WRITE_CTX c = true := by
  have hlive : s.liveSet c set = true := by simp [State.liveSet, hrole, hset]
  rw [State.coefWrite_eq hdone c set hw hcfg, if_pos hlive]
  exact State.bit_setBit_live _ c

theorem State.keeps_coefWrite_idle {s : State} (hdone : s.flag SCE_STATUS_INIT_DONE = true) (c : Fin 24) (set : Fin 16)
    {w : Fin 32} (hw : w.val < 18) (hcfg : w.val ≠ 7) (v : Word) (hrole : s.role c ≠ 1) :
    s.keeps (s.coefWrite c set w v) [SCE_COEF_WORD c set w] := by
  have hlive : ¬ s.liveSet c set = true := by simp [State.liveSet, hrole]
  rw [State.coefWrite_eq hdone c set hw hcfg, if_neg hlive]
  simp [State.storeCoef, State.keeps_wr]

theorem State.keeps_coefWrite {s : State} (hdone : s.flag SCE_STATUS_INIT_DONE = true) (c : Fin 24) (set : Fin 16)
    {w : Fin 32} (hw : w.val < 18) (hcfg : w.val ≠ 7) (v : Word) :
    s.keeps (s.coefWrite c set w v) [SCE_COEF_WORD c set w, SCE_LIVE_WRITE_CTX] := by
  rw [State.coefWrite_eq hdone c set hw hcfg]
  split <;> simp [State.setBit, State.storeCoef, State.keeps_wr]

theorem State.regsFrame_coefWrite {s : State} (hdone : s.flag SCE_STATUS_INIT_DONE = true) (c : Fin 24) (set : Fin 16)
    {w : Fin 32} (hw : w.val < 18) (hcfg : w.val ≠ 7) (v : Word) : s.regsFrame (s.coefWrite c set w v) := by
  rw [State.coefWrite_eq hdone c set hw hcfg]
  split <;> exact ⟨_, rfl⟩

theorem ctx_state_lo_addr_ne_hi (c : Fin 24) : (CTX_STATE_LO_LO c).addr ≠ (CTX_STATE_HI_WORD c).addr := by
  simp [CTX_STATE_LO_LO, CTX_STATE_HI_WORD]

/-- CTX_STATE_LO and CTX_STATE_HI show the two halves of the state captured (R293). -/
theorem State.rd_captureState {s : State} (hdone : s.flag SCE_STATUS_INIT_DONE = true) (c : Fin 24) :
    (s.captureState c).rd (CTX_STATE_LO_LO c)
        = unsignedOf 64 (s.sce.ctx[c].pick (s.rd (CTX_STATE_IDX_IDX c))) % 2 ^ 32
      ∧ (s.captureState c).rd (CTX_STATE_HI_WORD c)
        = unsignedOf 64 (s.sce.ctx[c].pick (s.rd (CTX_STATE_IDX_IDX c))) / 2 ^ 32 % 2 ^ 32 := by
  simp only [State.captureState, s.sceReady_done hdone, State.rd_modCtx]
  constructor
  · rw [State.rd_wr_addr _ _ _ _ (ctx_state_lo_addr_ne_hi c)]
    exact State.rd_wr _ _ _ (by simp [CTX_STATE_LO_LO])
  · exact State.rd_wr _ _ _ (by simp [CTX_STATE_HI_WORD])

theorem State.keeps_captureState {s : State} (hdone : s.flag SCE_STATUS_INIT_DONE = true) (c : Fin 24) :
    s.keeps (s.captureState c) [CTX_STATE_LO_LO c, CTX_STATE_HI_WORD c] := by
  simp only [State.captureState, s.sceReady_done hdone]
  rw [State.keeps_congr _ _ _ _ (State.modCtx_regs ..)]
  simp [State.keeps_wr]

theorem State.captureState_eq {s : State} (hdone : s.flag SCE_STATUS_INIT_DONE = true) (c : Fin 24) :
    s.captureState c = { s with regs := (s.captureState c).regs, sce := (s.captureState c).sce } := by
  simp only [State.captureState, s.sceReady_done hdone]
  rfl

/-- Settles O8: each command ends in one named operation of the engine, whose laws above give the clause. -/
theorem controlEngine : Obligations.ControlEngine := by
  unfold Obligations.ControlEngine
  intro s hrun
  refine ⟨fun r hr => ?driving, fun r htop hr hkind => ?spindle, fun r sense htop hr hkind => ?tracking, fun hdone => ?again,
    fun hfresh => ?init, fun c => ?clear, fun c set w v hdone hw hcfg => ?coefficient, fun c hdone => ?capture⟩
  case driving =>
    obtain ⟨hqueue, htracked, hothers⟩ := (s.serving r).driveUpdate_sce (ctxOf r.ctx) r.x
    refine ⟨_, exec_sceDrivingUpdate hrun hr, State.rd_driveUpdate_role .., ?_, htracked, hothers,
      ((s.sceFrame_serving r).trans (State.sceFrame_driveUpdate ..)).eq⟩
    rw [hqueue]
    exact s.ctx_ne_of_mem_serving_queue r
  case spindle =>
    obtain ⟨hqueue, -, -⟩ := (s.serving r).driveUpdate_sce (ctxOf r.ctx) r.x
    obtain ⟨hsrv, hlo, hhi⟩ := (s.serving r).driveUpdate_spindle hkind r.x
    have hclamp : (s.serving r).ctxClamp (ctxOf r.ctx) 0 = s.ctxClamp (ctxOf r.ctx) 0 := by
      rw [State.ctxClamp_spindle _ hkind, State.ctxClamp_spindle _ hkind,
        State.rd_serving _ _ (port_addr_ne_sce_status _ 0x424), State.rd_serving _ _ (port_addr_ne_sce_status _ 0x424)]
    rw [hclamp] at hlo hhi
    refine ⟨_, exec_sceSpindleUpdate hrun htop hr, State.rd_driveUpdate_role .., hhi, hlo, ?_,
      ((s.sceFrame_serving r).trans (State.sceFrame_driveUpdate ..)).eq_of_srv hsrv⟩
    rw [hqueue]
    exact s.ctx_ne_of_mem_serving_queue r
  case tracking =>
    obtain ⟨hrole, hblending, hband⟩ :=
      (s.sensing r (signedOf 16 sense.toNat)).rd_trackUpdate (ctxOf r.ctx) r.x (signedOf 16 sense.toNat)
    have hctx := (s.sensing r (signedOf 16 sense.toNat)).trackUpdate_ctx (ctxOf r.ctx) r.x (signedOf 16 sense.toNat)
    refine ⟨_, exec_sceTrackingUpdate sense hrun htop hr hkind, hrole, hblending.trans (s.rd_sensing_status _ _ _ rfl),
      hband.trans (s.rd_sensing_status _ _ _ rfl), ?_, ?_, ?_, ?_, ?_, ?_, ?_,
      ((s.sceFrame_sensing r _).trans (State.sceFrame_trackUpdate ..)).eq_of_spn_srv (State.trackUpdate_spn ..)
        (State.trackUpdate_srv ..)⟩
    all_goals simp only [hctx, State.sensing_ctx]
  case again => rw [exec_sceInitDone hrun, State.sceReady_done (by simp [State.flag, hdone])]
  case init =>
    refine ⟨_, exec_sceInitDone hrun, ?_, fun a lo hi => State.reg_sceReady hfresh lo hi, fun c => ?_,
      State.keepsOutside_sceReady hfresh, ?_⟩
    all_goals rw [State.sceReady_fresh hfresh]
    · exact State.rd_wr _ _ _ (by decide)
    · simp [State.sceClear]
    · rfl
  case clear =>
    refine ⟨_, exec_clearStates hrun c, ?_, fun d hd => ?_, rfl⟩
    · simp [getElem_vmod_same]
    · simp [getElem_vmod_ne _ _ hd]
  case coefficient =>
    exact ⟨_, exec_coefficientWrite hrun c set w v, State.coef_coefWrite hdone c set hw hcfg v,
      State.coefWrite_notes_live hdone c set hw hcfg v, State.keeps_coefWrite_idle hdone c set hw hcfg v,
      State.keeps_coefWrite hdone c set hw hcfg v, (State.regsFrame_coefWrite hdone c set hw hcfg v).eq⟩
  case capture =>
    exact ⟨_, exec_stateCaptureRead hrun c, State.rd_captureState hdone c, State.keeps_captureState hdone c,
      State.captureState_eq hdone c⟩

end Sys2Proof.Machine
end

section
/-! SUPPORT. The statement IduSlots (chapter 8) refuted: its frames of a posted completion leave out the cores' reservations,
which a write by the QM to their block ends (R626). -/

namespace Sys2Proof.Machine
open Sys2Proof

/-- A single held completion whose ring has room is pushed onto it, and nothing stays held (R390). -/
theorem exec_completionRetry_single {s : State} {r : Nat} {e : List Byte} (hrun : s.runs 10 = true)
    (hsleep : s.pw.sleep ≠ .idle) (hheld : s.idu.held = [(r, e)]) (htest : s.enqTest r = .ok) :
    exec .completionRetry s = .next (settle ((s.push r (clean e)).modIdu (fun u => { u with held := [] }))) := by
  show execCompletionRetry s = _
  simp [execCompletionRetry, hrun, hheld, retryHeld, s.takenWake_awake r hsleep, State.enqueue, State.enqueueP, htest, fin]

/-- Two states that the end of a command makes equal, both awake, have the same cores. -/
theorem core_eq_of_settle_eq {s t : State} (hs : s.awake = true) (ht : t.awake = true) (h : settle s = settle t) :
    s.core = t.core := by
  rw [← settle_core s hs, ← settle_core t ht, h]

/-- A completion waits for ring 200, which has room, and Core A holds a reservation on the block of the ring's next entry,
as CORE_LR at 0x2000_0200 sets it (R625, R626). -/
def reservedSlot : State :=
  { State.reset.wr PWR_DOMAIN_STATUS_ON 0x7FFF with
    rings := [(200, { base := 8, consumer := 1, en := true })]
    idu := { held := [(200, zerosB 16)] } }.reserve 0 0x20000200

/-- The state in which COMPLETION_RETRY has posted that completion. -/
def reservedSlotPosted : State :=
  (reservedSlot.push 200 (clean (zerosB 16))).modIdu (fun u => { u with held := [] })

theorem reservedSlotPosted_awake : reservedSlotPosted.awake = true := by decide +kernel

theorem reservedSlotPosted_resv : reservedSlotPosted.core[0].resv = none := by decide +kernel

theorem exec_completionRetry_reservedSlot : exec .completionRetry reservedSlot = .next (settle reservedSlotPosted) :=
  exec_completionRetry_single (by decide +kernel) (by decide) rfl (by decide)

theorem reservedSlot_ringWake : reservedSlot.ringWake 200 = reservedSlot := State.ringWake_awake _ _ (by decide)

/-- Refutes O12: the frame of COMPLETION_RETRY keeps the cores, but in `reservedSlot` the completion posted on ring 200 ends
Core A's reservation on the entry's block (R626). -/
theorem not_iduSlots : ¬ Obligations.IduSlots := by
  unfold Obligations.IduSlots
  intro h
  obtain ⟨_, _, _, _, _, _, _, _, _, _, _, _, hretry, _⟩ := h reservedSlot (by decide +kernel)
  obtain ⟨t, hexec, -, -, -, hframe⟩ := hretry 200 (zerosB 16) rfl (by decide) (by decide)
  rw [reservedSlot_ringWake] at hframe
  have hsettle : settle reservedSlotPosted = settle t :=
    Host.Outcome.next.inj (exec_completionRetry_reservedSlot.symm.trans hexec)
  have hawake : t.awake = true := by rw [hframe]; rfl
  have hkept : t.core = reservedSlot.core := by rw [hframe]
  have hcore : reservedSlotPosted.core = reservedSlot.core :=
    (core_eq_of_settle_eq reservedSlotPosted_awake hawake hsettle).trans hkept
  have hheld : reservedSlot.core[0].resv = none := by rw [← hcore]; exact reservedSlotPosted_resv
  exact absurd hheld (by decide)

end Sys2Proof.Machine
end

section
/-! SUPPORT. The statement RingCommands (chapter 13) refuted: its frame of a hardware enqueue leaves out the cores'
reservations, which a write by the QM to their block ends (R626). -/

namespace Sys2Proof.Machine
open Sys2Proof

/-- Outside IDLE, a hardware enqueue that its ring takes ends in the push of its entry (R591). -/
theorem exec_qmHardwareEnqueue_ok {s : State} {ring : Fin 1024} (e : List Byte) (hlock : s.pw.lostLock.getLsbD 1 = false)
    (hsleep : s.pw.sleep ≠ .idle) (htest : s.enqTest ring = .ok) :
    exec (.qmHardwareEnqueue ring e) s = .next (settle (s.push ring (clean e))) := by
  show execQmHardwareEnqueue ring e s = _
  simp only [execQmHardwareEnqueue, hlock, Bool.not_false, State.when_true, s.enqWake_awake _ hsleep, State.post,
    State.enqueue, State.enqueueP, htest, fin]

/-- The state in which QM_HARDWARE_ENQUEUE has posted an entry on ring 200 of `reservedSlot`. -/
def reservedSlotPushed : State := reservedSlot.push 200 (clean (zerosB 16))

theorem reservedSlotPushed_awake : reservedSlotPushed.awake = true := by decide +kernel

theorem reservedSlotPushed_resv : reservedSlotPushed.core[0].resv = none := by decide +kernel

theorem exec_qmHardwareEnqueue_reservedSlot :
    exec (.qmHardwareEnqueue 200 (zerosB 16)) reservedSlot = .next (settle reservedSlotPushed) :=
  exec_qmHardwareEnqueue_ok (zerosB 16) (by decide) (by decide) (by decide)

/-- Refutes O17: the frame of QM_HARDWARE_ENQUEUE keeps the cores, but in `reservedSlot` the entry posted on ring 200 ends
Core A's reservation on the entry's block (R626). -/
theorem not_ringCommands : ¬ Obligations.RingCommands := by
  unfold Obligations.RingCommands
  intro h
  obtain ⟨_, _, henqueue, _⟩ := h reservedSlot
  obtain ⟨htaken, _⟩ := henqueue 200 (zerosB 16)
  obtain ⟨t, hexec, -, -, hframe⟩ := htaken (by decide) (by decide) (by decide)
  have hsettle : settle reservedSlotPushed = settle t :=
    Host.Outcome.next.inj (exec_qmHardwareEnqueue_reservedSlot.symm.trans hexec)
  replace hframe : t = { reservedSlot with
      regs := t.regs, mem := t.mem, ecc := t.ecc, rings := t.rings, memDue := t.memDue } :=
    reservedSlot_ringWake ▸ hframe
  have hawake : t.awake = true := by rw [hframe]; rfl
  have hkept : t.core = reservedSlot.core := by rw [hframe]
  have hcore : reservedSlotPushed.core = reservedSlot.core :=
    (core_eq_of_settle_eq reservedSlotPushed_awake hawake hsettle).trans hkept
  have hheld : reservedSlot.core[0].resv = none := by rw [← hcore]; exact reservedSlotPushed_resv
  exact absurd hheld (by decide)

end Sys2Proof.Machine
end

section
/-! SUPPORT. The statement EventCommands (chapter 13) refuted: its frame of a claim leaves out the wake event that the claim
itself brings where the Event Controller has not yet been settled (R612). -/

namespace Sys2Proof.Machine
open Sys2Proof

theorem State.ringsWake_evc (s : State) (n : Nat) (b : Bool) : (s.ringsWake n b).evc = s.evc := by
  rw [State.ringsWake_eq]

@[simp] theorem State.evcSync_pw (s : State) : s.evcSync.pw = s.pw := (rfl)

/-- The end of a command notes the deliverable wake sources that the power sequencer has seen (R85). -/
theorem settle_woken (s : State) : (settle s).evc.woken = s.evcSync.wakeSources := by
  show (settleEvc s).evc.woken = _
  unfold settleEvc
  dsimp only
  split
  · rfl
  · rw [State.ringsWake_evc]

/-- With no deliverable wake source the end of a command is no wake event: clocks and sleep stay (R612). -/
theorem settle_pw_of_woken_eq_zero {s : State} (h : (settle s).evc.woken = 0) : (settle s).pw = s.pw := by
  rw [settle_woken] at h
  show (settleEvc s).pw = _
  simp [settleEvc, h]

/-- EVC_CLAIM by the core itself ends in its claim (R609). -/
theorem exec_evcClaim_core {s : State} {c : Fin 2} (hissue : s.mayIssue c = true)
    (hon : s.regOn (EVC_CLAIM_WORD c).addr = true) : exec (.evcClaim c false) s = .next (settle (s.claim c false)) := by
  show execEvcClaim c false s = _
  simp [execEvcClaim, hissue, State.regAsk, hon, fin]

/-- In IDLE the edge source 6 is pending for Core A, deliverable and a wake source, and the power sequencer has not seen it
yet; PWR_WAKE_EN lets it wake the part. -/
def unseenWake : State :=
  let s := (((((State.reset.wr (EVC_SRC_CFG_MODE 6) 1).wr (EVC_SRC_CFG_TARGET 6) 1).wr (EVC_SRC_CFG_PRIO 6) 3).wr
    (EVC_SRC_CFG_WAKE 6) 1).wr (EVC_MASK_BIT 6) 0).setBit PWR_WAKE_EN_EN 3
  { pulse 6 s with pw := { s.pw with sleep := .idle } }

theorem unseenWake_claimable : (settle unseenWake).claimable 0 = some 6 := by decide +kernel

theorem exec_evcClaim_unseenWake : exec (.evcClaim 0 false) unseenWake = .next (settle (unseenWake.claim 0 false)) :=
  exec_evcClaim_core (by decide +kernel) (by decide +kernel)

/-- The claim clears the wake source after the controller has passed it on, so none is left at the command's end. -/
theorem claim_unseenWake_woken : (settle (unseenWake.claim 0 false)).evc.woken = 0 := by decide +kernel

theorem claim_unseenWake_wakes : (settle (unseenWake.claim 0 false)).pw.sleep = .active := by decide +kernel

/-- Refutes O18: the frame of EVC_CLAIM keeps clocks and sleep, but in `unseenWake` the claim of source 6 returns the CORE
clock first, since the source is a wake source not yet seen, and leaves no wake source behind (R609, R612). -/
theorem not_eventCommands : ¬ Obligations.EventCommands := by
  unfold Obligations.EventCommands
  intro h
  obtain ⟨_, _, hclaim, _⟩ := h unseenWake
  obtain ⟨_, hcore⟩ := hclaim 0 6 unseenWake_claimable
  obtain ⟨t, hexec, -, -, -, hframe⟩ := hcore (by decide +kernel) (by decide +kernel) (by decide +kernel)
  have hsettle : settle (unseenWake.claim 0 false) = settle t :=
    Host.Outcome.next.inj (exec_evcClaim_unseenWake.symm.trans hexec)
  have hkept : t.pw = unseenWake.pw := by rw [hframe]
  have hpw : (settle t).pw = unseenWake.pw :=
    (settle_pw_of_woken_eq_zero (hsettle ▸ claim_unseenWake_woken)).trans hkept
  have hidle : unseenWake.pw.sleep = .active := by rw [← hpw, ← hsettle]; exact claim_unseenWake_wakes
  exact absurd hidle (by decide)

end Sys2Proof.Machine
end

section
/-! SUPPORT. The statement TimersAndPins (chapter 14) refuted: it judges PAUSE_WFI by the interrupts pending before MTIME's
tick, while the watchdog counts after it, when the tick may have raised Core A's timer interrupt (R639, R646). -/

namespace Sys2Proof.Machine
open Sys2Proof

/-- With PD_RET on, MTIME_TICK ends in the tick of MTIME, its timers and watchdogs (R638). -/
theorem exec_mtimeTick {s : State} (hon : s.on 0 = true) : exec .mtimeTick s = .next (settle s.mtimeTick) := by
  show execMtimeTick s = _
  simp only [execMtimeTick, hon, if_true, fin]

/-- What WDT_STATUS.COUNT reads before a command's end it reads after it. -/
theorem State.rd_wdt_count_settle (s : State) (c : Fin 2) :
    (settle s).rd (WDT_STATUS_COUNT c) = s.rd (WDT_STATUS_COUNT c) :=
  s.rd_settle _ (by simp [WDT_STATUS_COUNT, PWR_WAKE_CAUSE_CAUSE]; omega)
    (by simp [WDT_STATUS_COUNT, PWR_STATE_LAST_SLEEP]; omega)

/-- Whatever state a tick of MTIME is said to end in, a watchdog's count in it is the tick's. -/
theorem State.rd_wdt_count_of_exec_mtimeTick {s t : State} (hon : s.on 0 = true)
    (hexec : exec .mtimeTick s = .next (settle t)) (c : Fin 2) :
    t.rd (WDT_STATUS_COUNT c) = s.mtimeTick.rd (WDT_STATUS_COUNT c) := by
  have hsettle : settle s.mtimeTick = settle t := Host.Outcome.next.inj ((exec_mtimeTick hon).symm.trans hexec)
  rw [← t.rd_wdt_count_settle c, ← hsettle, State.rd_wdt_count_settle]

/-- Core A stands in WFI with its timer interrupt enabled and MTIMECMP_A one tick ahead of MTIME; its watchdog is armed with
PAUSE_WFI and has 5 milliseconds left, the first of which ends with the next tick. -/
def timerAboutToWake : State :=
  let s := ((((State.reset.wr (WDT_CTRL_ARM 0) 1).wr (WDT_CTRL_PAUSE_WFI 0) 1).wr (WDT_STATUS_COUNT 0) 5).wr
    MTIMECMP_A_HI_CMP 0).wr MTIMECMP_A_LO_CMP 1000
  (s.modIo (fun i => { i with mtime := 999 })).modCore 0 (fun k => { k.setCsr 0x304 0x80 with wfi := true })

theorem timerAboutToWake_on : timerAboutToWake.on 0 = true := by decide +kernel

theorem timerAboutToWake_not_irqPending : timerAboutToWake.irqPending 0 = false := by decide +kernel

theorem timerAboutToWake_count : timerAboutToWake.rd (WDT_STATUS_COUNT (0 : Fin 2)) = 5 := by decide +kernel

/-- The tick brings MTIME to MTIMECMP_A first, so Core A's interrupt is pending and the watchdog counts. -/
theorem mtimeTick_timerAboutToWake_count :
    timerAboutToWake.mtimeTick.rd (WDT_STATUS_COUNT (0 : Fin 2)) = 4 := by decide +kernel

/-- Refutes O29: in `timerAboutToWake` Core A waits in WFI with no interrupt pending and PAUSE_WFI set, but MTIME's tick
makes its timer interrupt pending before the watchdog counts, so COUNT falls from 5 to 4 and is not held. -/
theorem not_timersAndPins : ¬ Obligations.TimersAndPins := by
  unfold Obligations.TimersAndPins
  intro h
  obtain ⟨_, hwatchdog, _⟩ := h timerAboutToWake
  obtain ⟨_, hheld⟩ := hwatchdog 0 timerAboutToWake_on (by decide) (by decide) (by decide +kernel) (by decide +kernel)
    (by decide +kernel)
  obtain ⟨t, hexec, hcount, -⟩ :=
    hheld (.inr (.inl ⟨by decide +kernel, by decide +kernel, timerAboutToWake_not_irqPending⟩))
  have htick := State.rd_wdt_count_of_exec_mtimeTick timerAboutToWake_on hexec 0
  rw [mtimeTick_timerAboutToWake_count, hcount, timerAboutToWake_count] at htick
  exact absurd htick (by decide)

end Sys2Proof.Machine
end

section
/-! SUPPORT. The statement LineCacheOperations (chapter 15) refuted: it has the drain of a whole line keep every register, but
a poisoned drain invalidates the cached copy, and where that line was streamed the outcome it counts can be the 256th, with
which the streaming detector updates (R681). -/

namespace Sys2Proof.Machine
open Sys2Proof

/-- With PD_CORE and PD_MEM running, WCB_DRAIN ends in the drain of its entry (R670). -/
theorem exec_wcbDrain {s : State} (k : Fin 16) (hcore : s.runs 1 = true) (hmem : s.runs 11 = true) :
    exec (.wcbDrain k) s = .next (settle (s.wcbDrain k)) := by
  show execWcbDrain k s = _
  simp [execWcbDrain, State.memPath, hcore, hmem, fin]

/-- The end of a command leaves the streaming detector's threshold alone. -/
theorem State.rd_stream_k_settle (s : State) : (settle s).rd LC_STREAM_STATUS_K = s.rd LC_STREAM_STATUS_K :=
  s.rd_settle _ (by decide) (by decide)

/-- Whatever state a drain is said to end in, the detector's threshold in it is the drain's. -/
theorem State.rd_stream_k_of_exec_wcbDrain {s t : State} {k : Fin 16} (hcore : s.runs 1 = true) (hmem : s.runs 11 = true)
    (hexec : exec (.wcbDrain k) s = .next (settle t)) :
    t.rd LC_STREAM_STATUS_K = (s.wcbDrain k).rd LC_STREAM_STATUS_K := by
  have hsettle : settle (s.wcbDrain k) = settle t := Host.Outcome.next.inj ((exec_wcbDrain k hcore hmem).symm.trans hexec)
  rw [← t.rd_stream_k_settle, ← hsettle, State.rd_stream_k_settle]

/-- Line 0 written whole, its bytes poisoned. -/
def poisonedEntry : Wcb :=
  { line := 0, bytes := List.replicate 64 (some (5, true)), req := 0, draining := true }

/-- `poisonedEntry` is about to drain; its line lies in a region with major counter 1 and is cached in way 0 as a streamed
line not reused yet, and the detector has counted 255 outcomes since its last update, none of them a reuse. -/
def poisonedStreamed : State :=
  let s := (((State.reset.wr LC_STATUS_INIT_DONE 1).wr LC_CTRL_ENABLE 1).wr BC_STATUS_INIT_DONE 1).setMajor 0 1
  { s with lc := {
      lines := [(0, { valid := true, strm := true, data := List.replicate 64 (5, true) })]
      wcb := [poisonedEntry]
      outcomes := 255 } }

theorem poisonedStreamed_runs_core : poisonedStreamed.runs 1 = true := by decide +kernel

theorem poisonedStreamed_runs_mem : poisonedStreamed.runs 11 = true := by decide +kernel

theorem poisonedStreamed_k : poisonedStreamed.rd LC_STREAM_STATUS_K = 8 := by decide +kernel

/-- The drain drops way 0, the 256th outcome, and the detector, which has seen no reuse, lowers its threshold (R681). -/
theorem wcbDrain_poisonedStreamed_k : (poisonedStreamed.wcbDrain (0 : Fin 16)).rd LC_STREAM_STATUS_K = 7 := by
  decide +kernel

/-- Refutes O32: the drain of a whole line is said to keep every register, but in `poisonedStreamed` the poisoned drain
invalidates the line's streamed copy, which is the 256th outcome, and the detector lowers K from 8 to 7 (R681). -/
theorem not_lineCacheOperations : ¬ Obligations.LineCacheOperations := by
  unfold Obligations.LineCacheOperations
  intro h
  obtain ⟨hdrains, _⟩ := h poisonedStreamed
  obtain ⟨hdrain, _⟩ := hdrains 0 poisonedEntry rfl
  obtain ⟨t, hexec, -, hwhole, -⟩ := hdrain rfl rfl (by decide) (by decide) (by decide +kernel) (by decide +kernel)
    (by decide +kernel) (by decide +kernel) (by decide +kernel) (by decide +kernel) poisonedStreamed_runs_core
    poisonedStreamed_runs_mem
  obtain ⟨_, hregs⟩ := hwhole (by decide)
  have hkept : t.rd LC_STREAM_STATUS_K = poisonedStreamed.rd LC_STREAM_STATUS_K := by simp only [State.rd, State.reg, hregs]
  have hdrained := State.rd_stream_k_of_exec_wcbDrain poisonedStreamed_runs_core poisonedStreamed_runs_mem hexec
  rw [wcbDrain_poisonedStreamed_k, hkept, poisonedStreamed_k] at hdrained
  exact absurd hdrained (by decide)

end Sys2Proof.Machine
end

section
/-! SUPPORT. The statement UsbFunction (chapter 20) refuted: it has a control request that the USB Block does not answer
posted for firmware, but in recovery the Boot ROM answers it as the DFU function (R140). -/

namespace Sys2Proof.Machine
open Sys2Proof

/-- In recovery a control request that the USB Block does not answer is the DFU function's (R140). -/
theorem exec_controlRequestPost_recovery {s : State} {req : Vector Byte 8} (out : List Byte) (hlive : s.fnLive = true)
    (hown : s.ownRequest req.toList = false) (hstage : s.boot.stage = .recovery) (hrun : s.runs 1 = true) :
    exec (.controlRequestPost req out) s = .next (settle (s.dfuRequest req.toList out)) := by
  show execControlRequestPost req out s = _
  simp [execControlRequestPost, State.usbCycle, State.fnRequest, hlive, hown, hstage, hrun, fin]

/-- GET_MAX_LUN, a class request that neither R884 nor R140 names. -/
def getMaxLunSetup : Vector Byte 8 := #v[0xA1, 0xFE, 0, 0, 0, 0, 1, 0]

theorem State.ownRequest_getMaxLunSetup (s : State) : s.ownRequest getMaxLunSetup.toList = false := by
  have htype : fieldB getMaxLunSetup.toList 0 1 = 0xA1 := by decide
  have hreq : fieldB getMaxLunSetup.toList 1 1 = 0xFE := by decide
  simp [State.ownRequest, htype, hreq]

/-- The DFU function, which has no request 0xFE, answers GET_MAX_LUN with STALL whoever owns recovery. -/
theorem State.dfuRequest_getMaxLunSetup (s : State) :
    s.dfuRequest getMaxLunSetup.toList [] = (s.setup getMaxLunSetup.toList).reply .stall [] := by
  have htype : fieldB getMaxLunSetup.toList 0 1 = 0xA1 := by decide
  have hreq : fieldB getMaxLunSetup.toList 1 1 = 0xFE := by decide
  simp [State.dfuRequest, htype, hreq]

/-- The host reaches the function while the Boot ROM, which PD_CORE runs, is in recovery, and ring 4 has been enabled. -/
def recoveryAttached : { s : State // s.fnLive = true ∧ s.runs 1 = true } :=
  ⟨{ (((State.reset.wr PWR_DOMAIN_STATUS_ON 0x7FFF).wr USB_CTRL_PULLUP 1).wr USB_STATUS_VBUS 1).wr (USB_PORT_STATUS 4) 3 with
    boot := { stage := .recovery }
    rings := [(4, { base := 8, consumer := 1, en := true })] }, by decide +kernel⟩

/-- Refutes O23: GET_MAX_LUN is said to be acknowledged and posted on ring 4, but in `recoveryAttached` it reaches the DFU
function of the Boot ROM, which answers STALL (R140). -/
theorem not_usbFunction : ¬ Obligations.UsbFunction := by
  unfold Obligations.UsbFunction
  intro h
  obtain ⟨hlive, hrun⟩ := recoveryAttached.property
  obtain ⟨hfn, _⟩ := h recoveryAttached
  obtain ⟨_, _, _, _, _, _, hpost, _⟩ := hfn hlive
  have hown : recoveryAttached.val.ownRequest getMaxLunSetup.toList = false := State.ownRequest_getMaxLunSetup _
  obtain ⟨t, hexec, ⟨hack, -⟩, -⟩ := hpost getMaxLunSetup hown rfl (by decide) (by decide)
  have hsettle : settle (recoveryAttached.val.dfuRequest getMaxLunSetup.toList []) = settle t :=
    Host.Outcome.next.inj ((exec_controlRequestPost_recovery [] hlive hown rfl hrun).symm.trans hexec)
  have husb : (recoveryAttached.val.dfuRequest getMaxLunSetup.toList []).usb = t.usb := by
    rw [← settle_usb, hsettle, settle_usb]
  have hstall : t.usb.answer = .stall := by rw [← husb, State.dfuRequest_getMaxLunSetup]; rfl
  exact absurd (hack.symm.trans hstall) (by decide)

end Sys2Proof.Machine
end

section
/-! SUPPORT. The statement UsbStorage (chapter 20) refuted: its frame of VENDOR_PIPE_OUT leaves out the cores' reservations,
which a write by the QM to their block ends (R626). -/

namespace Sys2Proof.Machine
open Sys2Proof

/-- The state in which the end of a vendor transfer, of `n` bytes, has been packed into a ring 5 entry (R917). -/
def State.vendorEndPosted (s : State) (n : Nat) : State :=
  let d := State.epBytes 5 s.usb.ep[(5 : Fin 7)].lo n s
  ((d.2.push 5 ((BitVec.ofNat 8 n, false) :: (1, false) :: d.1)).epTake 5 n).modUsb
    (fun u => { u with pkts := dropBytes n u.pkts })

/-- With a transfer's end in EP5's buffer and room on ring 5, VENDOR_PIPE_OUT posts it. -/
theorem exec_vendorPipeOut_end {s : State} {n : Nat} (havail : transferAvail s.usb.pkts = (n, true)) (hn : n ≤ 30)
    (htest : s.enqTest 5 = .ok) : exec .vendorPipeOut s = .next (settle (s.vendorEndPosted n)) := by
  show execVendorPipeOut s = _
  simp [execVendorPipeOut, State.vendorEndPosted, havail, hn, htest, fin]

/-- A zero-length packet ends a vendor transfer, ring 5 has room, and Core A holds a reservation on the block of the ring's
next entry, as CORE_LR at 0x2000_0200 sets it (R625, R626). -/
def reservedVendorSlot : State :=
  { State.reset.wr PWR_DOMAIN_STATUS_ON 0x7FFF with
    rings := [(5, { base := 8, consumer := 1, en := true })]
    usb := { pkts := [(0, true)] } }.reserve 0 0x20000200

/-- The posted entry ends the reservation, and wakes nothing. -/
theorem reservedVendorSlot_posted : (reservedVendorSlot.vendorEndPosted 0).awake = true
    ∧ (reservedVendorSlot.vendorEndPosted 0).core[0].resv = none := by decide +kernel

/-- Refutes O24: the frame of VENDOR_PIPE_OUT keeps the cores, but in `reservedVendorSlot` the entry posted on ring 5 ends
Core A's reservation on the entry's block (R626). -/
theorem not_usbStorage : ¬ Obligations.UsbStorage := by
  unfold Obligations.UsbStorage
  intro h
  obtain ⟨hposted, hended⟩ := reservedVendorSlot_posted
  obtain ⟨_, _, _, _, _, _, _, _, _, _, hout, _⟩ := h reservedVendorSlot
  obtain ⟨t, hexec, -, -, -, -, hframe⟩ := hout (.inl (by decide)) (by decide) (by decide) (by decide)
  have hsettle : settle (reservedVendorSlot.vendorEndPosted 0) = settle t :=
    Host.Outcome.next.inj ((exec_vendorPipeOut_end (by decide) (by decide) (by decide)).symm.trans hexec)
  have hawake : t.awake = true := by rw [hframe]; rfl
  have hkept : t.core = reservedVendorSlot.core := by rw [hframe]; rfl
  have hcore : (reservedVendorSlot.vendorEndPosted 0).core = reservedVendorSlot.core :=
    (core_eq_of_settle_eq hposted hawake hsettle).trans hkept
  have hheld : reservedVendorSlot.core[0].resv = none := by rw [← hcore]; exact hended
  exact absurd hheld (by decide)

end Sys2Proof.Machine
end

section
/-! SUPPORT. The statement ScsiThroughQueue (chapter 20) refuted: it has Otivo's finish of a HELD context end as MSE_FINISH
ends as a command of its own, but the command around that finish still runs, and until it ends the store to MRAM of the
command before remains the one that loss of supply may interrupt (R630). -/

namespace Sys2Proof.Machine
open Sys2Proof

/-- MSE_FINISH of a HELD context sends its status (R909). -/
theorem exec_mseFinish_held {s : State} {v : Word} (hon : s.regOn USB_MSE_FINISH_WORD.addr = true)
    (hheld : s.ctxState (Fin.ofNat 16 (getF v 0 4)) = 4) : exec (.mseFinish v) s = .next (settle
      (s.sendStatus (Fin.ofNat 16 (getF v 0 4)) (s.reg USB_MSE_SENSE_WORD.addr).toNat).usbDone) := by
  show execMseFinish v s = _
  simp only [execMseFinish, State.regCmd, State.regCmdBy, hon, if_true, fin]
  exact congrArg (fun x => Host.Outcome.next (settle x)) (if_pos hheld)

/-- Otivo runs, context 0 is HELD with a READ(10) whose completion had STATUS 0x22, and the command before has stored a byte
to MRAM. -/
def heldRead : State :=
  { ((State.reset.wr PWR_DOMAIN_STATUS_ON 0x7FFF).wr (USB_MSE_CTX_STATE 0) 4).wr (USB_MSE_CTX_OCS_STATUS 0) 0x22 with
    boot := { stage := .firmware }
    ot := { started := true }
    usb := { ctx := Vector.replicate 16 { cmd := zerosB 15 ++ [0x28] ++ zerosB 16 } }
    mram := { last := some (0x10000000, [(0, 0)]) } }

/-- `heldRead` with the sense of that status kept and written to USB_MSE_SENSE. -/
def heldReadSensed : State := (heldRead.keepSense (heldRead.lun 0) 0x02031100).fieldWrite USB_MSE_SENSE_WORD 0x02031100

/-- `heldReadSensed` once MSE_FINISH has run as a command. -/
def heldReadFinished : State :=
  settle (heldReadSensed.sendStatus 0 (heldReadSensed.reg USB_MSE_SENSE_WORD.addr).toNat).usbDone

theorem exec_mseFinish_heldReadSensed : exec (.mseFinish 0) heldReadSensed = .next heldReadFinished :=
  exec_mseFinish_held (by decide +kernel) (by decide +kernel)

/-- No later context is HELD, and MSE_FINISH has ended with no store to MRAM of its own. -/
theorem heldReadFinished_noneHeld : (∀ d : Fin 16, 0 < d → heldReadFinished.ctxState d ≠ 4)
    ∧ heldReadFinished.mram.last = none := by decide +kernel

theorem finishHeld_heldRead_mram_last :
    (heldRead.finishHeld [0x28, 0x88]).mram.last = some (0x10000000, [(0, 0)]) := by decide +kernel

/-- Refutes O52: the finish of `heldRead`'s HELD context by SCSI_READ is said to leave the state that MSE_FINISH ends in,
which holds no store to MRAM before it, but SCSI_READ has not ended and still holds the one it found (R630). -/
theorem not_scsiThroughQueue : ¬ Obligations.ScsiThroughQueue := by
  unfold Obligations.ScsiThroughQueue
  intro h
  obtain ⟨hlater, hnone⟩ := heldReadFinished_noneHeld
  obtain ⟨hrows, _⟩ := h heldRead
  obtain ⟨_, _, _, hfinish⟩ := hrows .scsiRead [0x28, 0x88] rfl
  obtain ⟨t, hexec, hheld⟩ := hfinish 0 (by decide +kernel) (by decide +kernel) (by decide)
  have ht : heldReadFinished = t := Host.Outcome.next.inj (exec_mseFinish_heldReadSensed.symm.trans hexec)
  have hsame : heldRead.finishHeld [0x28, 0x88] = heldReadFinished := by
    rw [ht]
    exact hheld (ht ▸ hlater)
  have hlast := finishHeld_heldRead_mram_last
  rw [hsame, hnone] at hlast
  exact absurd hlast (by decide)

end Sys2Proof.Machine
end
